-- ==== Sys2Proof/Word.lean ====
section
/-! DEFINITION. The word types of the model: bytes and the widths of the register maps and command packets (R10, R17). -/
namespace Sys2Proof

/-- One byte of any memory, packet or register. -/
abbrev Byte := BitVec 8
/-- A 32-bit register or field. -/
abbrev W32 := BitVec 32
/-- A 64-bit register or field. -/
abbrev W64 := BitVec 64
/-- A device physical or partition address while it is computed (R396). -/
abbrev Addr := Nat

end Sys2Proof
end

