-- ==== Sys2Proof/Syntax.lean ====
section
/-! DEFINITION. The commands of the block: one constructor of `Instr` for every row of the opcode table. A command packet
carries the header of R485 and its parameter table; every other row carries the operands of the event it stands for. -/
namespace Sys2Proof

/-- A unit that can wait on an eyelet or a lace (R353). -/
inductive UnitId where
  | stream (core : Fin 16) (stream : Fin 3)
  | awl (core : Fin 16) (awl : Fin 4)
  | ctl (die : Fin 2) (core : Fin 4)
  | context (n : BitVec 17) (part : BitVec 5) (seq : BitVec 32)
deriving DecidableEq, Repr

/-- Who reads or writes a register (R248, R385, R478). -/
inductive Agent where
  | hostMgmt
  | hostPage (page : Fin 17)
  | ctl (die : Fin 2) (core : Fin 4)
  | sup
  | awl (core : Fin 16) (awl : Fin 4)
deriving DecidableEq, Repr

/-- Who accesses an eyelet or lace window (R362). -/
inductive WinUser where
  | awl (core : Fin 16) (awl : Fin 4)
  | ctl (die : Fin 2) (core : Fin 4)
deriving DecidableEq, Repr

/-- Four small cores side by side: the Awl cores of a logical core, or the control cores of a die (R259, R353). -/
inductive Cluster where
  | awl (core : Fin 16)
  | ctl (die : Fin 2)
deriving DecidableEq, Repr

/-- The core of a cluster that accesses a window. -/
def Cluster.user (g : Cluster) (n : Fin 4) : WinUser :=
  match g with
  | .awl c => .awl c n
  | .ctl d => .ctl d n

/-- The cluster that a window's user belongs to. -/
def WinUser.cluster : WinUser → Cluster
  | .awl c _ => .awl c
  | .ctl d _ => .ctl d

/-- The number of a window's user in its cluster. -/
def WinUser.number : WinUser → Fin 4
  | .awl _ a => a
  | .ctl _ k => k

/-- A target's registers in a Bittern controller (R391). -/
structure BtnPlace where
  ctrl   : Fin 3
  target : BitVec 6
deriving DecidableEq, Repr

/-- A management interface of R545. -/
inductive MgmtIface where
  | i3c
  | ethernet
deriving DecidableEq, Repr

/-- The path on which a command packet reaches the command interpreter (R485, R488, R494, R545). -/
inductive Via where
  | ring (page : Fin 17) (ring : Fin 16) (link : Nat)
  | slot (page : Fin 17) (slot : Fin 16) (link : Nat)
  | fabric (src : BitVec 16) (spart dpart : BitVec 4)
  | awl (core : Fin 16) (awl : Fin 4) (stream : Fin 3)
  | mgmt (iface : MgmtIface)
  | device (part : Fin 16)
deriving DecidableEq, Repr

/-- What meets a command while it runs, in order of time: the physical upsets of R402, R416, R418 and R614, and the places where
the next happening of the queue comes before the command has ended: once it has done that many of its resume units (R278). -/
inductive Upset where
  | residue (engine : BitVec 8) (again : Bool)
  | eccCorrected (addr : BitVec 48)
  | sectorFails (addr : BitVec 48)
  | crcRetry (addr : BitVec 48)
  | yields (units : BitVec 32)
deriving DecidableEq, Repr

/-- The 64-byte header of a command packet (R485). `tail` holds the parameter bytes beyond the command's own table,
`objs` the objects that follow a packet in a management frame (R545), and `upsets` what meets the
command while it runs; a command that the device fetches itself meets nothing. -/
structure Hdr where
  via        : Via
  flags      : BitVec 16
  context    : BitVec 32
  seq        : BitVec 32
  plen       : BitVec 16
  ring       : BitVec 8
  rsvdA      : BitVec 8
  replyAddr  : BitVec 64
  resultAddr : BitVec 64
  signal     : BitVec 32
  timeout    : BitVec 32
  rsvdB      : BitVec 192
  tail       : List Byte
  objs       : List Byte
  upsets     : List Upset
deriving DecidableEq, Repr

/-- Parameters of CTX_OPEN (R491). -/
structure CtxOpenP where
  context : BitVec 32
  kind : BitVec 8
  core : BitVec 8
  stream : BitVec 8
  cls : BitVec 8
  peer : BitVec 16
  peerPart : BitVec 8
  rsvdA : BitVec 8
  peerCtx : BitVec 32
  buf : BitVec 64
  bufBytes : BitVec 64
  eyelet : BitVec 32
  rsvdB : BitVec 32
deriving DecidableEq, Repr

/-- Parameters of CTX_CLOSE (R492). -/
structure CtxCloseP where
  context : BitVec 32
  rsvdA : BitVec 32
deriving DecidableEq, Repr

/-- Parameters of RESULT_POOL (R495). -/
structure ResultPoolP where
  base : BitVec 64
  count : BitVec 32
  rsvdA : BitVec 32
deriving DecidableEq, Repr

/-- Parameters of JOB_START (R291). -/
structure JobStartP where
  jobRec : BitVec 64
  rsvdA : BitVec 64
deriving DecidableEq, Repr

/-- Parameters of JOB_CTL (R293). -/
structure JobCtlP where
  job : BitVec 32
  op : BitVec 8
  rsvdA : BitVec 24
  step : BitVec 64
deriving DecidableEq, Repr

/-- Parameters of CKPT_FETCH (R311). -/
structure CkptFetchP where
  peer : BitVec 16
  slot : BitVec 8
  rsvdA : BitVec 8
  job : BitVec 32
  step : BitVec 64
  dst : BitVec 64
  dstBytes : BitVec 64
  context : BitVec 32
  rsvdB : BitVec 32
deriving DecidableEq, Repr

/-- Parameters of FABRIC_ROUTE (R443). -/
structure FabricRouteP where
  table : BitVec 8
  rsvdA : BitVec 8
  first : BitVec 16
  count : BitVec 16
  rsvdB : BitVec 16
  list : BitVec 64
deriving DecidableEq, Repr

/-- Parameters of FABRIC_ADDR (R443). -/
structure FabricAddrP where
  addr : BitVec 16
  ctl : BitVec 8
  rsvdA : BitVec 40
deriving DecidableEq, Repr

/-- Parameters of FABRIC_DEPART (R453). -/
structure FabricDepartP where
  drainLimit : BitVec 32
  rsvdA : BitVec 32
deriving DecidableEq, Repr

/-- Parameters of FABRIC_DISCOVER (R443). -/
structure FabricDiscoverP where
  addr : BitVec 16
  part : BitVec 8
  rsvdA : BitVec 40
deriving DecidableEq, Repr

/-- Parameters of MEM_FILL (R502). -/
structure MemFillP where
  dstDesc : BitVec 64
deriving DecidableEq, Repr

/-- Parameters of MEM_ATOMIC (R502). -/
structure MemAtomicP where
  addr : BitVec 64
  op : BitVec 8
  width : BitVec 8
  rsvdA : BitVec 48
  operand : BitVec 64
  compare : BitVec 64
deriving DecidableEq, Repr

/-- Parameters of HOST_COPY (R504). -/
structure HostCopyP where
  hostAddr : BitVec 64
  desc : BitVec 64
  dir : BitVec 8
  rsvdA : BitVec 56
deriving DecidableEq, Repr

/-- Parameters of HOST_RANGE (R503). -/
structure HostRangeP where
  part : BitVec 8
  index : BitVec 8
  flags : BitVec 8
  rsvdA : BitVec 40
  base : BitVec 64
  bytes : BitVec 64
deriving DecidableEq, Repr

/-- Parameters of COPY (R236). -/
structure CopyP where
  srcDesc : BitVec 64
  dstDesc : BitVec 64
  ctl : BitVec 8
  rsvdA : BitVec 56
deriving DecidableEq, Repr

/-- Parameters of GATHER (R237). -/
structure GatherP where
  srcDesc : BitVec 64
  idxDesc : BitVec 64
  dstDesc : BitVec 64
  axis : BitVec 8
  ctl : BitVec 8
  rsvdA : BitVec 48
deriving DecidableEq, Repr

/-- Parameters of SCATTER (R238). -/
structure ScatterP where
  srcDesc : BitVec 64
  idxDesc : BitVec 64
  dstDesc : BitVec 64
  axis : BitVec 8
  ctl : BitVec 8
  rsvdA : BitVec 48
deriving DecidableEq, Repr

/-- Parameters of DESC_CHECK (R239). -/
structure DescCheckP where
  desc : BitVec 64
  role : BitVec 8
  rsvdA : BitVec 56
deriving DecidableEq, Repr

/-- Parameters of FLOW_SEND (R505). -/
structure FlowSendP where
  context : BitVec 32
  rsvdA : BitVec 32
  srcDesc : BitVec 64
  offset : BitVec 64
deriving DecidableEq, Repr

/-- Parameters of GEMM (R102). -/
structure GemmP where
  aDesc : BitVec 64
  bDesc : BitVec 64
  cDesc : BitVec 64
  ctl : BitVec 16
  accRow : BitVec 16
  rsvdA : BitVec 32
deriving DecidableEq, Repr

/-- Parameters of SPMM (R147). -/
structure SpmmP where
  aDesc : BitVec 64
  sDesc : BitVec 64
  cDesc : BitVec 64
  ctl : BitVec 16
  accRow : BitVec 16
  rsvdA : BitVec 32
  selAddr : BitVec 64
  fenDesc : BitVec 64
deriving DecidableEq, Repr

/-- Parameters of SPMM_T (R151). -/
structure SpmmTP where
  aDesc : BitVec 64
  sDesc : BitVec 64
  cDesc : BitVec 64
  ctl : BitVec 16
  accRow : BitVec 16
  rsvdA : BitVec 32
  selAddr : BitVec 64
  fenDesc : BitVec 64
deriving DecidableEq, Repr

/-- Parameters of SOUNDING (R161). -/
structure SoundingP where
  aShadow : BitVec 64
  bShadow : BitVec 64
  bitmap : BitVec 64
  estDesc : BitVec 64
  threshold : BitVec 64
  ctl : BitVec 16
  slot : BitVec 8
  keep : BitVec 8
  rsvdA : BitVec 32
deriving DecidableEq, Repr

/-- Parameters of FEN_MERGE (R177). -/
structure FenMergeP where
  tableDesc : BitVec 64
  dstDesc : BitVec 64
  mode : BitVec 8
  rsvdA : BitVec 56
deriving DecidableEq, Repr

/-- Parameters of TOPK (R188). -/
structure TopkP where
  srcDesc : BitVec 64
  valDesc : BitVec 64
  posDesc : BitVec 64
  maskAddr : BitVec 64
  k : BitVec 8
  ctl : BitVec 8
  rsvdA : BitVec 48
deriving DecidableEq, Repr

/-- Parameters of OPT_UPDATE (R304). -/
structure OptUpdateP where
  gradDesc : BitVec 64
  masterDesc : BitVec 64
  mDesc : BitVec 64
  vDesc : BitVec 64
  outDesc : BitVec 64
  maskAddr : BitVec 64
  scaleAddr : BitVec 64
  lr : BitVec 32
  betaOne : BitVec 32
  betaTwo : BitVec 32
  eps : BitVec 32
  wd : BitVec 32
  algo : BitVec 8
  ctl : BitVec 8
  mcast : BitVec 16
  t : BitVec 64
  rsvdA : BitVec 64
deriving DecidableEq, Repr

/-- Parameters of FEN_SCATTER (R183). -/
structure FenScatterP where
  fenDesc : BitVec 64
  keyDesc : BitVec 64
  valDesc : BitVec 64
  ctl : BitVec 8
  rsvdA : BitVec 56
deriving DecidableEq, Repr

/-- Parameters of COMPRESS (R136). -/
structure CompressP where
  srcDesc : BitVec 64
  dstDesc : BitVec 64
  mode : BitVec 8
  rsvdA : BitVec 56
deriving DecidableEq, Repr

/-- Parameters of PRUNE (R196). -/
structure PruneP where
  record : BitVec 64
  wDesc : BitVec 64
  k : BitVec 32
  scope : BitVec 8
  groupLog : BitVec 8
  ctl : BitVec 8
  rsvdA : BitVec 72
deriving DecidableEq, Repr

/-- Parameters of REGROW (R199). -/
structure RegrowP where
  record : BitVec 64
  estDesc : BitVec 64
  rowsDesc : BitVec 64
  k : BitVec 32
  scope : BitVec 8
  groupLog : BitVec 8
  capLog : BitVec 8
  cap : BitVec 8
  ctl : BitVec 8
  rsvdA : BitVec 56
deriving DecidableEq, Repr

/-- Parameters of REMASK (R206). -/
structure RemaskP where
  record : BitVec 64
  entryAddr : BitVec 64
  entryCount : BitVec 8
  ctl : BitVec 8
  shard : BitVec 16
  job : BitVec 32
  effStep : BitVec 64
  root : BitVec 16
  voters : BitVec 16
  mcast : BitVec 16
  timeout : BitVec 16
  doneEyelet : BitVec 32
  rsvdA : BitVec 32
deriving DecidableEq, Repr

/-- Parameters of MASK_VOTE (R208). -/
structure MaskVoteP where
  job : BitVec 32
  shard : BitVec 16
  vote : BitVec 8
  rsvdA : BitVec 8
  newEpoch : BitVec 64
  effStep : BitVec 64
  voters : BitVec 16
  mcast : BitVec 16
  timeout : BitVec 16
  rsvdB : BitVec 16
deriving DecidableEq, Repr

/-- Parameters of MASK_DECIDE (R209). -/
structure MaskDecideP where
  job : BitVec 32
  decision : BitVec 8
  rsvdA : BitVec 24
  newEpoch : BitVec 64
  effStep : BitVec 64
deriving DecidableEq, Repr

/-- Parameters of REDUCE_SETUP (R322). -/
structure ReduceSetupP where
  plan : BitVec 64
  op : BitVec 8
  rsvdA : BitVec 56
deriving DecidableEq, Repr

/-- Parameters of REDUCE_TARGET (R324). -/
structure ReduceTargetP where
  job : BitVec 32
  bucket : BitVec 16
  rsvdA : BitVec 16
  baseElem : BitVec 32
  rowPitch : BitVec 32
  stageAddr : BitVec 64
deriving DecidableEq, Repr

/-- Parameters of REDUCE_CONTRIB (R327). -/
structure ReduceContribP where
  job : BitVec 32
  bucket : BitVec 16
  ctl : BitVec 8
  rsvdA : BitVec 8
  baseElem : BitVec 32
  rsvdB : BitVec 32
  srcDesc : BitVec 64
deriving DecidableEq, Repr

/-- Parameters of REDUCE_WAIT (R335). -/
structure ReduceWaitP where
  job : BitVec 32
  bucket : BitVec 16
  rsvdA : BitVec 16
  step : BitVec 64
deriving DecidableEq, Repr

/-- Parameters of REDUCE_RELEASE (R336). -/
structure ReduceReleaseP where
  job : BitVec 32
  bucket : BitVec 16
  rsvdA : BitVec 16
deriving DecidableEq, Repr

/-- Parameters of REDUCE_EXCLUDE (R340). -/
structure ReduceExcludeP where
  job : BitVec 32
  bucket : BitVec 16
  rsvdA : BitVec 16
  step : BitVec 64
deriving DecidableEq, Repr

/-- Parameters of PARAM_MCAST (R344). -/
structure ParamMcastP where
  srcDesc : BitVec 64
  dist : BitVec 64
  mcast : BitVec 16
  ctl : BitVec 8
  rsvdA : BitVec 40
  step : BitVec 64
deriving DecidableEq, Repr

/-- Parameters of EYELET_INIT (R361). -/
structure EyeletInitP where
  eyelet : BitVec 32
  mode : BitVec 8
  rsvdA : BitVec 24
  count : BitVec 32
deriving DecidableEq, Repr

/-- Parameters of EYELET_WAIT (R361). -/
structure EyeletWaitP where
  eyelet : BitVec 32
  n : BitVec 16
  ctl : BitVec 8
  rsvdA : BitVec 8
deriving DecidableEq, Repr

/-- Parameters of EYELET_SIGNAL (R361). -/
structure EyeletSignalP where
  eyelet : BitVec 32
  op : BitVec 8
  rsvdA : BitVec 24
  k : BitVec 32
deriving DecidableEq, Repr

/-- Parameters of EYELET_READ (R361). -/
structure EyeletReadP where
  eyelet : BitVec 32
  rsvdA : BitVec 32
deriving DecidableEq, Repr

/-- Parameters of LACE_INIT (R368). -/
structure LaceInitP where
  lace : BitVec 16
  scope : BitVec 8
  rsvdA : BitVec 8
  expected : BitVec 16
  root : BitVec 16
  mcast : BitVec 16
  rsvdB : BitVec 16
  devices : BitVec 32
  rootMap : BitVec 64
  start : BitVec 64
deriving DecidableEq, Repr

/-- Parameters of LACE_ARRIVE (R364). -/
structure LaceArriveP where
  lace : BitVec 16
  ctl : BitVec 8
  rsvdA : BitVec 40
  gen : BitVec 64
deriving DecidableEq, Repr

/-- Parameters of LACE_WAIT (R367). -/
structure LaceWaitP where
  lace : BitVec 16
  rsvdA : BitVec 48
  gen : BitVec 64
deriving DecidableEq, Repr

/-- Parameters of LACE_READ (R368). -/
structure LaceReadP where
  lace : BitVec 16
  rsvdA : BitVec 48
deriving DecidableEq, Repr

/-- Parameters of LACE_REMOTE_ARRIVE (R365). -/
structure LaceRemoteArriveP where
  lace : BitVec 16
  rsvdA : BitVec 48
  gen : BitVec 64
deriving DecidableEq, Repr

/-- Parameters of LACE_RELEASE (R365). -/
structure LaceReleaseP where
  lace : BitVec 16
  rsvdA : BitVec 48
  gen : BitVec 64
deriving DecidableEq, Repr

/-- Parameters of TALLY_INIT (R275). -/
structure TallyInitP where
  tally : BitVec 32
  limit : BitVec 32
  doneBase : BitVec 64
deriving DecidableEq, Repr

/-- Parameters of TALLY_CLAIM (R272). -/
structure TallyClaimP where
  tally : BitVec 32
  count : BitVec 16
  rsvdA : BitVec 16
deriving DecidableEq, Repr

/-- Parameters of TALLY_COMMIT (R276). -/
structure TallyCommitP where
  tally : BitVec 32
  rsvdA : BitVec 32
  claim : BitVec 64
  srcDesc : BitVec 64
  dstDesc : BitVec 64
deriving DecidableEq, Repr

/-- Parameters of TALLY_RESET (R277). -/
structure TallyResetP where
  tally : BitVec 32
  expect : BitVec 32
deriving DecidableEq, Repr

/-- Parameters of SYNC_CONFIG (R371). -/
structure SyncConfigP where
  mode : BitVec 8
  rsvdA : BitVec 56
  dumpBase : BitVec 64
  dumpBytes : BitVec 64
  dumpTimeout : BitVec 32
  rsvdB : BitVec 32
deriving DecidableEq, Repr

/-- Parameters of SYNC_DUMP (R374). -/
structure SyncDumpP where
  rsvdA : BitVec 64
deriving DecidableEq, Repr

/-- Parameters of PART_BIND (R516). -/
structure PartBindP where
  part : BitVec 8
  scratchMib : BitVec 8
  cores : BitVec 16
  mire : BitVec 32
  hbm : BitVec 128
  ports : BitVec 32
  farCount : BitVec 8
  rsvdA : BitVec 24
  ctxBase : BitVec 32
  ctxCount : BitVec 32
  tenant : BitVec 64
  rsvdB : BitVec 128
  farList : BitVec 64
deriving DecidableEq, Repr

/-- Parameters of PART_UNBIND (R521). -/
structure PartUnbindP where
  part : BitVec 8
  rsvdA : BitVec 56
deriving DecidableEq, Repr

/-- Parameters of PART_REBIND (R521). -/
structure PartRebindP where
  part : BitVec 8
  rsvdA : BitVec 56
  tenant : BitVec 64
deriving DecidableEq, Repr

/-- Parameters of PART_QUERY (R547). -/
structure PartQueryP where
  part : BitVec 8
  rsvdA : BitVec 56
deriving DecidableEq, Repr

/-- Parameters of ATTEST (R539). -/
structure AttestP where
  op : BitVec 8
  part : BitVec 8
  rsvdA : BitVec 48
  nonce : BitVec 256
deriving DecidableEq, Repr

/-- Parameters of SESSION_AGREE (R542). -/
structure SessionAgreeP where
  ekAddr : BitVec 64
  nonce : BitVec 256
deriving DecidableEq, Repr

/-- Parameters of FW_STAGE (R535). -/
structure FwStageP where
  image : BitVec 8
  rsvdA : BitVec 56
  src : BitVec 64
  bytes : BitVec 64
deriving DecidableEq, Repr

/-- Parameters of FW_ACTIVATE (R536). -/
structure FwActivateP where
  images : BitVec 8
  when : BitVec 8
  rsvdA : BitVec 48
deriving DecidableEq, Repr

/-- Parameters of CONFIG_WRITE (R537). -/
structure ConfigWriteP where
  op : BitVec 8
  rsvdA : BitVec 24
  bytes : BitVec 32
  src : BitVec 64
deriving DecidableEq, Repr

/-- Parameters of CORE_MIGRATE (R283). -/
structure CoreMigrateP where
  logical : BitVec 8
  ctl : BitVec 8
  rsvdA : BitVec 16
  waitLimit : BitVec 32
  rsvdB : BitVec 64
deriving DecidableEq, Repr

/-- Parameters of TEST_RUN (R623). -/
structure TestRunP where
  core : BitVec 8
  ctl : BitVec 8
  rsvdA : BitVec 16
  packId : BitVec 32
  testMask : BitVec 64
  defer : BitVec 32
  rsvdB : BitVec 32
deriving DecidableEq, Repr

/-- Parameters of TEST_PACK_LOAD (R630). -/
structure TestPackLoadP where
  op : BitVec 8
  rsvdA : BitVec 24
  packId : BitVec 32
  src : BitVec 64
  bytes : BitVec 64
deriving DecidableEq, Repr

/-- Parameters of FAULT_READ (R634). -/
structure FaultReadP where
  op : BitVec 8
  rsvdA : BitVec 56
  seq : BitVec 64
deriving DecidableEq, Repr

/-- Parameters of COUNTER_READ (R635). -/
structure CounterReadP where
  core : BitVec 8
  ctl : BitVec 8
  rsvdA : BitVec 48
deriving DecidableEq, Repr

/-- Parameters of MI_IDENT (R571). -/
structure MiIdentP where
  rsvdA : BitVec 64
deriving DecidableEq, Repr

/-- Parameters of MI_READ (R572). -/
structure MiReadP where
  rsvdA : BitVec 64
deriving DecidableEq, Repr

/-- Parameters of MI_SESSION_OPEN (R573). -/
structure MiSessionOpenP where
  part : BitVec 8
  rsvdA : BitVec 56
deriving DecidableEq, Repr

/-- Parameters of MI_SESSION_CLOSE (R573). -/
structure MiSessionCloseP where
  part : BitVec 8
  ctl : BitVec 8
  rsvdA : BitVec 48
deriving DecidableEq, Repr

/-- Parameters of MI_RECORD_GET (R574). -/
structure MiRecordGetP where
  recordNo : BitVec 64
  op : BitVec 8
  rsvdA : BitVec 56
deriving DecidableEq, Repr

/-- The commands of the block, one constructor per row of the opcode table, in the table's order. -/
inductive Instr where
  | nop (h : Hdr)
  | ctxOpen (h : Hdr) (p : CtxOpenP)
  | ctxClose (h : Hdr) (p : CtxCloseP)
  | resultPool (h : Hdr) (p : ResultPoolP)
  | jobStart (h : Hdr) (p : JobStartP)
  | jobCtl (h : Hdr) (p : JobCtlP)
  /-- R293: every stream of the stopped job's stage cores is idle, waiting or out. -/
  | jobStopAwlReset (part : Fin 16)
  | ckptFetch (h : Hdr) (p : CkptFetchP)
  | fabricRoute (h : Hdr) (p : FabricRouteP)
  | fabricAddr (h : Hdr) (p : FabricAddrP)
  | fabricDepart (h : Hdr) (p : FabricDepartP)
  | fabricDiscover (h : Hdr) (p : FabricDiscoverP)
  | memFill (h : Hdr) (p : MemFillP)
  | memAtomic (h : Hdr) (p : MemAtomicP)
  | hostCopy (h : Hdr) (p : HostCopyP)
  | hostRange (h : Hdr) (p : HostRangeP)
  | copy (h : Hdr) (p : CopyP)
  | gather (h : Hdr) (p : GatherP)
  | scatter (h : Hdr) (p : ScatterP)
  | descCheck (h : Hdr) (p : DescCheckP)
  | flowSend (h : Hdr) (p : FlowSendP)
  | gemm (h : Hdr) (p : GemmP)
  | spmm (h : Hdr) (p : SpmmP)
  | spmmT (h : Hdr) (p : SpmmTP)
  | sounding (h : Hdr) (p : SoundingP)
  | fenMerge (h : Hdr) (p : FenMergeP)
  | topk (h : Hdr) (p : TopkP)
  | optUpdate (h : Hdr) (p : OptUpdateP)
  | fenScatter (h : Hdr) (p : FenScatterP)
  | compress (h : Hdr) (p : CompressP)
  | prune (h : Hdr) (p : PruneP)
  | regrow (h : Hdr) (p : RegrowP)
  | remask (h : Hdr) (p : RemaskP)
  | maskVote (h : Hdr) (p : MaskVoteP)
  | maskDecide (h : Hdr) (p : MaskDecideP)
  /-- R211: a decided epoch of the job takes effect. -/
  | maskEpochCommit (part : Fin 16) (job : BitVec 32)
  /-- R211: an aborted epoch of the job is dropped. -/
  | maskEpochAbort (part : Fin 16) (job : BitVec 32)
  /-- R210: the undecided timer of the job's pending epoch expires. -/
  | maskEpochUndecided (part : Fin 16) (job : BitVec 32)
  /-- R208: the root's vote timer expires. -/
  | epochVoteTimeout (job : BitVec 32) (newEpoch : BitVec 64)
  | reduceSetup (h : Hdr) (p : ReduceSetupP)
  | reduceTarget (h : Hdr) (p : ReduceTargetP)
  | reduceContrib (h : Hdr) (p : ReduceContribP)
  | reduceWait (h : Hdr) (p : ReduceWaitP)
  | reduceRelease (h : Hdr) (p : ReduceReleaseP)
  | reduceExclude (h : Hdr) (p : ReduceExcludeP)
  /-- R339: the root's timer of the bucket's open reduction expires. -/
  | reductionRootTimeout (part : Fin 16) (bucket : BitVec 16)
  | paramMcast (h : Hdr) (p : ParamMcastP)
  | eyeletInit (h : Hdr) (p : EyeletInitP)
  | eyeletWait (h : Hdr) (p : EyeletWaitP)
  | eyeletSignal (h : Hdr) (p : EyeletSignalP)
  | eyeletRead (h : Hdr) (p : EyeletReadP)
  /-- R355: the retry of a woken waiter reaches the eyelet's home slice. -/
  | eyeletRetry (eyelet : BitVec 14) (unit : UnitId)
  | laceInit (h : Hdr) (p : LaceInitP)
  | laceArrive (h : Hdr) (p : LaceArriveP)
  | laceWait (h : Hdr) (p : LaceWaitP)
  | laceRead (h : Hdr) (p : LaceReadP)
  | laceRemoteArrive (h : Hdr) (p : LaceRemoteArriveP)
  | laceRelease (h : Hdr) (p : LaceReleaseP)
  | tallyInit (h : Hdr) (p : TallyInitP)
  | tallyClaim (h : Hdr) (p : TallyClaimP)
  | tallyCommit (h : Hdr) (p : TallyCommitP)
  | tallyReset (h : Hdr) (p : TallyResetP)
  | syncConfig (h : Hdr) (p : SyncConfigP)
  | syncDump (h : Hdr) (p : SyncDumpP)
  /-- R370: a wait of the unit has lasted longer than DUMP_TIMEOUT. -/
  | dumpTimeout (part : Fin 16) (unit : UnitId)
  /-- R373: the Quag watch of the partition reaches 2^20 reference cycles. -/
  | quagFire (part : Fin 16)
  | partBind (h : Hdr) (p : PartBindP)
  | partUnbind (h : Hdr) (p : PartUnbindP)
  | partRebind (h : Hdr) (p : PartRebindP)
  | partQuery (h : Hdr) (p : PartQueryP)
  | attest (h : Hdr) (p : AttestP)
  | sessionAgree (h : Hdr) (p : SessionAgreeP)
  | fwStage (h : Hdr) (p : FwStageP)
  | fwActivate (h : Hdr) (p : FwActivateP)
  | configWrite (h : Hdr) (p : ConfigWriteP)
  | coreMigrate (h : Hdr) (p : CoreMigrateP)
  | testRun (h : Hdr) (p : TestRunP)
  | testPackLoad (h : Hdr) (p : TestPackLoadP)
  | faultRead (h : Hdr) (p : FaultReadP)
  | counterRead (h : Hdr) (p : CounterReadP)
  | miIdent (h : Hdr) (p : MiIdentP)
  | miRead (h : Hdr) (p : MiReadP)
  | miSessionOpen (h : Hdr) (p : MiSessionOpenP)
  | miSessionClose (h : Hdr) (p : MiSessionCloseP)
  | miRecordGet (h : Hdr) (p : MiRecordGetP)
  /-- R97: a save of the stream's accumulator region is written to SOLE_ACC_CMD. -/
  | soleAccSave (core : Fin 16) (stream : Fin 3) (addr : BitVec 48)
  /-- R99: a restore is written to SOLE_ACC_CMD. -/
  | soleAccRestore (core : Fin 16) (stream : Fin 3) (addr : BitVec 48)
  /-- R107: a clear is written to SOLE_ACC_CMD. -/
  | soleAccClear (core : Fin 16) (stream : Fin 3)
  /-- R107: the operation of SOLE_ACC_CMD of a physical core ends. -/
  | soleAccDone (core : Fin 18)
  /-- R67: a seed is written to WELT_SR_SEED of the stream. -/
  | weltSrSeed (core : Fin 16) (stream : Fin 3) (value : BitVec 64)
  /-- R68: RESEED bits are written to WELT_SR_CTL. -/
  | weltSrReseed (core : Fin 16) (streams : BitVec 3)
  /-- R280: OP 0b01 is written to LAST_STREAM_CTL. -/
  | streamSwitchOut (core : Fin 16) (stream : BitVec 2) (addr : BitVec 48)
  /-- R280: the stream that is stopping reaches its resume boundary. -/
  | switchOutComplete (core : Fin 16)
  /-- R280: OP 0b10 is written to LAST_STREAM_CTL. -/
  | streamSwitchIn (core : Fin 16) (stream : BitVec 2) (addr : BitVec 48)
  /-- R267: an Awl core reads LAST_SQ_RESV. -/
  | lastSqResv (core : Fin 16) (awl : Fin 4) (stream : Fin 3)
  /-- R268: an Awl core writes LAST_SQ_PUSH. -/
  | lastSqPush (core : Fin 16) (awl : Fin 4) (stream : BitVec 2)
  /-- R381: BTN_TGT_CLAIM of a target is read. -/
  | btnTgtClaim (who : Agent) (tgt : BtnPlace)
  /-- R381: BTN_TGT_COMPLETE of a target is written. -/
  | btnTgtComplete (who : Agent) (tgt : BtnPlace) (src : BitVec 10)
  /-- R382: BTN_SWPEND is written. -/
  | btnSwpend (who : Agent) (ctrl : Fin 3) (src : BitVec 10)
  /-- R383: a group's hold-off timer ends. -/
  | btnHoldoffExpiry (ctrl : Fin 3) (group : BitVec 6)
  /-- R593: a die carries out a STANDBY request, presenting a lead generation. -/
  | standbyRequest (die : Fin 2) (gen : BitVec 64)
  /-- R597: a die acknowledges or claims a lead generation. -/
  | pwrLeadAck (die : Fin 2) (gen : BitVec 64)
  /-- R597: a die releases the lead. -/
  | pwrLeadRelease (die : Fin 2) (gen : BitVec 64)
  /-- R597: an offer of the lead has not been taken in time. -/
  | leadOfferTimeout
  /-- R597: the holding die's keep-alive has lapsed. -/
  | leadKeepaliveTimeout
  /-- R482: the host writes IVT_SQ_DB. -/
  | ivtSqDb (page : Fin 17) (ring : Fin 16) (tail : BitVec 16)
  /-- R483: the host writes IVT_CQ_DB. -/
  | ivtCqDb (page : Fin 17) (ring : Fin 16) (head : BitVec 16)
  /-- R480: the host writes IVT_RING_CFG. -/
  | ivtRingEnable (page : Fin 17) (ring : Fin 16) (value : BitVec 32)
  /-- R480: the host writes IVT_EV_CFG. -/
  | ivtEvEnable (page : Fin 17) (value : BitVec 32)
  /-- R507: the host writes IVT_EV_HEAD. -/
  | ivtEvHead (page : Fin 17) (head : BitVec 16)
  /-- R484: the host writes IVT_CWIN_DB. -/
  | ivtCwinDb (page : Fin 17) (slot : BitVec 4)
  /-- R498: the host writes IVT_RW_ACK. -/
  | ivtRwAck (page : Fin 17) (handle : BitVec 16) (gen : BitVec 32)
  /-- R13: an agent writes a register: its device address, the access width in bytes and the value. -/
  | registerWrite (who : Agent) (addr : BitVec 48) (bytes : BitVec 8) (value : BitVec 64)
  /-- R273: amoadd.d at offset 0x08 of a tally slot. -/
  | tallyWindowClaim (core : Fin 16) (awl : Fin 4) (tally : BitVec 13) (n : BitVec 64)
  /-- R362: amoadd.d at offset 0x08 of an eyelet slot. -/
  | eyeletWindowSignal (users : Cluster) (number : Fin 4) (eyelet : BitVec 14) (k : BitVec 64)
  /-- R362: amoadd.d at offset 0x10 of an eyelet slot. -/
  | eyeletWindowWait (users : Cluster) (number : Fin 4) (eyelet : BitVec 14) (n : BitVec 64)
  /-- R362: amoadd.d at offset 0x18 of an eyelet slot. -/
  | eyeletWindowTry (users : Cluster) (number : Fin 4) (eyelet : BitVec 14) (n : BitVec 64)
  /-- R362: sd at offset 0x20 of an eyelet slot. -/
  | eyeletWindowClear (users : Cluster) (number : Fin 4) (eyelet : BitVec 14)
  /-- R369: amoadd.d at offset 0x08 of a lace slot. -/
  | laceWindowArrive (users : Cluster) (number : Fin 4) (lace : BitVec 10) (gen : BitVec 64)
  /-- R369: amoadd.d at offset 0x10 of a lace slot. -/
  | laceWindowArriveWait (users : Cluster) (number : Fin 4) (lace : BitVec 10) (gen : BitVec 64)
  /-- R369: amoadd.d at offset 0x18 of a lace slot. -/
  | laceWindowWait (users : Cluster) (number : Fin 4) (lace : BitVec 10) (gen : BitVec 64)
  /-- R408: the 32-cycle merge window of a line ends. -/
  | mergeWindowExpiry (bank : Fin 64) (line : BitVec 42)
  /-- R404: the link of a CXL port goes down. -/
  | cxlLinkDown (port : Fin 2)
  /-- R621: the firmware serves the oldest test request of a core. -/
  | testRequestServe (core : Fin 18)
  /-- R625: the test of a core in test ends; bit t set: test t failed. -/
  | testEnd (core : Fin 18) (failed : BitVec 64)
  /-- R619: the trigger window of a core ends. -/
  | triggerWindowEnd (core : Fin 18)
  /-- R633: the resend timer of an unacknowledged fatal frame expires. -/
  | fatalFrameResend
  /-- R292: every hold of the step has been released. -/
  | stepAdvance (part : Fin 16)
  /-- R312: the evaluation hook returns to the Awl monitor. -/
  | evalHookReturn (part : Fin 16)
  /-- R298: the data service of the job, or that of its evaluation hook, fills the next slot of its ring. -/
  | dataSlotFill (part : Fin 16) (eval : Bool)
  /-- R313: the step has lasted longer than the job's limit. -/
  | stepTimeExpiry (part : Fin 16)
  /-- R313: a gather has waited longer than the job's limit. -/
  | gatherLateExpiry (part : Fin 16)
  /-- R308: the checkpoint in progress has read and written every item. -/
  | checkpointComplete (part : Fin 16)
  /-- R440: the PCS of a port comes up. -/
  | linkPcsUp (port : Fin 32) (rate : BitVec 2)
  /-- R433: the PCS of a port loses its link. -/
  | pcsLinkFail (port : Fin 32)
  /-- R433: no frame has arrived at a port within the silence limit. -/
  | linkSilenceTimeout (port : Fin 32)
  /-- R433: the restart timer of a port expires. -/
  | linkRestartTimer (port : Fin 32)
  /-- R440: the HELLO timer of a port expires. -/
  | helloTimer (port : Fin 32)
  /-- R440: a HELLO frame arrives at a port. -/
  | hello (port : Fin 32) (frame : List (BitVec 8))
  /-- R440: a CAPS frame arrives at a port. -/
  | caps (port : Fin 32) (frame : List (BitVec 8))
  /-- R431: a DATA frame arrives at a port: the octets of the link frame. -/
  | dataFrame (port : Fin 32) (frame : List (BitVec 8))
  /-- R431: an ACK frame arrives. -/
  | ackFrame (port : Fin 32) (frame : List (BitVec 8))
  /-- R431: a NAK frame arrives. -/
  | nakFrame (port : Fin 32) (frame : List (BitVec 8))
  /-- R432: a CREDIT frame arrives. -/
  | creditFrame (port : Fin 32) (frame : List (BitVec 8))
  /-- R431: the acknowledgement timer of a port expires. -/
  | ackTimer (port : Fin 32)
  /-- R432: the credit timer of a port expires. -/
  | creditTimer (port : Fin 32)
  /-- R431: the replay timer of a port expires. -/
  | replayTimeout (port : Fin 32)
  /-- R444: the router forwards a packet that arrived on a port, or that this device originates. -/
  | packetForward (port : Option (Fin 32)) (packet : List (BitVec 8))
  /-- R494: a CMD packet reaches its destination device. -/
  | cmd (part : Fin 16) (packet : List (BitVec 8))
  /-- R493: a REPLY packet arrives. -/
  | reply (packet : List (BitVec 8))
  /-- R437: a TACK packet arrives. -/
  | tack (packet : List (BitVec 8))
  /-- R330: a GRAD_SEG packet arrives. -/
  | gradSeg (port : Option (Fin 32)) (packet : List (BitVec 8))
  /-- R301: a PARAM packet arrives for a partition. -/
  | param (part : Fin 16) (packet : List (BitVec 8))
  /-- R506: a TENSOR packet arrives. -/
  | tensor (packet : List (BitVec 8))
  /-- R438: a CKPT_DATA packet arrives. -/
  | ckptData (packet : List (BitVec 8))
  /-- R438: a CKPT_END packet arrives. -/
  | ckptEnd (packet : List (BitVec 8))
  /-- R438: a CKPT_DONE packet arrives. -/
  | ckptDone (packet : List (BitVec 8))
  /-- R438: a CKPT_FETCH packet arrives. -/
  | ckptFetchPacket (packet : List (BitVec 8))
  /-- R442: a DISC_QUERY packet arrives. -/
  | discQuery (packet : List (BitVec 8))
  /-- R442: a DISC_REPLY packet arrives. -/
  | discReply (packet : List (BitVec 8))
  /-- R454: a PROBE packet arrives. -/
  | probe (packet : List (BitVec 8))
  /-- R454: a PROBE_REPLY packet arrives. -/
  | probeReply (packet : List (BitVec 8))
  /-- R455: an ANNOUNCE arrives: a packet, or the MAINT frame of a neighbour on a port. -/
  | announce (port : Option (Fin 32)) (bytes : List (BitVec 8))
  /-- R437: the TACK timer of a receiving flow context expires. -/
  | flowTackTimer (context : BitVec 16)
  /-- R437: 1 ms passes without TACK progress on a sending flow context, or on the oldest checkpoint transfer of a partition. -/
  | flowResendTimeout (part : Fin 16) (context : Option (BitVec 16))
  /-- R441: the joining timer expires. -/
  | joiningTimeout
  /-- R453: the drain before a departure ends. -/
  | drainEnd
  /-- R453: the drain limit of a departure passes. -/
  | departTimeout
  /-- R454: the delay before a probe of a neighbour ends. -/
  | probeDelay (addr : BitVec 16)
  /-- R454: a probe has had no reply in time. -/
  | probeTimeout (addr : BitVec 16)
  /-- R438: no CKPT_DONE has arrived in time. -/
  | ckptDoneTimeout (part : Fin 16)
  /-- R311: no CKPT_DATA of a fetch has arrived in time. -/
  | ckptFetchTimeout (part : Fin 16)
  /-- R493: no reply to a forwarded command has arrived within TIMEOUT. -/
  | remoteReplyTimeout (context : BitVec 16) (seq : BitVec 32)
  /-- R443: no DISC_REPLY has arrived in time. -/
  | discoverTimeout (addr : BitVec 16)
  /-- R594: a port group starts. -/
  | portGroupStart (group : Fin 8)
  /-- R471: the Ivtu link comes up at a width and a rate. -/
  | ivtuLinkUp (x16 : Bool) (gt64 : Bool)
  /-- R473: the Ivtu link goes down. -/
  | ivtuLinkDown
  /-- R475: the host's RdS of a device line. -/
  | rds (addr : BitVec 52)
  /-- R477: the host's RdM of a device line. -/
  | rdm (addr : BitVec 52)
  /-- R475: the host's WbM of a device line. -/
  | wbm (addr : BitVec 52) (data : List (BitVec 8))
  /-- R475: the host's RdCur of device bytes. -/
  | rdcur (addr : BitVec 52) (len : BitVec 7)
  /-- R475: the host's WrCur to device bytes. -/
  | wrcur (addr : BitVec 52) (mask : BitVec 64) (data : List (BitVec 8))
  /-- R482: the host's SnpInv of a ring line that the device holds in S. -/
  | snpinv (addr : BitVec 52)
  /-- R484: the host's InvData for a command-window line. -/
  | invdata (addr : BitVec 52) (data : List (BitVec 8))
  /-- R595: power good rises and the start-up order runs. -/
  | powerGoodRise
  /-- R596: the start-up watchdog expires. -/
  | startupTimeout
  /-- R600: the input fails. -/
  | powerFail
  /-- R659: a die passes its trip temperature. -/
  | thermalTrip
  /-- R611: the root PLL loses lock. -/
  | pllLockLoss
  /-- R656: the tray raises PWR_EN. -/
  | pwrEnRise
  /-- R652: the tray lowers PWR_EN. -/
  | pwrEnFall
  /-- R654: the presence pins change. -/
  | presenceChange (prsnt1 : Bool) (prsnt2 : Bool)
  /-- R652: the IVT_RST_N pin takes a level. -/
  | ivtRstN (level : Bool)
  /-- R653: the REMOVE_REQ_N pin changes. -/
  | removeReq (asserted : Bool)
  /-- R593: WAKE_N or a fabric wake ends standby. -/
  | standbyWake
  /-- R587: the estimator takes a sample: the projected 1 ms average, the hottest core sensor, and whether the sample is valid with every sensor read. -/
  | estimatorSample (watts : BitVec 16) (celsius : BitVec 8) (valid : Bool)
  /-- R586: the input current limiter engages. -/
  | currentLimitEngage
  /-- R586: the limiter's hold ends. -/
  | limiterHoldExpiry
  /-- R584: the main or the control domain restarts at its new divisor. -/
  | clockSwitchRestart (control : Bool)
  /-- R590: an idle core enters RETAIN. -/
  | coreRetainEntry (core : Fin 18)
  /-- R592: the device enters IDLE. -/
  | deviceIdleEntry
  /-- R594: the stagger admits the next core. -/
  | staggerStart
  /-- R589: a waking core reaches RUN. -/
  | coreRunReady (core : Fin 18)
  /-- R546: the tenant counter latch of a die's domain. -/
  | counterLatch (die : Fin 2)
  /-- R547: the 100 ms reading window of a partition ends. -/
  | partitionReadingWindow (part : Fin 16) (watts : BitVec 16) (celsius : BitVec 8)
  /-- R559: the hub sends the Metering Island an occupancy frame. -/
  | occupancyFrame
  /-- R560: the Metering Island's millisecond. -/
  | miMillisecond (uJ : BitVec 32)
  /-- R562: the Metering Island commits. -/
  | miCommit
  /-- R565: the Metering Island writes a device record. -/
  | miDeviceRecord
  /-- R567: the Metering Island tests its hold-up. -/
  | miHoldupTest (ok : Bool)
  /-- R567: the Metering Island writes a checkpoint. -/
  | miCheckpoint
  /-- R566: the Metering Island sees the input fail. -/
  | miPowerFail
  /-- R568: the Metering Island powers up. -/
  | miPowerUp
  /-- R281: the WAIT_LIMIT of a migration passes. -/
  | waitLimitExpiry (die : Fin 2)
  /-- R309: the checkpoint in progress has read every item that holds the step. -/
  | ckptItemsRead (part : Fin 16)
  /-- R592: HBM leaves self-refresh. -/
  | hbmSelfRefreshExit
deriving DecidableEq, Repr

end Sys2Proof
end

