-- ==== Sys2Proof/Decode.lean ====
section
/-! DEFINITION. Reading command packets from bytes and writing them back, by the header of R485 and the parameter table
of each command; and the two functions the host asks with. The opcode table gives no row any bits, so no word spells a
command by the table. -/
namespace Sys2Proof
open Sys2Proof.Machine

/-- A little-endian field of a packet. -/
def pfld (bs : List Byte) (o n : Nat) : BitVec (8 * n) := BitVec.ofNat (8 * n) (at_ bs o n)

/-- CTX_OPEN: the parameter area (R491). -/
def parseCtxOpen (b : List Byte) : CtxOpenP :=
  ⟨pfld b 0 4, pfld b 4 1, pfld b 5 1, pfld b 6 1, pfld b 7 1, pfld b 8 2, pfld b 10 1, pfld b 11 1, pfld b 12 4, pfld b 16 8, pfld b 24 8, pfld b 32 4, pfld b 36 4⟩
/-- CTX_OPEN: the bytes of its parameters. -/
def bytesCtxOpen (p : CtxOpenP) : List Byte :=
  leBytes 4 p.context.toNat ++ leBytes 1 p.kind.toNat ++ leBytes 1 p.core.toNat ++ leBytes 1 p.stream.toNat ++ leBytes 1 p.cls.toNat ++ leBytes 2 p.peer.toNat ++ leBytes 1 p.peerPart.toNat ++ leBytes 1 p.rsvdA.toNat ++ leBytes 4 p.peerCtx.toNat ++ leBytes 8 p.buf.toNat ++ leBytes 8 p.bufBytes.toNat ++ leBytes 4 p.eyelet.toNat ++ leBytes 4 p.rsvdB.toNat

/-- CTX_CLOSE: the parameter area (R492). -/
def parseCtxClose (b : List Byte) : CtxCloseP :=
  ⟨pfld b 0 4, pfld b 4 4⟩
/-- CTX_CLOSE: the bytes of its parameters. -/
def bytesCtxClose (p : CtxCloseP) : List Byte :=
  leBytes 4 p.context.toNat ++ leBytes 4 p.rsvdA.toNat

/-- RESULT_POOL: the parameter area (R495). -/
def parseResultPool (b : List Byte) : ResultPoolP :=
  ⟨pfld b 0 8, pfld b 8 4, pfld b 12 4⟩
/-- RESULT_POOL: the bytes of its parameters. -/
def bytesResultPool (p : ResultPoolP) : List Byte :=
  leBytes 8 p.base.toNat ++ leBytes 4 p.count.toNat ++ leBytes 4 p.rsvdA.toNat

/-- JOB_START: the parameter area (R291). -/
def parseJobStart (b : List Byte) : JobStartP :=
  ⟨pfld b 0 8, pfld b 8 8⟩
/-- JOB_START: the bytes of its parameters. -/
def bytesJobStart (p : JobStartP) : List Byte :=
  leBytes 8 p.jobRec.toNat ++ leBytes 8 p.rsvdA.toNat

/-- JOB_CTL: the parameter area (R293). -/
def parseJobCtl (b : List Byte) : JobCtlP :=
  ⟨pfld b 0 4, pfld b 4 1, pfld b 5 3, pfld b 8 8⟩
/-- JOB_CTL: the bytes of its parameters. -/
def bytesJobCtl (p : JobCtlP) : List Byte :=
  leBytes 4 p.job.toNat ++ leBytes 1 p.op.toNat ++ leBytes 3 p.rsvdA.toNat ++ leBytes 8 p.step.toNat

/-- CKPT_FETCH: the parameter area (R311). -/
def parseCkptFetch (b : List Byte) : CkptFetchP :=
  ⟨pfld b 0 2, pfld b 2 1, pfld b 3 1, pfld b 4 4, pfld b 8 8, pfld b 16 8, pfld b 24 8, pfld b 32 4, pfld b 36 4⟩
/-- CKPT_FETCH: the bytes of its parameters. -/
def bytesCkptFetch (p : CkptFetchP) : List Byte :=
  leBytes 2 p.peer.toNat ++ leBytes 1 p.slot.toNat ++ leBytes 1 p.rsvdA.toNat ++ leBytes 4 p.job.toNat ++ leBytes 8 p.step.toNat ++ leBytes 8 p.dst.toNat ++ leBytes 8 p.dstBytes.toNat ++ leBytes 4 p.context.toNat ++ leBytes 4 p.rsvdB.toNat

/-- FABRIC_ROUTE: the parameter area (R443). -/
def parseFabricRoute (b : List Byte) : FabricRouteP :=
  ⟨pfld b 0 1, pfld b 1 1, pfld b 2 2, pfld b 4 2, pfld b 6 2, pfld b 8 8⟩
/-- FABRIC_ROUTE: the bytes of its parameters. -/
def bytesFabricRoute (p : FabricRouteP) : List Byte :=
  leBytes 1 p.table.toNat ++ leBytes 1 p.rsvdA.toNat ++ leBytes 2 p.first.toNat ++ leBytes 2 p.count.toNat ++ leBytes 2 p.rsvdB.toNat ++ leBytes 8 p.list.toNat

/-- FABRIC_ADDR: the parameter area (R443). -/
def parseFabricAddr (b : List Byte) : FabricAddrP :=
  ⟨pfld b 0 2, pfld b 2 1, pfld b 3 5⟩
/-- FABRIC_ADDR: the bytes of its parameters. -/
def bytesFabricAddr (p : FabricAddrP) : List Byte :=
  leBytes 2 p.addr.toNat ++ leBytes 1 p.ctl.toNat ++ leBytes 5 p.rsvdA.toNat

/-- FABRIC_DEPART: the parameter area (R453). -/
def parseFabricDepart (b : List Byte) : FabricDepartP :=
  ⟨pfld b 0 4, pfld b 4 4⟩
/-- FABRIC_DEPART: the bytes of its parameters. -/
def bytesFabricDepart (p : FabricDepartP) : List Byte :=
  leBytes 4 p.drainLimit.toNat ++ leBytes 4 p.rsvdA.toNat

/-- FABRIC_DISCOVER: the parameter area (R443). -/
def parseFabricDiscover (b : List Byte) : FabricDiscoverP :=
  ⟨pfld b 0 2, pfld b 2 1, pfld b 3 5⟩
/-- FABRIC_DISCOVER: the bytes of its parameters. -/
def bytesFabricDiscover (p : FabricDiscoverP) : List Byte :=
  leBytes 2 p.addr.toNat ++ leBytes 1 p.part.toNat ++ leBytes 5 p.rsvdA.toNat

/-- MEM_FILL: the parameter area (R502). -/
def parseMemFill (b : List Byte) : MemFillP :=
  ⟨pfld b 0 8⟩
/-- MEM_FILL: the bytes of its parameters. -/
def bytesMemFill (p : MemFillP) : List Byte :=
  leBytes 8 p.dstDesc.toNat

/-- MEM_ATOMIC: the parameter area (R502). -/
def parseMemAtomic (b : List Byte) : MemAtomicP :=
  ⟨pfld b 0 8, pfld b 8 1, pfld b 9 1, pfld b 10 6, pfld b 16 8, pfld b 24 8⟩
/-- MEM_ATOMIC: the bytes of its parameters. -/
def bytesMemAtomic (p : MemAtomicP) : List Byte :=
  leBytes 8 p.addr.toNat ++ leBytes 1 p.op.toNat ++ leBytes 1 p.width.toNat ++ leBytes 6 p.rsvdA.toNat ++ leBytes 8 p.operand.toNat ++ leBytes 8 p.compare.toNat

/-- HOST_COPY: the parameter area (R504). -/
def parseHostCopy (b : List Byte) : HostCopyP :=
  ⟨pfld b 0 8, pfld b 8 8, pfld b 16 1, pfld b 17 7⟩
/-- HOST_COPY: the bytes of its parameters. -/
def bytesHostCopy (p : HostCopyP) : List Byte :=
  leBytes 8 p.hostAddr.toNat ++ leBytes 8 p.desc.toNat ++ leBytes 1 p.dir.toNat ++ leBytes 7 p.rsvdA.toNat

/-- HOST_RANGE: the parameter area (R503). -/
def parseHostRange (b : List Byte) : HostRangeP :=
  ⟨pfld b 0 1, pfld b 1 1, pfld b 2 1, pfld b 3 5, pfld b 8 8, pfld b 16 8⟩
/-- HOST_RANGE: the bytes of its parameters. -/
def bytesHostRange (p : HostRangeP) : List Byte :=
  leBytes 1 p.part.toNat ++ leBytes 1 p.index.toNat ++ leBytes 1 p.flags.toNat ++ leBytes 5 p.rsvdA.toNat ++ leBytes 8 p.base.toNat ++ leBytes 8 p.bytes.toNat

/-- COPY: the parameter area (R236). -/
def parseCopy (b : List Byte) : CopyP :=
  ⟨pfld b 0 8, pfld b 8 8, pfld b 16 1, pfld b 17 7⟩
/-- COPY: the bytes of its parameters. -/
def bytesCopy (p : CopyP) : List Byte :=
  leBytes 8 p.srcDesc.toNat ++ leBytes 8 p.dstDesc.toNat ++ leBytes 1 p.ctl.toNat ++ leBytes 7 p.rsvdA.toNat

/-- GATHER: the parameter area (R237). -/
def parseGather (b : List Byte) : GatherP :=
  ⟨pfld b 0 8, pfld b 8 8, pfld b 16 8, pfld b 24 1, pfld b 25 1, pfld b 26 6⟩
/-- GATHER: the bytes of its parameters. -/
def bytesGather (p : GatherP) : List Byte :=
  leBytes 8 p.srcDesc.toNat ++ leBytes 8 p.idxDesc.toNat ++ leBytes 8 p.dstDesc.toNat ++ leBytes 1 p.axis.toNat ++ leBytes 1 p.ctl.toNat ++ leBytes 6 p.rsvdA.toNat

/-- SCATTER: the parameter area (R238). -/
def parseScatter (b : List Byte) : ScatterP :=
  ⟨pfld b 0 8, pfld b 8 8, pfld b 16 8, pfld b 24 1, pfld b 25 1, pfld b 26 6⟩
/-- SCATTER: the bytes of its parameters. -/
def bytesScatter (p : ScatterP) : List Byte :=
  leBytes 8 p.srcDesc.toNat ++ leBytes 8 p.idxDesc.toNat ++ leBytes 8 p.dstDesc.toNat ++ leBytes 1 p.axis.toNat ++ leBytes 1 p.ctl.toNat ++ leBytes 6 p.rsvdA.toNat

/-- DESC_CHECK: the parameter area (R239). -/
def parseDescCheck (b : List Byte) : DescCheckP :=
  ⟨pfld b 0 8, pfld b 8 1, pfld b 9 7⟩
/-- DESC_CHECK: the bytes of its parameters. -/
def bytesDescCheck (p : DescCheckP) : List Byte :=
  leBytes 8 p.desc.toNat ++ leBytes 1 p.role.toNat ++ leBytes 7 p.rsvdA.toNat

/-- FLOW_SEND: the parameter area (R505). -/
def parseFlowSend (b : List Byte) : FlowSendP :=
  ⟨pfld b 0 4, pfld b 4 4, pfld b 8 8, pfld b 16 8⟩
/-- FLOW_SEND: the bytes of its parameters. -/
def bytesFlowSend (p : FlowSendP) : List Byte :=
  leBytes 4 p.context.toNat ++ leBytes 4 p.rsvdA.toNat ++ leBytes 8 p.srcDesc.toNat ++ leBytes 8 p.offset.toNat

/-- GEMM: the parameter area (R102). -/
def parseGemm (b : List Byte) : GemmP :=
  ⟨pfld b 0 8, pfld b 8 8, pfld b 16 8, pfld b 24 2, pfld b 26 2, pfld b 28 4⟩
/-- GEMM: the bytes of its parameters. -/
def bytesGemm (p : GemmP) : List Byte :=
  leBytes 8 p.aDesc.toNat ++ leBytes 8 p.bDesc.toNat ++ leBytes 8 p.cDesc.toNat ++ leBytes 2 p.ctl.toNat ++ leBytes 2 p.accRow.toNat ++ leBytes 4 p.rsvdA.toNat

/-- SPMM: the parameter area (R147). -/
def parseSpmm (b : List Byte) : SpmmP :=
  ⟨pfld b 0 8, pfld b 8 8, pfld b 16 8, pfld b 24 2, pfld b 26 2, pfld b 28 4, pfld b 32 8, pfld b 40 8⟩
/-- SPMM: the bytes of its parameters. -/
def bytesSpmm (p : SpmmP) : List Byte :=
  leBytes 8 p.aDesc.toNat ++ leBytes 8 p.sDesc.toNat ++ leBytes 8 p.cDesc.toNat ++ leBytes 2 p.ctl.toNat ++ leBytes 2 p.accRow.toNat ++ leBytes 4 p.rsvdA.toNat ++ leBytes 8 p.selAddr.toNat ++ leBytes 8 p.fenDesc.toNat

/-- SPMM_T: the parameter area (R151). -/
def parseSpmmT (b : List Byte) : SpmmTP :=
  ⟨pfld b 0 8, pfld b 8 8, pfld b 16 8, pfld b 24 2, pfld b 26 2, pfld b 28 4, pfld b 32 8, pfld b 40 8⟩
/-- SPMM_T: the bytes of its parameters. -/
def bytesSpmmT (p : SpmmTP) : List Byte :=
  leBytes 8 p.aDesc.toNat ++ leBytes 8 p.sDesc.toNat ++ leBytes 8 p.cDesc.toNat ++ leBytes 2 p.ctl.toNat ++ leBytes 2 p.accRow.toNat ++ leBytes 4 p.rsvdA.toNat ++ leBytes 8 p.selAddr.toNat ++ leBytes 8 p.fenDesc.toNat

/-- SOUNDING: the parameter area (R161). -/
def parseSounding (b : List Byte) : SoundingP :=
  ⟨pfld b 0 8, pfld b 8 8, pfld b 16 8, pfld b 24 8, pfld b 32 8, pfld b 40 2, pfld b 42 1, pfld b 43 1, pfld b 44 4⟩
/-- SOUNDING: the bytes of its parameters. -/
def bytesSounding (p : SoundingP) : List Byte :=
  leBytes 8 p.aShadow.toNat ++ leBytes 8 p.bShadow.toNat ++ leBytes 8 p.bitmap.toNat ++ leBytes 8 p.estDesc.toNat ++ leBytes 8 p.threshold.toNat ++ leBytes 2 p.ctl.toNat ++ leBytes 1 p.slot.toNat ++ leBytes 1 p.keep.toNat ++ leBytes 4 p.rsvdA.toNat

/-- FEN_MERGE: the parameter area (R177). -/
def parseFenMerge (b : List Byte) : FenMergeP :=
  ⟨pfld b 0 8, pfld b 8 8, pfld b 16 1, pfld b 17 7⟩
/-- FEN_MERGE: the bytes of its parameters. -/
def bytesFenMerge (p : FenMergeP) : List Byte :=
  leBytes 8 p.tableDesc.toNat ++ leBytes 8 p.dstDesc.toNat ++ leBytes 1 p.mode.toNat ++ leBytes 7 p.rsvdA.toNat

/-- TOPK: the parameter area (R188). -/
def parseTopk (b : List Byte) : TopkP :=
  ⟨pfld b 0 8, pfld b 8 8, pfld b 16 8, pfld b 24 8, pfld b 32 1, pfld b 33 1, pfld b 34 6⟩
/-- TOPK: the bytes of its parameters. -/
def bytesTopk (p : TopkP) : List Byte :=
  leBytes 8 p.srcDesc.toNat ++ leBytes 8 p.valDesc.toNat ++ leBytes 8 p.posDesc.toNat ++ leBytes 8 p.maskAddr.toNat ++ leBytes 1 p.k.toNat ++ leBytes 1 p.ctl.toNat ++ leBytes 6 p.rsvdA.toNat

/-- OPT_UPDATE: the parameter area (R304). -/
def parseOptUpdate (b : List Byte) : OptUpdateP :=
  ⟨pfld b 0 8, pfld b 8 8, pfld b 16 8, pfld b 24 8, pfld b 32 8, pfld b 40 8, pfld b 48 8, pfld b 56 4, pfld b 60 4, pfld b 64 4, pfld b 68 4, pfld b 72 4, pfld b 76 1, pfld b 77 1, pfld b 78 2, pfld b 80 8, pfld b 88 8⟩
/-- OPT_UPDATE: the bytes of its parameters. -/
def bytesOptUpdate (p : OptUpdateP) : List Byte :=
  leBytes 8 p.gradDesc.toNat ++ leBytes 8 p.masterDesc.toNat ++ leBytes 8 p.mDesc.toNat ++ leBytes 8 p.vDesc.toNat ++ leBytes 8 p.outDesc.toNat ++ leBytes 8 p.maskAddr.toNat ++ leBytes 8 p.scaleAddr.toNat ++ leBytes 4 p.lr.toNat ++ leBytes 4 p.betaOne.toNat ++ leBytes 4 p.betaTwo.toNat ++ leBytes 4 p.eps.toNat ++ leBytes 4 p.wd.toNat ++ leBytes 1 p.algo.toNat ++ leBytes 1 p.ctl.toNat ++ leBytes 2 p.mcast.toNat ++ leBytes 8 p.t.toNat ++ leBytes 8 p.rsvdA.toNat

/-- FEN_SCATTER: the parameter area (R183). -/
def parseFenScatter (b : List Byte) : FenScatterP :=
  ⟨pfld b 0 8, pfld b 8 8, pfld b 16 8, pfld b 24 1, pfld b 25 7⟩
/-- FEN_SCATTER: the bytes of its parameters. -/
def bytesFenScatter (p : FenScatterP) : List Byte :=
  leBytes 8 p.fenDesc.toNat ++ leBytes 8 p.keyDesc.toNat ++ leBytes 8 p.valDesc.toNat ++ leBytes 1 p.ctl.toNat ++ leBytes 7 p.rsvdA.toNat

/-- COMPRESS: the parameter area (R136). -/
def parseCompress (b : List Byte) : CompressP :=
  ⟨pfld b 0 8, pfld b 8 8, pfld b 16 1, pfld b 17 7⟩
/-- COMPRESS: the bytes of its parameters. -/
def bytesCompress (p : CompressP) : List Byte :=
  leBytes 8 p.srcDesc.toNat ++ leBytes 8 p.dstDesc.toNat ++ leBytes 1 p.mode.toNat ++ leBytes 7 p.rsvdA.toNat

/-- PRUNE: the parameter area (R196). -/
def parsePrune (b : List Byte) : PruneP :=
  ⟨pfld b 0 8, pfld b 8 8, pfld b 16 4, pfld b 20 1, pfld b 21 1, pfld b 22 1, pfld b 23 9⟩
/-- PRUNE: the bytes of its parameters. -/
def bytesPrune (p : PruneP) : List Byte :=
  leBytes 8 p.record.toNat ++ leBytes 8 p.wDesc.toNat ++ leBytes 4 p.k.toNat ++ leBytes 1 p.scope.toNat ++ leBytes 1 p.groupLog.toNat ++ leBytes 1 p.ctl.toNat ++ leBytes 9 p.rsvdA.toNat

/-- REGROW: the parameter area (R199). -/
def parseRegrow (b : List Byte) : RegrowP :=
  ⟨pfld b 0 8, pfld b 8 8, pfld b 16 8, pfld b 24 4, pfld b 28 1, pfld b 29 1, pfld b 30 1, pfld b 31 1, pfld b 32 1, pfld b 33 7⟩
/-- REGROW: the bytes of its parameters. -/
def bytesRegrow (p : RegrowP) : List Byte :=
  leBytes 8 p.record.toNat ++ leBytes 8 p.estDesc.toNat ++ leBytes 8 p.rowsDesc.toNat ++ leBytes 4 p.k.toNat ++ leBytes 1 p.scope.toNat ++ leBytes 1 p.groupLog.toNat ++ leBytes 1 p.capLog.toNat ++ leBytes 1 p.cap.toNat ++ leBytes 1 p.ctl.toNat ++ leBytes 7 p.rsvdA.toNat

/-- REMASK: the parameter area (R206). -/
def parseRemask (b : List Byte) : RemaskP :=
  ⟨pfld b 0 8, pfld b 8 8, pfld b 16 1, pfld b 17 1, pfld b 18 2, pfld b 20 4, pfld b 24 8, pfld b 32 2, pfld b 34 2, pfld b 36 2, pfld b 38 2, pfld b 40 4, pfld b 44 4⟩
/-- REMASK: the bytes of its parameters. -/
def bytesRemask (p : RemaskP) : List Byte :=
  leBytes 8 p.record.toNat ++ leBytes 8 p.entryAddr.toNat ++ leBytes 1 p.entryCount.toNat ++ leBytes 1 p.ctl.toNat ++ leBytes 2 p.shard.toNat ++ leBytes 4 p.job.toNat ++ leBytes 8 p.effStep.toNat ++ leBytes 2 p.root.toNat ++ leBytes 2 p.voters.toNat ++ leBytes 2 p.mcast.toNat ++ leBytes 2 p.timeout.toNat ++ leBytes 4 p.doneEyelet.toNat ++ leBytes 4 p.rsvdA.toNat

/-- MASK_VOTE: the parameter area (R208). -/
def parseMaskVote (b : List Byte) : MaskVoteP :=
  ⟨pfld b 0 4, pfld b 4 2, pfld b 6 1, pfld b 7 1, pfld b 8 8, pfld b 16 8, pfld b 24 2, pfld b 26 2, pfld b 28 2, pfld b 30 2⟩
/-- MASK_VOTE: the bytes of its parameters. -/
def bytesMaskVote (p : MaskVoteP) : List Byte :=
  leBytes 4 p.job.toNat ++ leBytes 2 p.shard.toNat ++ leBytes 1 p.vote.toNat ++ leBytes 1 p.rsvdA.toNat ++ leBytes 8 p.newEpoch.toNat ++ leBytes 8 p.effStep.toNat ++ leBytes 2 p.voters.toNat ++ leBytes 2 p.mcast.toNat ++ leBytes 2 p.timeout.toNat ++ leBytes 2 p.rsvdB.toNat

/-- MASK_DECIDE: the parameter area (R209). -/
def parseMaskDecide (b : List Byte) : MaskDecideP :=
  ⟨pfld b 0 4, pfld b 4 1, pfld b 5 3, pfld b 8 8, pfld b 16 8⟩
/-- MASK_DECIDE: the bytes of its parameters. -/
def bytesMaskDecide (p : MaskDecideP) : List Byte :=
  leBytes 4 p.job.toNat ++ leBytes 1 p.decision.toNat ++ leBytes 3 p.rsvdA.toNat ++ leBytes 8 p.newEpoch.toNat ++ leBytes 8 p.effStep.toNat

/-- REDUCE_SETUP: the parameter area (R322). -/
def parseReduceSetup (b : List Byte) : ReduceSetupP :=
  ⟨pfld b 0 8, pfld b 8 1, pfld b 9 7⟩
/-- REDUCE_SETUP: the bytes of its parameters. -/
def bytesReduceSetup (p : ReduceSetupP) : List Byte :=
  leBytes 8 p.plan.toNat ++ leBytes 1 p.op.toNat ++ leBytes 7 p.rsvdA.toNat

/-- REDUCE_TARGET: the parameter area (R324). -/
def parseReduceTarget (b : List Byte) : ReduceTargetP :=
  ⟨pfld b 0 4, pfld b 4 2, pfld b 6 2, pfld b 8 4, pfld b 12 4, pfld b 16 8⟩
/-- REDUCE_TARGET: the bytes of its parameters. -/
def bytesReduceTarget (p : ReduceTargetP) : List Byte :=
  leBytes 4 p.job.toNat ++ leBytes 2 p.bucket.toNat ++ leBytes 2 p.rsvdA.toNat ++ leBytes 4 p.baseElem.toNat ++ leBytes 4 p.rowPitch.toNat ++ leBytes 8 p.stageAddr.toNat

/-- REDUCE_CONTRIB: the parameter area (R327). -/
def parseReduceContrib (b : List Byte) : ReduceContribP :=
  ⟨pfld b 0 4, pfld b 4 2, pfld b 6 1, pfld b 7 1, pfld b 8 4, pfld b 12 4, pfld b 16 8⟩
/-- REDUCE_CONTRIB: the bytes of its parameters. -/
def bytesReduceContrib (p : ReduceContribP) : List Byte :=
  leBytes 4 p.job.toNat ++ leBytes 2 p.bucket.toNat ++ leBytes 1 p.ctl.toNat ++ leBytes 1 p.rsvdA.toNat ++ leBytes 4 p.baseElem.toNat ++ leBytes 4 p.rsvdB.toNat ++ leBytes 8 p.srcDesc.toNat

/-- REDUCE_WAIT: the parameter area (R335). -/
def parseReduceWait (b : List Byte) : ReduceWaitP :=
  ⟨pfld b 0 4, pfld b 4 2, pfld b 6 2, pfld b 8 8⟩
/-- REDUCE_WAIT: the bytes of its parameters. -/
def bytesReduceWait (p : ReduceWaitP) : List Byte :=
  leBytes 4 p.job.toNat ++ leBytes 2 p.bucket.toNat ++ leBytes 2 p.rsvdA.toNat ++ leBytes 8 p.step.toNat

/-- REDUCE_RELEASE: the parameter area (R336). -/
def parseReduceRelease (b : List Byte) : ReduceReleaseP :=
  ⟨pfld b 0 4, pfld b 4 2, pfld b 6 2⟩
/-- REDUCE_RELEASE: the bytes of its parameters. -/
def bytesReduceRelease (p : ReduceReleaseP) : List Byte :=
  leBytes 4 p.job.toNat ++ leBytes 2 p.bucket.toNat ++ leBytes 2 p.rsvdA.toNat

/-- REDUCE_EXCLUDE: the parameter area (R340). -/
def parseReduceExclude (b : List Byte) : ReduceExcludeP :=
  ⟨pfld b 0 4, pfld b 4 2, pfld b 6 2, pfld b 8 8⟩
/-- REDUCE_EXCLUDE: the bytes of its parameters. -/
def bytesReduceExclude (p : ReduceExcludeP) : List Byte :=
  leBytes 4 p.job.toNat ++ leBytes 2 p.bucket.toNat ++ leBytes 2 p.rsvdA.toNat ++ leBytes 8 p.step.toNat

/-- PARAM_MCAST: the parameter area (R344). -/
def parseParamMcast (b : List Byte) : ParamMcastP :=
  ⟨pfld b 0 8, pfld b 8 8, pfld b 16 2, pfld b 18 1, pfld b 19 5, pfld b 24 8⟩
/-- PARAM_MCAST: the bytes of its parameters. -/
def bytesParamMcast (p : ParamMcastP) : List Byte :=
  leBytes 8 p.srcDesc.toNat ++ leBytes 8 p.dist.toNat ++ leBytes 2 p.mcast.toNat ++ leBytes 1 p.ctl.toNat ++ leBytes 5 p.rsvdA.toNat ++ leBytes 8 p.step.toNat

/-- EYELET_INIT: the parameter area (R361). -/
def parseEyeletInit (b : List Byte) : EyeletInitP :=
  ⟨pfld b 0 4, pfld b 4 1, pfld b 5 3, pfld b 8 4⟩
/-- EYELET_INIT: the bytes of its parameters. -/
def bytesEyeletInit (p : EyeletInitP) : List Byte :=
  leBytes 4 p.eyelet.toNat ++ leBytes 1 p.mode.toNat ++ leBytes 3 p.rsvdA.toNat ++ leBytes 4 p.count.toNat

/-- EYELET_WAIT: the parameter area (R361). -/
def parseEyeletWait (b : List Byte) : EyeletWaitP :=
  ⟨pfld b 0 4, pfld b 4 2, pfld b 6 1, pfld b 7 1⟩
/-- EYELET_WAIT: the bytes of its parameters. -/
def bytesEyeletWait (p : EyeletWaitP) : List Byte :=
  leBytes 4 p.eyelet.toNat ++ leBytes 2 p.n.toNat ++ leBytes 1 p.ctl.toNat ++ leBytes 1 p.rsvdA.toNat

/-- EYELET_SIGNAL: the parameter area (R361). -/
def parseEyeletSignal (b : List Byte) : EyeletSignalP :=
  ⟨pfld b 0 4, pfld b 4 1, pfld b 5 3, pfld b 8 4⟩
/-- EYELET_SIGNAL: the bytes of its parameters. -/
def bytesEyeletSignal (p : EyeletSignalP) : List Byte :=
  leBytes 4 p.eyelet.toNat ++ leBytes 1 p.op.toNat ++ leBytes 3 p.rsvdA.toNat ++ leBytes 4 p.k.toNat

/-- EYELET_READ: the parameter area (R361). -/
def parseEyeletRead (b : List Byte) : EyeletReadP :=
  ⟨pfld b 0 4, pfld b 4 4⟩
/-- EYELET_READ: the bytes of its parameters. -/
def bytesEyeletRead (p : EyeletReadP) : List Byte :=
  leBytes 4 p.eyelet.toNat ++ leBytes 4 p.rsvdA.toNat

/-- LACE_INIT: the parameter area (R368). -/
def parseLaceInit (b : List Byte) : LaceInitP :=
  ⟨pfld b 0 2, pfld b 2 1, pfld b 3 1, pfld b 4 2, pfld b 6 2, pfld b 8 2, pfld b 10 2, pfld b 12 4, pfld b 16 8, pfld b 24 8⟩
/-- LACE_INIT: the bytes of its parameters. -/
def bytesLaceInit (p : LaceInitP) : List Byte :=
  leBytes 2 p.lace.toNat ++ leBytes 1 p.scope.toNat ++ leBytes 1 p.rsvdA.toNat ++ leBytes 2 p.expected.toNat ++ leBytes 2 p.root.toNat ++ leBytes 2 p.mcast.toNat ++ leBytes 2 p.rsvdB.toNat ++ leBytes 4 p.devices.toNat ++ leBytes 8 p.rootMap.toNat ++ leBytes 8 p.start.toNat

/-- LACE_ARRIVE: the parameter area (R364). -/
def parseLaceArrive (b : List Byte) : LaceArriveP :=
  ⟨pfld b 0 2, pfld b 2 1, pfld b 3 5, pfld b 8 8⟩
/-- LACE_ARRIVE: the bytes of its parameters. -/
def bytesLaceArrive (p : LaceArriveP) : List Byte :=
  leBytes 2 p.lace.toNat ++ leBytes 1 p.ctl.toNat ++ leBytes 5 p.rsvdA.toNat ++ leBytes 8 p.gen.toNat

/-- LACE_WAIT: the parameter area (R367). -/
def parseLaceWait (b : List Byte) : LaceWaitP :=
  ⟨pfld b 0 2, pfld b 2 6, pfld b 8 8⟩
/-- LACE_WAIT: the bytes of its parameters. -/
def bytesLaceWait (p : LaceWaitP) : List Byte :=
  leBytes 2 p.lace.toNat ++ leBytes 6 p.rsvdA.toNat ++ leBytes 8 p.gen.toNat

/-- LACE_READ: the parameter area (R368). -/
def parseLaceRead (b : List Byte) : LaceReadP :=
  ⟨pfld b 0 2, pfld b 2 6⟩
/-- LACE_READ: the bytes of its parameters. -/
def bytesLaceRead (p : LaceReadP) : List Byte :=
  leBytes 2 p.lace.toNat ++ leBytes 6 p.rsvdA.toNat

/-- LACE_REMOTE_ARRIVE: the parameter area (R365). -/
def parseLaceRemoteArrive (b : List Byte) : LaceRemoteArriveP :=
  ⟨pfld b 0 2, pfld b 2 6, pfld b 8 8⟩
/-- LACE_REMOTE_ARRIVE: the bytes of its parameters. -/
def bytesLaceRemoteArrive (p : LaceRemoteArriveP) : List Byte :=
  leBytes 2 p.lace.toNat ++ leBytes 6 p.rsvdA.toNat ++ leBytes 8 p.gen.toNat

/-- LACE_RELEASE: the parameter area (R365). -/
def parseLaceRelease (b : List Byte) : LaceReleaseP :=
  ⟨pfld b 0 2, pfld b 2 6, pfld b 8 8⟩
/-- LACE_RELEASE: the bytes of its parameters. -/
def bytesLaceRelease (p : LaceReleaseP) : List Byte :=
  leBytes 2 p.lace.toNat ++ leBytes 6 p.rsvdA.toNat ++ leBytes 8 p.gen.toNat

/-- TALLY_INIT: the parameter area (R275). -/
def parseTallyInit (b : List Byte) : TallyInitP :=
  ⟨pfld b 0 4, pfld b 4 4, pfld b 8 8⟩
/-- TALLY_INIT: the bytes of its parameters. -/
def bytesTallyInit (p : TallyInitP) : List Byte :=
  leBytes 4 p.tally.toNat ++ leBytes 4 p.limit.toNat ++ leBytes 8 p.doneBase.toNat

/-- TALLY_CLAIM: the parameter area (R272). -/
def parseTallyClaim (b : List Byte) : TallyClaimP :=
  ⟨pfld b 0 4, pfld b 4 2, pfld b 6 2⟩
/-- TALLY_CLAIM: the bytes of its parameters. -/
def bytesTallyClaim (p : TallyClaimP) : List Byte :=
  leBytes 4 p.tally.toNat ++ leBytes 2 p.count.toNat ++ leBytes 2 p.rsvdA.toNat

/-- TALLY_COMMIT: the parameter area (R276). -/
def parseTallyCommit (b : List Byte) : TallyCommitP :=
  ⟨pfld b 0 4, pfld b 4 4, pfld b 8 8, pfld b 16 8, pfld b 24 8⟩
/-- TALLY_COMMIT: the bytes of its parameters. -/
def bytesTallyCommit (p : TallyCommitP) : List Byte :=
  leBytes 4 p.tally.toNat ++ leBytes 4 p.rsvdA.toNat ++ leBytes 8 p.claim.toNat ++ leBytes 8 p.srcDesc.toNat ++ leBytes 8 p.dstDesc.toNat

/-- TALLY_RESET: the parameter area (R277). -/
def parseTallyReset (b : List Byte) : TallyResetP :=
  ⟨pfld b 0 4, pfld b 4 4⟩
/-- TALLY_RESET: the bytes of its parameters. -/
def bytesTallyReset (p : TallyResetP) : List Byte :=
  leBytes 4 p.tally.toNat ++ leBytes 4 p.expect.toNat

/-- SYNC_CONFIG: the parameter area (R371). -/
def parseSyncConfig (b : List Byte) : SyncConfigP :=
  ⟨pfld b 0 1, pfld b 1 7, pfld b 8 8, pfld b 16 8, pfld b 24 4, pfld b 28 4⟩
/-- SYNC_CONFIG: the bytes of its parameters. -/
def bytesSyncConfig (p : SyncConfigP) : List Byte :=
  leBytes 1 p.mode.toNat ++ leBytes 7 p.rsvdA.toNat ++ leBytes 8 p.dumpBase.toNat ++ leBytes 8 p.dumpBytes.toNat ++ leBytes 4 p.dumpTimeout.toNat ++ leBytes 4 p.rsvdB.toNat

/-- SYNC_DUMP: the parameter area (R374). -/
def parseSyncDump (b : List Byte) : SyncDumpP :=
  ⟨pfld b 0 8⟩
/-- SYNC_DUMP: the bytes of its parameters. -/
def bytesSyncDump (p : SyncDumpP) : List Byte :=
  leBytes 8 p.rsvdA.toNat

/-- PART_BIND: the parameter area (R516). -/
def parsePartBind (b : List Byte) : PartBindP :=
  ⟨pfld b 0 1, pfld b 1 1, pfld b 2 2, pfld b 4 4, pfld b 8 16, pfld b 24 4, pfld b 28 1, pfld b 29 3, pfld b 32 4, pfld b 36 4, pfld b 40 8, pfld b 48 16, pfld b 64 8⟩
/-- PART_BIND: the bytes of its parameters. -/
def bytesPartBind (p : PartBindP) : List Byte :=
  leBytes 1 p.part.toNat ++ leBytes 1 p.scratchMib.toNat ++ leBytes 2 p.cores.toNat ++ leBytes 4 p.mire.toNat ++ leBytes 16 p.hbm.toNat ++ leBytes 4 p.ports.toNat ++ leBytes 1 p.farCount.toNat ++ leBytes 3 p.rsvdA.toNat ++ leBytes 4 p.ctxBase.toNat ++ leBytes 4 p.ctxCount.toNat ++ leBytes 8 p.tenant.toNat ++ leBytes 16 p.rsvdB.toNat ++ leBytes 8 p.farList.toNat

/-- PART_UNBIND: the parameter area (R521). -/
def parsePartUnbind (b : List Byte) : PartUnbindP :=
  ⟨pfld b 0 1, pfld b 1 7⟩
/-- PART_UNBIND: the bytes of its parameters. -/
def bytesPartUnbind (p : PartUnbindP) : List Byte :=
  leBytes 1 p.part.toNat ++ leBytes 7 p.rsvdA.toNat

/-- PART_REBIND: the parameter area (R521). -/
def parsePartRebind (b : List Byte) : PartRebindP :=
  ⟨pfld b 0 1, pfld b 1 7, pfld b 8 8⟩
/-- PART_REBIND: the bytes of its parameters. -/
def bytesPartRebind (p : PartRebindP) : List Byte :=
  leBytes 1 p.part.toNat ++ leBytes 7 p.rsvdA.toNat ++ leBytes 8 p.tenant.toNat

/-- PART_QUERY: the parameter area (R547). -/
def parsePartQuery (b : List Byte) : PartQueryP :=
  ⟨pfld b 0 1, pfld b 1 7⟩
/-- PART_QUERY: the bytes of its parameters. -/
def bytesPartQuery (p : PartQueryP) : List Byte :=
  leBytes 1 p.part.toNat ++ leBytes 7 p.rsvdA.toNat

/-- ATTEST: the parameter area (R539). -/
def parseAttest (b : List Byte) : AttestP :=
  ⟨pfld b 0 1, pfld b 1 1, pfld b 2 6, pfld b 8 32⟩
/-- ATTEST: the bytes of its parameters. -/
def bytesAttest (p : AttestP) : List Byte :=
  leBytes 1 p.op.toNat ++ leBytes 1 p.part.toNat ++ leBytes 6 p.rsvdA.toNat ++ leBytes 32 p.nonce.toNat

/-- SESSION_AGREE: the parameter area (R542). -/
def parseSessionAgree (b : List Byte) : SessionAgreeP :=
  ⟨pfld b 0 8, pfld b 8 32⟩
/-- SESSION_AGREE: the bytes of its parameters. -/
def bytesSessionAgree (p : SessionAgreeP) : List Byte :=
  leBytes 8 p.ekAddr.toNat ++ leBytes 32 p.nonce.toNat

/-- FW_STAGE: the parameter area (R535). -/
def parseFwStage (b : List Byte) : FwStageP :=
  ⟨pfld b 0 1, pfld b 1 7, pfld b 8 8, pfld b 16 8⟩
/-- FW_STAGE: the bytes of its parameters. -/
def bytesFwStage (p : FwStageP) : List Byte :=
  leBytes 1 p.image.toNat ++ leBytes 7 p.rsvdA.toNat ++ leBytes 8 p.src.toNat ++ leBytes 8 p.bytes.toNat

/-- FW_ACTIVATE: the parameter area (R536). -/
def parseFwActivate (b : List Byte) : FwActivateP :=
  ⟨pfld b 0 1, pfld b 1 1, pfld b 2 6⟩
/-- FW_ACTIVATE: the bytes of its parameters. -/
def bytesFwActivate (p : FwActivateP) : List Byte :=
  leBytes 1 p.images.toNat ++ leBytes 1 p.when.toNat ++ leBytes 6 p.rsvdA.toNat

/-- CONFIG_WRITE: the parameter area (R537). -/
def parseConfigWrite (b : List Byte) : ConfigWriteP :=
  ⟨pfld b 0 1, pfld b 1 3, pfld b 4 4, pfld b 8 8⟩
/-- CONFIG_WRITE: the bytes of its parameters. -/
def bytesConfigWrite (p : ConfigWriteP) : List Byte :=
  leBytes 1 p.op.toNat ++ leBytes 3 p.rsvdA.toNat ++ leBytes 4 p.bytes.toNat ++ leBytes 8 p.src.toNat

/-- CORE_MIGRATE: the parameter area (R283). -/
def parseCoreMigrate (b : List Byte) : CoreMigrateP :=
  ⟨pfld b 0 1, pfld b 1 1, pfld b 2 2, pfld b 4 4, pfld b 8 8⟩
/-- CORE_MIGRATE: the bytes of its parameters. -/
def bytesCoreMigrate (p : CoreMigrateP) : List Byte :=
  leBytes 1 p.logical.toNat ++ leBytes 1 p.ctl.toNat ++ leBytes 2 p.rsvdA.toNat ++ leBytes 4 p.waitLimit.toNat ++ leBytes 8 p.rsvdB.toNat

/-- TEST_RUN: the parameter area (R623). -/
def parseTestRun (b : List Byte) : TestRunP :=
  ⟨pfld b 0 1, pfld b 1 1, pfld b 2 2, pfld b 4 4, pfld b 8 8, pfld b 16 4, pfld b 20 4⟩
/-- TEST_RUN: the bytes of its parameters. -/
def bytesTestRun (p : TestRunP) : List Byte :=
  leBytes 1 p.core.toNat ++ leBytes 1 p.ctl.toNat ++ leBytes 2 p.rsvdA.toNat ++ leBytes 4 p.packId.toNat ++ leBytes 8 p.testMask.toNat ++ leBytes 4 p.defer.toNat ++ leBytes 4 p.rsvdB.toNat

/-- TEST_PACK_LOAD: the parameter area (R630). -/
def parseTestPackLoad (b : List Byte) : TestPackLoadP :=
  ⟨pfld b 0 1, pfld b 1 3, pfld b 4 4, pfld b 8 8, pfld b 16 8⟩
/-- TEST_PACK_LOAD: the bytes of its parameters. -/
def bytesTestPackLoad (p : TestPackLoadP) : List Byte :=
  leBytes 1 p.op.toNat ++ leBytes 3 p.rsvdA.toNat ++ leBytes 4 p.packId.toNat ++ leBytes 8 p.src.toNat ++ leBytes 8 p.bytes.toNat

/-- FAULT_READ: the parameter area (R634). -/
def parseFaultRead (b : List Byte) : FaultReadP :=
  ⟨pfld b 0 1, pfld b 1 7, pfld b 8 8⟩
/-- FAULT_READ: the bytes of its parameters. -/
def bytesFaultRead (p : FaultReadP) : List Byte :=
  leBytes 1 p.op.toNat ++ leBytes 7 p.rsvdA.toNat ++ leBytes 8 p.seq.toNat

/-- COUNTER_READ: the parameter area (R635). -/
def parseCounterRead (b : List Byte) : CounterReadP :=
  ⟨pfld b 0 1, pfld b 1 1, pfld b 2 6⟩
/-- COUNTER_READ: the bytes of its parameters. -/
def bytesCounterRead (p : CounterReadP) : List Byte :=
  leBytes 1 p.core.toNat ++ leBytes 1 p.ctl.toNat ++ leBytes 6 p.rsvdA.toNat

/-- MI_IDENT: the parameter area (R571). -/
def parseMiIdent (b : List Byte) : MiIdentP :=
  ⟨pfld b 0 8⟩
/-- MI_IDENT: the bytes of its parameters. -/
def bytesMiIdent (p : MiIdentP) : List Byte :=
  leBytes 8 p.rsvdA.toNat

/-- MI_READ: the parameter area (R572). -/
def parseMiRead (b : List Byte) : MiReadP :=
  ⟨pfld b 0 8⟩
/-- MI_READ: the bytes of its parameters. -/
def bytesMiRead (p : MiReadP) : List Byte :=
  leBytes 8 p.rsvdA.toNat

/-- MI_SESSION_OPEN: the parameter area (R573). -/
def parseMiSessionOpen (b : List Byte) : MiSessionOpenP :=
  ⟨pfld b 0 1, pfld b 1 7⟩
/-- MI_SESSION_OPEN: the bytes of its parameters. -/
def bytesMiSessionOpen (p : MiSessionOpenP) : List Byte :=
  leBytes 1 p.part.toNat ++ leBytes 7 p.rsvdA.toNat

/-- MI_SESSION_CLOSE: the parameter area (R573). -/
def parseMiSessionClose (b : List Byte) : MiSessionCloseP :=
  ⟨pfld b 0 1, pfld b 1 1, pfld b 2 6⟩
/-- MI_SESSION_CLOSE: the bytes of its parameters. -/
def bytesMiSessionClose (p : MiSessionCloseP) : List Byte :=
  leBytes 1 p.part.toNat ++ leBytes 1 p.ctl.toNat ++ leBytes 6 p.rsvdA.toNat

/-- MI_RECORD_GET: the parameter area (R574). -/
def parseMiRecordGet (b : List Byte) : MiRecordGetP :=
  ⟨pfld b 0 8, pfld b 8 1, pfld b 9 7⟩
/-- MI_RECORD_GET: the bytes of its parameters. -/
def bytesMiRecordGet (p : MiRecordGetP) : List Byte :=
  leBytes 8 p.recordNo.toNat ++ leBytes 1 p.op.toNat ++ leBytes 7 p.rsvdA.toNat

/-- Bytes of the parameter table of each opcode of R501; none for an opcode that is reserved. -/
def tableBytes : Nat → Option Nat
  | 0x0000 => some 0
  | 0x0001 => some 40
  | 0x0002 => some 8
  | 0x0003 => some 16
  | 0x0020 => some 16
  | 0x0021 => some 16
  | 0x0022 => some 40
  | 0x0030 => some 16
  | 0x0031 => some 8
  | 0x0032 => some 8
  | 0x0033 => some 8
  | 0x0100 => some 8
  | 0x0101 => some 32
  | 0x0102 => some 24
  | 0x0103 => some 24
  | 0x0200 => some 24
  | 0x0201 => some 32
  | 0x0202 => some 32
  | 0x0203 => some 16
  | 0x0204 => some 24
  | 0x0300 => some 32
  | 0x0301 => some 48
  | 0x0302 => some 48
  | 0x0303 => some 48
  | 0x0304 => some 24
  | 0x0305 => some 40
  | 0x0306 => some 96
  | 0x0307 => some 32
  | 0x0400 => some 24
  | 0x0401 => some 32
  | 0x0402 => some 40
  | 0x0403 => some 48
  | 0x0404 => some 32
  | 0x0405 => some 24
  | 0x0500 => some 16
  | 0x0501 => some 24
  | 0x0502 => some 24
  | 0x0503 => some 16
  | 0x0504 => some 8
  | 0x0505 => some 16
  | 0x0506 => some 32
  | 0x0600 => some 12
  | 0x0601 => some 8
  | 0x0602 => some 12
  | 0x0603 => some 8
  | 0x0610 => some 32
  | 0x0611 => some 16
  | 0x0612 => some 16
  | 0x0613 => some 8
  | 0x0614 => some 16
  | 0x0615 => some 16
  | 0x0620 => some 16
  | 0x0621 => some 8
  | 0x0622 => some 32
  | 0x0623 => some 8
  | 0x0630 => some 32
  | 0x0631 => some 8
  | 0x0700 => some 72
  | 0x0701 => some 8
  | 0x0702 => some 16
  | 0x0703 => some 8
  | 0x0704 => some 40
  | 0x0705 => some 40
  | 0x0706 => some 24
  | 0x0707 => some 8
  | 0x0708 => some 16
  | 0x0800 => some 16
  | 0x0801 => some 24
  | 0x0802 => some 24
  | 0x0803 => some 16
  | 0x0804 => some 8
  | 0x0900 => some 8
  | 0x0901 => some 8
  | 0x0902 => some 8
  | 0x0903 => some 8
  | 0x0904 => some 16
  | _ => none

/-- The header of a packet that arrived on a path, with the parameter bytes beyond a table of `n` bytes. -/
def parseHdr (via : Via) (n : Nat) (b : List Byte) : Hdr where
  via := via
  flags := pfld b 2 2
  context := pfld b 4 4
  seq := pfld b 8 4
  plen := pfld b 12 2
  ring := pfld b 14 1
  rsvdA := pfld b 15 1
  replyAddr := pfld b 16 8
  resultAddr := pfld b 24 8
  signal := pfld b 32 4
  timeout := pfld b 36 4
  rsvdB := pfld b 40 24
  tail := (b.drop (64 + n)).take (192 - n)
  objs := b.drop 256
  upsets := []

/-- The command of an opcode with a header and a parameter area; none for a reserved opcode (R501). -/
def parseOp (op : Nat) (h : Hdr) (b : List Byte) : Option Instr :=
  match op with
  | 0x0000 => some (.nop h)
  | 0x0001 => some (.ctxOpen h (parseCtxOpen b))
  | 0x0002 => some (.ctxClose h (parseCtxClose b))
  | 0x0003 => some (.resultPool h (parseResultPool b))
  | 0x0020 => some (.jobStart h (parseJobStart b))
  | 0x0021 => some (.jobCtl h (parseJobCtl b))
  | 0x0022 => some (.ckptFetch h (parseCkptFetch b))
  | 0x0030 => some (.fabricRoute h (parseFabricRoute b))
  | 0x0031 => some (.fabricAddr h (parseFabricAddr b))
  | 0x0032 => some (.fabricDepart h (parseFabricDepart b))
  | 0x0033 => some (.fabricDiscover h (parseFabricDiscover b))
  | 0x0100 => some (.memFill h (parseMemFill b))
  | 0x0101 => some (.memAtomic h (parseMemAtomic b))
  | 0x0102 => some (.hostCopy h (parseHostCopy b))
  | 0x0103 => some (.hostRange h (parseHostRange b))
  | 0x0200 => some (.copy h (parseCopy b))
  | 0x0201 => some (.gather h (parseGather b))
  | 0x0202 => some (.scatter h (parseScatter b))
  | 0x0203 => some (.descCheck h (parseDescCheck b))
  | 0x0204 => some (.flowSend h (parseFlowSend b))
  | 0x0300 => some (.gemm h (parseGemm b))
  | 0x0301 => some (.spmm h (parseSpmm b))
  | 0x0302 => some (.spmmT h (parseSpmmT b))
  | 0x0303 => some (.sounding h (parseSounding b))
  | 0x0304 => some (.fenMerge h (parseFenMerge b))
  | 0x0305 => some (.topk h (parseTopk b))
  | 0x0306 => some (.optUpdate h (parseOptUpdate b))
  | 0x0307 => some (.fenScatter h (parseFenScatter b))
  | 0x0400 => some (.compress h (parseCompress b))
  | 0x0401 => some (.prune h (parsePrune b))
  | 0x0402 => some (.regrow h (parseRegrow b))
  | 0x0403 => some (.remask h (parseRemask b))
  | 0x0404 => some (.maskVote h (parseMaskVote b))
  | 0x0405 => some (.maskDecide h (parseMaskDecide b))
  | 0x0500 => some (.reduceSetup h (parseReduceSetup b))
  | 0x0501 => some (.reduceTarget h (parseReduceTarget b))
  | 0x0502 => some (.reduceContrib h (parseReduceContrib b))
  | 0x0503 => some (.reduceWait h (parseReduceWait b))
  | 0x0504 => some (.reduceRelease h (parseReduceRelease b))
  | 0x0505 => some (.reduceExclude h (parseReduceExclude b))
  | 0x0506 => some (.paramMcast h (parseParamMcast b))
  | 0x0600 => some (.eyeletInit h (parseEyeletInit b))
  | 0x0601 => some (.eyeletWait h (parseEyeletWait b))
  | 0x0602 => some (.eyeletSignal h (parseEyeletSignal b))
  | 0x0603 => some (.eyeletRead h (parseEyeletRead b))
  | 0x0610 => some (.laceInit h (parseLaceInit b))
  | 0x0611 => some (.laceArrive h (parseLaceArrive b))
  | 0x0612 => some (.laceWait h (parseLaceWait b))
  | 0x0613 => some (.laceRead h (parseLaceRead b))
  | 0x0614 => some (.laceRemoteArrive h (parseLaceRemoteArrive b))
  | 0x0615 => some (.laceRelease h (parseLaceRelease b))
  | 0x0620 => some (.tallyInit h (parseTallyInit b))
  | 0x0621 => some (.tallyClaim h (parseTallyClaim b))
  | 0x0622 => some (.tallyCommit h (parseTallyCommit b))
  | 0x0623 => some (.tallyReset h (parseTallyReset b))
  | 0x0630 => some (.syncConfig h (parseSyncConfig b))
  | 0x0631 => some (.syncDump h (parseSyncDump b))
  | 0x0700 => some (.partBind h (parsePartBind b))
  | 0x0701 => some (.partUnbind h (parsePartUnbind b))
  | 0x0702 => some (.partRebind h (parsePartRebind b))
  | 0x0703 => some (.partQuery h (parsePartQuery b))
  | 0x0704 => some (.attest h (parseAttest b))
  | 0x0705 => some (.sessionAgree h (parseSessionAgree b))
  | 0x0706 => some (.fwStage h (parseFwStage b))
  | 0x0707 => some (.fwActivate h (parseFwActivate b))
  | 0x0708 => some (.configWrite h (parseConfigWrite b))
  | 0x0800 => some (.coreMigrate h (parseCoreMigrate b))
  | 0x0801 => some (.testRun h (parseTestRun b))
  | 0x0802 => some (.testPackLoad h (parseTestPackLoad b))
  | 0x0803 => some (.faultRead h (parseFaultRead b))
  | 0x0804 => some (.counterRead h (parseCounterRead b))
  | 0x0900 => some (.miIdent h (parseMiIdent b))
  | 0x0901 => some (.miRead h (parseMiRead b))
  | 0x0902 => some (.miSessionOpen h (parseMiSessionOpen b))
  | 0x0903 => some (.miSessionClose h (parseMiSessionClose b))
  | 0x0904 => some (.miRecordGet h (parseMiRecordGet b))
  | _ => none

/-- Read a command packet (R485); none when its opcode is reserved. -/
def parsePacket (via : Via) (b : List Byte) : Option Instr :=
  let op := at_ b 0 2
  match tableBytes op with
  | some n => parseOp op (parseHdr via n b) (b.drop 64)
  | none => none

/-- The opcode, header and parameter bytes of a command packet; none for an event. -/
def packetParts : Instr → Option (Nat × Hdr × List Byte)
  | .nop h => some (0x0000, h, [])
  | .ctxOpen h p => some (0x0001, h, bytesCtxOpen p)
  | .ctxClose h p => some (0x0002, h, bytesCtxClose p)
  | .resultPool h p => some (0x0003, h, bytesResultPool p)
  | .jobStart h p => some (0x0020, h, bytesJobStart p)
  | .jobCtl h p => some (0x0021, h, bytesJobCtl p)
  | .jobStopAwlReset _ => none
  | .ckptFetch h p => some (0x0022, h, bytesCkptFetch p)
  | .fabricRoute h p => some (0x0030, h, bytesFabricRoute p)
  | .fabricAddr h p => some (0x0031, h, bytesFabricAddr p)
  | .fabricDepart h p => some (0x0032, h, bytesFabricDepart p)
  | .fabricDiscover h p => some (0x0033, h, bytesFabricDiscover p)
  | .memFill h p => some (0x0100, h, bytesMemFill p)
  | .memAtomic h p => some (0x0101, h, bytesMemAtomic p)
  | .hostCopy h p => some (0x0102, h, bytesHostCopy p)
  | .hostRange h p => some (0x0103, h, bytesHostRange p)
  | .copy h p => some (0x0200, h, bytesCopy p)
  | .gather h p => some (0x0201, h, bytesGather p)
  | .scatter h p => some (0x0202, h, bytesScatter p)
  | .descCheck h p => some (0x0203, h, bytesDescCheck p)
  | .flowSend h p => some (0x0204, h, bytesFlowSend p)
  | .gemm h p => some (0x0300, h, bytesGemm p)
  | .spmm h p => some (0x0301, h, bytesSpmm p)
  | .spmmT h p => some (0x0302, h, bytesSpmmT p)
  | .sounding h p => some (0x0303, h, bytesSounding p)
  | .fenMerge h p => some (0x0304, h, bytesFenMerge p)
  | .topk h p => some (0x0305, h, bytesTopk p)
  | .optUpdate h p => some (0x0306, h, bytesOptUpdate p)
  | .fenScatter h p => some (0x0307, h, bytesFenScatter p)
  | .compress h p => some (0x0400, h, bytesCompress p)
  | .prune h p => some (0x0401, h, bytesPrune p)
  | .regrow h p => some (0x0402, h, bytesRegrow p)
  | .remask h p => some (0x0403, h, bytesRemask p)
  | .maskVote h p => some (0x0404, h, bytesMaskVote p)
  | .maskDecide h p => some (0x0405, h, bytesMaskDecide p)
  | .maskEpochCommit _ _ => none
  | .maskEpochAbort _ _ => none
  | .maskEpochUndecided _ _ => none
  | .epochVoteTimeout _ _ => none
  | .reduceSetup h p => some (0x0500, h, bytesReduceSetup p)
  | .reduceTarget h p => some (0x0501, h, bytesReduceTarget p)
  | .reduceContrib h p => some (0x0502, h, bytesReduceContrib p)
  | .reduceWait h p => some (0x0503, h, bytesReduceWait p)
  | .reduceRelease h p => some (0x0504, h, bytesReduceRelease p)
  | .reduceExclude h p => some (0x0505, h, bytesReduceExclude p)
  | .reductionRootTimeout _ _ => none
  | .paramMcast h p => some (0x0506, h, bytesParamMcast p)
  | .eyeletInit h p => some (0x0600, h, bytesEyeletInit p)
  | .eyeletWait h p => some (0x0601, h, bytesEyeletWait p)
  | .eyeletSignal h p => some (0x0602, h, bytesEyeletSignal p)
  | .eyeletRead h p => some (0x0603, h, bytesEyeletRead p)
  | .eyeletRetry _ _ => none
  | .laceInit h p => some (0x0610, h, bytesLaceInit p)
  | .laceArrive h p => some (0x0611, h, bytesLaceArrive p)
  | .laceWait h p => some (0x0612, h, bytesLaceWait p)
  | .laceRead h p => some (0x0613, h, bytesLaceRead p)
  | .laceRemoteArrive h p => some (0x0614, h, bytesLaceRemoteArrive p)
  | .laceRelease h p => some (0x0615, h, bytesLaceRelease p)
  | .tallyInit h p => some (0x0620, h, bytesTallyInit p)
  | .tallyClaim h p => some (0x0621, h, bytesTallyClaim p)
  | .tallyCommit h p => some (0x0622, h, bytesTallyCommit p)
  | .tallyReset h p => some (0x0623, h, bytesTallyReset p)
  | .syncConfig h p => some (0x0630, h, bytesSyncConfig p)
  | .syncDump h p => some (0x0631, h, bytesSyncDump p)
  | .dumpTimeout _ _ => none
  | .quagFire _ => none
  | .partBind h p => some (0x0700, h, bytesPartBind p)
  | .partUnbind h p => some (0x0701, h, bytesPartUnbind p)
  | .partRebind h p => some (0x0702, h, bytesPartRebind p)
  | .partQuery h p => some (0x0703, h, bytesPartQuery p)
  | .attest h p => some (0x0704, h, bytesAttest p)
  | .sessionAgree h p => some (0x0705, h, bytesSessionAgree p)
  | .fwStage h p => some (0x0706, h, bytesFwStage p)
  | .fwActivate h p => some (0x0707, h, bytesFwActivate p)
  | .configWrite h p => some (0x0708, h, bytesConfigWrite p)
  | .coreMigrate h p => some (0x0800, h, bytesCoreMigrate p)
  | .testRun h p => some (0x0801, h, bytesTestRun p)
  | .testPackLoad h p => some (0x0802, h, bytesTestPackLoad p)
  | .faultRead h p => some (0x0803, h, bytesFaultRead p)
  | .counterRead h p => some (0x0804, h, bytesCounterRead p)
  | .miIdent h p => some (0x0900, h, bytesMiIdent p)
  | .miRead h p => some (0x0901, h, bytesMiRead p)
  | .miSessionOpen h p => some (0x0902, h, bytesMiSessionOpen p)
  | .miSessionClose h p => some (0x0903, h, bytesMiSessionClose p)
  | .miRecordGet h p => some (0x0904, h, bytesMiRecordGet p)
  | .soleAccSave _ _ _ => none
  | .soleAccRestore _ _ _ => none
  | .soleAccClear _ _ => none
  | .soleAccDone _ => none
  | .weltSrSeed _ _ _ => none
  | .weltSrReseed _ _ => none
  | .streamSwitchOut _ _ _ => none
  | .switchOutComplete _ => none
  | .streamSwitchIn _ _ _ => none
  | .lastSqResv _ _ _ => none
  | .lastSqPush _ _ _ => none
  | .btnTgtClaim _ _ => none
  | .btnTgtComplete _ _ _ => none
  | .btnSwpend _ _ _ => none
  | .btnHoldoffExpiry _ _ => none
  | .standbyRequest _ _ => none
  | .pwrLeadAck _ _ => none
  | .pwrLeadRelease _ _ => none
  | .leadOfferTimeout => none
  | .leadKeepaliveTimeout => none
  | .ivtSqDb _ _ _ => none
  | .ivtCqDb _ _ _ => none
  | .ivtRingEnable _ _ _ => none
  | .ivtEvEnable _ _ => none
  | .ivtEvHead _ _ => none
  | .ivtCwinDb _ _ => none
  | .ivtRwAck _ _ _ => none
  | .registerWrite _ _ _ _ => none
  | .tallyWindowClaim _ _ _ _ => none
  | .eyeletWindowSignal _ _ _ _ => none
  | .eyeletWindowWait _ _ _ _ => none
  | .eyeletWindowTry _ _ _ _ => none
  | .eyeletWindowClear _ _ _ => none
  | .laceWindowArrive _ _ _ _ => none
  | .laceWindowArriveWait _ _ _ _ => none
  | .laceWindowWait _ _ _ _ => none
  | .mergeWindowExpiry _ _ => none
  | .cxlLinkDown _ => none
  | .testRequestServe _ => none
  | .testEnd _ _ => none
  | .triggerWindowEnd _ => none
  | .fatalFrameResend => none
  | .stepAdvance _ => none
  | .evalHookReturn _ => none
  | .dataSlotFill _ _ => none
  | .stepTimeExpiry _ => none
  | .gatherLateExpiry _ => none
  | .checkpointComplete _ => none
  | .linkPcsUp _ _ => none
  | .pcsLinkFail _ => none
  | .linkSilenceTimeout _ => none
  | .linkRestartTimer _ => none
  | .helloTimer _ => none
  | .hello _ _ => none
  | .caps _ _ => none
  | .dataFrame _ _ => none
  | .ackFrame _ _ => none
  | .nakFrame _ _ => none
  | .creditFrame _ _ => none
  | .ackTimer _ => none
  | .creditTimer _ => none
  | .replayTimeout _ => none
  | .packetForward _ _ => none
  | .cmd _ _ => none
  | .reply _ => none
  | .tack _ => none
  | .gradSeg _ _ => none
  | .param _ _ => none
  | .tensor _ => none
  | .ckptData _ => none
  | .ckptEnd _ => none
  | .ckptDone _ => none
  | .ckptFetchPacket _ => none
  | .discQuery _ => none
  | .discReply _ => none
  | .probe _ => none
  | .probeReply _ => none
  | .announce _ _ => none
  | .flowTackTimer _ => none
  | .flowResendTimeout _ _ => none
  | .joiningTimeout => none
  | .drainEnd => none
  | .departTimeout => none
  | .probeDelay _ => none
  | .probeTimeout _ => none
  | .ckptDoneTimeout _ => none
  | .ckptFetchTimeout _ => none
  | .remoteReplyTimeout _ _ => none
  | .discoverTimeout _ => none
  | .portGroupStart _ => none
  | .ivtuLinkUp _ _ => none
  | .ivtuLinkDown => none
  | .rds _ => none
  | .rdm _ => none
  | .wbm _ _ => none
  | .rdcur _ _ => none
  | .wrcur _ _ _ => none
  | .snpinv _ => none
  | .invdata _ _ => none
  | .powerGoodRise => none
  | .startupTimeout => none
  | .powerFail => none
  | .thermalTrip => none
  | .pllLockLoss => none
  | .pwrEnRise => none
  | .pwrEnFall => none
  | .presenceChange _ _ => none
  | .ivtRstN _ => none
  | .removeReq _ => none
  | .standbyWake => none
  | .estimatorSample _ _ _ => none
  | .currentLimitEngage => none
  | .limiterHoldExpiry => none
  | .clockSwitchRestart _ => none
  | .coreRetainEntry _ => none
  | .deviceIdleEntry => none
  | .staggerStart => none
  | .coreRunReady _ => none
  | .counterLatch _ => none
  | .partitionReadingWindow _ _ _ => none
  | .occupancyFrame => none
  | .miMillisecond _ => none
  | .miCommit => none
  | .miDeviceRecord => none
  | .miHoldupTest _ => none
  | .miCheckpoint => none
  | .miPowerFail => none
  | .miPowerUp => none
  | .waitLimitExpiry _ => none
  | .ckptItemsRead _ => none
  | .hbmSelfRefreshExit => none

/-- The bytes of a command packet: the header of R485 and then the parameters. -/
def packetBytes (op : Nat) (h : Hdr) (params : List Byte) : List Byte :=
  leBytes 2 op ++ leBytes 2 h.flags.toNat ++ leBytes 4 h.context.toNat ++ leBytes 4 h.seq.toNat ++
  leBytes 2 h.plen.toNat ++ leBytes 1 h.ring.toNat ++ leBytes 1 h.rsvdA.toNat ++ leBytes 8 h.replyAddr.toNat ++
  leBytes 8 h.resultAddr.toNat ++ leBytes 4 h.signal.toNat ++ leBytes 4 h.timeout.toNat ++
  leBytes 24 h.rsvdB.toNat ++ params ++ h.tail ++ h.objs

/-- The words of a command: the bytes of its packet; none for an event. -/
def encode (i : Instr) : Option (List Byte) :=
  match packetParts i with
  | some (op, h, params) => some (packetBytes op h params)
  | none => none

/-- The command that a word spells by the opcode table's bits: the table gives no row any bits, so none. -/
def decodeTableWord (_nbits _w : Nat) : Option Instr := none

end Sys2Proof
end

