-- ==== Sys2Proof/Config.lean ====
section
/-! DEFINITION. What an implementation fixes and what the spec leaves open: opaque constants without a body, so that no
proof can see a value of them. Notes 2 to 5 of the assumption log list them. -/
namespace Sys2Proof

/-- The marking of a fabric port in the configuration block: unused, copper or backplane with auto-negotiation, or a pluggable module whose
entry gives the rate, in RATE's code 1 to 3 (R428, R464). -/
inductive PortMedia where
  | unused | copper | backplane
  | pluggable (rate : Fin 3)
deriving DecidableEq, Repr, Inhabited

end Sys2Proof

namespace Sys2Proof.Config

/-- The n-th draw of the hub entropy source or of the DRBG (R61, R517). -/
opaque entropy (n : Nat) : BitVec 64
/-- The n-th outcome that the manual leaves unspecified (R6). -/
opaque choice (n : Nat) : Nat
/-- Where λ of R51 lies within its bound, as a function of the operand. -/
opaque lamPick (man : Nat) (exp : Int) : Nat
/-- What a byte of a poisoned sector reads as; no reader uses it (R416). -/
opaque poisonByte (addr : Nat) : BitVec 8
/-- A cycle count that a record reports and that no rule fixes. -/
opaque cycles (n : Nat) : BitVec 64
/-- A value that a command reports of an analog or firmware quantity no rule fixes. -/
opaque measured (n : Nat) : BitVec 64
/-- The choices of a transposed walk by the command that walks and the number of the choice (R151). -/
opaque walkPick (command choice : Nat) : Nat
/-- SHA3-256 (FIPS 202). -/
opaque sha3 (bytes : List Byte) : List Byte
/-- KMAC256 (NIST SP 800-185) of a key, an input and a customisation string, with an output length in bytes. -/
opaque kmac (key input custom : List Byte) (outBytes : Nat) : List Byte
/-- ML-DSA-44 signature (FIPS 204) by the key of a seed, over a digest; 2,420 bytes. -/
opaque mldsaSign (seed digest : List Byte) : List Byte
/-- ML-DSA-44 public key of a seed; 1,312 bytes. -/
opaque mldsaPub (seed : List Byte) : List Byte
/-- Whether a signature verifies under a public key. -/
opaque mldsaVerify (pub digest sig : List Byte) : Bool
/-- Whether an ML-KEM-768 encapsulation key passes the input check of FIPS 203. -/
opaque mlkemCheck (ek : List Byte) : Bool
/-- ML-KEM-768 encapsulation with the n-th random coins: ciphertext (1,088 bytes) and shared secret (32 bytes). -/
opaque mlkemEncaps (ek : List Byte) (n : Nat) : List Byte × List Byte
/-- AES-256-GCM sealing (NIST SP 800-38D): key, IV, additional data, plaintext to ciphertext and 16-byte tag. -/
opaque gcmSeal (key iv aad pt : List Byte) : List Byte × List Byte
/-- AES-256-GCM opening: key, IV, additional data, ciphertext, tag to the plaintext. -/
opaque gcmOpen (key iv aad ct tag : List Byte) : Option (List Byte)
/-- What a Compressed_Block of a Zstandard frame decodes to (RFC 8878), given the frame's dictionary and the blocks before it by type and
content; none when it is malformed. -/
opaque zstdBlock (dict : List Byte) (before : List (Nat × List Byte)) (block : List Byte) : Option (List Byte)
/-- The root secret that the boot ROM reconstructs from the unclonable function (R527). -/
opaque rootSecret : List Byte
/-- Whether the root secret passes the helper data's check value (R527). -/
opaque rootChecks : Bool
/-- Weathes's signature over the DIK public key and DEVICE_ID, held in the helper data (R529). -/
opaque vendorCert : List Byte
/-- The Weathes public keys that firmware and configuration are checked against (R531, R534). -/
opaque vendorKey : List Byte
/-- The 64-byte header of the shipped image: 1 supervisor, 2 Ivtuhus, 3 Metering Island (R534). -/
opaque shippedHeader (image : Nat) : List Byte
/-- The measurement of the shipped image (R534, R570). -/
opaque shippedMeas (image : Nat) : List Byte
/-- The vendor items of the shipped configuration block, and their signature (R531). -/
opaque shippedVendor : List Byte × List Byte
/-- The Weathes metering key that Metering Island images are checked against (R569). -/
opaque miKey : List Byte
/-- The seed of the Metering Island's signing key (R553). -/
opaque miSeed : List Byte
/-- The DEVICE_ID paired with the Metering Island at manufacture (R563). -/
opaque miDevice : List Byte
/-- The certificate of the Metering Island's key (R571). -/
opaque miCert : List Byte
/-- The SVN floor of pattern packs that an Ivtuhus image carries (R630). -/
opaque packFloor (meas : List Byte) : Nat
/-- Silicon revision (R509). -/
opaque revision : BitVec 8
/-- What the vendor items of a configuration block mark a fabric port as (R428, R531). The layout of the item is not given. -/
opaque portMedia (items : List Byte) (port : Nat) : PortMedia
/-- Whether a CXL port finds a far tier when it enumerates, how many devices it has, and how many pages of data (R403, R423). -/
opaque cxlLink (port : Nat) : Bool
opaque cxlDevices (port : Nat) : BitVec 4
opaque cxlPages (port : Nat) : BitVec 31
/-- The header and the entries and body of the pattern pack 0 that an Ivtuhus image carries, and its test key (R627, R629). -/
opaque packZero (meas : List Byte) : List Byte × List Byte
opaque testKey (meas : List Byte) : List Byte
/-- The hash that spreads a partition's lines over its Mire slices (R406). -/
opaque mireHash (line : Nat) : Nat

end Sys2Proof.Config
end

