-- ==== Sys2Proof/Machine/Tab.lean ====
section
/-! DEFINITION. Sparse tables: lists of (key, value) pairs in one canonical form, keys strictly rising and no entry
equal to the value that an unlisted key reads as. Device memory, host memory and every per-object table use them. -/
namespace Sys2Proof.Machine

/-- A sparse table from numbers to values. -/
abbrev Tab (α : Type) := List (Nat × α)

/-- The value at key `k`; `d` is what an unlisted key reads as. -/
def tget {α : Type} (d : α) (k : Nat) : Tab α → α
  | [] => d
  | (j, v) :: t => if j = k then v else if k < j then d else tget d k t

/-- Put an entry, whatever its value, keeping the keys rising. -/
def tins {α : Type} (k : Nat) (v : α) : Tab α → Tab α
  | [] => [(k, v)]
  | (j, w) :: t => if j = k then (k, v) :: t else if k < j then (k, v) :: (j, w) :: t else (j, w) :: tins k v t

/-- Remove the entry of a key. -/
def tdel {α : Type} (k : Nat) : Tab α → Tab α
  | [] => []
  | (j, w) :: t => if j = k then t else if k < j then (j, w) :: t else (j, w) :: tdel k t

/-- Write a value: the value an unlisted key reads as removes the entry. -/
def tput {α : Type} [DecidableEq α] (d : α) (k : Nat) (v : α) (t : Tab α) : Tab α :=
  if v = d then tdel k t else tins k v t

/-- Change the value at a key. -/
def tmod {α : Type} [DecidableEq α] (d : α) (k : Nat) (f : α → α) (t : Tab α) : Tab α :=
  tput d k (f (tget d k t)) t

/-- Reset the keys from `lo` up to but not including `hi`. -/
def tclear {α : Type} (lo hi : Nat) (t : Tab α) : Tab α :=
  t.filter (fun e => decide (e.1 < lo) || decide (hi ≤ e.1))

/-- Write consecutive values from a key. -/
def tputs {α : Type} [DecidableEq α] (d : α) : Nat → List α → Tab α → Tab α
  | _, [], t => t
  | k, v :: vs, t => tputs d (k + 1) vs (tput d k v t)

/-- The `n` consecutive values from a key. -/
def tgets {α : Type} (d : α) : Nat → Nat → Tab α → List α
  | 0, _, _ => []
  | n + 1, k, t => tget d k t :: tgets d n (k + 1) t

/-- Keys strictly rising above a bound. -/
def tsorted {α : Type} : Nat → Tab α → Bool
  | _, [] => true
  | lo, (j, _) :: t => decide (lo ≤ j) && tsorted (j + 1) t

/-- The canonical form: keys strictly rising, no entry at the default. -/
def twf {α : Type} [DecidableEq α] (d : α) (t : Tab α) : Bool :=
  tsorted 0 t && t.all (fun e => decide (e.2 ≠ d))

end Sys2Proof.Machine
end

