-- ==== Sys2Proof/Machine/State.lean ====
section
/-! DEFINITION. The state of the block: every register, table, queue, memory and pin the spec gives the module, as plain
data. Sparse tables list only the entries that differ from their reset value. -/
namespace Sys2Proof.Machine

/-- Status codes of R500. -/
inductive Status where
  | ok | pending | deferred | badOpcode | badParam | badDescriptor | aliasWrite | groupOverfull | indexRange
  | noResource | contextBusy | staleClaim | staleLead | staleGeneration | missingContribution | integrityFail
  | residueFail | partitionResetting | attestDeferred | denied | fenced | internal
deriving DecidableEq, Repr

/-! ### Commands in flight -/

/-- What is known of a command from its header: opcode, header, control page or other source, partition (none for the
management context), the result window allocated to it, the resume units that it has done (R278), what its unit's arbiter has
granted it: nothing yet, every unit left (0), or the units up to a number (R265), whether the units done have read a poisoned sector or
an index out of range, the status that the command's own rule has given them, and what the fields of its record have counted. -/
structure Cmd where
  op   : Nat
  h    : Hdr
  part : Option Nat
  win  : Option Nat
  prot : Bool := false
  passes : Nat := 0
  grant  : Option Nat := none
  integ  : Bool := false
  oob    : Bool := false
  st     : Status := .ok
  tally  : List Nat := []
deriving DecidableEq, Repr

/-- A command that has passed its header checks and waits in a queue. -/
structure QEntry where
  instr  : Instr
  cmd    : Cmd
deriving DecidableEq, Repr

/-- What a command in progress waits for. -/
inductive Wait where
  /-- A stream's command at a resume boundary with this many units done: it goes on when its unit's arbiter lets it (R265, R278). -/
  | units (done : Nat)
  /-- An eyelet wait for n (R361). -/
  | eyelet (e n : Nat)
  /-- A lace wait for the release of a generation; `arrived` when its own arrival is counted (R364, R367). -/
  | lace (l gen : Nat) (arrived : Bool)
  /-- TALLY_INIT waiting for pending commits of its tally (R275). -/
  | tallyInit (t : Nat)
  /-- TALLY_COMMIT waiting for a pending commit of the same value, or for a free entry of the die (R276). -/
  | tallyCommit (t v : Nat)
  /-- FLOW_SEND until every packet is acknowledged (R505). -/
  | flow (ctx : Nat) (upto : Nat)
  /-- A command forwarded to a peer (R493). -/
  | remote (ctx : Nat) (seq : Nat)
  /-- CORE_MIGRATE (R283). -/
  | migrate (die : Nat)
  /-- A bind, unbind or rebind waiting for a migration (R282, R515, R520). -/
  | bindAfter (die : Nat)
  /-- TEST_RUN (R623). -/
  | test (core : Nat)
  /-- FABRIC_DISCOVER (R443). -/
  | discover (addr : Nat)
  /-- CKPT_FETCH with its receiving context, and the LENGTH of CKPT_END once it has arrived (R311). -/
  | fetch (ctx : Nat) (len : Option Nat)
  /-- REDUCE_WAIT (R335). -/
  | reduce (bucket : Nat) (step : Nat)
  /-- PARAM_MCAST held until its step (R344). -/
  | paramHeld (part : Nat) (step : Nat)
  /-- A delivery or contribution to a bucket that is closed for the current tag (R328). -/
  | contrib (bucket : Nat)
  /-- A CLOSE whose segments the reduction unit has not all accepted (R328, R329). -/
  | redClose (bucket core : Nat)
  /-- OPT_UPDATE held until a checkpoint has read the items that it writes (R309). -/
  | ckptHeld (part : Nat)
  /-- An unbind or rebind that runs the steps of R521. -/
  | scrub (part : Nat)
deriving DecidableEq, Repr

/-- A command in progress that a later event completes. `unit` is the unit it holds. -/
structure Waiting where
  id     : Nat
  instr  : Instr
  cmd    : Cmd
  unit   : UnitId
  wait   : Wait
  record : List Byte := []
deriving DecidableEq, Repr

/-! ### Last cores -/

/-- A stream's stochastic-rounding generator: the seed and the lanes whose state has moved from it (R61). -/
structure SrGen where
  seed  : BitVec 64 := 0
  lanes : Tab (BitVec 64) := []
deriving DecidableEq, Repr

/-- A pending seed: written by software or requested from hub entropy (R67 to R69). -/
inductive SeedReq where
  | soft (v : BitVec 64)
  | hub
deriving DecidableEq, Repr

/-- One region of the accumulator file (R95, R96): its entries that are not +0, its recorded mode and the clear mark. -/
structure AccRegion where
  entries : Tab (BitVec 48) := []
  paired  : Bool := false
  clear   : Bool := true
deriving DecidableEq, Repr

/-- Where REDUCE_TARGET directs a stream's Welt deliveries (R324). -/
structure RedTarget where
  job       : Nat
  bucket    : Nat
  baseElem  : Nat
  rowPitch  : Nat
  stageAddr : Nat
deriving DecidableEq, Repr

/-- How a stream sequencer stands (R263); RUN and WAIT follow from the command in progress. -/
inductive SeqMode where
  | ready | stopping | out | fenced
deriving DecidableEq, Repr

/-- One stream of a core. `saved` keeps the packets' sources of the commands that a switch-out wrote into its record (R279). -/
structure Stream where
  queue    : List QEntry := []
  held     : List QEntry := []
  busy     : Option Nat := none
  saved    : List QEntry := []
  mode     : SeqMode := .ready
  numFlags : BitVec 16 := 0
  idxFlag  : Bool := false
  idxIe    : Bool := false
  gen      : SrGen := {}
  seedSoft : Bool := false
  seedReq  : Option SeedReq := none
  region   : AccRegion := {}
  target   : Option RedTarget := none
deriving DecidableEq, Repr

/-- A 64-bit performance counter: OVF and COUNT (R108). -/
structure Counter where
  ovf   : Bool := false
  count : BitVec 48 := 0
deriving DecidableEq, Repr

/-- An Awl core's own architectural state that the spec names (R259, R260, R267, R295, R369, R372): whether it is held in reset or halted by
the Awl monitor, the address where it starts, whether it runs the data service in place of the job program, its packet windows, its reservations and the arrival its waiter entry records. -/
structure Awl where
  inReset : Bool := true
  halted  : Bool := false
  entry   : Nat := 0
  service : Bool := false
  windows : Tab Byte := []
  resv    : BitVec 3 := 0
  arrival : Option (Nat × Nat) := none
deriving DecidableEq, Repr

/-- One entry of the Fen pool (R166, R167): key, table, count, sum, and the residues of the key (mod 7) and of the sum (mod 3). -/
structure FenEntry where
  key   : BitVec 24
  table : BitVec 4
  count : BitVec 32
  sum   : BitVec 48
  keyRes : BitVec 3
  sumRes : BitVec 2
deriving DecidableEq, Repr

/-- A spill record waiting in a table's staging block (R173, R174). -/
structure SpillRec where
  key   : BitVec 24
  count : BitVec 32
  sum   : BitVec 48
deriving DecidableEq, Repr

/-- What the pool holds of one table (R167, R174, R175): the address and partition of the descriptor that it is bound to, the
descriptor's spill fields as the pool keeps them, whether it has overflowed, and its staging block. -/
structure FenTable where
  desc     : Option Nat := none
  part     : Nat := 0
  base     : Nat := 0
  cap      : Nat := 0
  used     : Nat := 0
  seq      : Nat := 0
  spilled  : Nat := 0
  round    : Bool := false
  overflow : Bool := false
  staging  : List SpillRec := []
deriving DecidableEq, Repr

/-- The Fen pool of a core: the occupied entries by index, the sweep pointer and the sixteen tables. -/
structure FenPool where
  entries : Tab (Option FenEntry) := []
  sweep   : Nat := 0
  tables  : Tab FenTable := []
deriving DecidableEq, Repr

/-- A sounding slot (R164): threshold exponent b, calibration count, granules seen while calibrating, and the 4,096-bin histogram. -/
structure SoundSlot where
  b     : Int := -2048
  count : Nat := 0
  seen  : Nat := 0
  hist  : Tab Nat := []
deriving DecidableEq, Repr

/-- Power state of a core (R589): GATED is RUN without work. -/
inductive CorePower where
  | off | retain | waking | run
deriving DecidableEq, Repr

/-- The shared units of a core (R265). -/
inductive CoreUnit where
  | sole | welt | move
deriving DecidableEq, Repr

/-- The arbiter of a shared unit (R265): the stream that owns it, the stream that its next search considers first, the deficits of F,
B and U. At the Sole `next` is the owner chosen for
the next pass, whose stationary tile the shadow registers hold (R76). -/
structure Arb where
  owner   : Option Nat := none
  next    : Option Nat := none
  pointer : Nat := 0
  defF    : Int := 0
  defB    : Int := 0
  defU    : Int := 0
deriving DecidableEq, Repr

/-- One physical Last core. `ctlRun` is the stream and record address that LAST_STREAM_CTL is switching out (R280); `hurt` is set once a
sector of its Insole cannot be read correctly, which a migration of it meets (R284). -/
structure Core where
  streams    : Tab Stream := []
  awls       : Tab Awl := []
  fen        : FenPool := {}
  slots      : Tab SoundSlot := []
  accAddr    : BitVec 64 := 0
  accBusy    : Bool := false
  accErr     : Bool := false
  accDone    : Bool := false
  accStream  : BitVec 2 := 0
  accOp      : Option (Nat × Bool) := none
  soleArb    : Arb := {}
  weltArb    : Arb := {}
  moveArb    : Arb := {}
  ctlBusy    : Bool := false
  ctlRun     : Nat × Nat := (0, 0)
  ctlErr     : Bool := false
  ctlDone    : Bool := false
  ctlStream  : BitVec 2 := 0
  ctlAddr    : BitVec 48 := 0
  pushErr    : Bool := false
  arb        : BitVec 64 := 0x284284284
  flagIe     : BitVec 16 := 0
  oob        : Counter := {}
  soleRes    : Counter := {}
  soleDrop   : Counter := {}
  soleBusy   : Counter := {}
  fenContrib : Counter := {}
  fenSpill   : Counter := {}
  fenChain   : Counter := {}
  reliaCtl   : BitVec 32 := 0
  resWin     : Nat := 0
  crcWin     : Nat := 0
  suspect    : Bool := false
  engine     : BitVec 4 := 0
  resCnt     : Counter := {}
  invCnt     : Counter := {}
  ovfCnt     : Counter := {}
  latched    : Tab Counter := []
  power      : CorePower := .off
  hurt       : Bool := false
deriving DecidableEq, Repr

/-! ### Sync objects and the Bittern controllers -/

/-- A waiter of an eyelet: its unit, ticket, n and whether it has been woken (R354). `timed` once its wait has caused a
dump (R370). -/
structure Waiter where
  unit   : UnitId
  ticket : BitVec 32
  n      : Nat
  woken  : Bool := false
  timed  : Bool := false
deriving DecidableEq, Repr

/-- An eyelet (R354). -/
structure Eyelet where
  event      : Bool := false
  count      : BitVec 32 := 0
  sat        : Bool := false
  nextTicket : BitVec 32 := 0
  waiters    : List Waiter := []
deriving DecidableEq, Repr

/-- A unit that waits for a lace's release of a generation (R364). -/
structure LaceWaiter where
  unit  : UnitId
  gen   : BitVec 64
  timed : Bool := false
deriving DecidableEq, Repr

/-- A lace (R363). -/
structure Lace where
  fabric   : Bool := false
  expected : BitVec 16 := 0
  arrived  : BitVec 16 := 0
  early    : BitVec 16 := 0
  gen      : BitVec 64 := 0
  root     : BitVec 16 := 0
  mcast    : BitVec 16 := 0
  devices  : Nat := 0
  rgen     : BitVec 64 := 0
  devArr   : Nat := 0
  rootMap  : Nat := 0
  sentGen  : Option Nat := none
  waiters  : List LaceWaiter := []
deriving DecidableEq, Repr

/-- A tally counter (R270). -/
structure Tally where
  value    : BitVec 32 := 0
  limit    : BitVec 32 := 0
  epoch    : BitVec 30 := 0
  doneBase : Nat := 0
  pending  : List Nat := []
deriving DecidableEq, Repr

/-- A Bittern source whose fields differ from the defaults of R664 and the cleared bits of R395. -/
structure BtnSrc where
  pend   : Bool
  active : Bool
  target : BitVec 8
  group  : BitVec 6
  en     : Bool
  prio   : BitVec 4
deriving DecidableEq, Repr

/-- A source group (R390). -/
structure BtnGrp where
  holdoff : BitVec 16 := 0
  running : Bool := false
deriving DecidableEq, Repr

/-- A target (R391): threshold, order fault and priority stack, top first: each source with the priority at which it was claimed. -/
structure BtnTgt where
  threshold : BitVec 4 := 0
  orderErr  : Bool := false
  orderSrc  : BitVec 10 := 0
  stack     : List (BitVec 10 × BitVec 4) := []
deriving DecidableEq, Repr

/-- A Bittern controller. `srcs` lists the sources that a firing or a write has changed. -/
structure Bittern where
  srcs : Tab (Option BtnSrc) := []
  grps : Tab BtnGrp := []
  tgts : Tab BtnTgt := []
deriving DecidableEq, Repr

/-! ### Ivtu: control pages, rings, windows, contexts -/

/-- A submission and completion ring pair (R480 to R483). -/
structure Ring where
  sqBase : BitVec 64 := 0
  cqBase : BitVec 64 := 0
  enable : Bool := false
  err    : Bool := false
  halted : Bool := false
  snoop  : Bool := false
  log2   : BitVec 5 := 4
  weight : BitVec 8 := 1
  sqHead : BitVec 16 := 0
  sqTail : BitVec 16 := 0
  cqTail : BitVec 16 := 0
  cqHead : BitVec 16 := 0
  sqPass : Bool := true
  cqPass : Bool := true
  flight : Nat := 0
  unread : Nat := 0
  notifyOut  : Bool := false
  notifyWait : Bool := false
  lineS  : Bool := false
  deficit : Nat := 0
deriving DecidableEq, Repr

/-- A command-window slot (R484): its 512 bytes, BUSY, the lines of its packet that the host holds in S and in M (R475), the
packet as its doorbell found it while a line of it is still at the host, the host's later requests for lines that it holds in M, each with
whether it asks for M (R476), and its NOTIFY. -/
structure Slot where
  bytes : Tab Byte := []
  busy  : Bool := false
  heldS : Tab Bool := []
  heldM : Tab Bool := []
  taken : List Byte := []
  snooped : Bool := false
  later : List (Nat × Bool) := []
  notifyOut  : Bool := false
  notifyWait : Bool := false
deriving DecidableEq, Repr

/-- The event ring of a page (R508). -/
structure EvRing where
  base   : BitVec 64 := 0
  enable : Bool := false
  notify : Bool := false
  log2   : BitVec 5 := 4
  head   : BitVec 16 := 0
  tail   : BitVec 16 := 0
  lost   : BitVec 32 := 0
  unread : Nat := 0
  notifyOut  : Bool := false
  notifyWait : Bool := false
deriving DecidableEq, Repr

/-- STATE of a result window (R496). -/
inductive WinState where
  | notReady | ready | stale
deriving DecidableEq, Repr

/-- A result window (R496): the fields of its header and the record in its data area. -/
structure Window where
  state  : WinState := .notReady
  status : BitVec 16 := 1
  gen    : BitVec 32 := 0
  seq    : BitVec 32 := 0
  ctx    : BitVec 32 := 0
  op     : BitVec 16 := 0
  record : List Byte := []
  sealed : List Byte := []
  inUse  : Bool := false
deriving DecidableEq, Repr

/-- A result-window pool (R495, R497): base, count, windows, windows never allocated yet and those freed, oldest first. -/
structure Pool where
  base    : Nat
  count   : Nat
  windows : Tab Window := []
  never   : Nat := 0
  freed   : List Nat := []
deriving DecidableEq, Repr

/-- A control page. -/
structure Page where
  rings  : Tab Ring := []
  turn   : Nat := 0
  slots  : Tab Slot := []
  ev     : EvRing := {}
  pool   : Option Pool := none
deriving DecidableEq, Repr

/-- A packet of a flow (R437). -/
structure FlowPkt where
  fseq  : Nat
  bytes : List Byte
deriving DecidableEq, Repr

/-- The sending end of a flow (R437): the next FSEQ, the packets sent and not acknowledged, those that wait for the window, the
resends since the last progress, and whether the flow is lost. -/
structure FlowTx where
  next    : Nat := 0
  unacked : List FlowPkt := []
  queued  : List FlowPkt := []
  resends : Nat := 0
  lost    : Bool := false
deriving DecidableEq, Repr

/-- The receiving end of a flow (R437, R506): the lowest FSEQ not yet received, those received ahead of it, the marked last packets
whose signal is still owed, and the packets accepted since the last TACK. -/
structure FlowRx where
  next  : Nat := 0
  ahead : List Nat := []
  lasts : List Nat := []
  since : Nat := 0
deriving DecidableEq, Repr

/-- A hardware context (R489 to R492, R437, R506). -/
structure Ctx where
  isOpen   : Bool := false
  kind     : BitVec 8 := 0
  core     : BitVec 8 := 0
  stream   : BitVec 8 := 0
  cls      : BitVec 8 := 0
  peer     : BitVec 16 := 0
  peerPart : BitVec 8 := 0
  peerCtx  : BitVec 32 := 0
  buf      : BitVec 64 := 0
  bufBytes : BitVec 64 := 0
  eyelet   : BitVec 32 := 0
  lastSeq  : Option (BitVec 32) := none
  packets  : BitVec 64 := 0
  overruns : BitVec 64 := 0
  tx       : FlowTx := {}
  rx       : FlowRx := {}
  rxBytes  : Nat := 0
  fwq      : List QEntry := []
deriving DecidableEq, Repr

/-! ### Partitions -/

/-- A far-tier range entry (R514). -/
structure FarEntry where
  pbase : Nat
  dbase : Nat
  pages : Nat
deriving DecidableEq, Repr

/-- A host range (R503). -/
structure HostRange where
  base  : Nat := 0
  bytes : Nat := 0
  write : Bool := false
deriving DecidableEq, Repr

/-- A session agreement (R542, R543): its transcript, the secret key's handle in the engine, the last accepted command
counter and the counters of the other directions. -/
structure Agreement where
  transcript : List Byte
  secret     : List Byte
  cmdCtr     : Option Nat := none
  repCtr     : Nat := 0
  evtCtr     : Nat := 0
  resCtr     : Nat := 0
  active     : Bool := false
deriving DecidableEq, Repr

/-- The sync mode of a partition (R370, R371, R374). -/
structure SyncMode where
  quag     : Bool := true
  dumpBase : Nat := 0
  dumpSize : Nat := 0
  timeout  : Nat := 0
  dumpSeq  : Nat := 0
  fired    : Bool := false
  spent    : Bool := false
deriving DecidableEq, Repr

/-- The binding of a partition (R514): the record's 64 bytes, from which every granule follows, and its far ranges. -/
structure Binding where
  record : List Byte
  far    : List FarEntry
deriving DecidableEq, Repr

/-! ### Jobs and step services -/

/-- One gathered copy (R301): its gather entry and step, the format of its wire images and the encoding of each shard's, the bytes
of the wire images that have arrived, by grid number × 2^48 + offset, the parts of the destination that have been written, and
whether CURRENT_EYELET has been signalled for it. -/
structure GatherCopy where
  entry  : Nat
  step   : Nat
  fmt    : Nat
  encs   : Tab Nat := []
  wire   : Tab (Option Byte) := []
  placed : Tab Bool := []
  done   : Bool := false
deriving DecidableEq, Repr

/-- A gather entry as JOB_START read it (R300): the entry, its distribution record, device list and local descriptor, and the
descriptors of its copies. -/
structure GatherCfg where
  entry  : List Byte
  dist   : List Byte
  devs   : List Byte
  local_ : List Byte
  bufs   : List (List Byte)
deriving DecidableEq, Repr

/-- A data service (R295 to R298): its configuration, source and dictionary entries, the data epoch and the position in it of the next
microbatch, the number of that microbatch since the job's start, the records skipped in the epoch and the step that a skip was
last reported for, whether it stands at a corrupt record, and whether it holds a token for the next slot. -/
structure DataService where
  cfg      : List Byte := []
  sources  : List Byte := []
  dicts    : List Byte := []
  epoch    : Nat := 0
  pos      : Nat := 0
  next     : Nat := 0
  skipped  : Nat := 0
  skipStep : Option Nat := none
  halted   : Bool := false
  token    : Bool := false
deriving DecidableEq, Repr

/-- How a checkpoint in progress stands: its items are being read, or written, or it is being sent to the peers. -/
inductive CkptPhase where
  | reading | writing
deriving DecidableEq, Repr

/-- A checkpoint in progress (R308, R309): its step, slot, the items read so far with their data, the data position saved. -/
structure CkptRun where
  step  : BitVec 64
  slot  : Nat
  phase : CkptPhase
  items : Tab (Option (List Byte)) := []
  epoch : Nat
  pos   : Nat
deriving DecidableEq, Repr

/-- A slot on its way to a storage peer (R308, R438): the flow's number, which the manual leaves to the two ends, its sending end,
the length, and whether CKPT_END has been sent. -/
structure CkptSend where
  job   : Nat
  slot  : Nat
  step  : BitVec 64
  peer  : BitVec 16
  flow  : Nat
  len   : Nat
  tx    : FlowTx := {}
  ended : Bool := false
deriving DecidableEq, Repr

/-- The checkpoint service of a job (R306 to R309). -/
structure CkptService where
  cfg      : List Byte := []
  items    : List Byte := []
  last     : Option (Nat × Nat) := none
  run      : Option CkptRun := none
  streamed : Tab (Option (List Byte)) := []
  asked    : Bool := false
  onStop   : Bool := false
deriving DecidableEq, Repr

/-- The evaluation hook that runs (R312): whether it holds the counter. -/
structure EvalRun where
  hold : Bool
deriving DecidableEq, Repr

/-- A parameter arrival that waits in the hub (R301): its step and its packet. -/
structure HeldParam where
  step   : Nat
  packet : List Byte
deriving DecidableEq, Repr

/-- A multicast of parameters that waits for a mask decision (R302, R304): its step, distribution record and group; for a working copy
that no gather entry names, dist is 0 and the copy's descriptor and grid number stand instead. -/
structure HeldMcast where
  step : Nat
  dist : Nat
  mc   : Nat
  desc : Nat := 0
  grid : Nat := 0
deriving DecidableEq, Repr

/-- What the health monitors of a job keep (R313). -/
structure Health where
  entries : List Byte := []
  flags   : Tab (BitVec 4) := []
  residue : Nat := 0
  resCore : Option Nat := none
  missing : Nat := 0
  raised  : List Nat := []
deriving DecidableEq, Repr

/-- A running job (R289 to R316): its record and sub-records as JOB_START read them, the step counter and its holds, and the
state of its services. -/
structure Job where
  record   : List Byte
  stages   : List Byte
  entry    : Nat
  step     : BitVec 64
  start    : BitVec 64
  seed     : BitVec 64
  version  : Nat := 3
  paused   : Bool := false
  stopping : Bool := false
  gates    : List Nat := []
  gateSent : Option Nat := none
  eval     : Option EvalRun := none
  evalCfg  : List Byte := []
  gathers  : List GatherCfg := []
  copies   : List GatherCopy := []
  held     : List HeldParam := []
  mcasts   : List HeldMcast := []
  dropped  : BitVec 64 := 0
  data     : DataService := {}
  evalData : DataService := {}
  ckpt     : CkptService := {}
  health   : Health := {}
deriving DecidableEq, Repr

/-! ### Mask epochs -/

/-- What a stage keeps of its record for the commit (R206, R211): the record, the remask entries with their descriptors and those of
their initial values, DATA_USED of each rebuilt tensor, the two bitmaps, DONE_EYELET, and the core and stream that staged. -/
structure StagedRec where
  addr    : Nat
  entryAt : Nat
  entries : List (List Byte)
  descs   : List (List Byte)
  inits   : List (List Byte)
  used    : List Nat
  cur     : List Byte
  next    : List Byte
  eyelet  : Nat
  core    : Nat
  stream  : Nat
deriving DecidableEq, Repr

/-- A pending-epoch entry (R206, R209, R210): its key, step, root timeout, the records staged under it, the decision once it has
come, and whether the host has been told that it is undecided. -/
structure PendEpoch where
  job      : BitVec 32
  epoch    : BitVec 64
  eff      : BitVec 64
  timeout  : BitVec 16
  records  : List StagedRec
  decision : Option Bool := none
  told     : Bool := false
deriving DecidableEq, Repr

/-- An open vote of the epoch root (R208): its key, the fixed values, the shards that have voted OK, and the partition it serves. -/
structure MaskVote where
  job     : BitVec 32
  epoch   : BitVec 64
  eff     : BitVec 64
  voters  : BitVec 16
  mcast   : BitVec 16
  timeout : BitVec 16
  got     : List Nat := []
  part    : Nat
deriving DecidableEq, Repr
/-! ### The fabric -/

/-- STATE of FAB_ADDR (R462). -/
inductive FabMode where
  | unassigned | joining | active | draining | departed
deriving DecidableEq, Repr

/-- LSTATE of a port (R440, R464). -/
inductive LState where
  | down | training | hello | caps | up
deriving DecidableEq, Repr

/-- A DATA frame in a replay buffer (R431): its LSEQ, its packet and how often it has been sent. -/
structure TxFrame where
  lseq   : Nat
  packet : List Byte
  sends  : Nat := 1
deriving DecidableEq, Repr

/-- A fabric port (R426 to R433, R440, R464). `ready` once its group has started (R594); the fields of bring-up; the sender's
next LSEQ, replay buffer, queues by class, blocks sent and credit counts by class and the weighted round robin's budgets; and
the receiver's last accepted LSEQ, NAK and acknowledgement owed, and blocks granted by class. -/
structure Port where
  ready    : Bool := false
  restart  : Bool := false
  lstate   : LState := .down
  rate     : BitVec 2 := 0
  ver      : BitVec 2 := 0
  dedicated : Bool := false
  owner    : BitVec 4 := 0
  peerValid : Bool := false
  peer     : BitVec 16 := 0
  peerId   : BitVec 64 := 0
  versions : BitVec 8 := 0
  heard    : Bool := false
  seen     : Bool := false
  capsGot  : List Byte := []
  capsDone : Bool := false
  downCnt  : BitVec 16 := 0
  txNext   : Nat := 0
  replay   : List TxFrame := []
  queues   : Tab (List (List Byte)) := []
  used     : Tab Nat := []
  credit   : Tab Nat := []
  budget   : Tab Nat := []
  rxLast   : Option Nat := none
  nakSent  : Bool := false
  ackDue   : Bool := false
  granted  : Tab Nat := []
deriving DecidableEq, Repr

/-- What the device knows of an address (R441, R452 to R456): the DEVICE_ID last given there, whether a JOINED has marked it present,
whether it is recorded as departed, the protocol versions that it has given (R451; 0 when none), and the capability list learnt. -/
structure Known where
  addr     : BitVec 16
  deviceId : BitVec 64 := 0
  present  : Bool := false
  departed : Bool := false
  versions : BitVec 8 := 0
  caps     : List Byte := []
deriving DecidableEq, Repr

/-- A neighbour whose link has gone down (R454): whether its PROBE has been sent. -/
structure Probing where
  addr : BitVec 16
  id   : BitVec 64
  sent : Bool := false
deriving DecidableEq, Repr

/-- The router and its ports (R444, R460 to R467). -/
structure Fabric where
  mode  : FabMode := .unassigned
  addr  : BitVec 16 := 0
  ports : Tab Port := []
  grp   : Tab (BitVec 64) := []
  mbr   : Tab (BitVec 64) := []
  mc    : Tab (BitVec 64) := []
  arb   : BitVec 32 := 0
  lcrcCnt  : Counter := {}
  replayCnt : Counter := {}
  ecrcCnt  : Counter := {}
  dropCnt  : Counter := {}
  scrubCnt : Counter := {}
  redCnt   : Counter := {}
  known    : List Known := []
  probing  : List Probing := []
  drain    : Option Nat := none
  departing : Bool := false
deriving DecidableEq, Repr

/-! ### Gradient reduction -/

/-- A segment in a store slot (R323, R330): sums that are not +0, the flags ORed, whether anything but a zero marker arrived, the
packets that have arrived of each input, and whether it is complete and waits for its window. -/
structure Seg where
  sums    : Tab (BitVec 48) := []
  flags   : BitVec 4 := 0
  touched : Bool := false
  got     : Tab (BitVec 16) := []
  whole   : Bool := false
deriving DecidableEq, Repr

/-- A segment or packet that waits to be admitted (R331, R332): the input it belongs to, its tag, segment number, packet index
(none for a whole segment of this device), values, flags, zero marker, and the port whose buffer still holds it. -/
structure RedFrame where
  input : Nat
  slot  : Nat
  tag   : BitVec 32
  seg   : Nat
  k     : Option Nat
  vals  : List (BitVec 48)
  flags : BitVec 4
  zero  : Bool
  core  : Option Nat := none
  port  : Option (Fin 32) := none
  blocks : Nat := 0
deriving DecidableEq, Repr

/-- The reduction that a unit tracks for a bucket (R332): its tag, whether it is open, its segments, the lowest that is not done,
and at the root the copy bound to each slot (own for this device's own copy of slot 0), the slots that timed out or are excluded, whether
the root has reported missing slots, the timer and the flags stored. -/
structure Reduction where
  tag      : BitVec 32
  isOpen   : Bool := true
  segs     : Tab Seg := []
  next     : Nat := 0
  slots    : Tab (Option Nat) := []
  timer    : Bool := false
  missing  : List Nat := []
  excluded : List Nat := []
  reported : Bool := false
  flags    : BitVec 4 := 0
deriving DecidableEq, Repr

/-- A completed reduction of a bucket, as a later REDUCE_WAIT for its tag reports it (R335). -/
structure PastRed where
  tag      : BitVec 32
  missing  : List Nat
  excluded : List Nat
  flags    : BitVec 4
deriving DecidableEq, Repr

/-- The owner's window of a bucket (R334). -/
inductive RedWin where
  | empty | filling (tag : BitVec 32) | complete (tag : BitVec 32)
deriving DecidableEq, Repr

/-- A STREAM-mode segment that a core collects (R329): which elements have been delivered and their values. -/
structure StageSeg where
  vals  : Tab (BitVec 48) := []
  got   : Tab Bool := []
  flags : BitVec 4 := 0
  sent  : Bool := false
deriving DecidableEq, Repr

/-- The device's partial of a bucket (R318, R326 to R329): its tag, the cores that have closed it, the touched segments of the
fold partial with the flags of their additions, how many segments have been sent, and the staged segments of each core. -/
structure Partial where
  tag     : BitVec 32
  closed  : BitVec 16 := 0
  touched : Tab Bool := []
  flags   : Tab (BitVec 4) := []
  sending : Bool := false
  sent    : Nat := 0
  staged  : Tab (Tab StageSeg) := []
deriving DecidableEq, Repr

/-- A bucket of an installed plan: its entry, the slot weights, the partial, the unit's reduction and those completed before it, the window,
the frames that wait, and whether its parent has been lost (R348). -/
structure Bucket where
  entry   : List Byte
  weights : List Nat := []
  part    : Option Partial := none
  last    : Option (BitVec 32) := none
  red     : Option Reduction := none
  past    : List PastRed := []
  win     : RedWin := .empty
  held    : List RedFrame := []
  lost    : Bool := false
deriving DecidableEq, Repr

/-- An installed reduction plan (R320, R322). -/
structure Plan where
  header  : List Byte
  buckets : Tab (Option Bucket) := []
  ending  : Bool := false
deriving DecidableEq, Repr
/-! ### Reliability and field test -/

/-- A test request of a physical core (R620, R622). -/
structure TestReq where
  core   : Nat
  packId : Nat := 0
  mask   : Nat := 0
  defer  : Nat := 0
  keep   : Bool := false
  stop   : Bool := false
deriving DecidableEq, Repr

/-- A loaded pattern pack (R627, R629): its header, entries and body. -/
structure Pack where
  header : List Byte
  body   : List Byte
deriving DecidableEq, Repr

/-- A test in progress on a die (R621): its request, its pack as it was when the test began (R630), phase 2 or 3,
and what its record reports. -/
structure TestRun where
  req     : TestReq
  pack    : Pack
  phase   : Nat := 2
  spare   : Option Nat := none
  atStage : Bool := false
deriving DecidableEq, Repr

/-- A frame of the fault log (R633, R634). -/
structure FaultFrame where
  seq   : Nat
  bytes : List Byte
  fatal : Bool
  acked : Bool := false
deriving DecidableEq, Repr

/-- The pack store and the fault log. -/
structure Relia where
  packs   : Tab (Option Pack) := []
  log     : List FaultFrame := []
  lost    : Nat := 0
  nextSeq : Nat := 1
deriving DecidableEq, Repr

/-- How a partition stands (R549). -/
inductive PState where
  | unbound | active | scrubbing
deriving DecidableEq, Repr

/-- A partition. -/
structure Part where
  pstate    : PState := .unbound
  step      : BitVec 4 := 0
  binding   : Option Binding := none
  session   : Nat := 0
  keyValid  : Bool := false
  busy      : Bool := false
  protected_ : Bool := false
  agreement : Option Agreement := none
  hosts     : Tab HostRange := []
  sync      : SyncMode := {}
  ctlSeq    : Tab (Option (BitVec 32)) := []
  ctlFwq    : List QEntry := []
  job       : Option Job := none
  plan      : Option Plan := none
  pend      : List PendEpoch := []
  sends     : List CkptSend := []
  readWatts : Nat := 0
  readTemp  : Nat := 0
deriving DecidableEq, Repr

/-! ### Compute dies -/

/-- A migration in progress on a die (R283): AFTER, WAIT_STAGE, whether step 3 has begun, whether the streams stopped at a stage
boundary, and the streams that it has put OUT. -/
structure Migration where
  logical   : Nat
  source    : Nat
  spare     : Nat
  after     : Nat
  waitStage : Bool
  limit     : Nat := 0
  stopped   : Bool := false
  atStage   : Bool := false
  outs      : List Nat := []
deriving DecidableEq, Repr

/-- A compute die: its map and state registers (R249, R250), mesh weights (R257), Mire registers (R421, R422), the access-fault registers (R393), the arrivals that the waiter-table entries of its control cores record (R369), and its migration. -/
structure Die where
  map      : BitVec 64 := 0
  cst      : BitVec 32 := 0
  meshArb  : BitVec 32 := 0
  mergeEn  : Bool := true
  mergeCnt : Counter := {}
  atomCnt  : Counter := {}
  eyeFault : BitVec 32 := 0
  laceFault : BitVec 32 := 0
  arrivals : Tab (Option (Nat × Nat)) := []
  migration : Option Migration := none
  trigCtl  : BitVec 64 := 0
  requests : List TestReq := []
  test     : Option TestRun := none
deriving DecidableEq, Repr

/-- The controller of an HBM stack (R422). -/
structure HbmStack where
  ce       : Counter := {}
  integ    : Counter := {}
  crcRetry : Counter := {}
deriving DecidableEq, Repr

/-- A CXL port (R422, R423): status fields, counter, and whether its far tier fails until the next start-up (R404). -/
structure CxlPort where
  linkUp  : Bool := false
  down    : Bool := false
  failed  : Bool := false
  devices : BitVec 4 := 0
  pages   : BitVec 31 := 0
  integ   : Counter := {}
deriving DecidableEq, Repr

/-! ### Messages that leave the module -/

/-- A message that the module sends: to the host over Ivtu (R475, R507), on a fabric port, to an Awl core or a control core as the
result of a window access, on a management interface, or on a pin of the connector. -/
inductive Out where
  | notify (aux : Nat)
  | intr (aux : Nat)
  | dataS (addr : Nat) (bytes : List Byte)
  | dataM (addr : Nat) (bytes : List Byte)
  | cmp (addr : Nat) (err : Bool) (bytes : List Byte)
  | snpInv (addr : Nat)
  | rdS (addr : Nat)
  | rdCur (addr len : Nat)
  | invAck (addr : Nat)
  | wrCur (addr : Nat) (bytes : List Byte)
  | frame (port : Nat) (bytes : List Byte)
  | ret (core awl : Nat) (value : Nat)
  | retCtl (die core : Nat) (value : Nat)
  | read (value : Nat)
  | mgmt (iface : MgmtIface) (bytes : List Byte)
  | report (bytes : List Byte)
  | pin (name : String) (level : Bool)
deriving DecidableEq, Repr

/-- A step that the device itself owes (R1): run the front of a stream's queue, start a waiting command of a context,
run a fetched packet or take one of the block's own events, let a migration that waits for a stage boundary of a logical core look
again (R283), let a core's arbiter of a shared unit choose the command that goes on (R265), fetch the next ring entry (R482), let the health monitors of a partition's job look (R313),
take the next step of a partition's unbind or rebind (R521), or restart from step 3 of the start-up order (R536). -/
inductive Work where
  | stream (core stream : Nat)
  | start (q : QEntry)
  | run (i : Instr)
  | boundary (core : Nat)
  | resume (core : Nat) (unit : CoreUnit)
  | fetch
  | health (part : Nat)
  | scrub (part : Nat)
  | restart
  | sig (cmd : Cmd)
deriving DecidableEq, Repr
/-! ### Security: flash, configuration and firmware -/

/-- A firmware slot in flash (R530, R534, R535): whether it verified, and its header and measurement; none of either for the
shipped image. -/
structure FwSlot where
  valid  : Bool := false
  header : Option (List Byte) := none
  meas   : Option (List Byte) := none
deriving DecidableEq, Repr

/-- A configuration block in flash (R531): SEQ, the vendor items and their signature (none for the shipped ones), and the
device and operator items by ID. -/
structure CfgBlock where
  seq    : Nat := 0
  vendor : Option (List Byte × List Byte) := none
  items  : Tab (Option (List Byte)) := []
deriving DecidableEq, Repr

/-- The security engine and the flash that it guards (R517, R530 to R537, R550): among them the slot of the newest configuration block and the
block in use, which start-up took (R532, R537). -/
structure Sec where
  sup      : Tab FwSlot := [(0, { valid := true })]
  ctl      : Tab FwSlot := [(0, { valid := true })]
  supSlot  : Nat := 0
  ctlSlot  : Nat := 0
  supNext  : Nat := 0
  ctlNext  : Nat := 0
  supStaged : Bool := false
  ctlStaged : Bool := false
  supFloor : Nat := 0
  ctlFloor : Nat := 0
  cfgFloor : Nat := 0
  rpCount  : Nat := 0
  cfgs     : Tab (Option CfgBlock) := [(0, some {})]
  cfgUse   : Nat := 0
  cfgNow   : CfgBlock := {}
  session  : Nat := 0
  rooted   : Bool := false
  akReady  : Bool := false
  changing : Bool := false
  badMire  : List Nat := []
  badHbm   : List Nat := []
deriving DecidableEq, Repr

/-! ### The Metering Island -/

/-- What an occupancy frame gives for one partition (R559). -/
structure MiPart where
  active  : Bool := false
  session : Nat := 0
  runUs   : Nat := 0
  cores   : Nat := 0
  mire    : Nat := 0
  hbm     : Nat := 0
deriving DecidableEq, Repr

/-- An occupancy frame (R559). -/
structure MiFrame where
  parts     : Tab MiPart := []
  freeCores : Nat := 18
  freeMire  : Nat := 32
  freeHbm   : Nat := 128
deriving DecidableEq, Repr

/-- An open metered session (R561, R563). -/
structure MiSession where
  session   : Nat := 0
  metered   : Nat := 0
  openMs    : Nat := 0
  inputOpen : Nat := 0
  energy    : Nat := 0
  bound     : Nat := 0
  runUs     : Nat := 0
  estMs     : Nat := 0
  cond      : Bool := false
  binding   : List Byte := []
deriving DecidableEq, Repr

/-- A session as it was when it opened. -/
def MiSession.opened (x : MiSession) : MiSession := { x with energy := 0, bound := 0, runUs := 0, estMs := 0, cond := false }

/-- A committed snapshot (R562, R572). -/
structure MiSnap where
  time   : Nat := 0
  input  : Nat := 0
  dev    : Nat := 0
  mw     : Nat := 0
  mv     : Nat := 0
  status : Nat := 0
  events : Nat := 0
  open_  : Tab (Option MiSession) := []
deriving DecidableEq, Repr

/-- The Metering Island. `log` holds the unacknowledged records by number; `saved` the last checkpoint of each open session, with the MI
time and the input energy at it (R567); `signed` the MI time, the input energy and the device account that signed records and checkpoints
hold last (R558, R568). -/
structure Mi where
  powered   : Bool := false
  time      : Nat := 0
  input     : Nat := 0
  dev       : Nat := 0
  events    : Nat := 0
  recordNo  : Nat := 0
  lost      : Nat := 0
  frame     : MiFrame := {}
  runs      : Tab Nat := []
  gotFrame  : Bool := false
  sessions  : Tab (Option MiSession) := []
  metered   : Tab (Nat × Nat) := []
  log       : List (Nat × List Byte) := []
  devOpen   : Nat := 0
  devEst    : Nat := 0
  devCond   : Bool := false
  sinceUj   : Nat := 0
  sinceMs   : Nat := 0
  upMs      : Nat := 0
  powerFail : Bool := false
  holdup    : Bool := false
  outCond   : Bool := false
  changing  : Bool := false
  estimate  : Bool := false
  snap      : MiSnap := {}
  saved     : Tab (Option (MiSession × Nat × Nat)) := []
  signed    : Nat × Nat × Nat := (0, 0, 0)
  unclean   : Bool := false
  slots     : Tab FwSlot := [(0, { valid := true })]
  slot      : Nat := 0
  staged    : Bool := false
  floor     : Nat := 0
deriving DecidableEq, Repr


/-! ### Clocks, power, lead authority and pins -/

/-- Device power states (R592). -/
inductive DevState where
  | active | idle | standby | off
deriving DecidableEq, Repr

/-- The lead token (R597 to R599). -/
structure Lead where
  gen       : BitVec 64 := 0
  held      : Bool := false
  offered   : Bool := false
  frozen    : Bool := false
  die       : Nat := 0
  conflicts : BitVec 16 := 0
deriving DecidableEq, Repr

/-- The clock and power controllers (R580 to R610): power good, the root PLL and the reference, the divisors in use, those that a
switch in progress loads and the latest request that waits for its end, the limiter, the estimator with its count of valid
samples, of calm samples and of samples since its last change, the limits, the device state, the start-up step, the stagger
queue and the lead token. -/
structure Power where
  good      : Bool := false
  rootLock  : Bool := false
  refOk     : Bool := false
  div       : Nat := 4
  next      : Option Nat := none
  later     : Option Nat := none
  ctlSel    : BitVec 2 := 0
  ctlNext   : Option (BitVec 2) := none
  ctlLater  : Option (BitVec 2) := none
  switchCnt : Counter := {}
  limitCnt  : Counter := {}
  stepCnt   : Counter := {}
  limiting  : Bool := false
  cold      : Bool := true
  valid     : Nat := 0
  calm      : Nat := 0
  since     : Nat := 0
  estW      : BitVec 16 := 0
  limitW    : BitVec 16 := 0
  tLimit    : BitVec 8 := 0
  retainAfter : BitVec 24 := 0
  device    : DevState := .off
  bootStep  : BitVec 4 := 1
  refused   : Bool := false
  stagger   : List Nat := []
  refresh   : Bool := false
  lead      : Lead := {}
deriving DecidableEq, Repr

/-- The sideband pins of the connectors (R648, R649, R652); true is a high level. -/
structure Pins where
  prsnt1    : Bool := true
  prsnt2    : Bool := true
  pwrEn     : Bool := false
  modPg     : Bool := false
  modReady  : Bool := false
  removeReq : Bool := true
  ivtRst    : Bool := false
  therm     : Bool := true
  removing  : Bool := false
deriving DecidableEq, Repr
/-! ### The whole state -/

/-- The Ivtu link (R471, R472), and the lines that the host holds in S (R475): of the identity window by line, and of window h of
pool q by (65,536 q + h) * 128 + line. -/
structure Ivtu where
  up   : Bool := false
  x16  : Bool := true
  gt64 : Bool := true
  downs : Nat := 0
  turn : Nat := 0
  idLines : Tab Bool := []
  poolLines : Tab Bool := []
deriving DecidableEq, Repr

/-- The state of the module. -/
structure State where
  pending  : List Instr := []
  work     : List Work := []
  sent     : List Out := []
  freeIx   : Nat := 0
  nextId   : Nat := 0
  starting : Option QEntry := none
  waiting  : List Waiting := []
  cores    : Tab Core := []
  dies     : Tab Die := []
  eyelets  : Tab Eyelet := []
  laces    : Tab Lace := []
  tallies  : Tab Tally := []
  btn      : Tab Bittern := []
  pages    : Tab Page := []
  ctxs     : Tab Ctx := []
  parts    : Tab Part := []
  mgmtSeq  : Option (BitVec 32) := none
  mgmtFwq  : List QEntry := []
  mgmtSess : Tab (Option Agreement) := []
  mgmtCount : Tab Nat := []
  ivtu     : Ivtu := {}
  mem      : Tab Byte := []
  hostMem  : Tab Byte := []
  used     : Tab Bool := []
  poison   : Tab Bool := []
  hbm      : Tab HbmStack := []
  cxl      : Tab CxlPort := []
  fab      : Fabric := {}
  devSeq   : BitVec 32 := 0
  votes    : List MaskVote := []
  sec      : Sec := {}
  mi       : Mi := {}
  relia    : Relia := {}
  power    : Power := {}
  pins     : Pins := {}
  ready    : Bool := false
deriving DecidableEq, Repr

/-- Why the machine stops with a fault: there is no such reason, since every command of the spec leaves the module running. -/
inductive Fault where
deriving DecidableEq, Repr

/-- Why the model has no meaning for a command. -/
inductive Refusal where
  /-- Raised by the dispatch for a command whose meaning is not written. Safe: the model stops. -/
  | notModelled (mnemonic : String)
deriving DecidableEq, Repr

/-- The module right after power-on reset, before the start-up order has run (R595): nothing is powered but the always-on
domain, every table is empty, and every register holds its reset value. -/
def State.reset : State := {}

end Sys2Proof.Machine
end

