-- ==== Sys2Proof/Machine/Ops.lean ====
section
/-! DEFINITION. The named operations over the state: accessors of the sparse tables, performance counters, the Bittern
controllers, device memory behind its maps and marks, host memory over Ivtu, and the event rings. -/
namespace Sys2Proof.Machine

/-! ### Free values -/

/-- The next outcome that the manual leaves unspecified, and the state after taking it (R6). -/
def freeNat (s : State) : Nat × State := (Config.choice s.freeIx, { s with freeIx := s.freeIx + 1 })

/-- The next 64 bits of hub entropy (R61, R517). -/
def freeEntropy (s : State) : BitVec 64 × State := (Config.entropy s.freeIx, { s with freeIx := s.freeIx + 1 })

/-- The next cycle count that no rule fixes. -/
def freeCycles (s : State) : Nat × State := ((Config.cycles s.freeIx).toNat, { s with freeIx := s.freeIx + 1 })

/-! ### Accessors -/

def coreP (s : State) (p : Nat) : Core := tget {} p s.cores
def setCoreP (s : State) (p : Nat) (c : Core) : State := { s with cores := tput {} p c s.cores }
def modCoreP (s : State) (p : Nat) (f : Core → Core) : State := setCoreP s p (f (coreP s p))

def die (s : State) (d : Nat) : Die := tget {} d s.dies
def setDie (s : State) (d : Nat) (x : Die) : State := { s with dies := tput {} d x s.dies }
def modDie (s : State) (d : Nat) (f : Die → Die) : State := setDie s d (f (die s d))

/-- The die of a logical core (R249). -/
def dieOfCore (c : Nat) : Nat := c / 8
/-- The map byte of a logical core: [7] IN_SERVICE, [6] MIGRATING, [4:0] PHYS (R249). -/
def mapByte (s : State) (c : Nat) : Nat := fld (die s (dieOfCore c)).map.toNat (8 * (c % 8)) 8
/-- The physical core of a logical core (R25). -/
def physOf (s : State) (c : Nat) : Nat := fld (mapByte s c) 0 5
/-- Whether a logical core is in service (R249). -/
def inService (s : State) (c : Nat) : Bool := decide (c < 16) && bitOf (mapByte s c) 7
/-- Whether a logical core is being migrated. -/
def migrating (s : State) (c : Nat) : Bool := bitOf (mapByte s c) 6
/-- The logical core that a physical core serves, if any. -/
def logicalOf (s : State) (p : Nat) : Option Nat := (List.range 16).find? (fun c => inService s c && decide (physOf s c = p))
/-- The die of a physical core (R24). -/
def dieOfPhys (p : Nat) : Nat := if p = 17 then 1 else if p = 16 then 0 else p / 8
/-- The index of a physical core in DIE_CORE_STATE (R250). -/
def stateIndex (p : Nat) : Nat := if 16 ≤ p then 8 else p % 8
/-- The state of a physical core: 0 in service, 1 free spare, 2 fenced, 3 in test (R250). -/
def coreState (s : State) (p : Nat) : Nat := fld (die s (dieOfPhys p)).cst.toNat (2 * stateIndex p) 2
/-- Set the state of a physical core. -/
def setCoreState (s : State) (p v : Nat) : State :=
  modDie s (dieOfPhys p) (fun d =>
    { d with cst := BitVec.ofNat 32 (d.cst.toNat - coreState s p * 4 ^ stateIndex p + v * 4 ^ stateIndex p) })
/-- Set the map byte of a logical core. -/
def setMapByte (s : State) (c v : Nat) : State :=
  modDie s (dieOfCore c) (fun d =>
    { d with map := BitVec.ofNat 64 (d.map.toNat - mapByte s c * 256 ^ (c % 8) + v * 256 ^ (c % 8)) })

/-- A packet, a register access or an interrupt for a core in RETAIN or OFF puts it into the stagger queue (R591, R594). -/
def wakeCore (s : State) (k : Nat) : State :=
  match (coreP s k).power with
  | .retain | .off => { modCoreP s k (fun c => { c with power := .waking }) with
      power := { s.power with stagger := s.power.stagger ++ [k] } }
  | .waking | .run => s

/-- The core that serves a logical number. -/
def core (s : State) (c : Nat) : Core := coreP s (physOf s c)
def modCore (s : State) (c : Nat) (f : Core → Core) : State := modCoreP s (physOf s c) f

def streamOf (k : Core) (i : Nat) : Stream := tget {} i k.streams
def setStreamOf (k : Core) (i : Nat) (x : Stream) : Core := { k with streams := tput {} i x k.streams }
def stream (s : State) (c i : Nat) : Stream := streamOf (core s c) i
def modStream (s : State) (c i : Nat) (f : Stream → Stream) : State :=
  modCore s c (fun k => setStreamOf k i (f (streamOf k i)))
def awlOf (k : Core) (a : Nat) : Awl := tget {} a k.awls
def modAwl (s : State) (c a : Nat) (f : Awl → Awl) : State :=
  modCore s c (fun k => { k with awls := tmod {} a f k.awls })

def eyelet (s : State) (e : Nat) : Eyelet := tget {} e s.eyelets
def setEyelet (s : State) (e : Nat) (x : Eyelet) : State := { s with eyelets := tput {} e x s.eyelets }
def lace (s : State) (l : Nat) : Lace := tget {} l s.laces
def setLace (s : State) (l : Nat) (x : Lace) : State := { s with laces := tput {} l x s.laces }
def tally (s : State) (t : Nat) : Tally := tget {} t s.tallies
def setTally (s : State) (t : Nat) (x : Tally) : State := { s with tallies := tput {} t x s.tallies }
def page (s : State) (q : Nat) : Page := tget {} q s.pages
def setPage (s : State) (q : Nat) (x : Page) : State := { s with pages := tput {} q x s.pages }
def modPage (s : State) (q : Nat) (f : Page → Page) : State := setPage s q (f (page s q))
def ringOf (p : Page) (r : Nat) : Ring := tget {} r p.rings
def ring (s : State) (q r : Nat) : Ring := ringOf (page s q) r
def modRing (s : State) (q r : Nat) (f : Ring → Ring) : State :=
  modPage s q (fun p => { p with rings := tmod {} r f p.rings })
def slot (s : State) (q i : Nat) : Slot := tget {} i (page s q).slots
def modSlot (s : State) (q i : Nat) (f : Slot → Slot) : State :=
  modPage s q (fun p => { p with slots := tmod {} i f p.slots })
def ctx (s : State) (n : Nat) : Ctx := tget {} n s.ctxs
def setCtx (s : State) (n : Nat) (x : Ctx) : State := { s with ctxs := tput {} n x s.ctxs }
def modCtx (s : State) (n : Nat) (f : Ctx → Ctx) : State := setCtx s n (f (ctx s n))
def part (s : State) (p : Nat) : Part := tget {} p s.parts
def setPart (s : State) (p : Nat) (x : Part) : State := { s with parts := tput {} p x s.parts }
def modPart (s : State) (p : Nat) (f : Part → Part) : State := setPart s p (f (part s p))

/-- Send a message out of the module. -/
def send (s : State) (o : Out) : State := { s with sent := s.sent ++ [o] }
/-- Add a step that the device owes. -/
def owe (s : State) (w : Work) : State := { s with work := s.work ++ [w] }

/-! ### Bindings (R514) -/

/-- The binding record of a bound partition, 64 bytes; empty when unbound. -/
def bindRec (s : State) (p : Nat) : List Byte :=
  match (part s p).binding with
  | some b => b.record
  | none => []

def bound (s : State) (p : Nat) : Bool := (part s p).binding.isSome
def bCores (s : State) (p : Nat) : Nat := at_ (bindRec s p) 2 2
def bMire (s : State) (p : Nat) : Nat := at_ (bindRec s p) 4 4
def bHbm (s : State) (p : Nat) : Nat := at_ (bindRec s p) 8 16
def bPorts (s : State) (p : Nat) : Nat := at_ (bindRec s p) 24 4
def bScratch (s : State) (p : Nat) : Nat := at_ (bindRec s p) 1 1
def bCtxBase (s : State) (p : Nat) : Nat := at_ (bindRec s p) 32 4
def bCtxCount (s : State) (p : Nat) : Nat := at_ (bindRec s p) 36 4
def bFar (s : State) (p : Nat) : List FarEntry :=
  match (part s p).binding with
  | some b => b.far
  | none => []

/-- Whether a partition holds a logical core. -/
def holdsCore (s : State) (p c : Nat) : Bool := bound s p && bitOf (bCores s p) c
/-- Whether a partition holds Mire slice j of die d. -/
def holdsSlice (s : State) (p d j : Nat) : Bool := bound s p && bitOf (bMire s p) (16 * d + j)
/-- The partition that holds a logical core. -/
def partOfCore (s : State) (c : Nat) : Option Nat := (List.range 16).find? (fun p => holdsCore s p c)
/-- The partition that holds a Mire slice. -/
def partOfSlice (s : State) (d j : Nat) : Option Nat := (List.range 16).find? (fun p => holdsSlice s p d j)
/-- Whether a context number lies in a partition's range (R489). -/
def ownsCtx (s : State) (p n : Nat) : Bool :=
  bound s p && decide (bCtxBase s p ≤ n) && decide (n < bCtxBase s p + bCtxCount s p)

/-- Home die and slice of an eyelet (R352). -/
def eyeletHome (e : Nat) : Nat × Nat := (e / 8192, (e / 512) % 16)
/-- Home die and slice of a lace (R352). -/
def laceHome (l : Nat) : Nat × Nat := (l / 512, (l / 32) % 16)
/-- Home die and slice of a tally (R270). -/
def tallyHome (t : Nat) : Nat × Nat := (t / 4096, (t / 256) % 16)
def ownsEyelet (s : State) (p e : Nat) : Bool := holdsSlice s p (eyeletHome e).1 (eyeletHome e).2
def ownsLace (s : State) (p l : Nat) : Bool := holdsSlice s p (laceHome l).1 (laceHome l).2
def ownsTally (s : State) (p t : Nat) : Bool := holdsSlice s p (tallyHome t).1 (tallyHome t).2

/-! ### The Bittern controllers (R376 to R383, R664). Controller 0 is the hub's, 1 die W's and 2 die E's. -/

/-- Default TARGET, EN and PRIO of a compute-die source (R664). -/
def dieSrcDefault (src : Nat) : Nat × Bool × Nat :=
  let core (c i : Nat) (ctl : Nat) (awl : Nat) : Nat × Bool × Nat :=
    if i < 4 then (ctl, true, 6)
    else if i < 7 then (ctl, false, 2)
    else if i = 7 then (ctl, true, 12)
    else if i < 12 then (awl + i - 8, true, 8)
    else (c * 0, false, 0)
  if src < 0x100 then core (src / 32) (src % 32) ((src / 32) % 4) (4 + 4 * (src / 32))
  else if src < 0x120 then core 0 (src - 0x100) 0 36
  else if 0x180 ≤ src ∧ src ≤ 0x184 then (0, true, 10)
  else if 0x300 ≤ src ∧ src ≤ 0x303 ∨ src = 0x308 ∨ src = 0x309 then (1, true, 10)
  else if 0x304 ≤ src ∧ src ≤ 0x307 ∨ src = 0x30A then (1, false, 2)
  else if 0x380 ≤ src ∧ src ≤ 0x383 then (0, true, 12)
  else (0, false, 0)

/-- Whether this manual assigns a hub source (R379, R424, R468, R551 and the lists of the other chapters). -/
def hubSrcAssigned (src : Nat) : Bool :=
  decide (src ≤ 0x004) || (decide (0x010 ≤ src) && decide (src ≤ 0x033)) || decide (src = 0x100) || decide (src = 0x101) ||
  (decide (0x120 ≤ src) && decide (src ≤ 0x125)) || (decide (0x140 ≤ src) && decide (src ≤ 0x146)) ||
  (decide (0x180 ≤ src) && decide (src ≤ 0x186)) || (decide (0x1C0 ≤ src) && decide (src ≤ 0x1C5))

/-- Default TARGET, EN and PRIO of a hub source (R664). -/
def hubSrcDefault (src : Nat) : Nat × Bool × Nat :=
  if src = 0x001 ∨ src = 0x124 ∨ src = 0x125 ∨ src = 0x186 then (0, false, 2)
  else if src = 0x141 ∨ src = 0x182 ∨ src = 0x184 ∨ src = 0x185 then (0, true, 15)
  else if hubSrcAssigned src then (0, true, 8)
  else (0, false, 0)

/-- A source in the state that start-up gives it with the shipped defaults (R395, R664). -/
def btnDefault (ctrl src : Nat) : BtnSrc :=
  let (t, en, pr) := if ctrl = 0 then hubSrcDefault src else dieSrcDefault src
  { pend := false, active := false, target := BitVec.ofNat 8 t, group := 0, en := en, prio := BitVec.ofNat 4 pr }

def bittern (s : State) (ctrl : Nat) : Bittern := tget {} ctrl s.btn
def btnSrc (b : Bittern) (ctrl src : Nat) : BtnSrc :=
  match tget none src b.srcs with
  | some x => x
  | none => btnDefault ctrl src
def setBtnSrc (b : Bittern) (ctrl src : Nat) (x : BtnSrc) : Bittern :=
  { b with srcs := tput none src (if x = btnDefault ctrl src then none else some x) b.srcs }
def btnGrp (b : Bittern) (g : Nat) : BtnGrp := tget {} g b.grps
def btnTgt (b : Bittern) (t : Nat) : BtnTgt := tget {} t b.tgts

/-- Whether a target number is not reserved (R377). -/
def targetOk (ctrl t : Nat) : Bool := if ctrl = 0 then decide (t < 10) else decide (t < 41)

/-- The RW fields of BTN_SRC take a value: a reserved target leaves TARGET unchanged (R392). -/
def srcWrite (b : Bittern) (ctrl n v : Nat) : Bittern :=
  let x := btnSrc b ctrl n
  let t := fld v 16 8
  setBtnSrc b ctrl n { x with target := if targetOk ctrl t then BitVec.ofNat 8 t else x.target, group := BitVec.ofNat 6 (fld v 8 6), en := bitOf v 4, prio := BitVec.ofNat 4 (fld v 0 4) }

/-- The priority on top of a target's stack, if any: that of the claim, so that a stack stays in rising order when a source's PRIO is
rewritten while it is ACTIVE (R380; DEDUCED, entry 46). -/
def topPrio (b : Bittern) (t : Nat) : Option Nat :=
  match (btnTgt b t).stack with
  | [] => none
  | x :: _ => some x.2.toNat

/-- Whether a source is eligible for its target (R380). -/
def eligible (b : Bittern) (ctrl t src : Nat) : Bool :=
  let x := btnSrc b ctrl src
  x.en && x.pend && !x.active && decide (x.target.toNat = t) && !(btnGrp b x.group.toNat).running &&
  decide ((btnTgt b t).threshold.toNat ≤ x.prio.toNat) &&
  (match topPrio b t with
   | none => true
   | some p => decide (p < x.prio.toNat))

/-- The winner for a target: highest PRIO, then lowest number (R380). Only listed sources can be pending. -/
def winner (b : Bittern) (ctrl t : Nat) : Option Nat :=
  b.srcs.foldl (fun (w : Option Nat) e =>
    if eligible b ctrl t e.1 then
      match w with
      | none => some e.1
      | some x => if (btnSrc b ctrl x).prio.toNat < (btnSrc b ctrl e.1).prio.toNat then some e.1 else some x
    else w) none

/-- The host's target of a controller (R377). -/
def hostTarget (ctrl : Nat) : Nat := if ctrl = 0 then 1 else 40

/-- Change a controller; a host target whose eligible set becomes non-empty receives one INTR message (R380, R507). -/
def modBtn (s : State) (ctrl : Nat) (f : Bittern → Bittern) : State :=
  let b := bittern s ctrl
  let b' := f b
  let s' := { s with btn := tput {} ctrl b' s.btn }
  if (winner b ctrl (hostTarget ctrl)).isNone && (winner b' ctrl (hostTarget ctrl)).isSome && s.ivtu.up
  then send s' (.intr (ctrl * 256 + hostTarget ctrl)) else s'

/-- A source fires: its PEND is set (R376, R382). -/
def fire (s : State) (ctrl src : Nat) : State :=
  modBtn s ctrl (fun b => setBtnSrc b ctrl src { btnSrc b ctrl src with pend := true })

/-- Fire a hub source. -/
def fireHub (s : State) (src : Nat) : State := fire s 0 src
/-- Fire a source of a compute die. -/
def fireDie (s : State) (d src : Nat) : State := fire s (d + 1) src
/-- Fire the register access-error source (R17). -/
def regError (s : State) : State := fireHub s 0x000

/-- The controller and number of per-core source i of a physical core: by its logical number, or the core in test (R378). -/
def coreSource (s : State) (p i : Nat) : Nat × Nat :=
  match logicalOf s p with
  | some c => (dieOfCore c + 1, 32 * (c % 8) + i)
  | none => (dieOfPhys p + 1, 0x100 + i)

/-- Fire per-core source i of a physical core. -/
def fireCore (s : State) (p i : Nat) : State := let (k, n) := coreSource s p i; fire s k n

/-! ### Performance counters (R108) -/

/-- A counter after n more events. -/
def cntAdd (c : Counter) (n : Nat) : Counter :=
  let v := c.count.toNat + n
  { ovf := c.ovf || decide (2 ^ 48 ≤ v), count := BitVec.ofNat 48 v }

/-- Whether adding n wraps the counter. -/
def cntWraps (c : Counter) (n : Nat) : Bool := decide (2 ^ 48 ≤ c.count.toNat + n)

/-- A wrapped counter fires its overflow source when that source is enabled. -/
def fireIfEnabled (s : State) (wrapped : Bool) (ctrl src : Nat) : State :=
  if wrapped && (btnSrc (bittern s ctrl) ctrl src).en then fire s ctrl src else s

/-- The 64 bits of a counter register: OVF, 15 zero bits, COUNT. -/
def cntBits (c : Counter) : Nat := b2n c.ovf * 2 ^ 63 + c.count.toNat

/-- Count n events in a counter of a physical core, its overflow source being per-core source i. -/
def countCore (s : State) (p i n : Nat) (get : Core → Counter) (set : Core → Counter → Core) : State :=
  let c := get (coreP s p)
  let s' := modCoreP s p (fun k => set k (cntAdd c n))
  let (k, src) := coreSource s' p i
  fireIfEnabled s' (cntWraps c n) k src

/-! ### Device memory -/

/-- The kind of a device address (R396, R409). -/
inductive AddrKind where
  | hbm | far (port : Nat) | insole (core : Nat) | scratch (slice : Nat) | object | register | unmapped
deriving DecidableEq, Repr

/-- Where a device address lies (R396). -/
def addrKind (a : Nat) : AddrKind :=
  if a < 0xC000000000 then .hbm
  else if 0x010000000000 ≤ a ∧ a < 0x050000000000 then .far 0
  else if 0x050000000000 ≤ a ∧ a < 0x090000000000 then .far 1
  else if 0x0D0000000000 ≤ a ∧ a < 0x0D0010000000 then .insole ((a - 0x0D0000000000) / 0x1000000)
  else if 0x0E0000000000 ≤ a ∧ a < 0x0E0020000000 then .scratch ((a - 0x0E0000000000) / 0x1000000)
  else if 0x0E0100000000 ≤ a ∧ a < 0x0E0200000000 then .object
  else if 0x0E0000000000 ≤ a ∧ a < 0x0E0100000000 then .object
  else if 0x0F0000000000 ≤ a ∧ a < 0x100000000000 then .register
  else .unmapped

/-- External memory: HBM or the far tier. -/
def isExternal (a : Nat) : Bool :=
  match addrKind a with
  | .hbm => true
  | .far _ => true
  | _ => false

/-- Whether far accesses through a CXL port fail: its link went down since start-up, whatever FAILED now reads (R404). -/
def portDown (s : State) (p : Nat) : Bool := (tget {} p s.cxl).down || (tget {} p s.cxl).failed

/-- Whether an access to a device address goes through a CXL port that has failed (R404). -/
def farFails (s : State) (a : Nat) : Bool :=
  match addrKind a with
  | .far p => portDown s p
  | _ => false

/-- Whether a byte reads as poisoned: its sector is, or its far tier's link has failed (R404, R416). A fresh page reads zeros
without an access (R415). -/
def poisoned (s : State) (a : Nat) : Bool := tget false (a / 2 ^ 21) s.used && (tget false (a / 512) s.poison || farFails s a)

/-- Whether a byte of a scratch window is within SCRATCH of a bound slice (R409). -/
def scratchIn (s : State) (slice a : Nat) : Bool :=
  match partOfSlice s (slice / 16) (slice % 16) with
  | some p => decide ((a - 0x0E0000000000) % 0x1000000 < bScratch s p * 2 ^ 20)
  | none => false

/-- The byte at a device address. Unlisted bytes read as zero: a sector never written reads as zero (R415), and Insole and
scratch start at zero (R288, R425). -/
def devByte (s : State) (a : Nat) : Byte :=
  match addrKind a with
  | .hbm | .far _ => if poisoned s a then Config.poisonByte a else tget 0 a s.mem
  | .insole _ => tget 0 a s.mem
  | .scratch j => if scratchIn s j a then tget 0 a s.mem else 0
  | .object | .register | .unmapped => 0

/-- n bytes from a device address. -/
def devRead (s : State) (a n : Nat) : List Byte := (List.range n).map (fun i => devByte s (a + i))

/-- The counter-overflow source of an HBM stack's counters (R424). -/
def stackOvfSource (stack : Nat) : Nat × Nat := (stack / 4 + 1, 0x304 + stack % 4)
/-- The HBM stack of a device HBM address (R398). -/
def stackOf (a : Nat) : Nat := (a / 2 ^ 21) % 8

/-- Count a failure of a sector and fire the controller's integrity source (R416, R424). -/
def countIntegrity (s : State) (a : Nat) : State :=
  match addrKind a with
  | .hbm =>
    let k := stackOf a
    let c := (tget {} k s.hbm).integ
    let s := { s with hbm := tmod {} k (fun h => { h with integ := cntAdd c 1 }) s.hbm }
    let s := fire s (k / 4 + 1) (0x300 + k % 4)
    fireIfEnabled s (cntWraps c 1) (stackOvfSource k).1 (stackOvfSource k).2
  | .far p =>
    let c := (tget {} p s.cxl).integ
    let s := { s with cxl := tmod {} p (fun h => { h with integ := cntAdd c 1 }) s.cxl }
    let s := fireHub s (0x122 + p)
    fireIfEnabled s (cntWraps c 1) 0 (0x124 + p)
  | _ => s

/-- A sector becomes poisoned (R416). -/
def poisonSector (s : State) (a : Nat) : State :=
  countIntegrity { s with poison := tput false (a / 512) true s.poison } a

/-- The object whose slot holds an address of the direct windows (R409). -/
inductive ObjSlot where
  | eyelet (e : Nat) | lace (l : Nat) | tally (t : Nat)
deriving DecidableEq, Repr

def objectAt (a : Nat) : Option ObjSlot :=
  if 0x0E0100000000 ≤ a ∧ a < 0x0E0100100000 then some (.eyelet ((a - 0x0E0100000000) / 64))
  else if 0x0E0100100000 ≤ a ∧ a < 0x0E0100110000 then some (.lace ((a - 0x0E0100100000) / 64))
  else if 0x0E0100200000 ≤ a ∧ a < 0x0E0100280000 then some (.tally ((a - 0x0E0100200000) / 64))
  else none

/-- An access of a command to an object's slot returns 0, changes nothing and fires the object's access-error source (R273, R362, R369), on
the die where the object is at home (DESIGN CHOICE, entry 47). -/
def objectError (s : State) (a : Nat) : State :=
  match objectAt a with
  | some (.tally t) => fireDie s (tallyHome t).1 0x180
  | some (.eyelet e) => fireDie s (eyeletHome e).1 0x182
  | some (.lace l) => fireDie s (laceHome l).1 0x183
  | none => s

/-- Write bytes at a device address, all within one 512-byte sector. The first write to a fresh page clears its fresh bit
(R415); a write that covers a poisoned sector clears the poison, a partial one is dropped and counted (R416). The Insole of a core out of
service takes nothing (R287; DEDUCED, entry 47). -/
def devWriteSector (s : State) (a : Nat) (bs : List Byte) : State :=
  match addrKind a with
  | .hbm | .far _ =>
    if farFails s a || (tget false (a / 512) s.poison && decide (bs.length ≠ 512)) then countIntegrity s a
    else { s with mem := tputs 0 a bs s.mem, used := tput false (a / 2 ^ 21) true s.used, poison := tput false (a / 512) false s.poison }
  | .insole c => if inService s c then { s with mem := tputs 0 a bs s.mem } else s
  | .scratch j =>
    if scratchIn s j a then { s with mem := tputs 0 a bs s.mem } else fireDie s (j / 16) 0x309
  | .object => objectError s a
  | .register | .unmapped => s

/-- Cut bytes at sector boundaries and write each part. -/
def devWriteGo : Nat → State → Nat → List Byte → State
  | 0, s, _, _ => s
  | fuel + 1, s, a, bs =>
    if bs.isEmpty then s
    else
      let n := 512 - a % 512
      devWriteGo fuel (devWriteSector s a (bs.take n)) (a + n) (bs.drop n)

/-- Write bytes at a device address. -/
def devWrite (s : State) (a : Nat) (bs : List Byte) : State := devWriteGo (bs.length / 512 + 2) s a bs

/-- Forget every byte, poison mark and fresh mark of a range of device addresses aligned to 2 MiB (R415, R416). -/
def devForget (s : State) (lo hi : Nat) : State :=
  { s with mem := tclear lo hi s.mem, poison := tclear (lo / 512) (hi / 512) s.poison,
           used := tclear (lo / 2 ^ 21) (hi / 2 ^ 21) s.used }

/-! ### Partition address space (R397, R399) -/

/-- SLICE_MAP: the device HBM slices of a partition in ascending order (R514). -/
def sliceMap (s : State) (p : Nat) : List Nat := bitsSet (bHbm s p) 128

/-- Device address of offset o of device HBM slice n (R399). -/
def sliceAddr (n o : Nat) : Nat := (8 * (3072 * (n % 16) + o / 2 ^ 21) + n / 16) * 2 ^ 21 + o % 2 ^ 21

/-- Translate a partition address (R397); none when it is unmapped. -/
def xlate (s : State) (p a : Nat) : Option Nat :=
  if !bound s p then none
  else if a < 0x010000000000 then
    match (sliceMap s p)[a / 0x180000000]? with
    | some n => some (sliceAddr n (a % 0x180000000))
    | none => none
  else if a < 0x090000000000 then
    let pg := (a - 0x010000000000) / 2 ^ 21
    match (bFar s p).find? (fun e => decide (e.pbase ≤ pg) && decide (pg < e.pbase + e.pages)) with
    | some e => some (0x010000000000 + (e.dbase + (pg - e.pbase)) * 2 ^ 21 + a % 2 ^ 21)
    | none => none
  else
    match addrKind a with
    | .insole c => if holdsCore s p c then some a else none
    | .scratch _ => some a
    | .object => some a
    | .register =>
      if 0x0F0010000000 ≤ a ∧ a < 0x0F0010100000 then
        (if holdsCore s p ((a - 0x0F0010000000) / 0x10000) then some a else none) else none
    | _ => none

/-- Whether a partition address lies in the result pool, which is mapped for reads only (R495). -/
def inPool (s : State) (p a : Nat) : Bool :=
  match (page s p).pool with
  | some k => decide (k.base ≤ a) && decide (a < k.base + 8192 * k.count)
  | none => false

/-- Whether the 2 MiB page of a partition address is mapped, and writable when asked. -/
def pageOk (s : State) (p a : Nat) (write : Bool) : Bool := (xlate s p a).isSome && !(write && inPool s p a)

/-- The page of the core windows (R397): its windows of 64 KiB belong to their cores' partitions one by one. -/
def corePage : Nat := 0x0F0010000000 / 2 ^ 21

/-- Whether the part of a span that lies in the page of the core windows meets windows of the partition's own cores only. -/
def coreSpanOk (s : State) (p lo hi : Nat) (write : Bool) : Bool :=
  decide (hi < 0x0F0010000000) || decide (0x0F0010200000 ≤ lo) || (List.range 32).all (fun c =>
    let b := 0x0F0010000000 + 0x10000 * c
    decide (hi < b) || decide (b + 0x10000 ≤ lo) || pageOk s p b write)

/-- Whether every page from `lo` to `hi` inclusive is mapped (check 6 of R225, R663). -/
def spanOk (s : State) (p lo hi : Nat) (write : Bool) : Bool :=
  (List.range (hi / 2 ^ 21 - lo / 2 ^ 21 + 1)).all (fun i =>
    decide (lo / 2 ^ 21 + i = corePage) || pageOk s p ((lo / 2 ^ 21 + i) * 2 ^ 21) write) &&
  coreSpanOk s p lo hi write

/-- The checks of R663 on a region of n bytes: its alignment, and every page mapped, writable where asked. -/
def regionOk (s : State) (p a n align : Nat) (write : Bool) : Bool :=
  decide (a % align = 0) && decide (a + n ≤ 2 ^ 48) && (decide (n = 0) || spanOk s p a (a + n - 1) write)

/-- Whether every byte of a partition range lies in HBM (R405). -/
def spanHbm (s : State) (p lo n : Nat) : Bool :=
  (List.range ((lo + n - 1) / 2 ^ 21 - lo / 2 ^ 21 + 1)).all (fun i =>
    match xlate s p ((lo / 2 ^ 21 + i) * 2 ^ 21) with
    | some a => decide (addrKind a = .hbm)
    | none => false)

/-- Whether every byte of a partition range lies in the far tier. -/
def spanFar (s : State) (p lo n : Nat) : Bool :=
  (List.range ((lo + n - 1) / 2 ^ 21 - lo / 2 ^ 21 + 1)).all (fun i =>
    match xlate s p ((lo / 2 ^ 21 + i) * 2 ^ 21) with
    | some a => (match addrKind a with
      | .far _ => true
      | _ => false)
    | none => false)

/-- Whether a device address is no scratch of another partition's slice (R397, R409). -/
def ownScratch (s : State) (p d : Nat) : Bool :=
  match addrKind d with
  | .scratch j => holdsSlice s p (j / 16) (j % 16)
  | _ => true

/-- Read bytes at a partition address, page by page; a page that is not mapped reads as zero (callers check first), and so does scratch of
another partition's slice (R409). -/
def partReadGo : Nat → State → Nat → Nat → Nat → List Byte
  | 0, _, _, _, _ => []
  | fuel + 1, s, p, a, n =>
    if n = 0 then []
    else
      let k := min n (2 ^ 21 - a % 2 ^ 21)
      (match xlate s p a with
       | some d => if ownScratch s p d then devRead s d k else zeros k
       | none => zeros k) ++ partReadGo fuel s p (a + k) (n - k)

/-- n bytes from a partition address. -/
def partRead (s : State) (p a n : Nat) : List Byte := partReadGo (n / 2 ^ 21 + 2) s p a n

/-- Whether an engine drops a partition's accesses: its keys are destroyed, and the slot has not received new ones (R519). -/
def keyless (s : State) (p d : Nat) : Bool :=
  decide ((part s p).pstate = .scrubbing) && !(part s p).keyValid &&
  (match addrKind d with
   | .hbm | .far _ => decide (2 ≤ (part s p).step.toNat)
   | _ => false)

/-- Write bytes at a partition address, page by page; a page that is not mapped drops them, and so do the result pool, which is mapped for
reads only (R495), and scratch of another partition's slice, whose Mire raises its access error (R409). -/
def partWriteGo : Nat → State → Nat → Nat → List Byte → State
  | 0, s, _, _, _ => s
  | fuel + 1, s, p, a, bs =>
    if bs.isEmpty then s
    else
      let k := 2 ^ 21 - a % 2 ^ 21
      let s := match xlate s p a with
        | some d =>
          if !ownScratch s p d then fireDie s ((d - 0x0E0000000000) / 0x10000000) 0x309
          else if inPool s p a || keyless s p d then s else devWrite s d (bs.take k)
        | none => s
      partWriteGo fuel s p (a + k) (bs.drop k)

/-- Write bytes at a partition address. -/
def partWrite (s : State) (p a : Nat) (bs : List Byte) : State := partWriteGo (bs.length / 2 ^ 21 + 2) s p a bs

/-- Whether a range of a partition holds poisoned bytes (R416). -/
def partPoisoned (s : State) (p a n : Nat) : Bool :=
  if s.poison.isEmpty && !portDown s 0 && !portDown s 1 then false
  else (List.range n).any (fun i =>
    match xlate s p (a + i) with
    | some d => poisoned s d
    | none => false)

/-- A read beyond SCRATCH, of scratch in another partition's slice or of an object's slot fires the access-error source (R409). -/
def noteWindow (s : State) (p a : Nat) : State :=
  match xlate s p a with
  | some d =>
    (match addrKind d with
     | .scratch j => if scratchIn s j d && ownScratch s p d then s else fireDie s (j / 16) 0x309
     | .object => objectError s d
     | _ => s)
  | none => s

/-- Sectors of a range that fail because a CXL port has failed become poisoned, and are counted (R404, R416). -/
def noteRead (s : State) (p a n : Nat) : State :=
  if !portDown s 0 && !portDown s 1 then s
  else (List.range ((a + n + 511) / 512 - a / 512)).foldl (fun s i =>
    match xlate s p ((a / 512 + i) * 512) with
    | some d => if farFails s d && tget false (d / 2 ^ 21) s.used && !tget false (d / 512) s.poison then poisonSector s d else s
    | none => s) s

/-- The home die of a line (R406): the die of its stack, or bit 21 of a far address; the other die when the partition holds
no slice there. A scratch line is at home in its own slice. -/
def homeDie (s : State) (p a : Nat) : Option Nat :=
  let pick := fun (d : Nat) => if (List.range 16).any (fun j => holdsSlice s p d j) then d else 1 - d
  match addrKind a with
  | .hbm => some (pick (stackOf a / 4))
  | .far _ => some (pick (fld a 21 1))
  | .scratch j => some (j / 16)
  | _ => none

/-- Count n atomic operations or reductions at the home of a line (R422). -/
def countAtomic (s : State) (p a n : Nat) : State :=
  match homeDie s p a with
  | none => s
  | some d =>
    let c := (die s d).atomCnt
    fireIfEnabled (modDie s d (fun x => { x with atomCnt := cntAdd c n })) (cntWraps c n) (d + 1) 0x30A

/-! ### Host memory over Ivtu (R475, R504) -/

/-- n bytes of host memory, read with RdCur. -/
def hostRead (s : State) (a n : Nat) : List Byte := tgets 0 n a s.hostMem

/-- The RdCur messages of a read of host memory, one entry for its run of lines (R475). -/
def sendRdCur (s : State) (a n : Nat) : State := if s.ivtu.up && decide (n ≠ 0) then send s (.rdCur a n) else s

/-- Write host memory with WrCur; with the link down the write is discarded (R473). -/
def hostWrite (s : State) (a : Nat) (bs : List Byte) : State :=
  if s.ivtu.up then send { s with hostMem := tputs 0 a bs s.hostMem } (.wrCur a bs) else s

/-! ### Event rings (R508, R314) -/

/-- The 32 bytes of an event record (R314). -/
def eventRecord (code reason job step : Nat) (detail : List Byte) : List Byte :=
  leBytes 2 code ++ leBytes 2 reason ++ leBytes 4 job ++ leBytes 8 step ++ slice detail 0 16

/-- Send NOTIFY (R507). -/
def notify (s : State) (aux : Nat) : State := if s.ivtu.up then send s (.notify aux) else s

/-- The 12-byte IV of a direction code and a counter (R543). -/
def sealIv (dir ctr : Nat) : List Byte := leBytes 4 dir ++ leBytes 8 ctr
/-- The name of a direction (R543). -/
def dirName : Nat → List Byte
  | 1 => [0x43, 0x4D, 0x44] | 2 => [0x52, 0x45, 0x50] | 3 => [0x45, 0x56, 0x54] | _ => [0x52, 0x45, 0x53]
/-- The direction key of an agreement (R543). -/
def dirKey (a : Agreement) (dir : Nat) : List Byte := Config.kmac a.secret (dirName dir) [] 32
/-- The 16-byte envelope: LEN, PHASE, 5 reserved bytes, COUNTER (R543). -/
def envelope (len phase ctr : Nat) : List Byte := leBytes 2 len ++ leBytes 1 phase ++ zeros 5 ++ leBytes 8 ctr
/-- Seal a plaintext: envelope, ciphertext, tag; the envelope, page and ring numbers are authenticated (R543). -/
def sealBytes (a : Agreement) (dir ctr phase q r : Nat) (pt : List Byte) : List Byte :=
  let env := envelope pt.length phase ctr
  let (ct, tag) := Config.gcmSeal (dirKey a dir) (sealIv dir ctr) (env ++ leBytes 1 q ++ leBytes 1 r) pt
  env ++ slice ct 0 pt.length ++ slice tag 0 16

/-- The agreement under which a page's traffic is sealed, if it is PROTECTED (R542, R543). -/
def sealing (s : State) (q : Nat) : Option Agreement :=
  if q < 16 && (part s q).protected_ then (part s q).agreement else none

/-- The tail line of an event ring (R508). -/
def tailLine (tail lost : Nat) : List Byte := leBytes 4 tail ++ leBytes 4 lost ++ zeros 56

/-- Drop an event and count it in LOST; the tail line of a ring that is full shows the new count. -/
def dropEvent (s : State) (q : Nat) : State :=
  let ev := (page s q).ev
  let lost := if ev.lost.toNat = 2 ^ 32 - 1 then ev.lost else ev.lost + 1
  let s := modPage s q (fun p => { p with ev := { p.ev with lost := lost } })
  if ev.enable && s.ivtu.up then hostWrite s ev.base.toNat (tailLine ev.tail.toNat lost.toNat) else s

/-- Post an event on a control page's ring (R508): dropped and counted in LOST when the ring is full or disabled. -/
def postEvent (s : State) (q : Nat) (code reason job step : Nat) (detail : List Byte) : State :=
  let ev := (page s q).ev
  let size := 2 ^ ev.log2.toNat
  if !ev.enable || decide (size ≤ ev.unread) || !s.ivtu.up then
    dropEvent s q
  else
    let rec_ := eventRecord code reason job step detail
    let (bs, s) := match sealing s q with
      | some a => (sealBytes a 3 a.evtCtr 0 q 0xFF rec_,
          modPart s q (fun p => { p with agreement := some { a with evtCtr := a.evtCtr + 1 } }))
      | none => (rec_, s)
    let tail' := (ev.tail.toNat + 1) % size
    let s := hostWrite s (ev.base.toNat + 64 + bs.length * ev.tail.toNat) bs
    let s := hostWrite s ev.base.toNat (tailLine tail' ev.lost.toNat)
    let s := modPage s q (fun p => { p with ev := { p.ev with tail := BitVec.ofNat 16 tail', unread := ev.unread + 1 } })
    if !ev.notify then s
    else if ev.notifyOut then modPage s q (fun p => { p with ev := { p.ev with notifyWait := true } })
    else notify (modPage s q (fun p => { p with ev := { p.ev with notifyOut := true } })) (q * 256 + 0xFF)

/-- The partition's units are active again: a break of the Quag watch (R373). -/
def breakQuag (s : State) (p : Nat) : State :=
  if (part s p).sync.spent then modPart s p (fun x => { x with sync := { x.sync with spent := false } }) else s

/-- Post an event with JOB = 0, on the management ring. -/
def postMgmt (s : State) (code reason : Nat) (detail : List Byte) : State := postEvent s 16 code reason 0 0 detail

end Sys2Proof.Machine
end

