-- ==== Sys2Proof/Machine/EyeletOps.lean ====
section
/-! DEFINITION. The operations on one eyelet that other units use (R355, R357, R358): take, signal, scan, wait, abandon.
A waiter list stands in ascending ticket order, since tickets are handed out in order and a waiter keeps its own. -/
namespace Sys2Proof.Machine

/-- Wake sleeping waiters in ascending ticket while the budget allows (R355); an event wakes every sleeper (R357). -/
def wakeList (event : Bool) : Nat → List Waiter → List Waiter × List UnitId
  | _, [] => ([], [])
  | budget, w :: ws =>
    if w.woken then
      let (ws', us) := wakeList event budget ws
      (w :: ws', us)
    else if event || decide (w.n ≤ budget) then
      let (ws', us) := wakeList event (budget - w.n) ws
      ({ w with woken := true } :: ws', w.unit :: us)
    else
      let (ws', us) := wakeList event budget ws
      (w :: ws', us)

/-- The sum of n over woken waiters. -/
def wokenSum (ws : List Waiter) : Nat := ((ws.filter (·.woken)).map (·.n)).sum

/-- The scan of R355 on an eyelet: its new state and the units woken. -/
def scanEyelet (x : Eyelet) : Eyelet × List UnitId :=
  if x.event && x.count == 0 then (x, [])
  else
    let (ws, us) := wakeList x.event (x.count.toNat - wokenSum x.waiters) x.waiters
    ({ x with waiters := ws }, us)

/-- The Quag watch of the partition that holds an eyelet starts anew when one of its waiters wakes (R373). -/
def breakEyelet (s : State) (e : Nat) : State :=
  match partOfSlice s (eyeletHome e).1 (eyeletHome e).2 with
  | some p => breakQuag s p
  | none => s

/-- Run the scan on eyelet e; each wake's retry is a step the device owes. -/
def scan (s : State) (e : Nat) : State :=
  let (x, us) := scanEyelet (eyelet s e)
  us.foldl (fun s u => owe (breakEyelet s e) (.run (.eyeletRetry (BitVec.ofNat 14 e) u))) (setEyelet s e x)

/-- Record a fault in EYE_FAULT of the home die (R358, R362, R393): bit 31 SAT, bit 30 ACCESS. -/
def eyeFault (s : State) (d bit e : Nat) : State :=
  let f := fun (v : BitVec 32) => BitVec.ofNat 32 (setBit (v.toNat - v.toNat % 2 ^ 14 + e % 2 ^ 14) bit true)
  modDie s d (fun x => { x with eyeFault := f x.eyeFault })

/-- signal(k), or SET on an event (R355, R357, R358): the state and whether it saturated. -/
def signalEyelet (s : State) (e k : Nat) : State × Bool :=
  let x := eyelet s e
  if x.event then (scan (setEyelet s e { x with count := 1 }) e, false)
  else if 2 ^ 32 ≤ x.count.toNat + k then
    let s := setEyelet s e { x with count := BitVec.ofNat 32 (2 ^ 32 - 1), sat := true }
    let d := (eyeletHome e).1
    (scan (eyeFault (fireDie s d 0x181) d 31 e) e, true)
  else (scan (setEyelet s e { x with count := x.count + BitVec.ofNat 32 k }) e, false)

/-- A device-originated signal, as SIGNAL_ONE; 0xFFFF_FFFF names none. -/
def deviceSignal (s : State) (e : Nat) : State := if e < 16384 then (signalEyelet s e 1).1 else s

/-- take(n): the eyelet after the take, if it takes (R355); an event takes nothing and ignores n (R357). -/
def takeEyelet (x : Eyelet) (n : Nat) : Option Eyelet :=
  if x.event then (if x.count = 0 then none else some x)
  else if n ≤ x.count.toNat then some { x with count := x.count - BitVec.ofNat 32 n } else none

/-- Take a ticket and sleep (R355). -/
def sleepOn (s : State) (e n : Nat) (u : UnitId) : State :=
  let x := eyelet s e
  setEyelet s e { x with nextTicket := x.nextTicket + 1, waiters := x.waiters ++ [{ unit := u, ticket := x.nextTicket, n := n }] }

/-- Remove a unit's ticket; the remaining waiters are scanned (R359). -/
def abandonEyelet (s : State) (e : Nat) (u : UnitId) : State :=
  let x := eyelet s e
  if x.waiters.any (fun w => decide (w.unit = u)) then
    scan (setEyelet s e { x with waiters := x.waiters.filter (fun w => decide (w.unit ≠ u)) }) e
  else s

/-- Remove a unit from a lace's waiters: it takes nothing and gives nothing back (R359). -/
def abandonLace (s : State) (l : Nat) (u : UnitId) : State :=
  let x := lace s l
  setLace s l { x with waiters := x.waiters.filter (fun w => decide (w.unit ≠ u)) }

end Sys2Proof.Machine
end

