-- ==== Sys2Proof/Machine/Packet.lean ====
section
/-! DEFINITION. Transport packets of the fabric (R434, R435): building one and reading its fields. -/
namespace Sys2Proof.Machine

/-- The 32-byte header, payload and ECRC of a packet that this device originates (R434). -/
def mkPacket (version type cls : Nat) (mc : Bool) (dpart spart dst src fseq flow : Nat) (arg payload : List Byte) : List Byte :=
  let body := leBytes 1 version ++ leBytes 1 type ++ leBytes 1 (cls * 64 + b2n mc * 32) ++ leBytes 1 (dpart * 16 + spart) ++
    leBytes 2 dst ++ leBytes 2 src ++ leBytes 4 fseq ++ leBytes 3 flow ++ [0] ++ leBytes 2 payload.length ++
    slice arg 0 14 ++ payload
  body ++ leBytes 4 (crc32c body)

def pkVersion (b : List Byte) : Nat := at_ b 0 1
def pkType (b : List Byte) : Nat := at_ b 1 1
def pkClass (b : List Byte) : Nat := fld (at_ b 2 1) 6 2
def pkMc (b : List Byte) : Bool := bitOf (at_ b 2 1) 5
def pkHops (b : List Byte) : Nat := fld (at_ b 2 1) 0 5
def pkDpart (b : List Byte) : Nat := fld (at_ b 3 1) 4 4
def pkSpart (b : List Byte) : Nat := fld (at_ b 3 1) 0 4
def pkDst (b : List Byte) : Nat := at_ b 4 2
def pkSrc (b : List Byte) : Nat := at_ b 6 2
def pkFseq (b : List Byte) : Nat := at_ b 8 4
def pkFlow (b : List Byte) : Nat := fld (at_ b 12 3) 0 17
def pkPlen (b : List Byte) : Nat := at_ b 16 2
def pkArg (b : List Byte) : List Byte := slice b 18 14
def pkPayload (b : List Byte) : List Byte := slice b 32 (pkPlen b)
/-! ### Ports -/

def portOf (s : State) (q : Nat) : Port := tget {} q s.fab.ports
def setPort (s : State) (q : Nat) (x : Port) : State := { s with fab := { s.fab with ports := tput {} q x s.fab.ports } }
def modPort (s : State) (q : Nat) (f : Port → Port) : State := setPort s q (f (portOf s q))

/-- Credit blocks of 64 bytes of a DATA frame that carries a packet (R432): 8 bytes of header and 4 of LCRC. -/
def frameBlocks (b : List Byte) : Nat := ceilDiv (b.length + 12) 64

/-- A packet leaves a port's receive buffer: its blocks are granted again (R432). -/
def drainPort (s : State) (port : Option (Fin 32)) (cls blocks : Nat) : State :=
  match port with
  | some q => modPort s q.val (fun x => { x with granted := tput 0 cls (tget 0 cls x.granted + blocks) x.granted })
  | none => s

/-- Count an event of a fabric counter, with the fabric counter-overflow source (R350, R467). -/
def countFab (s : State) (n : Nat) (get : Fabric → Counter) (set : Fabric → Counter → Fabric) : State :=
  let c := get s.fab
  fireIfEnabled { s with fab := set s.fab (cntAdd c n) } (cntWraps c n) 0 0x001

def countRedDrop (s : State) : State := countFab s 1 (·.redCnt) (fun f c => { f with redCnt := c })
def countEcrc (s : State) : State := fireHub (countFab s 1 (·.ecrcCnt) (fun f c => { f with ecrcCnt := c })) 0x033
/-- A packet dropped and counted in FAB_ROUTE_DROP_CNT (R434 to R436, R446). -/
def countDrop (s : State) : State := countFab s 1 (·.dropCnt) (fun f c => { f with dropCnt := c })
/-- A packet that finds no route: counted, and the route-miss source fires (R444). -/
def routeMiss (s : State) : State := fireHub (countDrop s) 0x032
def countScrub (s : State) : State := countFab s 1 (·.scrubCnt) (fun f c => { f with scrubCnt := c })

/-! ### Origination -/

/-- A packet with its HOPS replaced. -/
def withHops (b : List Byte) (n : Nat) : List Byte := b.take 2 ++ leBytes 1 (at_ b 2 1 / 32 * 32 + n) ++ b.drop 3
/-- Whether a packet is as long as its PLEN says and its ECRC checks, over the header as the source wrote it, with HOPS 0 (R434). -/
def pkGood (b : List Byte) : Bool :=
  decide (b.length = 36 + pkPlen b) && decide (at_ b (32 + pkPlen b) 4 = crc32c ((withHops b 0).take (32 + pkPlen b)))

/-- Whether an address is recorded as departed (R456). -/
def departed (s : State) (x : BitVec 16) : Bool := s.fab.known.any (fun k => decide (k.addr = x) && k.departed)

/-- Whether the device may originate a packet: not once it has departed (R453), not to a departed address (R456), and not for a
partition that is being scrubbed, but for the supervisor's replies to a CMD or a DISC_QUERY (R442, R458). -/
def mayOriginate (s : State) (b : List Byte) : Bool :=
  decide (s.fab.mode ≠ .departed) && (pkMc b || !departed s (BitVec.ofNat 16 (pkDst b))) &&
  (decide ((part s (pkSpart b)).pstate ≠ .scrubbing) || decide (pkType b = 0x02) || decide (pkType b = 0x41))

/-- The partition that a packet of the device itself names as its source: the lowest that is not being scrubbed (R458; DESIGN CHOICE, entry 51). -/
def devSpart (s : State) : Nat := ((List.range 16).find? (fun p => decide ((part s p).pstate ≠ .scrubbing))).getD 0

/-- Whether the firmware of the die that holds the lead token can issue a shared action: the token is held and not frozen (R598). -/
def leadOk (s : State) : Bool := s.power.lead.held && !s.power.lead.frozen

/-- Whether a planned removal is under way (R453). -/
def draining (s : State) : Bool := decide (s.fab.mode = .draining) || decide (s.fab.mode = .departed)

/-- Originate a packet: the router forwards it as the device's next step (R444), and while it is in flight its partition's Quag watch starts anew
(R372, R373). -/
def sendPacket (s : State) (b : List Byte) : State :=
  if mayOriginate s b then breakQuag (owe s (.run (.packetForward none b))) (pkSpart b) else s

/-- The protocol version whose gradient wire format WIRE is (R346, R451). -/
def wireVersion (wire : Nat) : Nat := if wire = 0x10 then 1 else if wire = 0x12 then 2 else 3

/-- The protocol version of a partition's job (R450, R451); that of the plan which outlives its job, and 3 with neither. -/
def jobVersion (s : State) (p : Nat) : Nat :=
  match (part s p).job, (part s p).plan with
  | some j, _ => j.version
  | none, some x => wireVersion (at_ x.header 5 1)
  | none, none => 3

/-- The highest protocol version that an address has given in its HELLO or DISC_REPLY (R440, R442, R451); none while it has given none. -/
def peerVersion (s : State) (addr : Nat) : Option Nat :=
  if addr = s.fab.addr.toNat then some 3
  else match s.fab.known.find? (fun k => decide (k.addr.toNat = addr)) with
    | some k => if k.versions = 0 then none else some (min 3 (Nat.log2 k.versions.toNat + 1))
    | none => none

/-- Originate a packet of partition `spart` from this device, in its job's version. -/
def originate (s : State) (type cls : Nat) (mc : Bool) (dpart spart dst fseq flow : Nat) (arg payload : List Byte) : State :=
  let v := if 0x30 ≤ type ∧ type < 0x40 then 3 else if 0x40 ≤ type then 1 else jobVersion s spart
  sendPacket s (mkPacket v type cls mc dpart spart dst s.fab.addr.toNat fseq flow arg payload)

end Sys2Proof.Machine
end

