-- ==== Sys2Proof/Machine/Upsets.lean ====
section
/-! DEFINITION. What meets a command while it runs: the triggers of field tests (R619, R620), the memory errors that reach it (R402,
R416, R418), and the places where the queue's next happening comes before it has ended (R278). -/
namespace Sys2Proof.Machine

/-! ### Triggers (R619, R620, R640) -/

def trigFlagMask (s : State) (d : Nat) : Nat := fld (die s d).trigCtl.toNat 48 16
def trigCrc (s : State) (d : Nat) : Nat := fld (die s d).trigCtl.toNat 40 8
def trigRes (s : State) (d : Nat) : Nat := fld (die s d).trigCtl.toNat 32 8

/-- A trigger creates a test request for a physical core: every test of pack 0; one that has a request or is in test merges
(R620). -/
def requestTest (s : State) (k : Nat) : State :=
  let d := dieOfPhys k
  let inTest := match (die s d).test with
    | some t => decide (t.req.core = k)
    | none => false
  if inTest || (die s d).requests.any (fun r => decide (r.core = k)) then s
  else fireDie (modDie s d (fun x => { x with requests := x.requests ++ [{ core := k }] })) d 0x381

/-- A first mismatch that passed its retry counts towards RESIDUE_RETRY. -/
def countResTrigger (s : State) (k : Nat) : State :=
  let s := modCoreP s k (fun c => { c with resWin := c.resWin + 1 })
  let t := trigRes s (dieOfPhys k)
  if t ≠ 0 ∧ (coreP s k).resWin = t then requestTest s k else s

/-- A tensor block CRC failure, or a trailer residue that failed its retry, counts towards CRC. -/
def countCrcTrigger (s : State) (k : Nat) : State :=
  let s := modCoreP s k (fun c => { c with crcWin := c.crcWin + 1 })
  let t := trigCrc s (dieOfPhys k)
  if t ≠ 0 ∧ (coreP s k).crcWin = t then requestTest s k else s

/-- A block CRC fails that firmware checks for a partition: the tensor-CRC source of the die that holds the partition's lowest core fires
(R418). No core read the block, so no core's trigger counts it (DEDUCED, entry 49). -/
def fwCrcFails (s : State) (p : Nat) : State := fireDie s (dieOfCore (((List.range 16).find? (holdsCore s p)).getD 0)) 0x308

/-! ### Upsets that meet a command's memory accesses (R402, R416, R418) -/

/-- Count a corrected error of an HBM stack. -/
def countCe (s : State) (a : Nat) : State :=
  match addrKind a with
  | .hbm =>
    let k := stackOf a
    let c := (tget {} k s.hbm).ce
    fireIfEnabled { s with hbm := tmod {} k (fun h => { h with ce := cntAdd c 1 }) s.hbm } (cntWraps c 1) (stackOvfSource k).1
      (stackOvfSource k).2
  | _ => s

/-- A block CRC that failed once and passed on the second read: HBM_CRC_RETRY_CNT, and the core's trigger count (R418). -/
def countCrcRetry (s : State) (k : Option Nat) (a : Nat) : State :=
  let s := match addrKind a with
    | .hbm =>
      let j := stackOf a
      let c := (tget {} j s.hbm).crcRetry
      fireIfEnabled { s with hbm := tmod {} j (fun h => { h with crcRetry := cntAdd c 1 }) s.hbm } (cntWraps c 1)
        (stackOvfSource j).1 (stackOvfSource j).2
    | _ => s
  match k with
  | some k => countCrcTrigger s k
  | none => s

/-- The upsets of memory that reach a command before it reads; `k` is the physical core of its stream. An Insole sector that fails makes
its core unreadable for a migration (R284). -/
def memUpsets (s : State) (k : Option Nat) (l : List Upset) : State :=
  l.foldl (fun s u => match u with
    | .eccCorrected a => countCe s a.toNat
    | .sectorFails a =>
      (match addrKind a.toNat with
       | .insole c => modCore s c (fun x => { x with hurt := true })
       | _ => if isExternal a.toNat && tget false (a.toNat / 2 ^ 21) s.used then poisonSector s a.toNat else s)
    | .crcRetry a => countCrcRetry s k a.toNat
    | .residue .. => s
    | .yields _ => s) s

/-- A sector of a core's Insole fails while a command of the management context runs: its core's state cannot be read correctly (R284). -/
def insoleUpsets (s : State) (l : List Upset) : State :=
  l.foldl (fun s u => match u with
    | .sectorFails a => (match addrKind a.toNat with
      | .insole c => modCore s c (fun x => { x with hurt := true })
      | _ => s)
    | _ => s) s

/-! ### The happenings of a command in order -/

/-- Whether an entry of a command's happenings is one of the queue's. -/
def isYield : Upset → Bool
  | .yields _ => true
  | _ => false

/-- Whether it is a residue mismatch. -/
def isResidue : Upset → Bool
  | .residue .. => true
  | _ => false

/-- What still meets a command: a place that it has passed is none (R278). -/
def stillMeets (c : Cmd) (n : Nat) : List Upset :=
  c.h.upsets.filter (fun u => match u with
    | .yields m => decide (n < m.toNat)
    | _ => true)

/-- The upsets that meet the segment of a command that runs now: those before the queue's next happening. -/
def upsetsNow (c : Cmd) : List Upset := (stillMeets c c.passes).takeWhile (fun u => !isYield u)

end Sys2Proof.Machine
end

