-- ==== Sys2Proof/Machine/Command.lean ====
section
/-! DEFINITION. What is common to every command packet: the header checks of R487, result windows, starting, queueing,
waiting, completing and replying (R485 to R500). A command's own meaning is a function from the state to a result. -/
namespace Sys2Proof.Machine

/-- The code of a status (R500). -/
def statusCode : Status → Nat
  | .ok => 0x00 | .pending => 0x01 | .deferred => 0x02 | .badOpcode => 0x10 | .badParam => 0x11 | .badDescriptor => 0x12
  | .aliasWrite => 0x13 | .groupOverfull => 0x14 | .indexRange => 0x15 | .noResource => 0x20 | .contextBusy => 0x21
  | .staleClaim => 0x30 | .staleLead => 0x31 | .staleGeneration => 0x32 | .missingContribution => 0x33
  | .integrityFail => 0x40 | .residueFail => 0x41 | .partitionResetting => 0x50 | .attestDeferred => 0x51
  | .denied => 0x60 | .fenced => 0x70 | .internal => 0xFF

/-- Where a command may run (R501): a stream, a FIRMWARE context, either, fabric CMD packets only, FIRMWARE or fabric, or
the management context only. -/
inductive Runs where
  | s | f | sf | p | fp | m
deriving DecidableEq, Repr

/-- What the interpreter knows of an opcode: its number, parameter bytes, where it runs, whether it acts on the issuing
partition (R489), whether only the management context may issue it, and the bytes of the record it delivers (0 for none). -/
structure Spec where
  op    : Nat
  n     : Nat
  runs  : Runs
  needPart : Bool := true
  mgmtOnly : Bool := false
  rec_  : Nat := 0
deriving DecidableEq, Repr

/-- How a command's own meaning ends: the state, the status with its DETAIL, the record formed so far, and what the command
waits for if it has not ended, with the command as it goes on when that differs from the one that started. -/
structure Res where
  s      : State
  st     : Status := .ok
  detail : Nat := 0
  record : List Byte := []
  wait   : Option Wait := none
  cmd    : Option Cmd := none
  signed : Bool := false
deriving DecidableEq, Repr

/-- A check table in order: the first failing check decides the status and DETAIL. -/
def firstFail : List (Bool × Status × Nat) → Option (Status × Nat)
  | [] => none
  | (failed, st, d) :: rest => if failed then some (st, d) else firstFail rest

/-- Run the checks; a failing command has no effect. -/
def checked (s : State) (checks : List (Bool × Status × Nat)) (go : Unit → Res) : Res :=
  match firstFail checks with
  | some (st, d) => { s := s, st := st, detail := d }
  | none => go ()

/-! ### Sources and contexts (R489) -/

/-- The context number of a header. -/
def hdrCtx (h : Hdr) : Nat := fld h.context.toNat 0 17
/-- The partition that a packet's path belongs to; none for the management paths and for an unheld core. -/
def srcPart (s : State) : Via → Option Nat
  | .ring q _ _ => if q.val < 16 then some q.val else none
  | .slot q _ _ => if q.val < 16 then some q.val else none
  | .fabric _ _ d => some d.toNat
  | .awl c _ _ => partOfCore s c.val
  | .mgmt _ => none
  | .device p => some p.val

/-- Paths of the management context (R545). -/
def isMgmt : Via → Bool
  | .ring q _ _ => decide (q.val = 16)
  | .slot q _ _ => decide (q.val = 16)
  | .mgmt _ => true
  | _ => false

/-- Whether the Ivtu link has gone down since a packet was fetched: its replies and deliveries to host memory are discarded (R473). -/
def linkLost (s : State) : Via → Bool
  | .ring _ _ l => decide (l ≠ s.ivtu.downs)
  | .slot _ _ l => decide (l ≠ s.ivtu.downs)
  | _ => false

def isFabric : Via → Bool
  | .fabric .. => true
  | _ => false
def isDevice : Via → Bool
  | .device _ => true
  | _ => false
def isAwl : Via → Bool
  | .awl .. => true
  | _ => false
def isIface : Via → Bool
  | .mgmt _ => true
  | _ => false

/-- The control page of a path, if it is one. -/
def viaPage : Via → Option Nat
  | .ring q _ _ => some q.val
  | .slot q _ _ => some q.val
  | _ => none

/-- Check 2 of R487: the context belongs to the source's partition or is permitted from that source (R489, R494). -/
def ctxAllowed (s : State) (h : Hdr) : Bool :=
  let n := hdrCtx h
  if n = 0x10000 then isMgmt h.via
  else if n = 0x1FFFF then isAwl h.via
  else match srcPart s h.via with
    | none => false
    | some p =>
      if n = 0x10001 then bound s p && !isMgmt h.via
      else decide (n < 0x10000) && ownsCtx s p n &&
        (!isFabric h.via || decide ((ctx s n).isOpen = false) || decide ((ctx s n).kind.toNat ≤ 1))

/-- R494: the context that a packet pushed by an Awl core may name. -/
def awlCtxOk (s : State) (h : Hdr) : Bool :=
  match h.via with
  | .awl c _ i =>
    let n := hdrCtx h
    let x := ctx s n
    decide (n = 0x1FFFF) ||
    (decide (n < 0x10000) && x.isOpen && decide (x.kind = 0) && decide (x.core.toNat = c.val) &&
      decide (x.stream.toNat = i.val) && (match partOfCore s c.val with
        | some p => ownsCtx s p n
        | none => false))
  | _ => true

/-- Check 3 of R487. -/
def ctxOpen (s : State) (h : Hdr) : Bool := decide (0x10000 ≤ hdrCtx h) || (ctx s (hdrCtx h)).isOpen

/-- The kind of a context: 0 STREAM, 1 FIRMWARE, 2 REMOTE, 3 and 4 flows (R490). -/
def ctxKind (s : State) (h : Hdr) : Nat :=
  let n := hdrCtx h
  if n = 0x1FFFF then 0 else if 0x10000 ≤ n then 1 else (ctx s n).kind.toNat

/-- Check 4 of R487: none when the opcode is permitted in the context's kind and from the source. -/
def opAllowed (s : State) (h : Hdr) (sp : Spec) : Option Status :=
  let k := ctxKind s h
  let peer := isFabric h.via || isDevice h.via
  if decide (sp.runs = .p) && !peer then some .denied
  else if k = 2 then none
  else if 3 ≤ k then some .badOpcode
  else if k = 0 then
    (match sp.runs with
     | .s | .sf => none
     | _ => some .badOpcode)
  else
    (match sp.runs with
     | .s => some .badOpcode
     | .m => if hdrCtx h = 0x10000 then none else some .badOpcode
     | _ =>
       if sp.mgmtOnly && decide (hdrCtx h ≠ 0x10000) then some .denied
       else if sp.needPart && decide (hdrCtx h = 0x10000) then some .denied
       else none)

/-- The eyelet named by SIGNAL_EYELET, if any. -/
def sigEyelet (h : Hdr) : Option Nat := if h.signal.toNat = 0xFFFFFFFF then none else some h.signal.toNat

/-- Check 5 of R487: reserved header fields, PLEN, and the two addresses; RESULT_ADDR of a REMOTE context's command lies in the peer's partition
(R493). -/
def hdrFieldsOk (s : State) (h : Hdr) (sp : Spec) : Bool :=
  let fl := h.flags.toNat
  let reply := h.replyAddr.toNat
  let result := h.resultAddr.toNat
  let isRing := match h.via with
    | .ring .. => true
    | _ => false
  let kind := ctxKind s h
  let addrOk := fun (away : Bool) (a n : Nat) =>
    decide (a = 0) ||
    (if hdrCtx h = 0x10000 then !isIface h.via
     else if away then true
     else match srcPart s h.via with
       | some p => pageOk s p a true && pageOk s p (a + n - 1) true
       | none => false)
  decide (fld fl 4 12 = 0) && !bitOf fl 0 && decide (fld h.context.toNat 17 15 = 0) &&
  decide (fld h.ring.toNat 1 7 = 0) && (isRing || decide (h.ring = 0)) && decide (h.rsvdA = 0) && decide (h.rsvdB = 0) &&
  decide (h.plen.toNat % 8 = 0) && decide (sp.n ≤ h.plen.toNat) && decide (h.plen.toNat ≤ 192) &&
  allZero (h.tail.take (h.plen.toNat - sp.n)) &&
  decide (reply % 32 = 0) && decide (result % 8 = 0) && addrOk false reply 32 && addrOk (decide (kind = 2)) result (max 1 sp.rec_) &&
  (decide (kind = 2) || decide (h.timeout = 0))

/-- Whose sequence numbers a packet's SEQ belongs to on a control context: the partition's own side, or a peer endpoint. -/
def seqSource (h : Hdr) : Nat :=
  match h.via with
  | .fabric src sp _ => 1 + src.toNat * 16 + sp.toNat
  | _ => 0

/-- The last SEQ that a context has accepted. -/
def lastSeq (s : State) (h : Hdr) : Option (BitVec 32) :=
  let n := hdrCtx h
  if n = 0x10000 then s.mgmtSeq
  else if n = 0x10001 then (match srcPart s h.via with
    | some p => tget none (seqSource h) (part s p).ctlSeq
    | none => none)
  else (ctx s n).lastSeq

/-- Check 6 of R487: SEQ is newer, by serial-number arithmetic; the anonymous context skips it (R489). -/
def seqOk (s : State) (h : Hdr) : Bool :=
  decide (hdrCtx h = 0x1FFFF) ||
  (match lastSeq s h with
   | none => true
   | some q => newer32 h.seq.toNat q.toNat)

/-- Record the SEQ of an accepted command. -/
def setSeq (s : State) (h : Hdr) : State :=
  let n := hdrCtx h
  if n = 0x1FFFF then s
  else if n = 0x10000 then { s with mgmtSeq := some h.seq }
  else if n = 0x10001 then (match srcPart s h.via with
    | some p => modPart s p (fun x => { x with ctlSeq := tput none (seqSource h) (some h.seq) x.ctlSeq })
    | none => s)
  else modCtx s n (fun x => { x with lastSeq := some h.seq })

/-- The logical core and stream that a command runs on, when its context is of the STREAM kind. -/
def streamOfHdr (s : State) (h : Hdr) : Option (Nat × Nat) :=
  match h.via with
  | .awl c _ i => some (c.val, i.val)
  | _ =>
    if hdrCtx h < 0x10000 ∧ (ctx s (hdrCtx h)).kind = 0 then
      some ((ctx s (hdrCtx h)).core.toNat, (ctx s (hdrCtx h)).stream.toNat)
    else none

/-- Whether SIGNAL_EYELET names an eyelet of the source's partition, or none (R352). -/
def sigOwned (s : State) (h : Hdr) : Bool :=
  match sigEyelet h with
  | none => true
  | some e => match srcPart s h.via with
    | some p => ownsEyelet s p e
    | none => false

/-- Whether a command of this header needs a result window: it delivers a record, names no RESULT_ADDR, and its path has
windows (R487 check 8, R493, R545). -/
def needsWindow (sp : Spec) (h : Hdr) : Bool :=
  decide (0 < sp.rec_) && decide (h.resultAddr = 0) && !isFabric h.via && !isDevice h.via && !isIface h.via

/-- The page whose pool serves a command's record. -/
def poolPage (s : State) (h : Hdr) : Nat :=
  match viaPage h.via with
  | some q => q
  | none => (srcPart s h.via).getD 16

/-- The window that a pool would allocate next: one never allocated, else the one freed longest ago (R497). -/
def freeWindow (s : State) (q : Nat) : Option Nat :=
  match (page s q).pool with
  | none => none
  | some k => if k.never < k.count then some k.never else k.freed.head?

/-- The header checks of R487 in their order; none when all pass. -/
def headerCheck (s : State) (h : Hdr) (sp : Spec) : Option (Status × Nat) :=
  let busy := match srcPart s h.via with
    | some p => (part s p).busy
    | none => false
  let fencedCore := match streamOfHdr s h with
    | some (c, _) => !inService s c
    | none => false
  match firstFail [(busy, .partitionResetting, 0), (!isAwl h.via && !ctxAllowed s h, .denied, 0),
      (isAwl h.via && !awlCtxOk s h, .badParam, 1), (!ctxOpen s h, .badParam, 1)] with
  | some r => some r
  | none =>
    match opAllowed s h sp with
    | some st => some (st, 0)
    | none =>
      firstFail [(!hdrFieldsOk s h sp, .badParam, 2),
        (!seqOk s h, .badParam, 3), (fencedCore, .fenced, 0),
        (needsWindow sp h && decide (ctxKind s h ≠ 2) && (freeWindow s (poolPage s h)).isNone, .noResource, 0)]

/-! ### Result windows (R495 to R498) -/

/-- The GEN after g, modulo 2^32 and skipping 0 (R497). -/
def nextGen (g : BitVec 32) : BitVec 32 := if g + 1 = 0 then 1 else g + 1

/-- Write a window's stored header and data area into the pool's memory (R495, R496). -/
def windowBytes (w : Window) : List Byte :=
  let st := match w.state with
    | .notReady => 0
    | .ready => 1
    | .stale => 2
  leBytes 1 st ++ [0] ++ leBytes 2 w.status.toNat ++ leBytes 4 w.gen.toNat ++ leBytes 4 w.seq.toNat ++
  leBytes 4 w.ctx.toNat ++ leBytes 2 w.op.toNat ++ [0, 0] ++ leBytes 4 w.record.length ++ slice w.sealed 0 24 ++ zeros 16

def poolWindow (k : Pool) (h : Nat) : Window := tget {} h k.windows

/-- Invalidate the host's copies of the lines of `n` windows of pool q from window `hnd` (R476). -/
def dropWindows (s : State) (q hnd n : Nat) : State :=
  let lo := (q * 65536 + hnd) * 128
  let hi := lo + 128 * n
  let s' := { s with ivtu := { s.ivtu with poolLines := tclear lo hi s.ivtu.poolLines } }
  (s.ivtu.poolLines.filter (fun e => decide (lo ≤ e.1) && decide (e.1 < hi))).foldl
    (fun s e => send s (.snpInv (0x100000000 + 0x40000000 * q + 8192 * hnd + 64 * (e.1 - lo)))) s'

/-- Invalidate the host's copies of the lines of window `hnd` of pool q (R476). -/
def dropLines (s : State) (q hnd : Nat) : State := dropWindows s q hnd 1

/-- Aperture offset of byte 0 of slot i of page q (R478, R484). -/
def slotOffset (q i : Nat) : Nat := 0x10000 + 0x10000 * q + 0x1000 + 0x200 * i

/-- A control page and its pool begin anew: the host's copies of their lines are invalidated first (R476, R480). -/
def freshPage (s : State) (q : Nat) : State :=
  let s := dropWindows s q 0 65536
  let s := (page s q).slots.foldl (fun s e =>
    (e.2.heldS ++ e.2.heldM).foldl (fun s l => send s (.snpInv (slotOffset q e.1 + 64 * l.1))) s) s
  setPage s q {}

/-- Store a window, and its header and record in the partition's memory at BASE + 8,192 × h. The device invalidates the
host's copies first (R476, R497). -/
def putWindow (s : State) (q hnd : Nat) (w : Window) (mem : Bool) : State :=
  match (page s q).pool with
  | none => s
  | some k =>
    let s := modPage s q (fun p => { p with pool := some { k with windows := tput {} hnd w k.windows } })
    let s := dropLines s q hnd
    if q < 16 && mem then
      (match xlate s q (k.base + 8192 * hnd) with
       | some a => devWrite (devWrite s (a + 64) w.record) a (windowBytes w)
       | none => s)
    else s

/-- Allocate the next window of a pool for a command (R497). -/
def allocWindow (s : State) (q : Nat) (c : Cmd) : State × Option Nat :=
  match (page s q).pool, freeWindow s q with
  | some k, some hnd =>
    let old := poolWindow k hnd
    let k := if k.never < k.count then { k with never := k.never + 1 } else { k with freed := k.freed.tail }
    let op := BitVec.ofNat 16 c.op
    let w : Window :=
      { state := .notReady, status := 1, gen := nextGen old.gen, seq := c.h.seq, ctx := c.h.context, op := op, inUse := true }
    (putWindow (modPage s q (fun p => { p with pool := some k })) q hnd w true, some hnd)
  | _, _ => (s, none)

/-! ### Replies (R486, R488, R507) -/

/-- The 32 bytes of a status reply (R486). -/
def replyBytes (c : Cmd) (st : Status) (detail : Nat) (win gen : Nat) (phase : Bool) : List Byte :=
  leBytes 4 c.h.seq.toNat ++ leBytes 2 (statusCode st) ++ leBytes 2 c.op ++ leBytes 4 c.h.context.toNat ++
  leBytes 4 win ++ leBytes 4 gen ++ leBytes 4 detail ++ zeros 6 ++ leBytes 2 (b2n phase)

/-- Take the next REP counter of a partition's agreement. -/
def nextRep (s : State) (q : Nat) : Nat × State :=
  match (part s q).agreement with
  | some a => (a.repCtr, modPart s q (fun p => { p with agreement := some { a with repCtr := a.repCtr + 1 } }))
  | none => (0, s)

/-- A reply as it is written: sealed into 64 bytes when the command was fetched under PROTECTED (R543). -/
def replyForm (s : State) (c : Cmd) (q r : Nat) (phase : Bool) (bs : List Byte) : List Byte × State :=
  if c.prot then
    match (part s q).agreement with
    | some a =>
      let (n, s) := nextRep s q
      (sealBytes a 2 n (b2n phase) q r bs, s)
    | none => (bs, s)
  else (bs, s)

/-- Send a NOTIFY for a ring, or remember it while one is outstanding (R507). -/
def notifyRing (s : State) (q r : Nat) : State :=
  let x := ring s q r
  if x.notifyOut then modRing s q r (fun y => { y with notifyWait := true })
  else notify (modRing s q r (fun y => { y with notifyOut := true })) (q * 256 + r)

/-- Send a NOTIFY for a command-window slot, or remember it while one is outstanding (R507). -/
def notifySlot (s : State) (q i : Nat) : State :=
  let x := slot s q i
  if x.notifyOut then modSlot s q i (fun y => { y with notifyWait := true })
  else notify (modSlot s q i (fun y => { y with notifyOut := true })) (q * 256 + 0x10 + i)

/-- The device owes its arbiter of ring entries a turn (R482); one owed turn is enough. -/
def oweFetch (s : State) : State := if s.work.contains .fetch then s else owe s .fetch

/-- A command of ring r of page q leaves flight without a ring reply: its place is released at once (R483), and fetching
goes on up to the last TAIL written. -/
def releasePlace (s : State) (q r : Nat) : State :=
  let s := modRing s q r (fun x => { x with flight := x.flight - 1 })
  let x := ring s q r
  if x.enable && !x.halted && decide (x.sqHead ≠ x.sqTail) then oweFetch s else s

/-- Write a reply into the next slot of a completion ring (R481, R482); with the ring disabled it is discarded (R473). -/
def ringReply (s : State) (c : Cmd) (q r : Nat) (st : Status) (detail win gen : Nat) : State :=
  let x := ring s q r
  if !x.enable then releasePlace s q r
  else
    let (bs, s) := replyForm s c q r x.cqPass (replyBytes c st detail win gen x.cqPass)
    let s := hostWrite s (x.cqBase.toNat + bs.length * x.cqTail.toNat) bs
    let t := (x.cqTail.toNat + 1) % 2 ^ x.log2.toNat
    let pass := if t = 0 then !x.cqPass else x.cqPass
    let s := modRing s q r (fun y =>
      { y with cqTail := BitVec.ofNat 16 t, cqPass := pass, flight := y.flight - 1, unread := y.unread + 1 })
    if bitOf c.h.flags.toNat 1 then notifyRing s q r else s

/-- Write a reply into a slot's reply area, and clear BUSY (R484). -/
def slotReply (s : State) (c : Cmd) (q i : Nat) (st : Status) (detail win gen : Nat) : State :=
  let (bs, s) := replyForm s c q 0x10 false (replyBytes c st detail win gen false)
  let s := modSlot s q i (fun x => { x with bytes := tputs 0 256 bs x.bytes, busy := false })
  if bitOf c.h.flags.toNat 1 then notifySlot s q i else s

/-- Write a reply to REPLY_ADDR (R488): device memory, or host memory for the management page, unless the link has gone down since (R473). -/
def addrReply (s : State) (c : Cmd) (bs : List Byte) : State :=
  let s := match c.part with
    | some p => partWrite s p c.h.replyAddr.toNat bs
    | none => if linkLost s c.h.via then s else hostWrite s c.h.replyAddr.toNat bs
  match viaPage c.h.via with
  | some q => if bitOf c.h.flags.toNat 1 && !linkLost s c.h.via then notify s (q * 256 + 0xFE) else s
  | none => s

/-- Send a reply and its record on a management interface, sealed under the session open on it (R545). -/
def ifaceReply (s : State) (m : MgmtIface) (bs : List Byte) (clear : Bool) : State :=
  let k := if m = .i3c then 0 else 1
  match tget none k s.mgmtSess with
  | some a =>
    if clear then send s (.mgmt m bs)
    else
      send { s with mgmtSess := tput none k (some { a with repCtr := a.repCtr + 1 }) s.mgmtSess }
        (.mgmt m (sealBytes a 2 a.repCtr 0 0xFF 0xFF bs))
  | none => send s (.mgmt m bs)

/-- Deliver the reply to the first destination that applies (R488). SILENT suppresses REPLY_ADDR and the ring on OK; a command fetched before the
link last went down has no place in a ring any more (R473). -/
def deliver (s : State) (c : Cmd) (st : Status) (detail win gen : Nat) (record : List Byte) : State :=
  let silent := bitOf c.h.flags.toNat 2 && decide (st = .ok)
  let bs := replyBytes c st detail win gen false
  match c.h.via with
  | .ring q r _ =>
    if linkLost s c.h.via then (if c.h.replyAddr ≠ 0 && !silent then addrReply s c bs else s)
    else if c.h.replyAddr ≠ 0 then
      releasePlace (if silent then s else addrReply s c bs) q.val r.val
    else if silent then releasePlace s q.val r.val
    else ringReply s c q.val r.val st detail win gen
  | .slot q i _ =>
    if c.h.replyAddr ≠ 0 then modSlot (if silent then s else addrReply s c bs) q.val i.val (fun x => { x with busy := false })
    else slotReply s c q.val i.val st detail win gen
  | .fabric src sp dp =>
    if c.h.replyAddr ≠ 0 then (if silent then s else addrReply s c bs)
    else originate s 0x02 0 false sp.toNat dp.toNat src.toNat 0 0 [] bs
  | .mgmt m => ifaceReply s m (bs ++ record) (decide (c.op = 0x0705))
  | .awl .. | .device _ => if c.h.replyAddr ≠ 0 && !silent then addrReply s c bs else s

/-- Deliver the record: to RESULT_ADDR (R499), in host memory only while the link has stayed up since the fetch (R473), or into the command's window with READY and the final status (R497). -/
def deliverRecord (s : State) (c : Cmd) (st : Status) (record : List Byte) : State :=
  match c.win with
  | some hnd =>
    let q := poolPage s c.h
    (match (page s q).pool with
     | none => s
     | some k =>
       let w := poolWindow k hnd
       let (body, sealed, s) := match (if c.prot then (part s q).agreement else none) with
         | some a =>
           let hd := slice (windowBytes { w with state := .ready, status := BitVec.ofNat 16 (statusCode st), record := record }) 0 24
           let (ct, tag) := Config.gcmSeal (dirKey a 4) (sealIv 4 a.resCtr) hd record
           (slice ct 0 record.length, leBytes 8 a.resCtr ++ slice tag 0 16,
            modPart s q (fun p => { p with agreement := some { a with resCtr := a.resCtr + 1 } }))
         | none => (record, [], s)
       let w' : Window := { w with state := .ready, status := BitVec.ofNat 16 (statusCode st), record := body, sealed := sealed }
       putWindow s q hnd w' true)
  | none =>
    if c.h.resultAddr = 0 || record.isEmpty then s
    else match c.part with
      | some p => partWrite s p c.h.resultAddr.toNat record
      | none => if linkLost s c.h.via then s else hostWrite s c.h.resultAddr.toNat record

/-- The job's health monitors count commands that complete with RESIDUE_FAIL or MISSING_CONTRIBUTION (R313). -/
def noteHealth (s : State) (c : Cmd) (st : Status) : State :=
  match c.part with
  | none => s
  | some p =>
    if (part s p).job.isNone || !(decide (st = .residueFail) || decide (st = .missingContribution)) then s
    else
      let core := (streamOfHdr s c.h).map (·.1)
      let f := fun (x : Health) => if st = .residueFail then { x with residue := x.residue + 1, resCore := core } else { x with missing := x.missing + 1 }
      owe (modPart s p (fun x => { x with job := x.job.map (fun j => { j with health := f j.health }) })) (.health p)

/-- Complete a command: record, reply, and the signal of SIGNAL_EYELET (R485, R488, R497, R499). -/
def complete (s : State) (c : Cmd) (st : Status) (detail : Nat) (record : List Byte) : State :=
  let s := deliverRecord (noteHealth s c st) c st record
  let (win, gen) := match c.win with
    | some hnd =>
      (hnd, match (page s (poolPage s c.h)).pool with
        | some k => (poolWindow k hnd).gen.toNat
        | none => 0)
    | none => (0xFFFFFFFF, 0)
  let s := deliver s c st detail win gen record
  match sigEyelet c.h with
  | some e => if sigOwned s c.h then deviceSignal s e else s
  | none => s

/-! ### Starting, waiting and ending -/

/-- The command of an instruction and its header. -/
def mkCmd (s : State) (sp : Spec) (h : Hdr) : Cmd :=
  { op := sp.op, h := h, part := if hdrCtx h = 0x10000 then none else srcPart s h.via, win := none,
    prot := match viaPage h.via with
      | some q => decide (q < 16) && (part s q).protected_
      | none => false }

/-- The unit that runs a command: its stream, or its command context. -/
def unitOf (s : State) (h : Hdr) : UnitId :=
  match streamOfHdr s h with
  | some (c, i) => .stream (Fin.ofNat 16 c) (Fin.ofNat 3 i)
  | none => .context (BitVec.ofNat 17 (hdrCtx h)) (BitVec.ofNat 5 ((srcPart s h.via).getD 16)) h.seq

/-- At a stream's command boundary a pending seed takes effect (R67 to R69). -/
def boundary (s : State) (c i : Nat) : State :=
  match (stream s c i).seedReq with
  | none => s
  | some (.soft v) => modStream s c i (fun x => { x with gen := { seed := v, lanes := [] }, seedSoft := true, seedReq := none })
  | some .hub =>
    let (v, s) := freeEntropy s
    modStream s c i (fun x => { x with gen := { seed := v, lanes := [] }, seedSoft := false, seedReq := none })

/-- Reservations of the core's Awl cores for one stream (R267). -/
def reserved (s : State) (c i : Nat) : Nat := ((core s c).awls.filter (fun a => bitOf a.2.resv.toNat i)).length

/-- Free entries of a stream's queue of 64, the reserved ones left out (R261, R267). -/
def queueRoom (s : State) (c i : Nat) : Nat := 64 - (stream s c i).queue.length - reserved s c i

/-- Whether a logical core's physical core is in RUN (R589); a command for any other core waits at its mesh stop (R591). -/
def coreRuns (s : State) (c : Nat) : Bool := decide ((core s c).power = .run)

/-- A migration that waits for a stage boundary of a logical core looks again (R264, R283). -/
def lookBoundary (s : State) (c : Nat) : State :=
  match (die s (dieOfCore c)).migration with
  | some m => if m.logical = c ∧ !m.stopped then owe s (.boundary c) else s
  | none => s

/-- After a stream's command has ended: held packets enter the queue as it has room, and the next queued command is a step the
device owes. A stream that is stopping has reached its resume boundary (R278, R280). -/
def kickStream (s : State) (c i : Nat) : State :=
  let x := stream s c i
  if x.busy ≠ none then s
  else if x.mode = .stopping then owe s (.run (.switchOutComplete (Fin.ofNat 16 c)))
  else if x.mode = .ready ∧ coreRuns s c then
    let room := queueRoom s c i
    let q := x.queue ++ x.held.take room
    let s := if x.held.isEmpty then s else modStream s c i (fun y => { y with queue := q, held := y.held.drop room })
    if q.isEmpty then lookBoundary s c else owe s (.stream c i)
  else s

/-- The queue of a FIRMWARE context. -/
def fwQueue (s : State) (p : Option Nat) (n : Nat) : List QEntry :=
  if n = 0x10000 then s.mgmtFwq
  else if n = 0x10001 then (match p with
    | some q => (part s q).ctlFwq
    | none => [])
  else (ctx s n).fwq

def setFwQueue (s : State) (p : Option Nat) (n : Nat) (q : List QEntry) : State :=
  if n = 0x10000 then { s with mgmtFwq := q }
  else if n = 0x10001 then (match p with
    | some x => modPart s x (fun y => { y with ctlFwq := q })
    | none => s)
  else modCtx s n (fun x => { x with fwq := q })

/-- The commands of a FIRMWARE context that run. -/
def fwRunning (s : State) (p : Option Nat) (n : Nat) : List Waiting :=
  s.waiting.filter (fun w => decide (hdrCtx w.cmd.h = n) && decide (w.cmd.part = p) &&
    (match w.unit with
     | .context .. => true
     | _ => false))

/-- Whether a command may sleep on an eyelet or a lace (R361, R367). -/
def maySleep : Instr → Bool
  | .eyeletWait _ p => !bitOf p.ctl.toNat 0
  | .laceArrive _ p => bitOf p.ctl.toNat 0
  | .laceWait .. => true
  | _ => false

/-- Whether a wait is on an eyelet or a lace. -/
def syncWait : Wait → Bool
  | .eyelet .. => true
  | .lace .. => true
  | _ => false

/-- Whether a command of a FIRMWARE context must stay queued beside the commands that run there: up to 8 run at once, a BARRIER alone (R490). A
context waits on one object at a time (R353), so that a command which may sleep does not start while another sleeps; the packets of Awl cores
on the anonymous context share no unit (DEDUCED, entry 49). -/
def fwHolds (s : State) (p : Option Nat) (n : Nat) (q : QEntry) : Bool :=
  let r := fwRunning s p n
  (bitOf q.cmd.h.flags.toNat 3 && !r.isEmpty) || decide (8 ≤ r.length) ||
  (decide (n ≠ 0x1FFFF) && maySleep q.instr && r.any (fun w => syncWait w.wait))

/-- Start the queued commands of a FIRMWARE context that may start: up to 8 at once, in order, a BARRIER alone (R490). -/
def kickFw (s : State) (p : Option Nat) (n : Nat) : State :=
  match fwQueue s p n with
  | [] => s
  | q :: rest =>
    if fwHolds s p n q then s else owe (setFwQueue s p n rest) (.start q)

/-- After a command of a unit has ended. -/
def kick (s : State) (c : Cmd) (u : UnitId) : State :=
  match u with
  | .stream k i => kickStream s k.val i.val
  | _ => if (srcPart s c.h.via).isSome || hdrCtx c.h = 0x10000 then kickFw s c.part (hdrCtx c.h) else s

/-- The statuses of R352 for the eyelet that SIGNAL_EYELET names, ahead of the command's own checks. -/
def sigCheck (s : State) (h : Hdr) : Option Status :=
  match sigEyelet h with
  | none => none
  | some e => if 16384 ≤ e then some .badParam else if sigOwned s h then none else some .denied

/-- The state in which a starting command's own meaning runs: the Quag watch of its partition starts anew (R373), and its stream
stands at a command boundary, where a pending seed takes effect (R67), unless the command goes on from a resume boundary. -/
def beginCmd (s : State) (c : Cmd) : State :=
  let s := match c.part with
    | some p => breakQuag s p
    | none => s
  match streamOfHdr s c.h with
  | some (k, j) => if c.passes = 0 then boundary s k j else s
  | none => s

/-- The memory errors that meet the segment of a partition's command that starts now (R402, R416, R418). -/
def meetUpsets (s : State) (c : Cmd) : State :=
  if c.part.isNone then insoleUpsets s (upsetsNow c) else memUpsets s ((streamOfHdr s c.h).map (fun x => physOf s x.1)) (upsetsNow c)

/-- A command that has met its memory errors and has not begun its next segment. -/
def cmdHeld (c : Cmd) : Cmd :=
  let l := stillMeets c c.passes
  { c with grant := none, h := { c.h with upsets := (l.takeWhile (fun u => !isYield u)).filter isResidue ++ l.dropWhile (fun u => !isYield u) } }

/-- The shared unit that an opcode's resume units take: passes of the Sole, rows on the Welt, chunks and tiles of the movement unit
(R265, R278). -/
def unitOfOp (op : Nat) : Option CoreUnit :=
  if op = 0x0200 ∨ op = 0x0201 ∨ op = 0x0202 ∨ op = 0x0400 ∨ op = 0x0622 then some .move
  else if op = 0x0300 ∨ op = 0x0301 ∨ op = 0x0302 ∨ op = 0x0303 then some .sole
  else if op = 0x0305 ∨ op = 0x0401 ∨ op = 0x0402 then some .welt
  else none

/-- A command that stands at a resume boundary asks its unit's arbiter to go on (R265). -/
def askUnit (s : State) (k : Nat) (w : Wait) (op : Nat) : State :=
  match w, unitOfOp op with
  | .units _, some u => owe s (.resume k u)
  | _, _ => s

/-- A command that ends with INTEGRITY_FAIL leaves a fault signature to write (R632), unless its run has written one. -/
def oweSig (s : State) (c : Cmd) (st : Status) (signed : Bool) : State :=
  if st = .integrityFail ∧ !signed then owe s (.sig c) else s

/-- What a command's own meaning leads to: it completes and its unit goes on, or it waits and holds its unit. Beside a command that waits in a
FIRMWARE context the next one may start (R490). -/
def endCmd (u : UnitId) (i : Instr) (c : Cmd) (r : Res) : State :=
  match r.wait with
  | none => kick (oweSig (complete r.s c r.st r.detail r.record) c r.st r.signed) c u
  | some w =>
    let id := r.s.nextId
    let x : Waiting := { id := id, instr := i, cmd := { r.cmd.getD c with grant := none }, unit := u, wait := w, record := r.record }
    let s := { r.s with nextId := id + 1, waiting := r.s.waiting ++ [x] }
    match streamOfHdr s c.h with
    | some (k, j) => askUnit (lookBoundary (modStream s k j (fun x => { x with busy := some id })) k) k w c.op
    | none => kick s c u

/-- A command's own meaning, behind the check of the eyelet that its header names (R352). -/
def runBody (s : State) (c : Cmd) (body : State → Cmd → Res) : Res :=
  match sigCheck s c.h with
  | some st => { s := s, st := st }
  | none => body s c

/-- Run a command that starts now on its unit. -/
def startNow (s : State) (i : Instr) (c : Cmd) (body : State → Cmd → Res) : State :=
  endCmd (unitOf s c.h) i c (runBody (meetUpsets (beginCmd s c) c) c body)

/-- A waiting command ends: its unit is free, it completes, and the unit goes on. -/
def endWaiting (s : State) (w : Waiting) (st : Status) (detail : Nat) (record : List Byte) : State :=
  let s := { s with waiting := s.waiting.filter (fun x => decide (x.id ≠ w.id)) }
  let s := match w.cmd.part with
    | some p => breakQuag s p
    | none => s
  let s := match w.unit with
    | .stream k i => modStream s k.val i.val (fun x => { x with busy := if x.busy = some w.id then none else x.busy })
    | _ => s
  let peer := match w.wait with
    | .remote .. => true
    | _ => false
  kick (oweSig (complete s w.cmd st detail record) w.cmd st peer) w.cmd w.unit

/-- The waiting commands of a kind start anew, each at the front of its unit's queue. -/
def restartWaiting (s : State) (f : Waiting → Bool) : State :=
  (s.waiting.filter f).foldl (fun s w =>
    let s := { s with waiting := s.waiting.filter (fun y => decide (y.id ≠ w.id)) }
    match w.unit with
    | .stream k i =>
      let q : QEntry := { instr := w.instr, cmd := cmdHeld w.cmd }
      kickStream (modStream s k.val i.val (fun z => { z with busy := if z.busy = some w.id then none else z.busy, queue := q :: z.queue }))
        k.val i.val
    | _ => owe s (.start { instr := w.instr, cmd := cmdHeld w.cmd })) s

/-- Forward a command of a REMOTE context to its peer (R493). -/
def forwardRemote (s : State) (i : Instr) (c : Cmd) (packet : List Byte) : State :=
  let n := hdrCtx c.h
  let x := ctx s n
  let departed := s.fab.known.any (fun k => decide (k.addr = x.peer) && k.departed)
  if departed then complete s c .deferred 2 []
  else
    let bs := packet.take 4 ++ leBytes 4 x.peerCtx.toNat ++ packet.drop 8
    let s := originate s 0x01 0 false (x.peerPart.toNat % 16) (c.part.getD 0) x.peer.toNat 0 (fld x.peerCtx.toNat 0 17) []
      (bs.take (64 + c.h.plen.toNat))
    let id := s.nextId
    let w : Waiting := { id := id, instr := i, cmd := c, unit := unitOf s c.h, wait := .remote n c.h.seq.toNat }
    { s with nextId := id + 1, waiting := s.waiting ++ [w] }

/-- A REPLY_ADDR that fails check 5 itself takes no reply: the next destination of R488 applies. -/
def dropBadReply (s : State) (c : Cmd) : Cmd :=
  let a := c.h.replyAddr.toNat
  let ok := match c.part with
    | some p => pageOk s p a true
    | none => !isIface c.h.via
  if decide (a % 32 = 0) && ok then c else { c with h := { c.h with replyAddr := 0 } }

/-- Whether a frame of a management interface cannot be opened, since no management session is open there: only SESSION_AGREE travels in clear
(R542, R545). -/
def unopened (s : State) (h : Hdr) (sp : Spec) : Bool :=
  match h.via with
  | .mgmt m => decide (sp.op ≠ 0x0705) && (tget none (if m = .i3c then 0 else 1) s.mgmtSess).isNone
  | _ => false

/-- A packet reaches the command interpreter: checks, SEQ, window, and then its unit's queue or its start. -/
def arrive (s : State) (i : Instr) (sp : Spec) (h : Hdr) (packet : List Byte) (body : State → Cmd → Res) : State :=
  let c := mkCmd s sp h
  match headerCheck s h sp with
  | some (st, d) => deliver s (dropBadReply s c) st d 0xFFFFFFFF 0 []
  | none =>
    let s := setSeq s h
    if ctxKind s h = 2 then forwardRemote s i c packet
    else
      let (s, win) := if needsWindow sp h then allocWindow s (poolPage s h) c else (s, none)
      let c := { c with win := win }
      match streamOfHdr s h with
      | some (k, j) =>
        let x := stream s k j
        let s := wakeCore s (physOf s k)
        if x.mode = .ready ∧ x.busy = none ∧ x.queue = [] ∧ x.held = [] ∧ coreRuns s k then startNow s i c body
        else if 0 < queueRoom s k j ∧ x.mode ≠ .out ∧ x.held = [] then
          modStream s k j (fun y => { y with queue := y.queue ++ [{ instr := i, cmd := c }] })
        else modStream s k j (fun y => { y with held := y.held ++ [{ instr := i, cmd := c }] })
      | none =>
        let n := hdrCtx h
        if !(fwQueue s c.part n).isEmpty || fwHolds s c.part n { instr := i, cmd := c } then
          setFwQueue s c.part n (fwQueue s c.part n ++ [{ instr := i, cmd := c }])
        else startNow s i c body

/-- The meaning common to every command: one that the device starts from a queue runs at once; any other arrives now. Before
host-visible ready the interpreter takes no command (R595), and none from a management frame that no session opens (R545; DESIGN CHOICE, entry
54). -/
def command (i : Instr) (sp : Spec) (h : Hdr) (packet : List Byte) (body : State → Cmd → Res) (s : State) :
    Host.Outcome State Fault Refusal :=
  match s.starting with
  | some q => .next (startNow { s with starting := none } i q.cmd body)
  | none => if s.ready && !unopened s h sp then .next (arrive s i sp h packet body) else .next s

end Sys2Proof.Machine
end

