-- ==== Sys2Proof/Machine/Arbiter.lean ====
section
/-! DEFINITION. The arbiters of a core's shared units (R265, R266) and the resume boundaries at which its streams' commands stand
(R278). A command that meets no other on its unit runs to its end in one step, but for the places where the queue's next happening
comes; commands that share a unit go on one resume unit at a time, as the arbiter chooses. -/
namespace Sys2Proof.Machine

/-! ### The arbiter of a unit -/

def arbOf (k : Core) : CoreUnit → Arb
  | .sole => k.soleArb
  | .welt => k.weltArb
  | .move => k.moveArb

def setArb (k : Core) (u : CoreUnit) (a : Arb) : Core :=
  match u with
  | .sole => { k with soleArb := a }
  | .welt => { k with weltArb := a }
  | .move => { k with moveArb := a }

/-- What one unit of weight adds to a deficit: main cycles of the Sole and of the Welt, bytes of the movement unit (R265). -/
def quantum : CoreUnit → Nat
  | .sole => 128
  | .welt => 16
  | .move => 4096

/-- The weight of stream i in LAST_ARB (R266), as it stands at the owner change point. -/
def weightOf (k : Core) (u : CoreUnit) (i : Nat) : Nat :=
  let o := match u with
    | .sole => 0
    | .welt => 12
    | .move => 24
  fld k.arb.toNat (o + 4 * i) 4

def defOf (a : Arb) (i : Nat) : Int := if i = 0 then a.defF else if i = 1 then a.defB else a.defU
def setDef (a : Arb) (i : Nat) (v : Int) : Arb :=
  if i = 0 then { a with defF := v } else if i = 1 then { a with defB := v } else { a with defU := v }

/-- F, B and U from the arbiter's pointer on. -/
def ringFrom (p : Nat) : List Nat := [p % 3, (p + 1) % 3, (p + 2) % 3]

/-- Streams passed over without work lose their deficit. -/
def passOver (a : Arb) (work l : List Nat) : Arb := l.foldl (fun a i => if work.contains i then a else setDef a i 0) a

/-- An owner change point (R265): `work` lists the streams with work, the one that has waited longest first. -/
def chooseOwner (k : Core) (u : CoreUnit) (a : Arb) (work : List Nat) : Arb :=
  let able := fun i => work.contains i && decide (0 < weightOf k u i)
  if (match a.owner with
      | some o => able o && decide (0 < defOf a o)
      | none => false) then a
  else
    match (ringFrom a.pointer).find? able with
    | some i =>
      let a := passOver a work ((ringFrom a.pointer).takeWhile (fun j => decide (j ≠ i)))
      { setDef a i (defOf a i + ((quantum u * weightOf k u i : Nat) : Int)) with owner := some i, pointer := (i + 1) % 3 }
    | none => { passOver a work [0, 1, 2] with owner := work.head? }

/-- Stream i takes the unit for one use; `work` lists the streams that have work after it. `chosen` when the arbiter has made it the
owner already. The Sole's next owner is chosen as the pass starts, and its tile loads into the shadow registers (R76, R265). -/
def useUnit (k : Core) (u : CoreUnit) (i n : Nat) (chosen : Bool) (now after : List Nat) : Core :=
  let a := if chosen then { arbOf k u with owner := some i } else chooseOwner k u (arbOf k u) now
  if u = .sole then
    let b := chooseOwner k u a after
    setArb k u { setDef b i (defOf b i - (n : Int)) with next := b.owner }
  else setArb k u (setDef a i (defOf a i - (n : Int)))

/-- Stream i takes the unit for several uses in turn; `others` wait for it, and `more` when the stream has work after the last. -/
def useUnits (u : CoreUnit) (i : Nat) (others : List Nat) (more : Bool) : List Nat → Bool → Core → Core
  | [], _, k => k
  | n :: rest, chosen, k =>
    let after := others ++ (if rest.isEmpty && !more then [] else [i])
    useUnits u i others more rest (decide (u = .sole)) (useUnit k u i n chosen (others ++ [i]) after)

/-! ### Commands at a resume boundary -/

/-- A save or restore of a stream's region holds that stream's passes (R97). -/
def saveHolds (s : State) (c i : Nat) (u : CoreUnit) : Bool :=
  decide (u = .sole) && (match (core s c).accOp with
    | some (j, _) => decide (j = i)
    | none => false)

/-- The command of a stream that stands at a resume boundary. -/
def pausedAt (s : State) (c i : Nat) : List Waiting :=
  s.waiting.filter (fun w => match w.unit, w.wait with
    | .stream k j, .units _ => decide (k.val = c) && decide (j.val = i)
    | _, _ => false)

/-- The commands of a core that stand at a resume boundary on a unit and may go on, in the order in which they began to wait. -/
def pausedOn (s : State) (c : Nat) (u : CoreUnit) : List (Nat × Waiting) :=
  s.waiting.filterMap (fun w => match w.unit, w.wait with
    | .stream k i, .units _ =>
      if decide (k.val = c) && decide (unitOfOp w.cmd.op = some u) && decide ((stream s c i.val).mode = .ready) &&
          !saveHolds s c i.val u then some (i.val, w) else none
    | _, _ => none)

/-- A command waits before its next resume unit. -/
def holdAt (s : State) (c : Cmd) : Res := { s := s, wait := some (.units c.passes), cmd := some (cmdHeld c) }

/-- A command that would share its unit, or whose region a save holds, stands before its next resume unit until the arbiter grants it
the unit. -/
def onUnit (u : CoreUnit) (body : State → Cmd → Res) (s : State) (c : Cmd) : Res :=
  match streamOfHdr s c.h with
  | none => body s c
  | some (k, i) =>
    if c.grant.isNone && (!(pausedOn s k u).isEmpty || saveHolds s k i u) then holdAt s c
    else body s c

/-- The arbiter chooses the command that goes on: until its end when no other waits for the unit, else for one resume unit. -/
def arbiterPick (s : State) (c : Nat) (u : CoreUnit) : Option (QEntry × State) :=
  let ws := pausedOn s c u
  let work := ws.map (·.1)
  let k := core s c
  let a := arbOf k u
  let a := match (if u = .sole then a.next else none) with
    | some n => if work.contains n then { a with owner := some n } else chooseOwner k u a work
    | none => chooseOwner k u a work
  match a.owner.bind (fun o => ws.find? (fun x => decide (x.1 = o))) with
  | none => none
  | some (i, w) =>
    let s := { s with waiting := s.waiting.filter (fun y => decide (y.id ≠ w.id)) }
    let s := modCore s c (fun k => setArb k u { a with next := none })
    let s := modStream s c i (fun x => { x with busy := none })
    some ({ instr := w.instr, cmd := { w.cmd with grant := some (if ws.length ≤ 1 then 0 else w.cmd.passes + 1) } }, s)

/-! ### Segments of a command -/

/-- The number of units after which the queue's next happening comes, when the command has not done them. -/
def nextYield (c : Cmd) : Option Nat :=
  match (stillMeets c c.passes).find? isYield with
  | some (.yields n) => some n.toNat
  | _ => none

/-- Where a segment of a command of `n` units ends, when that is before the command's end. -/
def segmentEnd (c : Cmd) (n : Nat) : Option Nat :=
  let lim := match c.grant with
    | some (g + 1) => (match nextYield c with
      | some y => some (min (g + 1) y)
      | none => some (g + 1))
    | _ => nextYield c
  match lim with
  | some u => if u < n then some u else none
  | none => none

/-- The command as it goes on with `n` units done: what has met it is over, and so is the queue's happening that stopped it. -/
def cmdAfter (c : Cmd) (n : Nat) (integ oob : Bool) (st : Status) (tally : List Nat) : Cmd :=
  { c with passes := n, grant := none, integ := integ, oob := oob, st := st, tally := tally,
           h := { c.h with upsets := match (stillMeets c c.passes).dropWhile (fun u => !isYield u) with
             | .yields m :: rest => if m.toNat ≤ n then rest else .yields m :: rest
             | l => l } }

end Sys2Proof.Machine
end

