-- ==== Sys2Proof/Machine/JobOps.lean ====
section
/-! DEFINITION. What other units use of a job: its record's fields, its events, the hook that a lace release runs, and the
command packets that the device originates to its peers. -/
namespace Sys2Proof.Machine

def job (s : State) (p : Nat) : Option Job := (part s p).job
def setJob (s : State) (p : Nat) (j : Job) : State := modPart s p (fun x => { x with job := some j })
def modJob (s : State) (p : Nat) (f : Job → Job) : State := modPart s p (fun x => { x with job := x.job.map f })

/-- Fields of a job record (R290). -/
def jTag (j : Job) : Nat := at_ j.record 0 4
def jRank (j : Job) : Nat := at_ j.record 4 2
def jWays (j : Job) : Nat := at_ j.record 6 2
def jLace (j : Job) : Nat := at_ j.record 88 2
def jStages (j : Job) : Nat := at_ j.record 90 2
def jGathers (j : Job) : Nat := at_ j.record 92 2
def jEyelet (j : Job) : Nat := at_ j.record 96 4
def jTokens (j : Job) : Nat := at_ j.record 100 2
def jGateEvery (j : Job) : Nat := at_ j.record 104 4
/-- CORES of stage entry i. -/
def jStageCores (j : Job) (i : Nat) : Nat := at_ j.stages (8 * i + 2) 2
/-- The logical cores of all stages. -/
def jCores (j : Job) : List Nat :=
  (List.range 16).filter (fun c => (List.range (jStages j)).any (fun i => bitOf (jStageCores j i) c))

/-- Post an event of a partition's job (R314): JOB and STEP are the job's, or 0 without one. -/
def postPart (s : State) (p code reason : Nat) (detail : List Byte) : State :=
  match job s p with
  | some j => postEvent s p code reason (jTag j) j.step.toNat detail
  | none => postEvent s p code reason 0 0 detail

/-- Whether STEP_LACE has released for the job's current step (R292, R368). -/
def laceDone (s : State) (j : Job) : Bool := decide (j.step.toNat < (lace s (jLace j)).gen.toNat)

/-- The moment STEP_LACE has released for the current step: a gated step sends STEP_GATE once, and the advance is a step the
device owes (R292). -/
def afterLace (s : State) (p : Nat) : State :=
  match job s p with
  | none => s
  | some j =>
    if !laceDone s j then s
    else
      let n := j.step.toNat + 1
      let s := if decide (jGateEvery j ≠ 0) && decide (n % jGateEvery j = 0) && decide (j.gateSent ≠ some n) then
          postPart (breakQuag (setJob s p { j with gateSent := some n }) p) p 0x0103 0 (leBytes 8 n)
        else s
      owe s (.run (.stepAdvance (Fin.ofNat 16 p)))

/-- A lace of partition p has released. -/
def laceReleased (s : State) (p l : Nat) : State :=
  match job s p with
  | some j => if jLace j = l then afterLace s p else s
  | none => s

/-- The header of a command that the device originates for a peer's control context (R489): no reply address, no signal. -/
def peerHdr (seq : BitVec 32) (params : List Byte) : Hdr :=
  { via := .device 0, flags := 0, context := 0x10001, seq := seq, plen := BitVec.ofNat 16 params.length, ring := 0, rsvdA := 0,
    replyAddr := 0, resultAddr := 0, signal := 0xFFFFFFFF, timeout := 0, rsvdB := 0, tail := [], objs := [], upsets := [] }

/-- Send a CMD packet of partition p to the control context of the same partition number of a device or of a multicast group
(R365, R207, R489). -/
def peerCommand (s : State) (p dst : Nat) (mc : Bool) (op : Nat) (params : List Byte) : State :=
  let body := packetBytes op (peerHdr s.devSeq params) params
  originate { s with devSeq := s.devSeq + 1 } 0x01 0 mc p p dst 0 0x10001 [] body

end Sys2Proof.Machine
end

