-- ==== Sys2Proof/Machine/LogTable.lean ====
section
/-! DEFINITION. Powers of two at 1/2^24 octave, held with 96 fraction bits. The conversion table T of R55, the
approximation of log2 of R51 and the probabilities of R59 are all taken from them. -/
namespace Sys2Proof.Machine

/-- floor(2^(2^-i) × 2^96) for i from 1 to 24: the factor of each fraction bit of an exponent. -/
def expFactors : List Nat :=
  [0x16a09e667f3bcc908b2fb1366, 0x1306fe0a31b7152de8d5a4630, 0x1172b83c7d517adcdf7c8c50e,
   0x10b5586cf9890f6298b92b718, 0x1059b0d31585743ae7c548eb6, 0x102c9a3e778060ee6f7caca4f,
   0x10163da9fb33356d84a66ae33, 0x100b1afa5abcbed6129ab13ec, 0x10058c86da1c09ea1ff19d294,
   0x1002c605e2e8cec506d21bfc8, 0x100162f3904051fa128bca9c5, 0x1000b175effdc76ba38e31671,
   0x100058ba01fb9f96d6cacd4b1, 0x10002c5cc37da9491d0985c34, 0x1000162e525ee054754457d59,
   0x10000b17255775c040618bf4a, 0x1000058b91b5bc9ae2eed81e9, 0x100002c5c89d5ec6ca4d7c8ac,
   0x10000162e43f4f831060e02d8, 0x100000b1721bcfc99d9f890ea, 0x10000058b90cf1e6d97f9ca14,
   0x1000002c5c863b73f016468f6, 0x100000162e430e5a18f6119e3, 0x1000000b1721835514b86e6d9]

/-- 2^(n / 2^24) with 96 fraction bits, for n below 2^24, by the bits of n from the highest. -/
def exp2Frac (n : Nat) : Nat :=
  ((expFactors.zip (List.range 24)).foldl
    (fun (p : Nat) fi => if bitOf n (23 - fi.2) then (p * fi.1) >>> 96 else p) (2 ^ 96))

/-- T[j] of R55: 2^(j/256) rounded to nearest with 48 fraction bits. -/
def tableT (j : Nat) : Nat := (exp2Frac (j * 65536) + 2 ^ 47) >>> 48

/-- The largest n below 2^24 with 2^(n / 2^24) at or below a significand given with 96 fraction bits. -/
def log2Frac (m : Nat) : Nat :=
  ((expFactors.zip (List.range 24)).foldl
    (fun (a : Nat × Nat) fi =>
      let p := (a.1 * fi.1) >>> 96
      if p ≤ m then (p, a.2 + 2 ^ (23 - fi.2)) else a) (2 ^ 96, 0)).2

end Sys2Proof.Machine
end

