-- ==== Sys2Proof/Machine/Num.lean ====
section
/-! DEFINITION. Number formats and conversions of Logarithmic Formats and the A48 Accumulator: values, encodings,
rounding to nearest and stochastic, and the four flags of R63 that each conversion raises. -/
namespace Sys2Proof.Machine

/-- Element formats of R34. -/
inductive Elem where
  | l4 | l8 | l16 | l16s | a48 | bf16 | fp16 | fp32 | e4m3 | e5m2 | u8 | u16 | u32 | s32 | u64
deriving DecidableEq, Repr

/-- The format of an element format code; every code not listed in R34 is reserved. -/
def elemOfCode : Nat → Option Elem
  | 0x01 => some .l4 | 0x02 => some .l8 | 0x03 => some .l16 | 0x04 => some .l16s | 0x08 => some .a48
  | 0x10 => some .bf16 | 0x11 => some .fp16 | 0x12 => some .fp32 | 0x13 => some .e4m3 | 0x14 => some .e5m2
  | 0x30 => some .u8 | 0x31 => some .u16 | 0x32 => some .u32 | 0x33 => some .s32 | 0x34 => some .u64
  | _ => none

/-- The code of an element format (R34). -/
def elemCode : Elem → Nat
  | .l4 => 0x01 | .l8 => 0x02 | .l16 => 0x03 | .l16s => 0x04 | .a48 => 0x08
  | .bf16 => 0x10 | .fp16 => 0x11 | .fp32 => 0x12 | .e4m3 => 0x13 | .e5m2 => 0x14
  | .u8 => 0x30 | .u16 => 0x31 | .u32 => 0x32 | .s32 => 0x33 | .u64 => 0x34

/-- Bits of one element in memory (R34). -/
def elemBits : Elem → Nat
  | .l4 => 4 | .l8 => 8 | .l16 => 16 | .l16s => 16 | .a48 => 64 | .bf16 => 16 | .fp16 => 16 | .fp32 => 32
  | .e4m3 => 8 | .e5m2 => 8 | .u8 => 8 | .u16 => 16 | .u32 => 32 | .s32 => 32 | .u64 => 64

/-- Bytes of one element of a format of one byte or more (R219). -/
def elemBytes (e : Elem) : Nat := elemBits e / 8

/-- Formats with a block scale (R34). -/
def elemScaled : Elem → Bool
  | .l4 | .l8 | .l16s => true
  | _ => false

/-- Logarithmic formats (R34). -/
def elemLog : Elem → Bool
  | .l4 | .l8 | .l16 | .l16s => true
  | _ => false

/-- Integer formats, which move without conversion (R36). -/
def elemInt : Elem → Bool
  | .u8 | .u16 | .u32 | .s32 | .u64 => true
  | _ => false

/-- Sticky flags, bit order of R64: invalid, overflow, underflow, inexact from bit 3 down. -/
abbrev Flags := BitVec 4
def fInvalid : Flags := 8
def fOverflow : Flags := 4
def fUnderflow : Flags := 2
def fInexact : Flags := 1

/-- A flag when a condition holds. -/
def flagIf (c : Bool) (f : Flags) : Flags := if c then f else 0

/-- The value of an element. `nan lin` is NaN or NaL; `lin` marks a NaN of a linear format, whose conversion to a log
format raises invalid (R63). `fin` is man × 2^exp with man not 0; `log` is exactly 2^(t/256). -/
inductive Val where
  | zero (neg : Bool)
  | inf (neg : Bool)
  | nan (lin : Bool)
  | fin (neg : Bool) (man : Nat) (exp : Int)
  | log (neg : Bool) (t : Int)
deriving DecidableEq, Repr

/-- Finite and not zero (R52). -/
def valFinite : Val → Bool
  | .fin .. => true
  | .log .. => true
  | _ => false

/-- The sign of a value; NaN has none. -/
def valNeg : Val → Bool
  | .zero n => n
  | .inf n => n
  | .nan _ => false
  | .fin n _ _ => n
  | .log n _ => n

/-! ### Rounding a significand -/

/-- floor(log2) of man × 2^exp. -/
def finExp (man : Nat) (exp : Int) : Int := (Nat.log2 man : Int) + exp

/-- Round man × 2^exp to frac fraction bits: to nearest even, or with the 32-bit draw `u` of R60. With `sub`, values below
2^emin keep the quantum of 2^emin. Answers (m, q, inexact) for the value m × 2^q, with m below 2^(frac+1). -/
def roundMan (frac : Nat) (emin : Int) (sub : Bool) (sr : Option Nat) (man : Nat) (exp : Int) : Nat × Int × Bool :=
  let e := finExp man exp
  let q := (if sub && decide (e < emin) then emin else e) - (frac : Int)
  if q ≤ exp then (man <<< (exp - q).toNat, q, false)
  else
    let s := (q - exp).toNat
    let lo := man >>> s
    let rem := man % 2 ^ s
    let up := match sr with
      | none => decide (2 ^ s < 2 * rem) || (decide (2 * rem = 2 ^ s) && lo % 2 == 1)
      | some u => decide (2 ^ 32 ≤ ((rem <<< 32) >>> s) + u)
    let m := lo + b2n up
    if m = 2 ^ (frac + 1) then (2 ^ frac, q + 1, decide (rem ≠ 0)) else (m, q, decide (rem ≠ 0))

/-! ### Linear formats (R35) -/

/-- A linear format: exponent bits, fraction bits, bias, and whether the all-ones exponent holds infinity and NaN only. -/
structure LinFmt where
  ebits : Nat
  frac  : Nat
  bias  : Nat
  ieee  : Bool
  nanCode : Nat
deriving DecidableEq, Repr

/-- The five linear formats of R35 with their canonical quiet NaN (R44). -/
def linFmt : Elem → Option LinFmt
  | .bf16 => some ⟨8, 7, 127, true, 0x7FC0⟩
  | .fp16 => some ⟨5, 10, 15, true, 0x7E00⟩
  | .fp32 => some ⟨8, 23, 127, true, 0x7FC00000⟩
  | .e4m3 => some ⟨4, 3, 7, false, 0x7F⟩
  | .e5m2 => some ⟨5, 2, 15, true, 0x7E⟩
  | _ => none

/-- The value of a linear encoding (R35). -/
def linDec (f : LinFmt) (c : Nat) : Val :=
  let neg := bitOf c (f.ebits + f.frac)
  let e := fld c f.frac f.ebits
  let m := fld c 0 f.frac
  let top := 2 ^ f.ebits - 1
  if f.ieee && decide (e = top) then (if m = 0 then .inf neg else .nan true)
  else if !f.ieee && decide (e = top) && decide (m = 2 ^ f.frac - 1) then .nan true
  else if e = 0 then (if m = 0 then .zero neg else .fin neg m (1 - (f.bias : Int) - f.frac))
  else .fin neg (2 ^ f.frac + m) ((e : Int) - f.bias - f.frac)

/-- Largest finite significand and its exponent of the unit in the last place. -/
def linMax (f : LinFmt) : Nat × Int :=
  if f.ieee then (2 ^ (f.frac + 1) - 1, (2 ^ f.ebits - 2 : Nat) - (f.bias : Int) - f.frac)
  else (2 ^ (f.frac + 1) - 2, (2 ^ f.ebits - 1 : Nat) - (f.bias : Int) - f.frac)

/-- Pack sign, significand and exponent of the last place; significands below 2^frac are subnormal. -/
def linPack (f : LinFmt) (neg : Bool) (m : Nat) (q : Int) : Nat :=
  let s := b2n neg * 2 ^ (f.ebits + f.frac)
  if m < 2 ^ f.frac then s + m
  else s + (q + f.bias + f.frac).toNat * 2 ^ f.frac + (m - 2 ^ f.frac)

/-- Round a finite magnitude to a linear format under SATURATE and ROUND (R49, R55, R56, R60). `inx` marks a magnitude
that already differs from the exact value (a table entry of R55). -/
def linRound (f : LinFmt) (sat : Bool) (sr : Option Nat) (neg : Bool) (man : Nat) (exp : Int) (inx : Bool) : Nat × Flags :=
  let emin : Int := 1 - (f.bias : Int)
  let (m, q, r) := roundMan f.frac emin true sr man exp
  let (mm, mq) := linMax f
  let inexact := r || inx
  let excess := decide (mq < q) || (decide (q = mq) && decide (mm < m))
  if excess then
    let flags := fOverflow ||| fInexact
    if f.ieee && !sat then (linPack f neg (2 ^ f.frac) (mq + 1), flags) else (linPack f neg mm mq, flags)
  else
    (linPack f neg m q, flagIf inexact fInexact ||| flagIf (inexact && decide (finExp man exp < emin)) fUnderflow)

/-- The significand (48 fraction bits) and exponent of 2^(t/256) by the table of R55, and whether it is inexact. -/
def logMan (t : Int) : Nat × Int × Bool :=
  let k := t / 256
  let j := (t % 256).toNat
  (tableT j, k - 48, decide (j ≠ 0))

/-- Convert a value to a linear format (R55, R56, R44). -/
def linEnc (f : LinFmt) (sat : Bool) (sr : Option Nat) (v : Val) : Nat × Flags :=
  match v with
  | .zero n => (linPack f n 0 0, 0)
  | .nan _ => (f.nanCode, 0)
  | .inf n =>
    let (mm, mq) := linMax f
    if f.ieee then (linPack f n (2 ^ f.frac) (mq + 1), 0) else (linPack f n mm mq, fInvalid)
  | .fin n m e => linRound f sat sr n m e false
  | .log n t => let (m, e, i) := logMan t; linRound f sat sr n m e i

/-! ### A48 (R42 to R45) -/

/-- The value of an A48 encoding, bits [47:0]; bit 0 and a fraction under exponent 0 are ignored (R42). -/
def a48Dec (c : Nat) : Val :=
  let neg := bitOf c 47
  let e := fld c 37 10
  let f := fld c 1 36
  if e = 0 then .zero neg
  else if e = 1023 then (if f = 0 then .inf neg else .nan false)
  else .fin neg (2 ^ 36 + f) ((e : Int) - 547)

/-- An A48 code as the device writes it: bit 0 and the fraction of a zero are 0, and nothing stands above bit 47 (R42, R43). -/
def a48Canon (c : Nat) : Nat := if fld c 37 10 = 0 then b2n (bitOf c 47) * 2 ^ 47 else c % 2 ^ 48 / 2 * 2

def a48Nan : Nat := 0x7FF000000000
def a48Zero (neg : Bool) : Nat := b2n neg * 2 ^ 47
def a48Inf (neg : Bool) : Nat := b2n neg * 2 ^ 47 + 0x7FE000000000

/-- Round a finite magnitude to A48 (R45, R60). -/
def a48Round (sr : Option Nat) (neg : Bool) (man : Nat) (exp : Int) (inx : Bool) : Nat × Flags :=
  let (m, q, r) := roundMan 36 0 false sr man exp
  let e := q + 36
  let inexact := r || inx
  if e < -510 then (a48Zero neg, fUnderflow ||| fInexact)
  else if 511 < e then (a48Inf neg, fOverflow ||| fInexact)
  else (b2n neg * 2 ^ 47 + (e + 511).toNat * 2 ^ 37 + (m - 2 ^ 36) * 2,
    flagIf inexact fInexact ||| flagIf (inexact && decide (finExp man exp < -510)) fUnderflow)

/-- T[j] rounded to 36 fraction bits, to nearest even or with a draw (R57, R80). -/
def t36 (sr : Option Nat) (j : Nat) : Nat × Int :=
  let (m, q, _) := roundMan 36 0 false sr (tableT j) (-48)
  (m, q)

/-- Convert a value to A48 under R57. -/
def toA48 (sr : Option Nat) (v : Val) : Nat × Flags :=
  match v with
  | .zero n => (a48Zero n, 0)
  | .inf n => (a48Inf n, 0)
  | .nan _ => (a48Nan, 0)
  | .fin n m e => a48Round sr n m e false
  | .log n t =>
    let j := (t % 256).toNat
    let (m, q) := t36 sr j
    a48Round none n m (q + t / 256) (decide (j ≠ 0))

/-! ### Exact sums and products of finite values -/

/-- The signed integer of a significand. -/
def sgn (neg : Bool) (m : Nat) : Int := if neg then -(m : Int) else m

/-- The exact value of z × 2^e as a value; an exact zero is +0 (R86). -/
def dyVal (z : Int) (e : Int) : Val := if z = 0 then .zero false else .fin (decide (z < 0)) z.natAbs e

/-- Exact sum of two values given in linear form; ∞ − ∞ has no numeric result and raises invalid (R63, R86). -/
def valAdd (a b : Val) : Val × Flags :=
  match a, b with
  | .nan _, _ => (.nan false, 0)
  | _, .nan _ => (.nan false, 0)
  | .inf x, .inf y => if x = y then (.inf x, 0) else (.nan false, fInvalid)
  | .inf x, _ => (.inf x, 0)
  | _, .inf y => (.inf y, 0)
  | .zero x, .zero y => (.zero (x && y), 0)
  | .zero _, v => (v, 0)
  | v, .zero _ => (v, 0)
  | .fin n m e, .fin n' m' e' =>
    let q := if e ≤ e' then e else e'
    (dyVal (sgn n (m <<< (e - q).toNat) + sgn n' (m' <<< (e' - q).toNat)) q, 0)
  | .log n t, _ => (.log n t, 0)
  | v, .log _ _ => (v, 0)

/-- Exact product; 0 × ∞ has no numeric result and raises invalid (R63). -/
def valMul (a b : Val) : Val × Flags :=
  match a, b with
  | .nan _, _ => (.nan false, 0)
  | _, .nan _ => (.nan false, 0)
  | .inf _, .zero _ => (.nan false, fInvalid)
  | .zero _, .inf _ => (.nan false, fInvalid)
  | .inf x, v => (.inf (xor x (valNeg v)), 0)
  | v, .inf y => (.inf (xor (valNeg v) y), 0)
  | .zero x, v => (.zero (xor x (valNeg v)), 0)
  | v, .zero y => (.zero (xor (valNeg v) y), 0)
  | .fin n m e, .fin n' m' e' => (.fin (xor n n') (m * m') (e + e'), 0)
  | .log n t, _ => (.log n t, 0)
  | v, .log _ _ => (v, 0)

/-- A48 encoding of a value, with the flags of forming it. -/
def a48Of (sr : Option Nat) (x : Val × Flags) : Nat × Flags :=
  let (c, f) := toA48 sr x.1
  (c, f ||| x.2)

/-- A48 addition (R86): the exact sum rounded once. -/
def a48Add (sr : Option Nat) (a b : Nat) : Nat × Flags := a48Of sr (valAdd (a48Dec a) (a48Dec b))

/-- A48 multiplication, rounded once to nearest even. -/
def a48Mul (a b : Nat) : Nat × Flags := a48Of none (valMul (a48Dec a) (a48Dec b))

/-- A48 negation. -/
def a48Neg (a : Nat) : Nat := if fld a 37 10 = 1023 && decide (fld a 1 36 ≠ 0) then a48Nan else setBit a 47 (!bitOf a 47)

/-- IEEE 754 addition of linear encodings with round to nearest even (R411). -/
def linAdd (f : LinFmt) (a b : Nat) : Nat × Flags :=
  let (v, fl) := valAdd (linDec f a) (linDec f b)
  let (c, fl') := linEnc f false none v
  (c, fl ||| fl')

/-- Exact a × b + c, with the flags of a product or a sum that has no numeric result (R63, R144). -/
def valFma (a b c : Val) : Val × Flags :=
  let (p, f) := valMul a b
  let (v, f') := valAdd p c
  (v, f ||| f')

/-- The A48 fused multiply-add of a Welt lane (R144): the exact result rounded once, to nearest even or with a stochastic draw. -/
def a48Fma (sr : Option Nat) (a b c : Nat) : Nat × Flags := a48Of sr (valFma (a48Dec a) (a48Dec b) (a48Dec c))

/-- fusedMultiplyAdd of linear encodings with round to nearest even, as a Welt lane performs it in FP32 (R144). -/
def linFma (f : LinFmt) (a b c : Nat) : Nat × Flags :=
  let (v, fl) := valFma (linDec f a) (linDec f b) (linDec f c)
  let (x, fl') := linEnc f false none v
  (x, fl ||| fl')

/-- Order of two values that are not NaN: −0 below +0 (R411). Both are in linear form. -/
def valLt (a b : Val) : Bool :=
  let key : Val → Int × Nat × Int := fun v => match v with
    | .zero n => (if n then -1 else 0, 0, 0)
    | .inf n => (if n then -3 else 3, 0, 0)
    | .fin n m e => (if n then -2 else 2, m, e)
    | _ => (0, 0, 0)
  let (ka, ma, ea) := key a
  let (kb, mb, eb) := key b
  if ka ≠ kb then decide (ka < kb)
  else if ka = 2 ∨ ka = -2 then
    let q := if ea ≤ eb then ea else eb
    let x := ma <<< (ea - q).toNat
    let y := mb <<< (eb - q).toNat
    if ka = 2 then decide (x < y) else decide (y < x)
  else false

/-! ### Logarithmic formats (R37 to R41, R51 to R59) -/

/-- A log target: codes per octave d (as its logarithm), code bias b, largest code, sign bit, and whether it has NaL. -/
structure LogFmt where
  dlog : Nat
  b    : Int
  mmax : Int
  sign : Nat
  nal  : Option Nat
deriving DecidableEq, Repr

/-- The log formats of R37, R39 and R40. -/
def logFmt : Elem → Option LogFmt
  | .l4 => some ⟨1, 4, 7, 3, none⟩
  | .l8 => some ⟨3, 64, 127, 7, some 0x80⟩
  | .l16 => some ⟨8, 16384, 32767, 15, some 0x8000⟩
  | .l16s => some ⟨8, 16384, 32767, 15, some 0x8000⟩
  | _ => none

/-- The value of a log code with block scale e (R37, R39, R40, R55); L4 has no NaL and code 0 is zero whatever the sign. -/
def logDec (f : LogFmt) (c : Nat) (e : Int) : Val :=
  let m := fld c 0 f.sign
  if m = 0 then (if f.nal = some c then .nan false else .zero false)
  else .log (bitOf c f.sign) (((m : Int) - f.b) * (2 ^ (8 - f.dlog) : Nat) + 256 * e)

/-- The value of an encoding of any non-integer format; an integer format has no value here (R36). -/
def elemDec (el : Elem) (c : Nat) (e : Int) : Val :=
  match logFmt el with
  | some f => logDec f c e
  | none => match linFmt el with
    | some f => linDec f c
    | none => match el with
      | .a48 => a48Dec c
      | _ => .zero false

/-- λ of R51 in units of 2^-24, for an offset within the bound |λ − log2 x| ≤ 2^-23: with log2 x in [L, L + 1) units the
offsets −1 to 2 meet it, and −2 too when x is a power of two. For a log value, t/256 exactly (R58). -/
def lamUnits (off : Int) : Val → Int
  | .fin _ m e =>
    let bl := Nat.log2 m
    let mm := if bl ≤ 96 then m <<< (96 - bl) else m >>> (bl - 96)
    ((bl : Int) + e) * (2 ^ 24 : Nat) + (log2Frac mm : Int) + off
  | .log _ t => t * 65536
  | _ => 0

/-- Fraction bits of q for a target (R51): 23, 21 or 16. -/
def qBits (f : LogFmt) : Nat := 24 - f.dlog

/-- ceil(q) for a λ in units of 2^-24. -/
def qCeil (f : LogFmt) (lam : Int) : Int := -((-lam) / (2 ^ qBits f : Nat))

/-- q rounded to nearest, ties to even (R52). -/
def qRne (f : LogFmt) (lam : Int) : Int :=
  let p : Int := (2 ^ qBits f : Nat)
  let lo := lam / p
  let r := lam % p
  if p < 2 * r ∨ (2 * r = p ∧ lo % 2 = 1) then lo + 1 else lo

/-- Rounded division of naturals, ties to even. -/
def divRne (a b : Nat) : Nat :=
  let q := a / b
  let r := a % b
  if b < 2 * r ∨ (2 * r = b ∧ q % 2 = 1) then q + 1 else q

/-- Stochastic rounding to a log code (R59), from the top 16 bits of a draw; `none` is zero. -/
def qSr (f : LogFmt) (lam : Int) (e : Int) (u : Nat) : Option Int :=
  let u16 := u / 65536
  let p : Int := (2 ^ qBits f : Nat)
  let d : Int := (2 ^ f.dlog : Nat)
  let lo := lam / p
  let c1 := 1 - f.b + d * e
  if c1 ≤ lo then
    let num := exp2Frac (lam % p).toNat - 2 ^ 96
    let den := exp2Frac (2 ^ qBits f) - 2 ^ 96
    let p16 := divRne (num * 65536) den
    some (if u16 < p16 then lo + 1 else lo)
  else
    let x := lam - c1 * p
    let k := (-(x / (2 ^ 24 : Nat))).toNat
    let p16 := divRne (exp2Frac (x % (2 ^ 24 : Nat)).toNat * 65536) (2 ^ (96 + k))
    if u16 < p16 then some c1 else none

/-- Whether a value lies exactly on unscaled code c. -/
def onCode (f : LogFmt) (c : Int) : Val → Bool
  | .fin _ m e => decide (m = 2 ^ Nat.log2 m) && decide (c = (2 ^ f.dlog : Nat) * finExp m e)
  | .log _ t => decide (t * (2 ^ f.dlog : Nat) = 256 * c)
  | _ => false

/-- The code word of a sign and a code. -/
def logPack (f : LogFmt) (neg : Bool) (m : Nat) : Nat := b2n neg * 2 ^ f.sign + m

/-- Convert a value to a log format with block scale e (R52, R54, R58, R59). `off` is the offset of λ within its bound. -/
def logEnc (f : LogFmt) (e : Int) (sr : Option Nat) (off : Int) (v : Val) : Nat × Flags :=
  match v with
  | .zero _ => (0, 0)
  | .nan lin => match f.nal with
    | some c => (c, flagIf lin fInvalid)
    | none => (0, fInvalid)
  | .inf n => match f.nal with
    | some c => (c, fInvalid)
    | none => (logPack f n f.mmax.toNat, fInvalid)
  | v =>
    let lam := lamUnits off v
    let c? := match sr with
      | none => some (qRne f lam)
      | some u => qSr f lam e u
    let low := decide (lam < (1 - f.b + (2 ^ f.dlog : Nat) * e) * (2 ^ qBits f : Nat))
    match c? with
    | none => (0, fUnderflow ||| fInexact)
    | some c =>
      let m := c - (2 ^ f.dlog : Nat) * e + f.b
      if f.mmax < m then (logPack f (valNeg v) f.mmax.toNat, fOverflow ||| fInexact)
      else if m < 1 then (0, fUnderflow ||| fInexact)
      else
        let inx := !onCode f c v
        (logPack f (valNeg v) m.toNat, flagIf inx fInexact ||| flagIf (inx && low) fUnderflow)

/-- The block scale that R52 computes from the values of a block; `offs` gives the offset of each λ. -/
def blockScale (f : LogFmt) (vs : List (Int × Val)) : Int :=
  let qs := (vs.filter (fun x => valFinite x.2)).map (fun x => qCeil f (lamUnits x.1 x.2))
  match qs with
  | [] => 0
  | q :: qs =>
    let cmax := qs.foldl (fun a b => if a < b then b else a) q
    let d : Int := (2 ^ f.dlog : Nat)
    let x := cmax - (f.mmax - f.b)
    let e := -((-x) / d)
    if e < -128 then -128 else if 127 < e then 127 else e

/-- Whether every finite non-zero value lies on a code of the target at block scale e: R661's "holds every code". -/
def holdsCodes (src dst : Elem) : Bool :=
  match dst, src with
  | .l4, .l4 => true
  | .l8, .l8 => true
  | .l8, .l4 => true
  | .l16s, .l16s => true
  | .l16s, .l4 => true
  | .l16s, .l8 => true
  | _, _ => false

/-- Convert one value to an unscaled or given-scale encoding of any target format; integers are not converted (R36). -/
def elemEnc (el : Elem) (sat : Bool) (e : Int) (sr : Option Nat) (off : Int) (v : Val) : Nat × Flags :=
  match logFmt el with
  | some f => logEnc f e sr off v
  | none => match linFmt el with
    | some f => linEnc f sat sr v
    | none => match el with
      | .a48 => toA48 none v
      | _ => (0, 0)

/-! ### Stochastic rounding generator (R61) -/

/-- Lane state i derived from a seed. -/
def laneOfSeed (s : BitVec 64) (i : Nat) : BitVec 64 :=
  let z := s + BitVec.ofNat 64 i * 0x9E3779B97F4A7C15#64
  let z := (z ^^^ (z >>> 30)) * 0xBF58476D1CE4E5B9#64
  let z := (z ^^^ (z >>> 27)) * 0x94D049BB133111EB#64
  z ^^^ (z >>> 31)

/-- The lane state after a draw. -/
def laneNext (old : BitVec 64) : BitVec 64 := old * 0x5851F42D4C957F2D#64 + 0x14057B7EF767814F#64

/-- The 32-bit number drawn from a lane state. -/
def laneDraw (old : BitVec 64) : BitVec 32 :=
  let x : BitVec 32 := (((old >>> 18) ^^^ old) >>> 27).truncate 32
  x.rotateRight (old >>> 59).toNat

end Sys2Proof.Machine
end

