-- ==== Sys2Proof/Machine/SecOps.lean ====
section
/-! DEFINITION. The security engine's keys and identities, firmware images and configuration blocks (R527 to R534). -/
namespace Sys2Proof.Machine

/-- The bytes of an ASCII string. -/
def ascii (t : String) : List Byte := t.toList.map (fun c => BitVec.ofNat 8 c.toNat)

/-- The header and measurement of the image in a firmware slot (R534). -/
def fwHeader (image : Nat) (f : FwSlot) : List Byte := f.header.getD (Config.shippedHeader image)
def fwMeas (image : Nat) (f : FwSlot) : List Byte := slice (f.meas.getD (Config.shippedMeas image)) 0 32
def hdrVersion (h : List Byte) : Nat := at_ h 4 4
def hdrSvn (h : List Byte) : Nat := at_ h 8 4

/-- The running images: 1 supervisor, 2 Ivtuhus, 3 Metering Island. -/
def runningSlot (s : State) : Nat → FwSlot
  | 1 => tget {} s.sec.supSlot s.sec.sup
  | 2 => tget {} s.sec.ctlSlot s.sec.ctl
  | _ => tget {} s.mi.slot s.mi.slots
def runHeader (s : State) (i : Nat) : List Byte := fwHeader i (runningSlot s i)
def runMeas (s : State) (i : Nat) : List Byte := fwMeas i (runningSlot s i)

/-- The derived keys of R528. -/
def dikSeed : List Byte := Config.kmac Config.rootSecret (ascii "DIK") [] 32
def akSeed (s : State) : List Byte := Config.kmac Config.rootSecret (ascii "AK" ++ runMeas s 1) [] 32
def cfgKey : List Byte := Config.kmac Config.rootSecret (ascii "CFG") [] 32
def dikPub : List Byte := slice (Config.mldsaPub dikSeed) 0 1312
def akPub (s : State) : List Byte := slice (Config.mldsaPub (akSeed s)) 0 1312
/-- A hash of 32 bytes. -/
def sha (b : List Byte) : List Byte := slice (Config.sha3 b) 0 32
/-- A signature of 2,420 bytes over a digest. -/
def sign (seed digest : List Byte) : List Byte := slice (Config.mldsaSign seed digest) 0 2420
/-- DEVICE_ID (R529). -/
def deviceId : List Byte := (sha dikPub).take 8
/-- DEVICE_ID as the number that R441 compares. -/
def deviceNum : Nat := leNat deviceId
/-- The AK certificate signature (R529). -/
def akCert (s : State) : List Byte := sign dikSeed (sha (akPub s ++ runMeas s 1 ++ deviceId))

/-- Pad an item's data to a multiple of 8 bytes. -/
def pad8 (b : List Byte) : List Byte := b ++ zeros (roundUp b.length 8 - b.length)

/-- The bytes of the items of a configuration block (R531). -/
def itemBytes (items : Tab (Option (List Byte))) : List Byte :=
  items.flatMap (fun e => match e.2 with
    | some d => leBytes 2 e.1 ++ leBytes 2 d.length ++ pad8 d
    | none => [])

/-- A whole configuration block: header, items, VENDOR_SIG, TAG (R531). -/
def cfgBytes (b : CfgBlock) : List Byte :=
  let (v, sig) := b.vendor.getD Config.shippedVendor
  let it := itemBytes b.items
  let len := 64 + v.length + it.length + 2420 + 32
  let body := leBytes 2 6 ++ leBytes 2 1 ++ leBytes 4 len ++ leBytes 8 b.seq ++ leBytes 4 v.length ++
    leBytes 4 (v.length + it.length) ++ zeros 40 ++ v ++ it ++ slice sig 0 2420
  body ++ slice (Config.kmac cfgKey body [] 32) 0 32

/-- The configuration block in use: the one that start-up took (R532, R537). -/
def cfgBlock (s : State) : CfgBlock := s.sec.cfgNow

/-- The newest configuration block in flash. -/
def cfgLast (s : State) : CfgBlock := (tget none s.sec.cfgUse s.sec.cfgs).getD {}

/-- A configuration item in use, by ID. -/
def cfgItem (s : State) (id : Nat) : Option (List Byte) := tget none id (cfgBlock s).items

/-- Write a changed configuration block into the other slot with SEQ one higher, then raise the floor (R532); the block in use stays until the
next start-up (R537). -/
def cfgWrite (s : State) (f : CfgBlock → CfgBlock) : State :=
  let b := f (cfgLast s)
  let b := { b with seq := (cfgLast s).seq + 1 }
  let k := 1 - s.sec.cfgUse
  { s with sec := { s.sec with cfgs := tput none k (some b) s.sec.cfgs, cfgUse := k, cfgFloor := b.seq, rpCount := s.sec.rpCount + 1 } }

/-- Store a device or operator item (R531, R532). -/
def cfgStore (s : State) (id : Nat) (d : List Byte) : State :=
  cfgWrite s (fun b => { b with items := tput none id (some d) b.items })

/-! IDs of the items that the model itself reads or writes. The manual gives the classes of R531 and no single ID. -/
def idCoreMap : Nat := 0x0100
def idCoreState : Nat := 0x0101
def idFabAddr : Nat := 0x0102
def idMeshArb : Nat := 0x0200
def idFabArb : Nat := 0x0201
def idOperatorKey : Nat := 0x0203
def idTrigCtl : Nat := 0x0204

/-- Firmware writes the core map and the core states to the configuration block (R249, R617). -/
def storeCoreMap (s : State) : State :=
  let s' := cfgStore s idCoreMap (leBytes 8 (die s 0).map.toNat ++ leBytes 8 (die s 1).map.toNat)
  cfgStore s' idCoreState (leBytes 4 (die s 0).cst.toNat ++ leBytes 4 (die s 1).cst.toNat)

/-- Objects of a management command: an address with bit 63 set is an offset into the objects of its frame; any other is a
host address read over Ivtu (R545). -/
def mgmtRead (s : State) (c : Cmd) (a n : Nat) : List Byte :=
  if bitOf a 63 then slice c.h.objs (a % 2 ^ 63) n else hostRead s a n

end Sys2Proof.Machine
end

