-- ==== Sys2Proof/Machine/Sync.lean ====
section
/-! DEFINITION. Eyelets and laces: their commands, retries, windows and releases (R352 to R369). -/
namespace Sys2Proof.Machine

/-- The partition that a unit works for. -/
def unitPart (s : State) : UnitId → Option Nat
  | .stream c _ => partOfCore s c.val
  | .awl c _ => partOfCore s c.val
  | .context _ p _ => if p.toNat < 16 then some p.toNat else none
  | .ctl _ _ => none

/-- The Quag watch of a unit's partition starts anew (R373). -/
def breakUnit (s : State) (u : UnitId) : State :=
  match unitPart s u with
  | some p => breakQuag s p
  | none => s

/-- The value that an Awl core's window access returns; the core runs on. -/
def retAwl (s : State) (c a v : Nat) : State :=
  let s := match partOfCore s c with
    | some p => breakQuag s p
    | none => s
  send s (.ret c a v)

/-- The waiting command of a unit that waits on a given object, if any. -/
def waitingOn (s : State) (u : UnitId) (f : Wait → Bool) : Option Waiting :=
  s.waiting.find? (fun w => decide (w.unit = u) && f w.wait)

/-- A unit that was asleep on an eyelet has taken, or one that waited on a lace has been released: it resumes. -/
def resumeUnit (s : State) (u : UnitId) (f : Wait → Bool) (value : Nat) : State :=
  match u with
  | .awl c a => retAwl s c.val a.val value
  | .ctl d k => send s (.retCtl d.val k.val value)
  | _ =>
    match waitingOn s u f with
    | some w => endWaiting s w .ok 0 w.record
    | none => s

/-- A unit leaves every object that it waits on, taking nothing (R359). -/
def abandonUnit (s : State) (u : UnitId) : State :=
  let s := (s.eyelets.filter (fun e => e.2.waiters.any (fun w => decide (w.unit = u)))).foldl
    (fun s e => abandonEyelet s e.1 u) s
  (s.laces.filter (fun l => l.2.waiters.any (fun w => decide (w.unit = u)))).foldl (fun s l => abandonLace s l.1 u) s

/-! ### Eyelet commands (R360, R361) -/

def bodyEyeletInit (p : EyeletInitP) (s : State) (c : Cmd) : Res :=
  let pt := c.part.getD 16
  let e := p.eyelet.toNat
  checked s [(decide (p.rsvdA ≠ 0) || decide (16384 ≤ e) || decide (1 < p.mode.toNat) ||
        (decide (p.mode.toNat = 1) && decide (1 < p.count.toNat)), .badParam, 0),
      (!ownsEyelet s pt e, .denied, 0), (!(eyelet s e).waiters.isEmpty, .contextBusy, 0)] fun _ =>
    { s := setEyelet s e { eyelet s e with event := decide (p.mode.toNat = 1), count := p.count, sat := false } }

def execEyeletInit (h : Hdr) (p : EyeletInitP) (s : State) : Host.Outcome State Fault Refusal :=
  command (.eyeletInit h p) { op := 0x0600, n := 12, runs := .sf } h (packetBytes 0x0600 h (bytesEyeletInit p))
    (bodyEyeletInit p) s

/-- EYELET_WAIT takes, fails at once under TRY, or takes a ticket and sleeps (R355 to R357, R361). -/
def bodyEyeletWait (p : EyeletWaitP) (s : State) (c : Cmd) : Res :=
  let pt := c.part.getD 16
  let e := p.eyelet.toNat
  let n := p.n.toNat
  let x := eyelet s e
  let try_ := bitOf p.ctl.toNat 0
  checked s [(decide (p.rsvdA ≠ 0) || decide (1 < p.ctl.toNat) || decide (16384 ≤ e), .badParam, 0),
      (!ownsEyelet s pt e, .denied, 0), (!x.event && decide (n = 0), .badParam, 0)] fun _ =>
    match takeEyelet x n with
    | some x' => { s := setEyelet s e x', record := if try_ then 1 :: zeros 7 else [] }
    | none =>
      if try_ then { s := s, record := zeros 8 }
      else { s := sleepOn s e n (unitOf s c.h), wait := some (.eyelet e n) }

def execEyeletWait (h : Hdr) (p : EyeletWaitP) (s : State) : Host.Outcome State Fault Refusal :=
  command (.eyeletWait h p) { op := 0x0601, n := 8, runs := .sf, rec_ := if bitOf p.ctl.toNat 0 then 8 else 0 } h
    (packetBytes 0x0601 h (bytesEyeletWait p)) (bodyEyeletWait p) s

/-- EYELET_SIGNAL: SIGNAL_ONE, SIGNAL_N or CLEAR; a saturating signal completes with NO_RESOURCE (R358, R361). -/
def bodyEyeletSignal (p : EyeletSignalP) (s : State) (c : Cmd) : Res :=
  let pt := c.part.getD 16
  let e := p.eyelet.toNat
  let op := p.op.toNat
  let k := p.k.toNat
  checked s [(decide (p.rsvdA ≠ 0) || decide (16384 ≤ e) || decide (2 < op) || (decide (op = 1) && decide (k = 0)) ||
        (decide (op ≠ 1) && decide (k ≠ 0)), .badParam, 0),
      (!ownsEyelet s pt e, .denied, 0), (decide (op = 2) && !(eyelet s e).event, .badParam, 0)] fun _ =>
    if op = 2 then { s := setEyelet s e { eyelet s e with count := 0 } }
    else
      let r := signalEyelet s e (if op = 0 then 1 else k)
      { s := r.1, st := if r.2 then .noResource else .ok }

def execEyeletSignal (h : Hdr) (p : EyeletSignalP) (s : State) : Host.Outcome State Fault Refusal :=
  command (.eyeletSignal h p) { op := 0x0602, n := 12, runs := .sf } h (packetBytes 0x0602 h (bytesEyeletSignal p))
    (bodyEyeletSignal p) s

/-- The record of EYELET_READ (R361). -/
def eyeletRecord (x : Eyelet) : List Byte :=
  leBytes 4 x.count.toNat ++ leBytes 4 x.nextTicket.toNat ++ leBytes 1 (b2n x.event) ++ leBytes 1 (b2n x.sat) ++
  leBytes 2 x.waiters.length ++ zeros 4

def bodyEyeletRead (p : EyeletReadP) (s : State) (c : Cmd) : Res :=
  let pt := c.part.getD 16
  let e := p.eyelet.toNat
  checked s [(decide (p.rsvdA ≠ 0) || decide (16384 ≤ e), .badParam, 0), (!ownsEyelet s pt e, .denied, 0)] fun _ =>
    { s := s, record := eyeletRecord (eyelet s e) }

def execEyeletRead (h : Hdr) (p : EyeletReadP) (s : State) : Host.Outcome State Fault Refusal :=
  command (.eyeletRead h p) { op := 0x0603, n := 8, runs := .sf, rec_ := 16 } h (packetBytes 0x0603 h (bytesEyeletRead p))
    (bodyEyeletRead p) s

/-- The retry of a woken waiter reaches the home slice: it takes and proceeds, or it sleeps again with its old ticket and a
scan runs (R355, R356). A retry of a unit that no longer waits is dropped (R359). -/
def eyeletRetryOp (s : State) (e : Nat) (u : UnitId) : State :=
  let x := eyelet s e
  match x.waiters.find? (fun w => decide (w.unit = u) && w.woken) with
  | none => s
  | some w =>
    match takeEyelet x w.n with
    | some x' =>
      let s := setEyelet s e { x' with waiters := x'.waiters.filter (fun v => decide (v.unit ≠ u)) }
      resumeUnit s u (fun k => match k with
        | .eyelet f _ => decide (f = e)
        | _ => false) x'.count.toNat
    | none =>
      scan (setEyelet s e { x with waiters := x.waiters.map (fun v => if v.unit = u then { v with woken := false } else v) }) e

def execEyeletRetry (e : BitVec 14) (u : UnitId) (s : State) : Host.Outcome State Fault Refusal :=
  .next (eyeletRetryOp s e.toNat u)

/-! ### Laces (R363 to R368) -/

/-- Record a fault in LACE_FAULT of a die (R365, R369, R393): bit 31 DROP, bit 30 ACCESS. -/
def laceFault (s : State) (d bit l : Nat) : State :=
  let f := fun (v : BitVec 32) => BitVec.ofNat 32 (setBit (v.toNat - v.toNat % 2 ^ 10 + l % 2 ^ 10) bit true)
  modDie s d (fun x => { x with laceFault := f x.laceFault })

/-- A remote arrival or release is dropped: DROP in LACE_FAULT of the lace's home die (R365). -/
def laceDrop (s : State) (l : Nat) : State := laceFault s (laceHome l).1 31 l

/-- The partition that holds a lace's slice. -/
def lacePart (s : State) (l : Nat) : Option Nat := partOfSlice s (laceHome l).1 (laceHome l).2

/-- Clear the arrival records of generation g of lace l in every waiter-table entry of an Awl core (R369). -/
def clearAwlArrivals (s : State) (l g : Nat) : State :=
  let f := fun (a : Awl) => if a.arrival = some (l, g) then { a with arrival := none } else a
  s.cores.foldl (fun s k =>
    if k.2.awls.any (fun a => decide (a.2.arrival = some (l, g))) then
      modCoreP s k.1 (fun c => (List.range 4).foldl (fun c i => { c with awls := tmod {} i f c.awls }) c)
    else s) s

/-- Clear the arrival records of generation g of lace l in every waiter-table entry, those of control cores among them (R369). -/
def clearArrivals (s : State) (l g : Nat) : State :=
  (List.range 2).foldl (fun s d =>
    if (die s d).arrivals.any (fun a => decide (a.2 = some (l, g))) then
      modDie s d (fun x => { x with arrivals := x.arrivals.filter (fun a => decide (a.2 ≠ some (l, g))) })
    else s) (clearAwlArrivals s l g)

/-- One release (R364): GEN moves on, EARLY arrivals become arrivals, and every unit that waited for the released generation
proceeds. -/
def releaseOnce (s : State) (l : Nat) : State :=
  let x := lace s l
  let g := x.gen.toNat
  let goes : LaceWaiter → Bool := fun w => decide (w.gen.toNat ≤ g)
  let stay := x.waiters.filter (fun w => !goes w)
  let s := setLace s l { x with gen := x.gen + 1, arrived := x.early, early := 0, waiters := stay }
  let s := clearArrivals s l g
  let s := (x.waiters.filter goes).foldl (fun s w => resumeUnit s w.unit (fun k => match k with
    | .lace m _ _ => decide (m = l)
    | _ => false) (g + 1)) s
  match lacePart s l with
  | some p => laceReleased s p l
  | none => s

/-- Whether a lace's local arrivals are complete. -/
def laceFull (x : Lace) : Bool := decide (x.expected ≠ 0) && decide (x.arrived = x.expected)

/-- Release a DEVICE lace as long as its arrivals are complete; GEN never passes 2^64 − 1 (R364, R366). -/
def releaseDevice : Nat → State → Nat → State
  | 0, s, _ => s
  | fuel + 1, s, l =>
    let x := lace s l
    if laceFull x && decide (x.gen.toNat ≠ 2 ^ 64 - 1) then releaseDevice fuel (releaseOnce s l) l else s

/-- The byte and bit of a device's bit in a root map (R363). -/
def rootByte (x : Lace) (a : Nat) : Nat := x.rootMap + a / 8

/-- The parameters of LACE_REMOTE_ARRIVE and LACE_RELEASE (R367). -/
def laceParams (l g : Nat) : List Byte := leBytes 2 l ++ zeros 6 ++ leBytes 8 g

/-- An arrival of a device for generation g reaches the root (R365). -/
def rootArrive (s : State) (p l dev g : Nat) : State :=
  let x := lace s l
  if x.expected = 0 || !x.fabric || decide (x.root ≠ s.fab.addr) || decide (x.rgen.toNat ≠ g) then laceDrop s l
  else
    let a := rootByte x dev
    let b := at_ (partRead s p a 1) 0 1
    if bitOf b (dev % 8) then s
    else
      let n := x.devArr + 1
      if n = x.devices then
        let s := partWrite s p x.rootMap (zeros 8192)
        let s := setLace s l { x with devArr := 0, rgen := x.rgen + 1 }
        peerCommand s p x.mcast.toNat true 0x0615 (laceParams l g)
      else setLace (partWrite s p a (leBytes 1 (setBit b (dev % 8) true))) l { x with devArr := n }

/-- After an arrival or a release: a DEVICE lace releases; a FABRIC lace that is complete sends its remote arrival once per
generation, the root counting its own at once (R364, R365). -/
def laceComplete (s : State) (p l : Nat) : State :=
  let x := lace s l
  if !laceFull x then s
  else if !x.fabric then releaseDevice 3 s l
  else if x.sentGen = some x.gen.toNat then s
  else
    let g := x.gen.toNat
    let s := setLace s l { x with sentGen := some g }
    if x.root = s.fab.addr then rootArrive s p l s.fab.addr.toNat g
    else peerCommand s p x.root.toNat false 0x0614 (laceParams l g)

/-- A local arrival for generation g (R364, R366): none when it counted, else the status. -/
def laceArrive (s : State) (p l g : Nat) : State × Option Status :=
  let x := lace s l
  if x.expected = 0 then (s, some .badParam)
  else if g = x.gen.toNat then
    if g = 2 ^ 64 - 1 then (postPart s p 0x0104 0 (leBytes 8 l), some .noResource)
    else (laceComplete (setLace s l { x with arrived := x.arrived + 1 }) p l, none)
  else if g = x.gen.toNat + 1 then (setLace s l { x with early := x.early + 1 }, none)
  else (s, some .badParam)

/-- Join a lace's waiters for the release of generation g. -/
def laceSleep (s : State) (l g : Nat) (u : UnitId) : State :=
  let x := lace s l
  setLace s l { x with waiters := x.waiters ++ [{ unit := u, gen := BitVec.ofNat 64 g }] }

/-- Wait for the release of generation g, or proceed at once when GEN exceeds it (R364, R367). -/
def laceWaitFor (s : State) (c : Cmd) (l g : Nat) (arrived : Bool) : Res :=
  if g < (lace s l).gen.toNat then { s := s }
  else { s := laceSleep s l g (unitOf s c.h), wait := some (.lace l g arrived) }

/-- LACE_INIT (R363, R367, R368); at the root it writes the map to zero. -/
def bodyLaceInit (p : LaceInitP) (s : State) (c : Cmd) : Res :=
  let pt := c.part.getD 16
  let l := p.lace.toNat
  let x := lace s l
  let fab := decide (p.scope.toNat = 1)
  let root := fab && decide (p.root = s.fab.addr)
  let a := p.rootMap.toNat
  let rootOk := decide (1 ≤ p.devices.toNat) && decide (p.devices.toNat ≤ 65536) && decide (a % 64 = 0) &&
    spanOk s pt a (a + 8191) true
  checked s [(decide (p.rsvdA ≠ 0) || decide (p.rsvdB ≠ 0) || decide (1024 ≤ l) || decide (1 < p.scope.toNat) ||
        decide (p.expected = 0) || decide (p.start.toNat = 2 ^ 64 - 1), .badParam, 0),
      (if root then !rootOk else decide (p.devices ≠ 0) || decide (a ≠ 0), .badParam, 0),
      (root && !spanHbm s pt a 8192, .badDescriptor, 0), (!ownsLace s pt l, .denied, 0),
      (!x.waiters.isEmpty || decide (x.arrived ≠ 0) || decide (x.early ≠ 0) || decide (x.devArr ≠ 0), .contextBusy, 0)] fun _ =>
    let y : Lace := { fabric := fab, expected := p.expected, gen := p.start, root := p.root, mcast := p.mcast,
                      devices := p.devices.toNat, rgen := p.start, rootMap := a }
    let s := setLace s l y
    { s := if root then partWrite s pt a (zeros 8192) else s }

def execLaceInit (h : Hdr) (p : LaceInitP) (s : State) : Host.Outcome State Fault Refusal :=
  command (.laceInit h p) { op := 0x0610, n := 32, runs := .sf } h (packetBytes 0x0610 h (bytesLaceInit p)) (bodyLaceInit p) s

/-- The checks that every lace command begins with. -/
def laceChecks (s : State) (pt l : Nat) (bad : Bool) : List (Bool × Status × Nat) :=
  [(bad || decide (1024 ≤ l), .badParam, 0), (!ownsLace s pt l, .denied, 0)]

/-- LACE_ARRIVE, with or without a wait for the release (R364, R367). One that resumes after its arrival was made waits again
without arriving a second time (R278). -/
def bodyLaceArrive (p : LaceArriveP) (s : State) (c : Cmd) : Res :=
  let pt := c.part.getD 16
  let l := p.lace.toNat
  checked s (laceChecks s pt l (decide (p.rsvdA ≠ 0) || decide (1 < p.ctl.toNat))) fun _ =>
    if decide (c.passes = 1) && bitOf p.ctl.toNat 0 then laceWaitFor s c l p.gen.toNat true
    else match laceArrive s pt l p.gen.toNat with
    | (s, some st) => { s := s, st := st }
    | (s, none) => if bitOf p.ctl.toNat 0 then laceWaitFor s c l p.gen.toNat true else { s := s }

def execLaceArrive (h : Hdr) (p : LaceArriveP) (s : State) : Host.Outcome State Fault Refusal :=
  command (.laceArrive h p) { op := 0x0611, n := 16, runs := .sf } h (packetBytes 0x0611 h (bytesLaceArrive p))
    (bodyLaceArrive p) s

/-- LACE_WAIT (R367); on an uninitialised lace BAD_PARAM (R363). -/
def bodyLaceWait (p : LaceWaitP) (s : State) (c : Cmd) : Res :=
  let pt := c.part.getD 16
  let l := p.lace.toNat
  checked s (laceChecks s pt l (decide (p.rsvdA ≠ 0)) ++ [(decide ((lace s l).expected = 0), .badParam, 0)]) fun _ =>
    laceWaitFor s c l p.gen.toNat false

def execLaceWait (h : Hdr) (p : LaceWaitP) (s : State) : Host.Outcome State Fault Refusal :=
  command (.laceWait h p) { op := 0x0612, n := 16, runs := .sf } h (packetBytes 0x0612 h (bytesLaceWait p)) (bodyLaceWait p) s

/-- The record of LACE_READ (R368). -/
def laceRecord (x : Lace) : List Byte :=
  leBytes 8 x.gen.toNat ++ leBytes 2 x.expected.toNat ++ leBytes 2 x.arrived.toNat ++ leBytes 2 x.early.toNat ++ zeros 2 ++
  leBytes 4 x.devArr ++ zeros 4

def bodyLaceRead (p : LaceReadP) (s : State) (c : Cmd) : Res :=
  let pt := c.part.getD 16
  let l := p.lace.toNat
  checked s (laceChecks s pt l (decide (p.rsvdA ≠ 0))) fun _ => { s := s, record := laceRecord (lace s l) }

def execLaceRead (h : Hdr) (p : LaceReadP) (s : State) : Host.Outcome State Fault Refusal :=
  command (.laceRead h p) { op := 0x0613, n := 8, runs := .sf, rec_ := 24 } h (packetBytes 0x0613 h (bytesLaceRead p))
    (bodyLaceRead p) s

/-- The fabric address that a command came from; the module's own for any other path. -/
def cmdSource (s : State) (c : Cmd) : Nat :=
  match c.h.via with
  | .fabric src _ _ => src.toNat
  | _ => s.fab.addr.toNat

/-- LACE_REMOTE_ARRIVE: the root counts the sender's device, or the packet is dropped (R365). -/
def bodyLaceRemoteArrive (p : LaceRemoteArriveP) (s : State) (c : Cmd) : Res :=
  let pt := c.part.getD 16
  let l := p.lace.toNat
  checked s (laceChecks s pt l (decide (p.rsvdA ≠ 0))) fun _ => { s := rootArrive s pt l (cmdSource s c) p.gen.toNat }

def execLaceRemoteArrive (h : Hdr) (p : LaceRemoteArriveP) (s : State) : Host.Outcome State Fault Refusal :=
  command (.laceRemoteArrive h p) { op := 0x0614, n := 16, runs := .p } h (packetBytes 0x0614 h (bytesLaceRemoteArrive p))
    (bodyLaceRemoteArrive p) s

/-- LACE_RELEASE: releases a FABRIC lace whose GEN it names; any other is dropped (R365). -/
def bodyLaceRelease (p : LaceReleaseP) (s : State) (c : Cmd) : Res :=
  let pt := c.part.getD 16
  let l := p.lace.toNat
  checked s (laceChecks s pt l (decide (p.rsvdA ≠ 0))) fun _ =>
    let x := lace s l
    if decide (x.expected = 0) || !x.fabric || decide (x.gen ≠ p.gen) || decide (x.gen.toNat = 2 ^ 64 - 1) then { s := laceDrop s l }
    else { s := laceComplete (releaseOnce s l) pt l }

def execLaceRelease (h : Hdr) (p : LaceReleaseP) (s : State) : Host.Outcome State Fault Refusal :=
  command (.laceRelease h p) { op := 0x0615, n := 16, runs := .p } h (packetBytes 0x0615 h (bytesLaceRelease p))
    (bodyLaceRelease p) s

/-! ### Window accesses of Awl cores and control cores (R362, R369) -/

/-- The mesh stop of a core out of service accepts nothing from its Awl cores (R287). -/
def ifServing (s : State) (c : Nat) (t : State) : State := if inService s c then t else s

/-- The unit of a window's user. -/
def userUnit : WinUser → UnitId
  | .awl c a => .awl c a
  | .ctl d k => .ctl d k

/-- The die from which a user accesses a window. -/
def userDie : WinUser → Nat
  | .awl c _ => dieOfCore c.val
  | .ctl d _ => d.val

/-- A user runs on with the value that its access returns. -/
def retUser (s : State) (u : WinUser) (v : Nat) : State :=
  match u with
  | .awl c a => retAwl s c.val a.val v
  | .ctl d k => send s (.retCtl d.val k.val v)

/-- A window access begins: its core runs, which the Quag watch of its partition sees (R373), and a wait of this unit that an interrupt broke is
abandoned (R359, R362). -/
def userLeave (s : State) (u : WinUser) : State := abandonUnit (breakUnit s (userUnit u)) (userUnit u)

/-- Whether an access reaches an object: an Awl core's own partition holds it. A control core serves every partition, so no object is
another's to it (DEDUCED, entry 46). -/
def userMay (s : State) (u : WinUser) (owns : Nat → Bool) : Bool :=
  match u with
  | .awl c _ => (match partOfCore s c.val with
    | some p => owns p
    | none => false)
  | .ctl _ _ => true

/-- A user that is an Awl core of a core out of service, whose windows take nothing (R287). -/
def userSilent (s : State) (u : WinUser) : Bool :=
  match u with
  | .awl c _ => !inService s c.val
  | .ctl _ _ => false

/-- A window access takes place unless its Awl core's core is out of service (R287). -/
def userActs (s : State) (u : WinUser) (t : State) : State := if userSilent s u then s else t

/-- A refused eyelet window access: the issuing die's source and EYE_FAULT (R352, R362, R393). -/
def refuseEyelet (s : State) (u : WinUser) (e : Nat) : State := eyeFault (fireDie s (userDie u) 0x182) (userDie u) 30 e

/-- Whether a user may reach an eyelet. -/
def userEyelet (s : State) (u : WinUser) (e : Nat) : Bool := userMay s u (fun p => ownsEyelet s p e)

/-- amoadd.d at 0x08: signal(k), or SET; returns COUNT before (R362). -/
def eyeletWindowSignalOp (s : State) (u : WinUser) (e k : Nat) : State :=
  let s := userLeave s u
  if !userEyelet s u e || decide (k = 0) || decide (0xFFFFFFFF < k) then retUser (refuseEyelet s u e) u 0
  else retUser (signalEyelet s e k).1 u (eyelet s e).count.toNat

def execEyeletWindowSignal (users : Cluster) (a : Fin 4) (e : BitVec 14) (k : BitVec 64) (s : State) : Host.Outcome State Fault Refusal :=
  .next (userActs s (users.user a) (eyeletWindowSignalOp s (users.user a) e.toNat k.toNat))

/-- amoadd.d at 0x10: waits, then takes; returns COUNT after the take (R362). -/
def eyeletWindowWaitOp (s : State) (u : WinUser) (e n : Nat) : State :=
  let s := userLeave s u
  if !userEyelet s u e || decide (n = 0) || decide (65535 < n) then retUser (refuseEyelet s u e) u 0
  else match takeEyelet (eyelet s e) n with
    | some x => retUser (setEyelet s e x) u x.count.toNat
    | none => sleepOn s e n (userUnit u)

def execEyeletWindowWait (users : Cluster) (a : Fin 4) (e : BitVec 14) (n : BitVec 64) (s : State) : Host.Outcome State Fault Refusal :=
  .next (userActs s (users.user a) (eyeletWindowWaitOp s (users.user a) e.toNat n.toNat))

/-- amoadd.d at 0x18: TRY; returns 1 if taken (R362). -/
def eyeletWindowTryOp (s : State) (u : WinUser) (e n : Nat) : State :=
  let s := userLeave s u
  if !userEyelet s u e || decide (n = 0) || decide (65535 < n) then retUser (refuseEyelet s u e) u 0
  else match takeEyelet (eyelet s e) n with
    | some x => retUser (setEyelet s e x) u 1
    | none => retUser s u 0

def execEyeletWindowTry (users : Cluster) (a : Fin 4) (e : BitVec 14) (n : BitVec 64) (s : State) : Host.Outcome State Fault Refusal :=
  .next (userActs s (users.user a) (eyeletWindowTryOp s (users.user a) e.toNat n.toNat))

/-- sd at 0x20: CLEAR; on a semaphore an access error (R362). -/
def eyeletWindowClearOp (s : State) (u : WinUser) (e : Nat) : State :=
  let s := userLeave s u
  let x := eyelet s e
  if !userEyelet s u e || !x.event then refuseEyelet s u e else setEyelet s e { x with count := 0 }

def execEyeletWindowClear (users : Cluster) (a : Fin 4) (e : BitVec 14) (s : State) : Host.Outcome State Fault Refusal :=
  .next (userActs s (users.user a) (eyeletWindowClearOp s (users.user a) e.toNat))

/-- What an ld at offset 0x00 of an eyelet slot returns (R362); a slot that the user may not reach returns 0. -/
def eyeletLoad (s : State) (u : WinUser) (e : Nat) : Nat :=
  let x := eyelet s e
  if userEyelet s u e then b2n x.sat * 2 ^ 33 + b2n x.event * 2 ^ 32 + x.count.toNat else 0

/-- The partition for which a user accesses a lace: the one that holds it. -/
def userLacePart (s : State) (u : WinUser) (l : Nat) : Option Nat :=
  if userMay s u (fun p => ownsLace s p l) then some ((partOfSlice s (laceHome l).1 (laceHome l).2).getD 16) else none

/-- The arrival that a user's waiter-table entry records (R369). -/
def userArrival (s : State) (u : WinUser) : Option (Nat × Nat) :=
  match u with
  | .awl c a => (awlOf (core s c.val) a.val).arrival
  | .ctl d k => tget none k.val (die s d.val).arrivals

def setArrival (s : State) (u : WinUser) (x : Option (Nat × Nat)) : State :=
  match u with
  | .awl c a => modAwl s c.val a.val (fun y => { y with arrival := x })
  | .ctl d k => modDie s d.val (fun y => { y with arrivals := tput none k.val x y.arrivals })

/-- A refused lace window access returns a value, fires the issuing die's source and sets ACCESS (R352, R369, R393). -/
def refuseLace (s : State) (u : WinUser) (l v : Nat) : State :=
  retUser (laceFault (fireDie s (userDie u) 0x183) (userDie u) 30 l) u v

/-- amoadd.d at 0x08: an arrival; returns GEN at arrival (R369). -/
def laceWindowArriveOp (s : State) (u : WinUser) (l g : Nat) : State :=
  let s := setArrival (userLeave s u) u none
  match userLacePart s u l with
  | none => refuseLace s u l 0
  | some p =>
    let gen := (lace s l).gen.toNat
    match laceArrive s p l g with
    | (s, some _) => refuseLace s u l (2 ^ 64 - 1)
    | (s, none) => retUser s u gen

def execLaceWindowArrive (users : Cluster) (a : Fin 4) (l : BitVec 10) (g : BitVec 64) (s : State) : Host.Outcome State Fault Refusal :=
  .next (userActs s (users.user a) (laceWindowArriveOp s (users.user a) l.toNat g.toNat))

/-- Wait for the release of g in the window; returns GEN after the release. -/
def laceWindowSleep (s : State) (u : WinUser) (l g : Nat) : State :=
  if g < (lace s l).gen.toNat then retUser s u (lace s l).gen.toNat else laceSleep s l g (userUnit u)

/-- amoadd.d at 0x10: an arrival, then a wait; an arrival that the waiter-table entry records is not made again (R369). -/
def laceWindowArriveWaitOp (s : State) (u : WinUser) (l g : Nat) : State :=
  let s := userLeave s u
  match userLacePart s u l with
  | none => refuseLace (setArrival s u none) u l 0
  | some p =>
    if userArrival s u = some (l, g) then laceWindowSleep s u l g
    else
      let s := setArrival s u none
      match laceArrive s p l g with
      | (s, some _) => refuseLace s u l (2 ^ 64 - 1)
      | (s, none) =>
        if g < (lace s l).gen.toNat then retUser s u (lace s l).gen.toNat else laceSleep (setArrival s u (some (l, g))) l g (userUnit u)

def execLaceWindowArriveWait (users : Cluster) (a : Fin 4) (l : BitVec 10) (g : BitVec 64) (s : State) : Host.Outcome State Fault Refusal :=
  .next (userActs s (users.user a) (laceWindowArriveWaitOp s (users.user a) l.toNat g.toNat))

/-- amoadd.d at 0x18: a wait for the release of g (R369); on an uninitialised lace an access error (R363). -/
def laceWindowWaitOp (s : State) (u : WinUser) (l g : Nat) : State :=
  let s := setArrival (userLeave s u) u none
  match userLacePart s u l with
  | none => refuseLace s u l 0
  | some _ => if (lace s l).expected = 0 then refuseLace s u l (2 ^ 64 - 1) else laceWindowSleep s u l g

def execLaceWindowWait (users : Cluster) (a : Fin 4) (l : BitVec 10) (g : BitVec 64) (s : State) : Host.Outcome State Fault Refusal :=
  .next (userActs s (users.user a) (laceWindowWaitOp s (users.user a) l.toNat g.toNat))

/-- What an ld at offset 0x00 of a lace slot returns: GEN (R369); a slot that the user may not reach returns 0. -/
def laceLoad (s : State) (u : WinUser) (l : Nat) : Nat := if (userLacePart s u l).isSome then (lace s l).gen.toNat else 0

/-! ### Every other access of the direct windows (R273, R362, R369) -/

/-- A store of an Awl core or a control core to the direct windows at an offset that takes none: it changes nothing, and the issuing die's
access-error source fires. A store at 0x20 of an eyelet slot is CLEAR. -/
def windowStore (s : State) (u : WinUser) (a : Nat) : State :=
  match objectAt a with
  | some (.tally _) => fireDie s (userDie u) 0x180
  | some (.eyelet e) =>
    if a % 64 = 0x20 then eyeletWindowClearOp s u e else refuseEyelet (userLeave s u) u e
  | some (.lace l) => laceFault (fireDie (setArrival (userLeave s u) u none) (userDie u) 0x183) (userDie u) 30 l
  | none => s

end Sys2Proof.Machine
end

