-- ==== Sys2Proof/Machine/ReliaOps.lean ====
section
/-! DEFINITION. What every unit uses of reliability: fault signatures and their frames (R631 to R634), the trigger counts and
test requests (R619, R620), residue mismatches (R614 to R617), and fencing (R287). -/
namespace Sys2Proof.Machine

/-! ### CBOR in core deterministic encoding (R631) -/

/-- The head of a data item: major type and argument. -/
def cborHead (major n : Nat) : List Byte :=
  if n < 24 then leBytes 1 (32 * major + n)
  else if n < 2 ^ 8 then leBytes 1 (32 * major + 24) ++ leBytes 1 n
  else if n < 2 ^ 16 then leBytes 1 (32 * major + 25) ++ (leBytes 2 n).reverse
  else if n < 2 ^ 32 then leBytes 1 (32 * major + 26) ++ (leBytes 4 n).reverse
  else leBytes 1 (32 * major + 27) ++ (leBytes 8 n).reverse

def cborUint (n : Nat) : List Byte := cborHead 0 n
def cborBytes (b : List Byte) : List Byte := cborHead 2 b.length ++ b
/-- A map of unsigned keys, given in ascending order; absent entries are left out. -/
def cborMap (l : List (Nat × Option (List Byte))) : List Byte :=
  let x := l.filterMap (fun e => e.2.map (fun v => (e.1, v)))
  cborHead 5 x.length ++ x.flatMap (fun e => cborUint e.1 ++ e.2)

/-- What a happening gives for its signature; absent keys are empty (R631). -/
structure SigInfo where
  kind    : Nat
  cls     : Nat
  unit    : Option (List (Nat × Option (List Byte))) := none
  cmd     : Option Cmd := none
  residue : Option (Nat × Nat × Nat × Nat) := none
  test    : Option (List (Nat × Option (List Byte))) := none
  addr    : Option Nat := none
  step    : Option Nat := none
  action  : Option Nat := none
  core    : Option Nat := none
  die     : Option Nat := none
deriving DecidableEq, Repr

/-- The UNIT map of a physical core (R631). -/
def unitMap (s : State) (k : Nat) (engine stream : Option Nat) : List (Nat × Option (List Byte)) :=
  [(1, some (cborUint (dieOfPhys k))), (2, some (cborUint k)), (3, (logicalOf s k).map cborUint), (4, engine.map cborUint),
   (5, stream.map cborUint)]

/-- The signature's CBOR item. The reference-cycle count is free: no rule fixes time (R8). -/
def sigBytes (s : State) (x : SigInfo) (ref : Nat) : List Byte :=
  let cmd := x.cmd.map (fun c => cborMap [(1, some (cborUint c.op)), (2, some (cborUint c.h.context.toNat)),
    (3, some (cborUint c.h.seq.toNat)), (4, c.part.map cborUint)])
  let res := x.residue.map (fun r => cborMap [(1, some (cborUint r.1)), (2, some (cborUint r.2.1)),
    (3, some (cborUint r.2.2.1)), (4, some (cborUint r.2.2.2))])
  let counts := x.core.map (fun k =>
    let c := coreP s k
    cborMap [(1, some (cborUint (cntBits c.resCnt))), (2, some (cborUint (cntBits c.soleRes))),
      (3, some (cborUint (cntBits c.invCnt))), (4, some (cborUint (cntBits c.ovfCnt)))])
  cborMap [(1, some (cborUint 1)), (2, if s.sec.rooted then some (cborBytes deviceId) else none),
    (3, some (cborUint s.relia.nextSeq)), (4, some (cborUint x.kind)), (5, some (cborUint x.cls)), (6, some (cborUint ref)),
    (7, some (cborUint s.mi.snap.time)),
    (8, some (cborHead 4 3 ++ [1, 2, 3].flatMap (fun i => cborUint (hdrVersion (runHeader s i))))),
    (9, x.unit.map cborMap), (10, cmd), (11, res), (12, x.test.map cborMap), (13, x.addr.map cborUint),
    (14, x.step.map cborUint), (15, x.action.map cborUint), (16, counts)]

/-- The report frame of a signature, signed once AK_READY reads 1 (R633). -/
def frameBytes (s : State) (cbor : List Byte) : List Byte :=
  let body := leBytes 2 0x000A ++ leBytes 1 (b2n s.sec.akReady) ++ [0] ++ leBytes 2 cbor.length ++ [0, 0] ++ cbor
  if s.sec.akReady then body ++ sign (akSeed s) (sha body) else body

/-- A frame as it travels on an interface: sealed with direction code 3 while a management session is open (R633). -/
def sealFrame (s : State) (k : Nat) (f : List Byte) : List Byte × State :=
  match tget none k s.mgmtSess with
  | some a => (sealBytes a 3 a.evtCtr 0 0xFF 0xFF f,
      { s with mgmtSess := tput none k (some { a with evtCtr := a.evtCtr + 1 }) s.mgmtSess })
  | none => (f, s)

/-- Send a frame: one UDP datagram to the collector and one MCTP message to the board controller (R633). -/
def sendFrame (s : State) (f : List Byte) : State :=
  let (u, s) := sealFrame s 1 f
  let (m, s) := sealFrame s 0 f
  send (send s (.report u)) (.mgmt .i3c m)

/-- Put a frame into the fault log of 256 frames; a full log loses its oldest (R634). -/
def logFrame (l : Relia) (f : FaultFrame) : Relia :=
  match l.log with
  | o :: rest =>
    if 256 ≤ l.log.length then
      { l with log := rest ++ [f], lost := if o.acked then l.lost else min 0xFFFF (l.lost + 1) }
    else { l with log := l.log ++ [f] }
  | [] => { l with log := [f] }

/-- Write a fault signature: its SEQ, log entry, frames, the die's source 0x383, and FAULT_SIGNATURE while the Ivtu link is up
(R632, R633, R643). -/
def writeSig (s : State) (x : SigInfo) : State :=
  let (ref, s) := freeCycles s
  let n := s.relia.nextSeq
  let f := frameBytes s (sigBytes s x ref)
  let r := logFrame s.relia { seq := n, bytes := f, fatal := decide (x.cls = 2) }
  let s := sendFrame { s with relia := { r with nextSeq := n + 1 } } f
  let s := match x.die with
    | some d => fireDie s d 0x383
    | none => s
  if s.ivtu.up then postMgmt s 0x01B0 x.kind (leBytes 8 n ++ leBytes 1 x.cls) else s

/-! ### Residue mismatches (R614 to R617) -/

/-- A mismatch is counted: LAST_RES_CNT for every engine, and SOLE_RES_CNT for the Sole (R94, R108, R614, R639). -/
def countMismatch (s : State) (k engine : Nat) : State :=
  let s := countCore s k 6 1 (·.resCnt) (fun c v => { c with resCnt := v })
  if engine = 0 then countCore s k 4 1 (·.soleRes) (fun c v => { c with soleRes := v }) else s

/-- A first mismatch: its counts, and the residue source (R614). -/
def firstMismatch (s : State) (k engine : Nat) : State := fireCore (countMismatch s k engine) k 7

/-- The free spare of a die, if any (R250). -/
def freeSpare (s : State) (d : Nat) : Option Nat :=
  (List.range 18).find? (fun k => decide (dieOfPhys k = d) && decide (coreState s k = 1))

/-- The path code, modulus and residues that a signature reports: the path is one of the engine's (R93, R631), the residues
are what the unit found. -/
def residueInfo (s : State) (engine : Nat) : (Nat × Nat × Nat × Nat) × State :=
  let (v, s) := freeNat s
  let path := match engine with
    | 0 => 1 + v % 6 | 1 => 7 | 2 => 8 | 3 => 9 | 4 => 10 + v % 3 | _ => 13 + v % 2
  let m := if path ≤ 2 then 7 else if path ≤ 7 then 3 else if engine = 4 then 7 else if v / 6 % 2 = 0 then 3 else 7
  ((path, m, v / 12 % m, v / 84 % m), s)

/-- A management command that firmware issues itself: its reply reaches nobody. -/
def firmwareHdr (params : Nat) : Hdr :=
  { via := .device 0, flags := 0, context := 0x10000, seq := 0, plen := BitVec.ofNat 16 params, ring := 0, rsvdA := 0,
    replyAddr := 0, resultAddr := 0, signal := 0xFFFFFFFF, timeout := 0, rsvdB := 0, tail := [], objs := [], upsets := [] }

/-- Firmware issues CORE_MIGRATE of a logical core with WAIT_STAGE 0 and AFTER 0b01 (R616). -/
def migrateByFirmware (s : State) (c : Nat) : State :=
  let h := firmwareHdr 16
  let p : CoreMigrateP := { logical := BitVec.ofNat 8 c, ctl := 1, rsvdA := 0, waitLimit := 0, rsvdB := 0 }
  owe s (.start { instr := .coreMigrate h p, cmd := { op := 0x0800, h := h, part := none, win := none } })

/-! ### Scrubs (R523) -/

/-- A core as a scrub leaves it, without power (R523, R589). -/
def scrubbedCore (k : Core) : Core := { suspect := k.suspect, engine := k.engine, resWin := k.resWin, crcWin := k.crcWin }

/-- Scrub a physical core: its streams are seeded anew from hub entropy. -/
def scrubCore (s : State) (k : Nat) : State :=
  (List.range 3).foldl (fun s i =>
    let (v, s) := freeEntropy s
    modCoreP s k (fun c => setStreamOf c i { streamOf c i with gen := { seed := v } })) (modCoreP s k scrubbedCore)

/-- Clear PEND and ACTIVE of a source. -/
def clearSrc (ctrl src : Nat) (b : Bittern) : Bittern := setBtnSrc b ctrl src { btnSrc b ctrl src with pend := false, active := false }

/-- The Bittern sources of a core's units, and the stacks and thresholds of its Awl cores' targets (R377, R378, R395, R523). -/
def scrubBittern (s : State) (c : Nat) : State :=
  modBtn s (dieOfCore c + 1) (fun b =>
    let b := (List.range 32).foldl (fun b i => clearSrc (dieOfCore c + 1) (32 * (c % 8) + i) b) b
    (List.range 4).foldl (fun b a => { b with tgts := tput {} (4 + 4 * (c % 8) + a) {} b.tgts }) b)

/-- The Insole window of a logical core reads zero. -/
def scrubInsole (s : State) (c : Nat) : State :=
  { s with mem := tclear (0x0D0000000000 + 0x1000000 * c) (0x0D0000000000 + 0x1000000 * (c + 1)) s.mem }

/-! ### Fencing (R287) -/

/-- The streams of a fenced core read FENCED (R287). -/
def fenceStreams (s : State) (k : Nat) : State :=
  modCoreP s k (fun x => (List.range 3).foldl (fun x i => setStreamOf x i { streamOf x i with mode := .fenced }) x)

/-- A commit of a value is released: the commands that wait for it look again (R276). -/
def releaseCommit (s : State) (t v : Nat) : State :=
  let x := tally s t
  let s := setTally s t { x with pending := x.pending.erase v }
  restartWaiting s (fun w => match w.wait with
    | .tallyInit u => decide (u = t)
    | .tallyCommit u _ => decide ((tallyHome u).1 = (tallyHome t).1)
    | _ => false)

/-- Whether a TALLY_COMMIT has passed its checks, so that its commit is pending (R276). -/
def commitBegun (c : Cmd) : Bool := decide (c.tally ≠ []) || decide (0 < c.passes)

/-- The pending commit of a command in progress is released (R276, R287). -/
def dropCommit (s : State) (i : Instr) (c : Cmd) : State :=
  match i with
  | .tallyCommit _ q => if commitBegun c then releaseCommit s q.tally.toNat (q.claim.toNat % 2 ^ 32) else s
  | _ => s

/-- End every queued and waiting command of one stream with a status; its pending commits are released (R276, R287). -/
def drainStream (s : State) (k i : Nat) (u : UnitId) (st : Status) : State :=
  let x := streamOf (coreP s k) i
  let s := modCoreP s k (fun c => setStreamOf c i { streamOf c i with queue := [], held := [], busy := none })
  let s := abandonUnit s u
  let mine := s.waiting.filter (fun w => decide (w.unit = u))
  let s := { s with waiting := s.waiting.filter (fun w => decide (w.unit ≠ u)) }
  let s := mine.foldl (fun s w => complete (dropCommit s w.instr w.cmd) w.cmd st 0 w.record) s
  (x.queue ++ x.held).foldl (fun s q => complete (dropCommit s q.instr q.cmd) q.cmd st 0 []) s

/-- A logical core goes out of service with its core fenced: every command queued or in progress on it completes with FENCED, the core is
scrubbed with its Awl cores, Insole and Fen pool (R26, R523), and the map is written to the configuration block (R284, R287, R617). -/
def fenceLogical (s : State) (c : Nat) : State :=
  let k := physOf s c
  let s := setMapByte s c (mapByte s c % 64)
  let s := setCoreState s k 2
  let s := (List.range 3).foldl (fun s i =>
    drainStream (modCoreP s k (fun x => setStreamOf x i { streamOf x i with mode := .fenced })) k i
      (.stream (Fin.ofNat 16 c) (Fin.ofNat 3 i)) .fenced) s
  let s := (List.range 4).foldl (fun s a => abandonUnit s (.awl (Fin.ofNat 16 c) (Fin.ofNat 4 a))) s
  storeCoreMap (fenceStreams (scrubCore (scrubBittern (scrubInsole s c) c) k) k)

/-- A second mismatch of an engine other than 4: counted again (R94, R639), SUSPECT, source 0x380, CORE_SUSPECT, a signature, a test request; then
firmware migrates the core, or fences it when the die has no free spare (R615 to R617); a migration that already moves the core
goes on with AFTER 0b01 (R644). Answers whether the command fails
with RESIDUE_FAIL. -/
def secondMismatch (s : State) (k i engine : Nat) (c : Cmd) : Bool × State :=
  let d := dieOfPhys k
  let lc := logicalOf s k
  let s := countMismatch s k engine
  let s := modCoreP s k (fun x => { x with suspect := true, engine := BitVec.ofNat 4 engine })
  let s := fireDie s d 0x380
  let s := postMgmt s 0x01B1 engine (leBytes 1 (lc.getD 0xFF) ++ leBytes 1 k)
  let moving := match (die s d).migration with
    | some m => decide (m.source = k)
    | none => false
  let s := if moving then modDie s d (fun x => { x with migration := x.migration.map (fun m => { m with after := 1 }) }) else s
  let spare := (freeSpare s d).isSome || moving
  let auto := bitOf (coreP s k).reliaCtl.toNat 0
  let (ri, s) := residueInfo s engine
  let s := writeSig s { kind := 1, cls := 1, unit := some (unitMap s k (some engine) (some i)), cmd := some c, residue := some ri,
                        action := some (if spare then 1 else 2), core := some k, die := some d }
  let s := requestTest s k
  match lc with
  | none => (true, s)
  | some l => if moving then (!auto, s) else if spare then (!auto, migrateByFirmware s l) else (true, fenceLogical s l)

/-- The signature of an INTEGRITY_FAIL (R632). -/
def sigIntegrity (s : State) (k i : Nat) (c : Cmd) : State :=
  writeSig s { kind := 3, cls := 0, unit := some (unitMap s k none (some i)), cmd := some c, core := some k,
               die := some (dieOfPhys k) }

/-- The signature that a command's INTEGRITY_FAIL leaves: of its core and stream, or of a FIRMWARE command alone (R632). -/
def sigCommand (s : State) (c : Cmd) : State :=
  match streamOfHdr s c.h with
  | some (k, i) => sigIntegrity s (physOf s k) i c
  | none => writeSig s { kind := 3, cls := 0, cmd := some c }

end Sys2Proof.Machine
end

