-- ==== Sys2Proof/Machine/Tensor.lean ====
section
/-! DEFINITION. Tensor descriptors and the descriptor checker (R216 to R226, R229), sparse layout records (R115, R116), and
the run of a command over tensors: element reads, conversions of destination blocks (R661), writes and the end of the run. -/
namespace Sys2Proof.Machine

/-! ### Descriptors (R216 to R221) -/

/-- A descriptor as the checker reads it. Dimensions at and above RANK have extent 1, valid region [0, 1) and stride 0. -/
structure Desc where
  addr  : Nat
  elem  : Elem
  rank  : Nat
  given : Bool
  sat   : Bool
  sr    : Bool
  acc   : Bool
  alias_ : Bool
  nib   : Bool
  trans : Bool
  base  : Nat
  sbase : Nat
  srec  : Nat
  fill  : Nat
  ext   : List Nat
  lo    : List Nat
  hi    : List Nat
  str   : List Int
deriving DecidableEq, Repr

/-- Entry d of a six-entry list. -/
def dim {α : Type} [Inhabited α] (l : List α) (d : Nat) : α := l.getD d default

/-- Read a descriptor's 192 bytes under check 1 of R225. -/
def parseDesc (a : Nat) (b : List Byte) : Option Desc :=
  let rank := at_ b 1 1
  let conv := at_ b 2 1
  let fl := at_ b 3 1
  let nums := fun (o : Nat) => (List.range 6).map (fun i => at_ b (o + 4 * i) 4)
  let strs := (List.range 6).map (fun i => at_ b (128 + 8 * i) 8)
  let strOk := strs.all (fun w => decide (unsext 64 (sext 40 w) = w))
  let high := ((List.range 6).drop rank).all (fun i =>
    decide (at_ b (48 + 4 * i) 4 = 0) && decide (at_ b (72 + 4 * i) 4 = 0) && decide (at_ b (96 + 4 * i) 4 = 0) &&
    decide (at_ b (128 + 8 * i) 8 = 0))
  let fill := fun (l : List Nat) (v : Nat) => l.take rank ++ List.replicate (6 - rank) v
  match elemOfCode (at_ b 0 1) with
  | none => none
  | some el =>
    if decide (1 ≤ rank) && decide (rank ≤ 6) && decide (conv < 16) && decide (fld conv 0 2 < 2) && decide (fld fl 6 2 = 0) &&
        decide (fld fl 4 2 < 2) && !bitOf fl 0 && allZero (slice b 4 4) && decide (at_ b 8 8 < 2 ^ 48) &&
        decide (at_ b 16 8 < 2 ^ 48) && allZero (slice b 40 8) && allZero (slice b 120 8) && strOk && high &&
        allZero (slice b 176 16)
    then some { addr := a, elem := el, rank := rank, given := bitOf conv 3, sat := bitOf conv 2, sr := bitOf conv 0,
                acc := decide (fld fl 4 2 = 1), alias_ := bitOf fl 3, nib := bitOf fl 2, trans := bitOf fl 1,
                base := at_ b 8 8, sbase := at_ b 16 8, srec := at_ b 24 8, fill := at_ b 32 8,
                ext := fill (nums 48) 1, lo := fill (nums 72) 0, hi := fill (nums 96) 1, str := (strs.map (sext 40)) }
    else none

/-- Exchange dimensions 0 and 1 (R218). -/
def swap01 {α : Type} : List α → List α
  | a :: b :: r => b :: a :: r
  | l => l

/-- Between stored and seen indices of a descriptor (R218). -/
def seenIx {α : Type} (d : Desc) (l : List α) : List α := if d.trans then swap01 l else l

/-- The extents that a command sees (R218). -/
def seenExt (d : Desc) : List Nat := seenIx d d.ext

/-- Valid elements in each dimension. -/
def validN (d : Desc) : List Nat := (d.hi.zip d.lo).map (fun x => x.1 - x.2)
/-- Elements of the valid region. -/
def validCount (d : Desc) : Nat := (validN d).foldl (· * ·) 1
def isDense (d : Desc) : Bool := decide (d.srec = 0)

/-- Every index tuple of a shape, dimension 0 fastest. -/
def allIdx : List Nat → List (List Nat)
  | [] => [[]]
  | e :: es => (allIdx es).flatMap (fun t => (List.range e).map (fun i => i :: t))

/-- The stored indices of the valid region, dimension 0 fastest. -/
def validIdx (d : Desc) : List (List Nat) := (allIdx (validN d)).map (fun t => (t.zip d.lo).map (fun x => x.1 + x.2))

/-- Whether a stored index lies in the valid region (R222). -/
def inValid (d : Desc) (ix : List Nat) : Bool :=
  (ix.zip (d.lo.zip d.hi)).all (fun x => decide (x.2.1 ≤ x.1) && decide (x.1 < x.2.2))

/-- Element offset of a stored index (R219). -/
def elemOff (d : Desc) (ix : List Nat) : Int :=
  ((ix.zip (d.lo.zip d.str)).map (fun x => ((x.1 : Int) - (x.2.1 : Int)) * x.2.2)).foldl (· + ·) 0

/-- Nibble number of an L4 element (R220). -/
def nibOff (d : Desc) (ix : List Nat) : Int := elemOff d ix + (b2n d.nib : Nat)

/-- Byte address of a stored element (R219, R220). -/
def elemAddr (d : Desc) (ix : List Nat) : Nat :=
  if d.elem = .l4 then ((d.base : Int) + nibOff d ix / 2).toNat
  else ((d.base : Int) + elemOff d ix * (elemBytes d.elem : Nat)).toNat

/-- Address of the scale byte of a stored element (R221). -/
def scaleAddr (d : Desc) (ix : List Nat) : Nat :=
  let i0 := dim ix 0 - dim d.lo 0
  let rest := (((ix.zip (d.lo.zip d.str)).drop 1).map (fun x => ((x.1 : Int) - (x.2.1 : Int)) * x.2.2 / 32)).foldl (· + ·) 0
  ((d.sbase : Int) + ((i0 / 32 : Nat) : Int) + rest).toNat

/-- Sums of the negative and of the positive reach of each dimension. -/
def reachOf (ns : List Nat) (strs : List Int) : Int × Int :=
  (ns.zip strs).foldl (fun (a : Int × Int) x =>
    let r := ((x.1 : Int) - 1) * x.2
    if r < 0 then (a.1 + r, a.2) else (a.1, a.2 + r)) (0, 0)

/-- Lowest and highest byte of the valid region's data of a dense tensor; none without elements. -/
def dataSpan (d : Desc) : Option (Int × Int) :=
  if validCount d = 0 then none
  else
    let r := reachOf (validN d) d.str
    if d.elem = .l4 then
      some ((d.base : Int) + (r.1 + (b2n d.nib : Nat)) / 2, (d.base : Int) + (r.2 + (b2n d.nib : Nat)) / 2)
    else
      let w : Int := (elemBytes d.elem : Nat)
      some ((d.base : Int) + r.1 * w, (d.base : Int) + r.2 * w + w - 1)

/-- Lowest and highest scale byte of a dense scaled tensor. -/
def scaleSpan (d : Desc) : Option (Int × Int) :=
  if validCount d = 0 || !elemScaled d.elem then none
  else
    let r := reachOf ((validN d).drop 1) ((d.str.drop 1).map (· / 32))
    some ((d.sbase : Int) + r.1, (d.sbase : Int) + r.2 + (((dim (validN d) 0 - 1) / 32 : Nat) : Int))

/-! ### Sparse layout records (R110 to R116) -/

/-- A sparse layout record. -/
structure SRec where
  addr   : Nat
  format : Nat
  elem   : Nat
  nm     : Nat
  tbase  : Nat
  dbase  : Nat
  cap    : Nat
  used   : Nat
  epoch  : Nat
deriving DecidableEq, Repr

/-- N of an NM byte (R117). -/
def nOf (nm : Nat) : Nat := 2 ^ fld nm 2 2
/-- M of an NM byte (R117). -/
def mOf (nm : Nat) : Nat := 4 * 2 ^ fld nm 0 2
/-- The pairs of R121. -/
def nmOk (nm : Nat) : Bool :=
  decide (nm < 16) && decide (fld nm 2 2 < 3) && decide (fld nm 0 2 < 3) && decide (2 * nOf nm ≤ mOf nm)

/-- W of an element format (R110). -/
def tileW (e : Elem) : Nat := 1024 / elemBits e
/-- Scale bytes of a tile (R110). -/
def tileS (e : Elem) : Nat := if elemScaled e then tileW e else 0

/-- Formats that a compressed tensor may hold (R110, R111). -/
def tileElemOk (format : Nat) (e : Elem) : Bool :=
  match e with
  | .l4 | .l8 | .e4m3 | .e5m2 | .l16 | .bf16 | .fp16 | .l16s => true
  | .fp32 => decide (format = 2)
  | _ => false

/-- Tile columns, tile rows and outer indices of a tensor (R112). -/
def tileGrid (e : Elem) (ext : List Nat) : Nat × Nat × Nat :=
  (ceilDiv (dim ext 0) (tileW e), ceilDiv (dim ext 1) 32, (ext.drop 2).foldl (· * ·) 1)
/-- Number of tiles (R112). -/
def tileCount (e : Elem) (ext : List Nat) : Nat := let g := tileGrid e ext; g.1 * g.2.1 * g.2.2

def parseRec (a : Nat) (b : List Byte) : SRec :=
  { addr := a, format := at_ b 0 1, elem := at_ b 1 1, nm := at_ b 2 1, tbase := at_ b 8 8, dbase := at_ b 16 8,
    cap := at_ b 24 8, used := at_ b 32 8, epoch := at_ b 40 8 }

/-- Whether two byte regions, given by start and length, intersect. -/
def meets (a n b m : Nat) : Bool := decide (0 < n) && decide (0 < m) && decide (a < b + m) && decide (b < a + n)

/-- R115 and R116 for a record read from its 64 bytes. -/
def recOk (r : SRec) (b : List Byte) (e : Elem) (tiles : Nat) : Bool :=
  decide (2 ≤ r.format) && decide (r.format ≤ 4) && decide (r.elem = elemCode e) && tileElemOk r.format e &&
  (if r.format = 2 then nmOk r.nm else decide (r.nm = 0)) && allZero (slice b 3 5) && allZero (slice b 48 16) &&
  decide (r.tbase % 32 = 0) && decide (r.dbase % 32 = 0) && decide (r.cap % 32 = 0) && decide (r.used % 32 = 0) &&
  decide (r.used ≤ r.cap) && !meets r.tbase (32 * tiles) r.dbase r.cap && !meets r.tbase (32 * tiles) r.addr 64 &&
  !meets r.dbase r.cap r.addr 64

/-- A sparse layout record of a partition. -/
def loadRec (s : State) (p : Nat) (d : Desc) : SRec := parseRec d.srec (partRead s p d.srec 64)

/-- Byte regions of a compressed tensor: its record, trailers and data region (check 6 of R225). -/
def recRegions (r : SRec) (tiles : Nat) : List (Nat × Nat) :=
  [(r.addr, 64), (r.tbase, 32 * tiles), (r.dbase, r.cap)].filter (fun x => decide (0 < x.2))

/-! ### The checker (R225) -/

/-- Whether every page of an inclusive byte span is mapped, writable where asked. -/
def pagesOk (s : State) (p : Nat) (lo hi : Int) (write : Bool) : Bool :=
  decide (0 ≤ lo) && decide (hi < 2 ^ 48) && spanOk s p lo.toNat hi.toNat write

/-- The span of valid data that checks 6 and 9 and DESC_CHECK use. -/
def fullSpan (s : State) (p : Nat) (d : Desc) : Option (Int × Int) :=
  if isDense d then dataSpan d
  else
    match recRegions (loadRec s p d) (tileCount d.elem d.ext) with
    | [] => none
    | x :: xs => some (xs.foldl (fun (a : Int × Int) y =>
        (if (y.1 : Int) < a.1 then (y.1 : Int) else a.1,
         if a.2 < ((y.1 + y.2 - 1 : Nat) : Int) then ((y.1 + y.2 - 1 : Nat) : Int) else a.2))
        ((x.1 : Int), ((x.1 + x.2 - 1 : Nat) : Int)))

/-- Insert into a list sorted by stride magnitude. -/
def insStride (x : Nat × Int) : List (Nat × Int) → List (Nat × Int)
  | [] => [x]
  | y :: ys => if x.2.natAbs ≤ y.2.natAbs then x :: y :: ys else y :: insStride x ys

/-- The collision rule of R226: whether valid elements may share an address. -/
def mayCollide (d : Desc) : Bool :=
  let dims := ((validN d).zip d.str).filter (fun x => decide (1 < x.1))
  let sorted := dims.foldr insStride []
  (sorted.foldl (fun (a : Bool × Nat) x =>
    (a.1 || decide (x.2.natAbs ≤ a.2), a.2 + x.2.natAbs * (x.1 - 1))) (false, 0)).1

/-- Bytes of an element of FILL, for R223. -/
def fillBits (e : Elem) : Nat := elemBits e

/-- Check 3 of R225. -/
def chk3 (d : Desc) : Bool :=
  (!d.trans || decide (2 ≤ d.rank)) && (!d.nib || decide (d.elem = .l4)) &&
  (decide (d.elem = .l4) || decide (d.base % elemBytes d.elem = 0)) && decide (d.fill < 2 ^ fillBits d.elem) &&
  (!(elemScaled d.elem || !isDense d) || decide (d.fill = 0))

/-- Check 4 of R225 (R221). -/
def chk4 (d : Desc) : Bool :=
  !isDense d ||
  (if elemScaled d.elem then
    decide (dim d.str 0 = 1) && (d.str.drop 1).all (fun x => decide (x % 32 = 0)) && decide (d.sbase ≠ 0)
   else decide (d.sbase = 0))

/-- The descriptor's own part of check 5 of R225. -/
def chk5own (d : Desc) : Bool :=
  decide (2 ≤ d.rank) && decide (d.base = 0) && decide (d.sbase = 0) && d.str.all (· == 0) && d.lo.all (· == 0) &&
  decide (d.hi = d.ext) && !d.trans && !d.acc && !d.alias_

/-- Check 5 of R225. -/
def chk5 (s : State) (p : Nat) (d : Desc) : Bool :=
  isDense d ||
  (chk5own d && decide (d.srec % 64 = 0) && pagesOk s p d.srec (d.srec + 63) false &&
   recOk (loadRec s p d) (partRead s p d.srec 64) d.elem (tileCount d.elem d.ext))

/-- Whether a compressed tensor's sparse layout record, which check 5 would read, lies in a poisoned sector: its bytes are not used, and the command
ends with INTEGRITY_FAIL (R241, R416). -/
def recHurt (s : State) (p : Nat) (d : Desc) : Bool :=
  !isDense d && chk5own d && decide (d.srec % 64 = 0) && pagesOk s p d.srec (d.srec + 63) false && partPoisoned s p d.srec 64

/-- Check 6 of R225. -/
def chk6 (s : State) (p : Nat) (d : Desc) (write : Bool) : Bool :=
  let ok := fun (x : Option (Int × Int)) => match x with
    | none => true
    | some y => pagesOk s p y.1 y.2 write
  if isDense d then ok (dataSpan d) && ok (scaleSpan d)
  else (recRegions (loadRec s p d) (tileCount d.elem d.ext)).all (fun x => pagesOk s p x.1 (x.1 + x.2 - 1 : Nat) write)

/-- Checks 2 to 8 of R225 on a descriptor that passed check 1; the failing check's status and order. -/
def descChecks (s : State) (p : Nat) (d : Desc) (write : Bool) : Option (Status × Nat) :=
  firstFail
    [(!((d.lo.zip (d.hi.zip d.ext)).all (fun x => decide (x.1 ≤ x.2.1) && decide (x.2.1 ≤ x.2.2))), .badDescriptor, 2),
     (!chk3 d, .badDescriptor, 3), (!chk4 d, .badDescriptor, 4), (recHurt s p d, .integrityFail, 0),
     (!chk5 s p d, .badDescriptor, 5),
     (!chk6 s p d write, .badDescriptor, 6),
     (d.acc && !(decide (d.elem = .l16) || decide (d.elem = .fp32) || decide (d.elem = .a48)), .badDescriptor, 7),
     (write && isDense d && mayCollide d && !d.acc && !d.alias_, .aliasWrite, 8)]

/-- The outcome of checking one descriptor: the descriptor, or a status and the failing check's order. -/
inductive Chk where
  | ok (d : Desc)
  | no (st : Status) (order : Nat)
deriving DecidableEq, Repr

/-- Checks 1 to 8 of R225. A descriptor whose bytes are poisoned is not used: its command ends with INTEGRITY_FAIL (R416). -/
def checkDesc (s : State) (p a : Nat) (write : Bool) : Chk :=
  if decide (a % 64 ≠ 0) || !pagesOk s p a (a + 191 : Nat) false then .no .badDescriptor 1
  else if partPoisoned s p a 192 then .no .integrityFail 0
  else
    match parseDesc a (partRead s p a 192) with
    | none => .no .badDescriptor 1
    | some d =>
      match descChecks s p d write with
      | some (st, n) => .no st n
      | none => .ok d

/-- Whether two spans intersect. -/
def spansMeet : Option (Int × Int) → Option (Int × Int) → Bool
  | some a, some b => decide (a.1 ≤ b.2) && decide (b.1 ≤ a.2)
  | _, _ => false

/-- Whether a read and a written descriptor overlap (R229). -/
def overlap (s : State) (p : Nat) (r w : Desc) : Bool := spansMeet (fullSpan s p r) (fullSpan s p w)

/-- The failures that the check of a descriptor's bytes and of its layout record has met are counted (R404, R416). -/
def noteDesc (s : State) (p a : Nat) : State :=
  let s := noteRead s p a 192
  match (if partPoisoned s p a 192 then none else parseDesc a (partRead s p a 192)) with
  | some d => if recHurt s p d then noteRead s p d.srec 64 else s
  | none => s

/-- Whether a descriptor's bytes or its layout record are poisoned. -/
def descHurt (s : State) (p a : Nat) : Bool :=
  partPoisoned s p a 192 ||
  (match parseDesc a (partRead s p a 192) with
   | some d => recHurt s p d
   | none => false)

/-- Check a command's descriptors, given as (address, written), in order, and then check 9 for each pair of a read and a
written one. -/
def checkAll (s : State) (p : Nat) : List (Nat × Bool) → List Desc → Except (Status × Nat) (List Desc)
  | [], acc => .ok acc.reverse
  | (a, w) :: rest, acc =>
    match checkDesc s p a w with
    | .no st n => .error (st, n)
    | .ok d => checkAll s p rest (d :: acc)

/-- R225: every descriptor of a command in order, then check 9. -/
def checkDescs (s : State) (p : Nat) (l : List (Nat × Bool)) : Except (Status × Nat) (List Desc) :=
  match checkAll s p l [] with
  | .error e => .error e
  | .ok ds =>
    let pairs := ds.zip l
    let rs := (pairs.filter (fun x => !x.2.2)).map (·.1)
    let ws := (pairs.filter (fun x => x.2.2)).map (·.1)
    if rs.any (fun r => ws.any (fun w => !w.alias_ && overlap s p r w)) then .error (.aliasWrite, 9) else .ok ds

/-! ### The run of a command over tensors -/

/-- What a run accumulates: the state, its partition, physical core, stream and command; the engine
codes of the units that it uses (R613); whether it read poison or a block that fails, ended early at a block, or met an unmapped
page (R662); block failures (R418); the line of its last reduction; its out-of-bounds accesses (R232), the flags of each unit
(R63), and the flags of the unit of work in progress with the bytes done in it (R613, R639); the Sole's dropped groups and busy
cycles (R108), with the cycles of each of its passes in order (R265); whether a second mismatch keeps the command in progress until
its core has moved (R616); and the destination that the command itself may be writing while it reads, under ALLOW_ALIAS (R229). -/
structure Run where
  s     : State
  p     : Nat
  k     : Nat
  i     : Nat
  cmd   : Cmd
  engs  : List Nat
  integ : Bool := false
  stop  : Bool := false
  crc   : Nat := 0
  line  : Option Nat := none
  bad   : Bool := false
  oob   : Nat := 0
  ld    : Flags := 0
  st    : Flags := 0
  so    : Flags := 0
  wl    : Flags := 0
  unit  : Flags := 0
  bytes : Nat := 0
  inv   : Nat := 0
  ovf   : Nat := 0
  drops : Nat := 0
  busy  : Nat := 0
  uses  : List Nat := []
  held  : Bool := false
  hot   : Option Desc := none

/-- The run of a command on its core and stream, with the engine codes of the units that it uses. -/
def newRun (s : State) (c : Cmd) (engs : List Nat) : Run :=
  let x := (streamOfHdr s c.h).getD (0, 0)
  let k := physOf s x.1
  { s := s, p := c.part.getD 16, k := k, i := x.2, cmd := c, engs := engs, integ := c.integ }

/-- A free choice of the run (R6). -/
def rChoice (r : Run) : Nat × Run := let x := freeNat r.s; (x.1, { r with s := x.2 })

/-- Read bytes at a partition address in a given memory state, noting poison, unmapped pages and refused window accesses (R409). -/
def rRead (r : Run) (s : State) (a n : Nat) : List Byte × Run :=
  if n = 0 then ([], r)
  else
    let ok := decide (a + n ≤ 2 ^ 48) && spanOk s r.p a (a + n - 1) false
    if ok then
      let r := { r with s := noteWindow r.s r.p a }
      (partRead s r.p a n, if partPoisoned s r.p a n then { r with s := noteRead r.s r.p a n, integ := true } else r)
    else (zeros n, { r with bad := true })

/-- Draw 32 bits from the stream's generator; which lane serves is unspecified (R61, R62). -/
def draw (r : Run) : Nat × Run :=
  let (n, r) := rChoice r
  let lane := n % 1024
  let g := (streamOf (coreP r.s r.k) r.i).gen
  let old := tget (laneOfSeed g.seed lane) lane g.lanes
  let lanes := tins lane (laneNext old) g.lanes
  ((laneDraw old).toNat,
   { r with s := modCoreP r.s r.k (fun k => setStreamOf k r.i { streamOf k r.i with gen := { g with lanes := lanes } }) })

/-- A draw where stochastic rounding is asked for. -/
def drawIf (r : Run) (sr : Bool) : Option Nat × Run :=
  if sr then let x := draw r; (some x.1, x.2) else (none, r)

/-- The offset of λ within its bound (R51). -/
def lamOff : Val → Int
  | .fin _ m e =>
    if m = 2 ^ Nat.log2 m then (Config.lamPick m e % 5 : Nat) - 2 else (Config.lamPick m e % 4 : Nat) - 1
  | _ => 0

/-- Flags that a unit of work raised; `ld` for the load conversion unit, else the store conversion unit. -/
def raise (r : Run) (ld : Bool) (f : Flags) : Run :=
  if ld then { r with ld := r.ld ||| f, unit := r.unit ||| f } else { r with st := r.st ||| f, unit := r.unit ||| f }

/-- End the unit of work in progress: it counts in LAST_INV_CNT and LAST_OVF_CNT when it raised invalid or overflow (R639). -/
def endUnit (r : Run) : Run :=
  { r with inv := r.inv + b2n (r.unit &&& fInvalid != 0), ovf := r.ovf + b2n (r.unit &&& fOverflow != 0), unit := 0, bytes := 0 }

/-- n bytes of destination data are done; a unit of work of a conversion is 4 KiB of it (R613). -/
def tick (r : Run) (n : Nat) : Run :=
  if 4096 ≤ r.bytes + n then endUnit r else { r with bytes := r.bytes + n }

/-- A source element as it was read: its code and its block scale; none for a pad element or an unscaled format (R223). -/
structure SrcEl where
  code  : Nat
  scale : Option Int := none
deriving DecidableEq, Repr

/-- The value of a source element. -/
def srcVal (e : Elem) (x : SrcEl) : Val := elemDec e x.code (x.scale.getD 0)

/-- The half bytes of a stored element, from the first to after the last. -/
def nibSpan (d : Desc) (ix : List Nat) : Int × Int :=
  let a := 2 * ((elemAddr d ix : Nat) : Int) + (if d.elem = .l4 then nibOff d ix % 2 else 0)
  (a, a + (if d.elem = .l4 then 1 else 2 * ((elemBytes d.elem : Nat) : Int)))

/-- Whether a write of a destination reaches a stored element of another tensor. A compressed destination may write anywhere in its
regions. -/
def writeReaches (s : State) (p : Nat) (w d : Desc) (ix : List Nat) : Bool :=
  let x := nibSpan d ix
  if isDense w then (validIdx w).any (fun j => let y := nibSpan w j; decide (y.1 < x.2) && decide (x.1 < y.2))
  else match fullSpan s p w with
    | some y => decide (2 * y.1 < x.2) && decide (x.1 < 2 * y.2 + 2)
    | none => false

/-- The code and scale read of an element: one that a write of the same command reaches is read as any code with any scale, since which
of those writes it has met is unspecified (R229), and what they wrote depends on what they read. -/
def hotEl (r : Run) (d : Desc) (ix : List Nat) (x : SrcEl) : SrcEl × Run :=
  match r.hot with
  | none => (x, r)
  | some w =>
    if writeReaches r.s r.p w d ix then
      let (keep, r) := rChoice r
      let (v, r) := rChoice r
      let (e, r) := rChoice r
      (if keep % 2 = 0 then x else { code := v % 2 ^ elemBits d.elem, scale := x.scale.map (fun _ => sext 8 (e % 256)) }, r)
    else (x, r)

/-- The destination that a command may be changing while it reads, when it allows an overlap. -/
def withHot (r : Run) (d : Option Desc) : Run :=
  match d with
  | some d => if d.alias_ then { r with hot := some d } else r
  | none => r

/-- Read a stored element of a dense tensor in a given memory state; FILL outside the valid region (R222). -/
def readEl (r : Run) (s : State) (d : Desc) (ix : List Nat) : SrcEl × Run :=
  if !inValid d ix then ({ code := d.fill }, r)
  else
    let (bs, r) := rRead r s (elemAddr d ix) (max 1 (elemBytes d.elem))
    let code := if d.elem = .l4 then (if nibOff d ix % 2 = 0 then leNat bs % 16 else leNat bs / 16) else leNat bs
    let code := if d.elem = .a48 then code % 2 ^ 48 else code
    if elemScaled d.elem then
      let (sb, r) := rRead r s (scaleAddr d ix) 1
      hotEl r d ix { code := code, scale := some (sext 8 (leNat sb)) }
    else hotEl r d ix { code := code }

/-- Read a list of stored elements. -/
def readEls (r : Run) (s : State) (d : Desc) : List (List Nat) → List SrcEl × Run
  | [] => ([], r)
  | ix :: rest =>
    let (x, r) := readEl r s d ix
    let (xs, r) := readEls r s d rest
    (x :: xs, r)

/-! ### Conversion of a destination block (R52, R58, R661) -/

/-- Convert values one by one with a scale, drawing for each finite one under SR. -/
def encAll (r : Run) (ld : Bool) (dst : Elem) (sat sr : Bool) (e : Int) : List Val → List Nat × Run
  | [] => ([], r)
  | v :: vs =>
    let (u, r) := drawIf r (sr && valFinite v && decide (dst ≠ .a48))
    let (c, f) := elemEnc dst sat e u (lamOff v) v
    let (cs, r) := encAll (raise r ld f) ld dst sat sr e vs
    (c :: cs, r)

/-- Convert the elements of one block, or any elements of an unscaled format, from a source format: the codes and the scale
that the block takes. `given` is the scale already in the array, under SCALE_GIVEN. -/
def convBlock (r : Run) (ld : Bool) (src dst : Elem) (sat sr : Bool) (given : Option Int) (els : List SrcEl) :
    (List Nat × Int) × Run :=
  let raw := els.map (·.code)
  let vs := els.map (srcVal src)
  if !elemScaled dst then
    if src = dst then ((if dst = .a48 then raw.map a48Canon else raw, 0), r)
    else let x := encAll r ld dst sat sr 0 vs; ((x.1, 0), x.2)
  else
    let scs := ((els.zip vs).filter (fun x => valFinite x.2)).map (fun x => x.1.scale.getD 0)
    match given with
    | some e =>
      if src = dst && scs.all (fun x => decide (x = e)) then ((raw, e), r)
      else let x := encAll r ld dst sat sr e vs; ((x.1, e), x.2)
    | none =>
      match scs with
      | [] => if src = dst then ((raw, 0), r) else let x := encAll r ld dst sat sr 0 vs; ((x.1, 0), x.2)
      | e :: rest =>
        if holdsCodes src dst && rest.all (fun x => decide (x = e)) then
          if src = dst then ((raw, e), r) else let x := encAll r ld dst sat sr e vs; ((x.1, e), x.2)
        else
          match logFmt dst with
          | none => ((raw, 0), r)
          | some f =>
            let e := blockScale f (vs.map (fun v => (lamOff v, v)))
            let x := encAll r ld dst sat sr e vs
            ((x.1, e), x.2)

/-! ### Writes -/

/-- One write of a command: bytes, a masked nibble (R230), or an addition of an A48 value to an element (R228). -/
inductive Wr where
  | bytes (a : Nat) (bs : List Byte)
  | nib (a : Nat) (hi : Bool) (v : Nat)
  | acc (a : Nat) (el : Elem) (v : Nat)
deriving DecidableEq, Repr

/-- Add an A48 value to an element's code (R411): the new code and flags. -/
def mireAdd (el : Elem) (old v : Nat) : Nat × Flags :=
  match el with
  | .a48 => a48Add none old v
  | .fp32 =>
    (match linFmt .fp32 with
     | some f =>
       let (x, fl) := valAdd (linDec f old) (a48Dec v)
       let (c, fl') := linEnc f false none x
       (c, fl ||| fl')
     | none => (old, 0))
  | .l16 =>
    let (o, f1) := toA48 none (elemDec .l16 old 0)
    let (x, f2) := a48Add none o v
    let y := a48Dec x
    let (c, f3) := elemEnc .l16 false 0 none (lamOff y) y
    (c, f1 ||| f2 ||| f3)
  | _ => (old, 0)

/-- Whether a value is below another one, neither a NaN (R411). -/
def mireBelow (a b : Val) : Bool :=
  match a, b with
  | .log n t, .log m u => if n ≠ m then n else if n then decide (u < t) else decide (t < u)
  | .log n _, .zero _ => n
  | .zero _, .log n _ => !n
  | _, _ => valLt a b

/-- The Mire's minimum and maximum of an L16, FP32 or A48 element and a code of the same format (R410, R411): a NaN or NaL operand makes the
result NaN or NaL, and −0 stands below +0. No flag is raised. -/
def mirePick (el : Elem) (greater : Bool) (old new : Nat) : Nat :=
  let a := elemDec el old 0
  let b := elemDec el new 0
  match a, b with
  | .nan _, _ => old
  | _, .nan _ => new
  | _, _ => if mireBelow a b = greater then new else old

/-- Count a reduction at its home: elements of one line may or may not be added at once (R412, R422). -/
def countReduction (r : Run) (a : Nat) : Run :=
  match xlate r.s r.p a with
  | none => r
  | some d =>
    if r.line = some (d / 64) then
      let (n, r) := rChoice r
      { r with s := countAtomic r.s r.p d (n % 2) }
    else { r with s := countAtomic r.s r.p d 1, line := some (d / 64) }

/-- The place and length of a write. -/
def wrSpan : Wr → Nat × Nat
  | .bytes a bs => (a, bs.length)
  | .nib a _ _ => (a, 1)
  | .acc a el _ => (a, elemBytes el)

/-- Perform one write to mapped pages: an addition into a poisoned sector is dropped and its command ends with INTEGRITY_FAIL (R416, R419). -/
def doWrMapped (r : Run) : Wr → Run
  | .bytes a bs => { r with s := partWrite r.s r.p a bs }
  | .nib a hi v =>
    let b := at_ (partRead r.s r.p a 1) 0 1
    { r with s := partWrite r.s r.p a (leBytes 1 (if hi then b % 16 + 16 * v else b / 16 * 16 + v)) }
  | .acc a el v =>
    let n := elemBytes el
    let r := countReduction r a
    if partPoisoned r.s r.p a n then { r with s := partWrite r.s r.p a (zeros n), integ := true }
    else
      let (c, f) := mireAdd el (at_ (partRead r.s r.p a n) 0 n) v
      raise { r with s := partWrite r.s r.p a (leBytes n c) } false f

/-- Perform one write; one that meets a page that is unmapped, or mapped for reads only, writes nothing and ends the run with
BAD_DESCRIPTOR (R662). -/
def doWr (r : Run) (w : Wr) : Run :=
  let x := wrSpan w
  if decide (x.2 = 0) || spanOk r.s r.p x.1 (x.1 + x.2 - 1) true then doWrMapped r w else { r with bad := true }

/-- Perform writes in order. -/
def doWrs (r : Run) (l : List Wr) : Run := l.foldl doWr r

/-- Join neighbouring byte writes, so that a command that writes a whole sector covers it (R416). -/
def joinWrs : List Wr → List Wr
  | [] => []
  | w :: ws =>
    match w, joinWrs ws with
    | .bytes a bs, .bytes b cs :: rest => if a + bs.length = b then .bytes a (bs ++ cs) :: rest else .bytes a bs :: .bytes b cs :: rest
    | w, rest => w :: rest

/-- Pick and remove the n-th entry of a list. -/
def pickAt {α : Type} : Nat → List α → Option (α × List α)
  | _, [] => none
  | 0, x :: xs => some (x, xs)
  | n + 1, x :: xs => (pickAt n xs).map (fun y => (y.1, x :: y.2))

/-- The arrangement of a list that a number spells. -/
def arrange {α : Type} : Nat → Nat → List α → List α
  | 0, _, l => l
  | fuel + 1, v, l =>
    match pickAt (v % l.length) l with
    | none => []
    | some (x, xs) => x :: arrange fuel (v / l.length) xs

/-- A list in an unspecified order (R6). -/
def shuffle {α : Type} (r : Run) (l : List α) : List α × Run :=
  let (v, r) := rChoice r
  (arrange l.length v l, r)

/-- The writes that store codes at stored indices of a dense tensor. -/
def storeWrs (d : Desc) (ixs : List (List Nat)) (codes : List Nat) : List Wr :=
  (ixs.zip codes).map (fun x =>
    if d.elem = .l4 then .nib (elemAddr d x.1) (decide (nibOff d x.1 % 2 ≠ 0)) (x.2 % 16)
    else .bytes (elemAddr d x.1) (leBytes (elemBytes d.elem) x.2))

/-- The write of the scale byte of a stored index's block. -/
def scaleWr (d : Desc) (ix : List Nat) (e : Int) : Wr := .bytes (scaleAddr d ix) (leBytes 1 (unsext 8 e))

/-- Whether a partition address lies in an Insole window; a conversion into one is the load conversion unit's (R48). -/
def intoInsole (d : Desc) : Bool :=
  match addrKind d.base with
  | .insole _ => true
  | _ => false

/-! ### The end of a run -/

/-- Set bits of a stream's LAST_NUM_FLAGS; a bit that an enable watches and that changes from 0 to 1 fires the core's
numeric-flag source (R64, R65). -/
def setFlags (s : State) (k i : Nat) (f : BitVec 16) : State :=
  let x := streamOf (coreP s k) i
  let fresh := f &&& ~~~x.numFlags
  let s := modCoreP s k (fun c => setStreamOf c i { streamOf c i with numFlags := x.numFlags ||| f })
  if fresh &&& (coreP s k).flagIe = 0 then s else fireCore s k 0

/-- Count out-of-bounds accesses and set the stream's index-range flag (R232 to R234). -/
def countOob (s : State) (k i n : Nat) : State :=
  if n = 0 then s
  else
    let x := streamOf (coreP s k) i
    let s := countCore s k 6 n (·.oob) (fun c v => { c with oob := v })
    let s := modCoreP s k (fun c => setStreamOf c i { streamOf c i with idxFlag := true })
    if !x.idxFlag && x.idxIe then fireCore s k 1 else s

/-- The sixteen flag bits of a run (R64). -/
def runFlags (r : Run) : BitVec 16 := r.wl ++ r.so ++ r.st ++ r.ld

/-- The flags of a run reach the stream; a newly set bit of FLAG_MASK is the FLAG_PATTERN trigger (R619). -/
def runSetFlags (r : Run) : State :=
  let fresh := (runFlags r &&& ~~~(streamOf (coreP r.s r.k) r.i).numFlags).toNat
  let s := setFlags r.s r.k r.i (runFlags r)
  if fresh &&& trigFlagMask s (dieOfPhys r.k) = 0 then s else requestTest s r.k

/-- Block failures of a run: the die's tensor-CRC source and the core's trigger count, each (R418). -/
def runCrc (r : Run) : State :=
  (List.range r.crc).foldl (fun s _ => countCrcTrigger (fireDie s (dieOfPhys r.k) 0x308) r.k) r.s

/-- The residue mismatches that met a run's engines (R614 to R617): the run, and the engine of a RESIDUE_FAIL. A trailer
residue that fails twice is an INTEGRITY_FAIL (R615). -/
def runResidues (r : Run) : Run × Option Nat :=
  (upsetsNow r.cmd).foldl (fun (x : Run × Option Nat) u =>
    match u with
    | .residue e again =>
      let e := e.toNat
      if !x.1.engs.contains e then x
      else
        let r := { x.1 with s := firstMismatch x.1.s x.1.k e }
        if !again then ({ r with s := countResTrigger r.s r.k }, x.2)
        else if e = 4 then ({ r with s := countCrcTrigger (countMismatch r.s r.k 4) r.k, integ := true, stop := true }, x.2)
        else
          let y := secondMismatch r.s r.k r.i e r.cmd
          ({ r with s := y.2, held := r.held || !y.1 }, if y.1 then some e else x.2)
    | _ => x) (r, none)

/-- The flags and counters of a run reach its stream and core (R63 to R65, R108, R232, R418, R639). -/
def settleRun (r : Run) : State :=
  let r := endUnit r
  let s := runCrc { r with s := runSetFlags r }
  let s := countOob s r.k r.i r.oob
  let s := if r.inv = 0 then s else countCore s r.k 6 r.inv (·.invCnt) (fun c v => { c with invCnt := v })
  let s := if r.ovf = 0 then s else countCore s r.k 6 r.ovf (·.ovfCnt) (fun c v => { c with ovfCnt := v })
  let s := if r.drops = 0 then s else countCore s r.k 4 r.drops (·.soleDrop) (fun c v => { c with soleDrop := v })
  if r.busy = 0 then s else countCore s r.k 4 r.busy (·.soleBusy) (fun c v => { c with soleBusy := v })

/-- The end of a run: flags and counters, and the status by the precedence of R618. A status that the command's own rule gives
stands below those. -/
def finishRun (r : Run) (residue : Option Nat) (st : Status) (detail : Nat) (record : List Byte) : Res :=
  let s := settleRun r
  let st := if st = .ok then r.cmd.st else st
  match residue with
  | some e => { s := s, st := .residueFail, detail := e, record := record }
  | none =>
    if r.bad then { s := s, st := .badDescriptor, record := record }
    else if r.integ then { s := sigIntegrity s r.k r.i r.cmd, st := .integrityFail, record := record, signed := true }
    else if st ≠ .ok then { s := s, st := st, detail := detail, record := record }
    else if 0 < r.oob ∨ r.cmd.oob then { s := s, st := .indexRange, record := record }
    else { s := s, record := record }

/-- A run stands at a resume boundary with n units of its command done, which have given a status of the command's own and counted its
record's fields (R278). -/
def pauseRun (r : Run) (n : Nat) (st : Status) (tally : List Nat) : Res :=
  { s := settleRun r, wait := some (.units n),
    cmd := some (cmdAfter r.cmd n r.integ (r.cmd.oob || decide (0 < r.oob)) (if st = .ok then r.cmd.st else st) tally) }

/-- The uses that a run's units made of a shared unit of its core (R265); `more` when the command has units left. -/
def spend (r : Run) (u : CoreUnit) (uses : List Nat) (more : Bool) : Run :=
  match streamOfHdr r.s r.cmd.h with
  | none => r
  | some (c, i) =>
    let others := ((pausedOn r.s c u).map (·.1)).filter (fun j => decide (j ≠ i))
    { r with s := modCoreP r.s r.k (useUnits u i others more uses r.cmd.grant.isSome) }

/-- Perform a run's writes and end it. A run that ended at an unmapped page, at a block that fails, or with RESIDUE_FAIL has
made an unspecified part of its writes (R128, R662, R241). -/
def commitRun (r : Run) (ws : List Wr) (st : Status) (record : List Byte) : Res :=
  let (r, residue) := runResidues r
  if r.bad || r.stop || residue.isSome then
    let (n, r) := rChoice r
    finishRun (doWrs r (ws.take (n % (ws.length + 1)))) residue st 0 record
  else finishRun (doWrs r (joinWrs ws)) residue st 0 record

/-- Where this segment of a command of `total` units ends. A run that fails has begun an unspecified number of its units; one that a
second mismatch holds stops before an unspecified unit (R278, R616). `whole` when the command stops only at its end. -/
def unitStop (r : Run) (fails whole : Bool) (total : Nat) : Nat × Run :=
  let from_ := r.cmd.passes
  let stop := if whole then total else (segmentEnd r.cmd total).getD total
  if fails then
    let (v, r) := rChoice r
    (if stop ≤ from_ then stop else from_ + 1 + v % (stop - from_), r)
  else if r.held then
    let (v, r) := rChoice r
    (if whole then from_ else from_ + v % max 1 (stop - from_), r)
  else (stop, r)

/-- The units of a list that run in a segment. -/
def segment {α : Type} (r : Run) (stop : Nat) (l : List α) : List α := (l.take stop).drop r.cmd.passes

/-- End a segment that stopped at a unit: its writes, its uses of the shared unit, and the end of the run when no unit is left. A segment
that fails has made an unspecified part of its writes (R128, R241, R662). -/
def endUnits (r : Run) (u : CoreUnit) (uses : List Nat) (stop total : Nat) (ws : List Wr) (residue : Option Nat) (st : Status)
    (record : List Byte) (tally : List Nat) : Res :=
  let fails := r.bad || r.stop || residue.isSome
  let more := !fails && (r.held || decide (stop < total))
  if fails then
    let (n, r) := rChoice r
    finishRun (spend (doWrs r (ws.take (n % (ws.length + 1)))) u uses false) residue st 0 record
  else
    let r := spend (doWrs r (joinWrs ws)) u uses more
    if more then pauseRun r stop st tally else finishRun r none st 0 record

/-- A command's descriptor checks (R225) before its own body. -/
def withDescs (s : State) (c : Cmd) (l : List (Nat × Bool)) (go : List Desc → Res) : Res :=
  match checkDescs s (c.part.getD 16) l with
  | .error (st, n) =>
    let p := c.part.getD 16
    let s := match l.find? (fun d => descHurt s p d.1) with
      | some d => if st = .integrityFail then noteDesc s p d.1 else s
      | none => s
    { s := s, st := st, detail := n }
  | .ok ds => go ds

end Sys2Proof.Machine
end

