-- ==== Sys2Proof/Machine/Tile.lean ====
section
/-! DEFINITION. Compressed tiles: trailers, payloads of the sparse formats, the reader's checks, and the two ways of writing
(R110 to R134). -/
namespace Sys2Proof.Machine

/-! ### Element fields -/

/-- Whether a code reads as zero; −0 of a linear format and every L4 code 0 do (R113, R40). -/
def zeroCode (e : Elem) (c : Nat) : Bool :=
  match elemDec e c 0 with
  | .zero _ => true
  | _ => false

/-- Pack element fields: two L4 nibbles to a byte, wider elements whole (R122). -/
def packFields (e : Elem) : List Nat → List Byte
  | [] => []
  | [x] => if e = .l4 then leBytes 1 (x % 16) else leBytes (elemBytes e) x
  | x :: y :: r =>
    if e = .l4 then leBytes 1 (x % 16 + 16 * (y % 16)) ++ packFields e r
    else leBytes (elemBytes e) x ++ packFields e (y :: r)

/-- Field k of packed element fields. -/
def fieldAt (e : Elem) (b : List Byte) (k : Nat) : Nat :=
  if e = .l4 then fld (at_ b (k / 2) 1) (4 * (k % 2)) 4 else at_ b (elemBytes e * k) (elemBytes e)

def fieldsOf (e : Elem) (b : List Byte) (n : Nat) : List Nat := (List.range n).map (fieldAt e b)

/-- n bits at a bit position of a little-endian bit string. -/
def bitsAt (b : List Byte) (pos n : Nat) : Nat := fld (at_ b (pos / 8) 2) (pos % 8) n

/-- log2 of M. -/
def mLog (nm : Nat) : Nat := 2 + fld nm 0 2

/-- Payload size of a Stitched tile (R122). -/
def stitchedSize (e : Elem) (nm : Nat) : Nat :=
  let slots := 32 * tileW e / mOf nm * nOf nm
  ceilDiv (slots * elemBits e) 8 + ceilDiv (slots * mLog nm) 8 + tileS e

/-- The residue summary (R120). -/
def residueWord (scl pos val : Nat) : Nat := scl % 7 * 64 + pos % 7 * 8 + val % 7

/-! ### A tile as it is read -/

/-- What a payload holds: stored elements by position, scale bytes by row and block, and what the residues sum. -/
structure TileBody where
  stored : List (Nat × Nat)
  scales : List Nat
  poss   : List Nat
  fields : List Nat
  sbytes : List Nat
deriving DecidableEq, Repr

/-- Expand a Stitched payload; none when slot indices do not ascend (R122, check 5 of R128). -/
def readStitched (e : Elem) (nm : Nat) (b : List Byte) : Option TileBody :=
  let w := tileW e
  let m := mOf nm
  let n := nOf nm
  let slots := 32 * w / m * n
  let nv := ceilDiv (slots * elemBits e) 8
  let ni := ceilDiv (slots * mLog nm) 8
  let vals := fieldsOf e b slots
  let ix := (List.range slots).map (fun k => bitsAt (b.drop nv) (k * mLog nm) (mLog nm))
  let asc := (List.range slots).all (fun k => decide (k % n = 0) || decide (ix.getD (k - 1) 0 < ix.getD k 0))
  let pos := (List.range slots).map (fun k =>
    let g := k / n
    g / (w / m) * w + g % (w / m) * m + ix.getD k 0)
  let sb := (slice b (nv + ni) (tileS e)).map (·.toNat)
  if asc then some { stored := pos.zip vals, scales := sb, poss := pos, fields := vals, sbytes := sb } else none

/-- Expand a Tussock payload (R123). -/
def readTussock (e : Elem) (b : List Byte) : Option TileBody :=
  let w := tileW e
  let per := w / 32
  let blk := 128 * elemBits e
  let pres := bitsSet (at_ b 0 1) 8
  let scl := if elemScaled e then 32 else 0
  if !(pres.all (fun x => decide (x < per))) || !allZero (slice b 1 7) || decide (b.length ≠ 8 + pres.length * (blk + scl)) then none
  else
    let vals := fieldsOf e (b.drop 8) (1024 * pres.length)
    let sb := (b.drop (8 + pres.length * blk)).map (·.toNat)
    let pos := pres.flatMap (fun x => (List.range 1024).map (fun i => i / 32 * w + 32 * x + i % 32))
    let scales := if elemScaled e then (List.range (32 * per)).map (fun i =>
        match pres.idxOf? (i % per) with
        | some k => sb.getD (32 * k + i / per) 0
        | none => 0) else []
    some { stored := pos.zip vals, scales := scales, poss := pres, fields := vals, sbytes := sb }

/-- Expand a Reedbed payload (R124). -/
def readReedbed (e : Elem) (b : List Byte) : Option TileBody :=
  let w := tileW e
  let segs := w / 64
  let nb := 256 * segs
  let s := tileS e
  let pos := (List.range (32 * segs)).flatMap (fun i =>
    (bitsSet (at_ b (8 * i) 8) 64).map (fun j => i / segs * w + i % segs * 64 + j))
  if b.length ≠ nb + s + ceilDiv (pos.length * elemBits e) 8 then none
  else
    let sb := (slice b nb s).map (·.toNat)
    let vals := fieldsOf e (b.drop (nb + s)) pos.length
    some { stored := pos.zip vals, scales := sb, poss := pos, fields := vals, sbytes := sb }

/-- Expand a dense payload (R125). -/
def readDense (e : Elem) (b : List Byte) : Option TileBody :=
  let n := 32 * tileW e
  let vals := fieldsOf e b n
  let sb := (slice b 4096 (tileS e)).map (·.toNat)
  some { stored := (List.range n).zip vals, scales := sb, poss := [], fields := vals, sbytes := sb }

/-- Expand a payload by its tag (R118). -/
def readBody (tag : Nat) (e : Elem) (nm : Nat) (b : List Byte) : Option TileBody :=
  match tag with
  | 1 => readDense e b
  | 2 => readStitched e nm b
  | 3 => readTussock e b
  | 4 => readReedbed e b
  | _ => some { stored := [], scales := [], poss := [], fields := [], sbytes := [] }

/-- Checks 1 to 3 of R128 on a trailer. `epoch` asks for the EPOCH comparison of R213. -/
def trailerOk (r : SRec) (e : Elem) (t : List Byte) (epoch : Bool) : Bool :=
  let tag := at_ t 0 1
  let size := at_ t 4 2
  let off := at_ t 8 8
  (decide (tag = r.format) || decide (tag = 1) || decide (tag = 5)) && decide (at_ t 1 1 = r.elem) &&
  decide (at_ t 2 1 = if tag = 2 then r.nm else 0) && decide (at_ t 3 1 < 4) && decide (off < 2 ^ 40) &&
  decide (at_ t 20 4 < 512) && allZero (slice t 24 4) &&
  (!epoch || decide (r.epoch = 0) || decide (at_ t 16 4 = r.epoch % 2 ^ 32)) &&
  (match tag with
   | 1 => decide (size = 4096 + tileS e)
   | 2 => decide (size = stitchedSize e r.nm)
   | 3 => decide (8 ≤ size)
   | 4 => decide (256 * (tileW e / 64) + tileS e ≤ size)
   | _ => decide (size = 0)) && decide (size ≤ 4352) && (decide (tag = 5) || decide (32 * off + size ≤ r.cap))

/-- Tile row, tile column and outer index of tile i (R112). -/
def tilePlace (e : Elem) (ext : List Nat) (i : Nat) : Nat × Nat × Nat :=
  let g := tileGrid e ext
  (i / g.1 % g.2.1, i % g.1, i / g.1 / g.2.1)

/-- Whether position p of tile i lies within the tensor's extent. -/
def inExtent (e : Elem) (ext : List Nat) (i p : Nat) : Bool :=
  let (tr, tc, _) := tilePlace e ext i
  decide (32 * tr + p / tileW e < dim ext 1) && decide (tileW e * tc + p % tileW e < dim ext 0)

/-- An expanded tile: codes by position and scales by row and block. -/
structure TileData where
  codes  : List Nat
  scales : List Int
  tag    : Nat
  stored : List Nat
deriving DecidableEq, Repr

/-- A tile of zeros. -/
def zeroTile (e : Elem) : TileData :=
  { codes := List.replicate (32 * tileW e) 0, scales := List.replicate (tileS e) 0, tag := 5, stored := [] }

/-- Place stored elements into a dense tile; zeros read back as code 0 (R113). -/
def spreadTile (e : Elem) (tag : Nat) (b : TileBody) : TileData :=
  let t : Tab Nat := b.stored.foldl (fun t x => tput 0 x.1 (if zeroCode e x.2 then 0 else x.2) t) []
  { codes := tgets 0 (32 * tileW e) 0 t,
    scales := if elemScaled e then (List.range (tileS e)).map (fun i => sext 8 (b.scales.getD i 0)) else [],
    tag := tag, stored := b.stored.map (·.1) }

/-- Read and expand tile i (R128). A structure check that fails ends the command with BAD_DESCRIPTOR; a CRC or a residue that
fails ends it with INTEGRITY_FAIL (R418, R615). Poisoned bytes are not used. A stored non-zero value beyond the extent is an
out-of-bounds read (R129). -/
def readTile (r : Run) (s : State) (rec_ : SRec) (e : Elem) (ext : List Nat) (i : Nat) : TileData × Run :=
  let (t, r) := rRead r s (rec_.tbase + 32 * i) 32
  if partPoisoned s r.p (rec_.tbase + 32 * i) 32 then (zeroTile e, r)
  else if !trailerOk rec_ e t true then (zeroTile e, { r with bad := true })
  else
    let a := rec_.dbase + 32 * at_ t 8 8
    let n := if at_ t 0 1 = 5 then 0 else at_ t 4 2
    let (b, r) := rRead r s a n
    if decide (0 < n) && partPoisoned s r.p a n then (zeroTile e, r)
    else if crc32c (b ++ t.take 28) ≠ at_ t 28 4 then (zeroTile e, { r with integ := true, stop := true, crc := r.crc + 1 })
    else
      match readBody (at_ t 0 1) e rec_.nm b with
      | none => (zeroTile e, { r with bad := true })
      | some x =>
        if (x.stored.filter (fun y => !zeroCode e y.2)).length ≠ at_ t 6 2 then (zeroTile e, { r with bad := true })
        else if residueWord x.sbytes.sum x.poss.sum x.fields.sum ≠ at_ t 20 4 then
          (zeroTile e, { r with integ := true, stop := true,
                                s := countCrcTrigger (firstMismatch (firstMismatch r.s r.k 4) r.k 4) r.k })
        else
          let oob := (x.stored.filter (fun y => !zeroCode e y.2 && !inExtent e ext i y.1)).length
          (spreadTile e (at_ t 0 1) x, { r with oob := r.oob + oob })

/-! ### Sources of elements -/

/-- Where a command reads a tensor's elements: a dense tensor, or the expanded tiles of a compressed one. -/
inductive Source where
  | dense (d : Desc)
  | tiles (d : Desc) (t : Tab TileData)

/-- The tile that holds a stored index, and its position there. -/
def tileOf (d : Desc) (ix : List Nat) : Nat × Nat :=
  let g := tileGrid d.elem d.ext
  let w := tileW d.elem
  let o := ((ix.zip d.ext).drop 2).foldr (fun x a => x.1 + x.2 * a) 0
  ((o * g.2.1 + dim ix 1 / 32) * g.1 + dim ix 0 / w, dim ix 1 % 32 * w + dim ix 0 % w)

/-- Read tiles one after another until one ends the command. -/
def readTiles (r : Run) (s : State) (rec_ : SRec) (d : Desc) : List Nat → Tab TileData → Tab TileData × Run
  | [], t => (t, r)
  | i :: is, t =>
    if r.bad || r.stop then (t, r)
    else
      let (x, r) := readTile r s rec_ d.elem d.ext i
      readTiles r s rec_ d is (tins i x t)

/-- Open a source for the stored indices that a command reads: of a compressed tensor, the tiles that hold them. -/
def openSource (r : Run) (s : State) (d : Desc) (need : List (List Nat)) : Source × Run :=
  if isDense d then (.dense d, r)
  else
    let ts : Tab Unit := need.foldl (fun t ix => tins (tileOf d ix).1 () t) []
    let (t, r) := readTiles r s (loadRec s r.p d) d (ts.map (·.1)) []
    (.tiles d t, r)

/-- Read one stored element of a source. -/
def sourceEl (r : Run) (s : State) (src : Source) (ix : List Nat) : SrcEl × Run :=
  match src with
  | .dense d => readEl r s d ix
  | .tiles d t =>
    let (i, p) := tileOf d ix
    let x := tget (zeroTile d.elem) i t
    ({ code := x.codes.getD p 0,
       scale := if elemScaled d.elem then some (x.scales.getD (p / 32) 0) else none }, r)

/-- Read several stored elements of a source. -/
def sourceEls (r : Run) (s : State) (src : Source) : List (List Nat) → List SrcEl × Run
  | [] => ([], r)
  | ix :: rest =>
    let (x, r) := sourceEl r s src ix
    let (xs, r) := sourceEls r s src rest
    (x :: xs, r)

/-! ### Building a tile (R122 to R126) -/

/-- A tile to be written: tag, payload, NNZ, RESIDUE, FLAGS; and the overfull groups by row and group, with the values dropped. -/
structure TileOut where
  tag     : Nat
  payload : List Byte
  nnz     : Nat
  residue : Nat
  flags   : Nat
  excess  : List (Nat × Nat) := []
  dropped : Nat := 0
deriving DecidableEq, Repr

/-- Magnitude order of non-zero codes of one group: NaN and NaL above every magnitude, else the code without its sign, which
orders magnitudes in every format within one block (R136). Against an infinity the rule does not rank a NaN: here it stands above it
(DESIGN CHOICE, entry 44). -/
def magKey (e : Elem) (c : Nat) : Nat :=
  match elemDec e c 0 with
  | .nan _ => 2 ^ 40
  | _ => c % 2 ^ (elemBits e - 1)

/-- The N columns of a group that are kept: the largest magnitudes, the lower position on a tie (R136). -/
def keepLargest (n : Nat) (l : List (Nat × Nat)) : List Nat :=
  (l.filter (fun x => decide ((l.filter (fun y => decide (x.2 < y.2) || (decide (y.2 = x.2) && decide (y.1 < x.1)))).length < n))).map
    (·.1)

/-- One group of a Stitched tile: its slots (column, code), and whether it is overfull, with the number of values dropped. -/
def stitchGroup (e : Elem) (n : Nat) (cols : List (Nat × Nat × Bool)) : List (Nat × Nat) × Bool × Nat :=
  let nz := cols.filter (fun c => !zeroCode e c.2.1)
  let keep := keepLargest n (nz.map (fun c => (c.1, magKey e c.2.1)))
  let free := (cols.filter (fun c => zeroCode e c.2.1 && c.2.2)).map (·.1) ++ (cols.filter (fun c => !c.2.2)).map (·.1)
  let fill := free.take (n - keep.length)
  let slots := cols.filter (fun c => keep.contains c.1 || fill.contains c.1)
  (slots.map (fun c => (c.1, if keep.contains c.1 then c.2.1 else 0)), decide (n < nz.length), nz.length - n)

/-- Little-endian bytes of consecutive bit fields of equal width. -/
def packBits (n : Nat) (l : List Nat) : List Byte :=
  leBytes (ceilDiv (l.length * n) 8) (l.foldr (fun x a => x + 2 ^ n * a) 0)

/-- Build a Stitched tile from dense codes by position in which every zero is code 0 (R122). -/
def buildStitched (e : Elem) (nm : Nat) (codes : List Nat) (scl : List Nat) (inx : List Bool) (prune : Bool) : TileOut :=
  let w := tileW e
  let m := mOf nm
  let n := nOf nm
  let place := fun (g : Nat) => g / (w / m) * w + g % (w / m) * m
  let groups := (List.range (32 * w / m)).map (fun g =>
    (g, stitchGroup e n ((List.range m).map (fun i => (i, codes.getD (place g + i) 0, inx.getD (place g + i) false)))))
  let slots := groups.flatMap (fun g => g.2.1.map (fun x => (place g.1 + x.1, x.1, x.2)))
  let vals := slots.map (fun x => x.2.2)
  let excess := (groups.filter (fun g => g.2.2.1)).map (fun g => (g.1 / (w / m), g.1 % (w / m)))
  let dropped := (groups.map (fun g => if g.2.2.1 then g.2.2.2 else 0)).sum
  { tag := 2, payload := packFields e vals ++ packBits (mLog nm) (slots.map (fun x => x.2.1)) ++ scl.map (BitVec.ofNat 8),
    nnz := (vals.filter (· ≠ 0)).length, residue := residueWord scl.sum (slots.map (·.1)).sum vals.sum,
    flags := b2n (inx.any (fun b => !b)) + 2 * b2n (prune && !excess.isEmpty), excess := excess, dropped := if prune then dropped else 0 }

/-- Build a tile of a format from dense codes by position, scale bytes, and which positions lie within the extent (R122 to R126).
A zero is written as code 0. -/
def buildTile (format : Nat) (e : Elem) (nm : Nat) (codes : List Nat) (scl : List Nat) (inx : List Bool) (prune : Bool) : TileOut :=
  let w := tileW e
  let codes := codes.map (fun c => if zeroCode e c then 0 else c)
  let edge := b2n (inx.any (fun b => !b))
  let nzs := codes.filter (· ≠ 0)
  if nzs.isEmpty then { tag := 5, payload := [], nnz := 0, residue := 0, flags := edge }
  else
    let sb : List Byte := scl.map (BitVec.ofNat 8)
    let dense : TileOut := { tag := 1, payload := packFields e codes ++ sb, nnz := nzs.length,
                             residue := residueWord scl.sum 0 codes.sum, flags := edge }
    let out : TileOut :=
      if format = 2 then buildStitched e nm codes scl inx prune
      else if format = 3 then
        let per := w / 32
        let pres := (List.range per).filter (fun x => (List.range 1024).any (fun i =>
          decide (codes.getD (i / 32 * w + 32 * x + i % 32) 0 ≠ 0)))
        let vals := pres.flatMap (fun x => (List.range 1024).map (fun i => codes.getD (i / 32 * w + 32 * x + i % 32) 0))
        let ss := if elemScaled e then pres.flatMap (fun x => (List.range 32).map (fun q => scl.getD (q * per + x) 0)) else []
        { tag := 3, payload := leBytes 8 (pres.map (2 ^ ·)).sum ++ packFields e vals ++ ss.map (BitVec.ofNat 8),
          nnz := nzs.length, residue := residueWord ss.sum pres.sum vals.sum, flags := edge }
      else
        let pos := (List.range (32 * w)).filter (fun p => decide (codes.getD p 0 ≠ 0))
        let words := (List.range (32 * w / 64)).map (fun i =>
          ((List.range 64).map (fun j => if codes.getD (64 * i + j) 0 ≠ 0 then 2 ^ j else 0)).sum)
        let vals := pos.map (fun p => codes.getD p 0)
        { tag := 4, payload := words.flatMap (leBytes 8) ++ sb ++ packFields e vals, nnz := nzs.length,
          residue := residueWord scl.sum pos.sum vals.sum, flags := edge }
    if 4096 + tileS e < out.payload.length then { dense with excess := out.excess } else out

/-- Bytes of a tile's slot (R131). -/
def slotBytes (t : TileOut) : Nat := roundUp t.payload.length 32

/-- The 32 bytes of a trailer (R117). -/
def trailerBytes (r : SRec) (t : TileOut) (off : Nat) : List Byte :=
  let b := leBytes 1 t.tag ++ leBytes 1 r.elem ++ leBytes 1 (if t.tag = 2 then r.nm else 0) ++ leBytes 1 t.flags ++
    leBytes 2 t.payload.length ++ leBytes 2 t.nnz ++ leBytes 8 (if t.tag = 5 then 0 else off / 32) ++ leBytes 4 r.epoch ++
    leBytes 4 t.residue ++ zeros 4
  b ++ leBytes 4 (crc32c (t.payload ++ b))

/-- The writes of a tile at an offset of the data region: the payload first, then the trailer (R132). -/
def tileWrs (r : SRec) (i : Nat) (t : TileOut) (off : Nat) : List Wr :=
  (if t.payload.isEmpty then [] else [Wr.bytes (r.dbase + off) t.payload]) ++ [.bytes (r.tbase + 32 * i) (trailerBytes r t off)]

/-- A rewrite of tile i (R131): into its old slot when that is valid and large enough, else into a slot claimed from DATA_USED;
false when the claim would pass DATA_CAPACITY. -/
def rewriteTile (r : Run) (rec_ : SRec) (e : Elem) (i : Nat) (t : TileOut) : Bool × Run :=
  let old := partRead r.s r.p (rec_.tbase + 32 * i) 32
  let n := slotBytes t
  let keep := trailerOk rec_ e old false && !partPoisoned r.s r.p (rec_.tbase + 32 * i) 32 &&
    decide (n ≤ (if at_ old 0 1 = 5 then 0 else roundUp (at_ old 4 2) 32))
  if keep then (true, doWrs r (tileWrs rec_ i t (32 * at_ old 8 8)))
  else
    let used := at_ (partRead r.s r.p (rec_.addr + 32) 8) 0 8
    if rec_.cap < used + n then (false, r)
    else
      let s := match xlate r.s r.p rec_.addr with
        | some d => countAtomic r.s r.p d 1
        | none => r.s
      (true, doWrs { r with s := partWrite s r.p (rec_.addr + 32) (leBytes 8 (used + n)) } (tileWrs rec_ i t used))

/-! ### Tiles of a converted tensor (R134, R136) -/

/-- Cut a list into pieces of n. -/
def chunks {α : Type} (n : Nat) : Nat → List α → List (List α)
  | 0, _ => []
  | fuel + 1, l => if l.isEmpty then [] else l.take n :: chunks n fuel (l.drop n)

/-- Convert the 32-element blocks of a tile's rows, each with the scale of R661 and SCALE_GIVEN taken as 0; positions beyond the
extent are code 0 with no scale. -/
def encBlocks (r : Run) (src dst : Elem) (sat sr : Bool) : List (List (Option SrcEl)) → (List Nat × List Nat) × Run
  | [] => (([], []), r)
  | b :: rest =>
    let els := b.filterMap id
    let ((cs, e), r) := if els.isEmpty then (([], 0), r) else convBlock r false src dst sat sr none els
    let ((cs', es'), r) := encBlocks r src dst sat sr rest
    ((cs ++ List.replicate (b.length - els.length) 0 ++ cs', unsext 8 e :: es'), r)

/-- Build a tile of a compressed destination from the elements of its positions within the extent. -/
def convTile (r : Run) (rec_ : SRec) (d : Desc) (src : Elem) (els : List (Option SrcEl)) (prune : Bool) : TileOut × Run :=
  let w := tileW d.elem
  let ((codes, scl), r) := encBlocks r src d.elem d.sat d.sr (chunks 32 (32 * w) els)
  (buildTile rec_.format d.elem rec_.nm codes (if elemScaled d.elem then scl else []) (els.map (·.isSome)) prune, tick r 4096)

/-- The stored index of position p of tile i, if it lies within the extent. -/
def tileIndex (d : Desc) (i p : Nat) : Option (List Nat) :=
  if !inExtent d.elem d.ext i p then none
  else
    let (tr, tc, o) := tilePlace d.elem d.ext i
    let w := tileW d.elem
    let outer := (((d.ext.drop 2).foldl (fun (a : List Nat × Nat) e => (a.1 ++ [a.2 % e], a.2 / e)) ([], o))).1
    some ((w * tc + p % w) :: (32 * tr + p / w) :: outer)

end Sys2Proof.Machine
end

