-- ==== Sys2Proof/Machine/Move.lean ====
section
/-! DEFINITION. The movement commands: COPY, GATHER, SCATTER, DESC_CHECK, MEM_FILL, HOST_COPY and COMPRESS (R135 to R138, R235 to
R239, R502, R504). -/
namespace Sys2Proof.Machine

/-! ### Blocks of a destination -/

/-- One block of a destination: stored indices with the stored source index that each receives; none for the source's FILL. -/
abbrev Block := List (List Nat × Option (List Nat))

/-- Place of an index tuple in a shape, dimension 0 fastest. -/
def flatIx (ext ix : List Nat) : Nat := (ix.zip ext).foldr (fun x a => x.1 + x.2 * a) 0

/-- The 32-element blocks of a dense tensor's valid region, row by row (R221). -/
def rowBlocks (d : Desc) : List (List (List Nat)) :=
  let n0 := dim (validN d) 0
  (chunks n0 (validCount d + 1) (validIdx d)).flatMap (fun row => chunks 32 (n0 + 1) row)

/-- Read the sources of a block. Under `over`, each element is read from any state that the command's writes have passed through
so far (R229). -/
def readBlock (r : Run) (laps : Bool) (s0 : State) (snaps : List State) (fill : Nat) (src : Source) : Block → List SrcEl × Run
  | [] => ([], r)
  | (_, none) :: rest =>
    let (xs, r) := readBlock r laps s0 snaps fill src rest
    ({ code := fill } :: xs, r)
  | (_, some ix) :: rest =>
    let (m, r) := if laps then (let y := rChoice r; (snaps.getD (y.1 % (snaps.length + 1)) s0, y.2)) else (s0, r)
    let (x, r) := sourceEl r m src ix
    let (xs, r) := readBlock r laps s0 snaps fill src rest
    (x :: xs, r)

/-- Additions of a block's values to a destination (R228). -/
def accBlock (r : Run) (ld : Bool) (src : Elem) (d : Desc) : List (List Nat × SrcEl) → List Wr × Run
  | [] => ([], r)
  | (ix, x) :: rest =>
    let (v, f) := toA48 none (srcVal src x)
    let (ws, r) := accBlock (raise r ld f) ld src d rest
    (.acc (elemAddr d ix) d.elem v :: ws, r)

/-- The data and scale writes that store a block (R50, R52, R661). -/
def blockWrs (r : Run) (ld : Bool) (src : Elem) (d : Desc) (ixs : List (List Nat)) (els : List SrcEl) : (List Wr × List Wr) × Run :=
  let r := tick r (ixs.length * elemBits d.elem / 8)
  if d.acc then let x := accBlock r ld src d (ixs.zip els); ((x.1, []), x.2)
  else
    match ixs with
    | [] => (([], []), r)
    | ix :: _ =>
      let (given, r) := if elemScaled d.elem && d.given then
          (let y := rRead r r.s (scaleAddr d ix) 1; (some (sext 8 (leNat y.1)), y.2)) else (none, r)
      let ((cs, e), r) := convBlock r ld src d.elem d.sat d.sr given els
      ((storeWrs d ixs cs, if elemScaled d.elem && !d.given then [scaleWr d ix e] else []), r)

/-- Write a block at once, and note each state that its writes pass through: a block of a scaled format is written whole with its scale
(R227, R229). -/
def writeBlock (r : Run) (snaps : List State) (d : Desc) (ws : List Wr) : Run × List State :=
  if elemScaled d.elem then let r := doWrs r ws; (r, r.s :: snaps)
  else ws.foldl (fun (x : Run × List State) w => let r := doWr x.1 w; (r, r.s :: x.2)) (r, snaps)

/-- Move blocks one after another. Without overlap the writes are gathered, data before scales; with it each block is written as
it is done. -/
def moveBlocks (r : Run) (laps : Bool) (s0 : State) (snaps : List State) (fill : Nat) (src : Source) (se : Elem) (d : Desc) :
    List Block → (List Wr × List Wr) × Run
  | [] => (([], []), r)
  | b :: rest =>
    let (els, r) := readBlock r laps s0 snaps fill src b
    let ((ws, ss), r) := blockWrs r (intoInsole d) se d (b.map (·.1)) els
    if laps then
      let (r, snaps) := writeBlock r snaps d (ws ++ ss)
      moveBlocks r laps s0 snaps fill src se d rest
    else
      let ((ws', ss'), r) := moveBlocks r laps s0 snaps fill src se d rest
      ((ws ++ ws', ss ++ ss'), r)

/-- The engines that a movement uses (R48, R613). -/
def moveEngines (src dst : Desc) : List Nat :=
  (if src.elem = dst.elem && !elemScaled dst.elem && !dst.acc then [] else [if intoInsole dst then 2 else 3]) ++
  (if isDense src then [] else [4])

/-- Half bytes of destination data in blocks. -/
def blocksNibs (d : Desc) (bs : List Block) : Nat := (bs.map (fun b => b.length * elemBits d.elem / 4)).sum

/-- Cut blocks into resume units of 4 KiB of destination data (R278). -/
def cutChunks (d : Desc) : List Block → List Block → List (List Block)
  | [], [] => []
  | now, [] => [now.reverse]
  | now, b :: rest =>
    if now.isEmpty || decide (blocksNibs d (b :: now) ≤ 8192) then cutChunks d (b :: now) rest
    else now.reverse :: cutChunks d [b] rest

/-- Blocks in the order of their units, which is free within a unit under ALLOW_ALIAS or ACCUMULATE (R227, R228). -/
def shuffleUnits (r : Run) : List (List Block) → List Block × Run
  | [] => ([], r)
  | u :: us =>
    let (b, r) := shuffle r u
    let (bs, r) := shuffleUnits r us
    (b ++ bs, r)

/-- Move blocks from a source tensor to a destination, in units of 4 KiB of it (R278); `whole` when the command stops only at its end. -/
def moveRun (r : Run) (whole : Bool) (src d : Desc) (blocks : List Block) : Res :=
  let (r, residue) := runResidues r
  let laps := d.alias_ && overlap r.s r.p src d
  let units := cutChunks d [] blocks
  let (stop, r) := unitStop r residue.isSome whole units.length
  let seg := segment r stop units
  let (so, r) := openSource r r.s src (seg.flatten.flatMap (fun b => b.filterMap (·.2)))
  if r.bad || r.stop then finishRun r residue .ok 0 []
  else
    let (bs, r) := if d.alias_ || d.acc then
        (if seg.length = units.length then shuffle r seg.flatten else shuffleUnits r seg) else (seg.flatten, r)
    let ((ws, ss), r) := moveBlocks r laps r.s [] src.fill so src.elem d bs
    endUnits r .move (seg.map (fun u => blocksNibs d u / 2)) stop units.length (ws ++ ss) residue .ok [] []

/-! ### COPY (R235, R236) -/

/-- R36: a conversion between an integer format and another format. -/
def badConv (a b : Elem) : Bool := decide (a ≠ b) && (elemInt a || elemInt b)

/-- The shape and format checks of COPY. -/
def copyOk (src d : Desc) : Bool :=
  isDense d && decide (src.rank = d.rank) && decide (seenExt src = seenExt d) && !badConv src.elem d.elem

/-- The blocks of a COPY: each stored destination index takes the source element with the same seen index. -/
def copyBlocks (src d : Desc) : List Block := (rowBlocks d).map (fun b => b.map (fun ix => (ix, some (seenIx src (seenIx d ix)))))

/-- A COPY that has passed its checks. -/
def copyRun (s : State) (c : Cmd) (src d : Desc) : Res :=
  moveRun (newRun s c (moveEngines src d)) false src d (copyBlocks src d)

def bodyCopy (p : CopyP) (s : State) (c : Cmd) : Res :=
  withDescs s c [(p.srcDesc.toNat, false), (p.dstDesc.toNat, true)] fun ds =>
    match ds with
    | [src, d] =>
      checked s [(decide (1 < p.ctl.toNat) || decide (p.rsvdA ≠ 0), .badParam, 0), (!copyOk src d, .badDescriptor, 0)] fun _ =>
        copyRun s c src d
    | _ => { s := s }

def execCopy (h : Hdr) (p : CopyP) (s : State) : Host.Outcome State Fault Refusal :=
  command (.copy h p) { op := 0x0200, n := 24, runs := .s } h (packetBytes 0x0200 h (bytesCopy p))
    (onUnit .move (bodyCopy p)) s

/-! ### GATHER and SCATTER (R231, R232, R237, R238) -/

/-- The value of an index code (R231). -/
def indexVal (e : Elem) (c : Nat) : Int := if e = .s32 then sext 32 c else (c : Int)

/-- Every index of an index tensor, in the order of its seen indices. -/
def readIndex (r : Run) (d : Desc) : List Int × Run :=
  let (xs, r) := readEls r r.s d ((allIdx (seenExt d)).map (seenIx d))
  (xs.map (fun x => indexVal d.elem x.code), r)

/-- The common checks of GATHER and SCATTER: `x` is the side that j walks, `y` the side that the indices address. -/
def indexedOk (src idx d x y : Desc) (axis : Nat) (along : Bool) : Bool :=
  isDense src && isDense d && isDense idx &&
  (decide (idx.elem = .u32) || decide (idx.elem = .s32) || decide (idx.elem = .u64)) && decide (src.rank = d.rank) &&
  (List.range 6).all (fun i => decide (i = axis) || decide (dim (seenExt x) i = dim (seenExt y) i)) &&
  (if along then decide (idx.rank = x.rank) && decide (seenExt idx = seenExt x)
   else decide (idx.rank = 1) && decide (dim (seenExt idx) 0 = dim (seenExt x) axis)) && !badConv src.elem d.elem

/-- Index entries out of bounds (R232). -/
def oobCount (l : List Int) (extent : Nat) : Nat := (l.filter (fun v => decide (v < 0) || decide ((extent : Int) ≤ v))).length

/-- The index that a walked position names, if it is in bounds. -/
def lookupIx (l : List Int) (x y : Desc) (axis : Nat) (along : Bool) (ix : List Nat) : Option (List Nat) :=
  let v := if along then l.getD (flatIx (seenExt x) ix) 0 else l.getD (dim ix axis) 0
  if 0 ≤ v ∧ v < ((dim (seenExt y) axis : Nat) : Int) then some (ix.set axis v.toNat) else none

/-- The checks of GATHER and SCATTER after the first seven of R225; `scatter` when the source is the side that j walks. -/
def indexedChecks (s : State) (pt axis ctl : Nat) (rsv scatter : Bool) (src idx d : Desc) : List (Bool × Status × Nat) :=
  let x := if scatter then src else d
  let y := if scatter then d else src
  [(scatter && !d.acc && !d.alias_, .aliasWrite, 8),
   (!d.alias_ && (overlap s pt src d || overlap s pt idx d), .aliasWrite, 9),
   (rsv || decide (3 < ctl) || decide (src.rank ≤ axis), .badParam, 0),
   (!indexedOk src idx d x y axis (bitOf ctl 1), .badDescriptor, 0)]

/-- Read the indices of an indexed command, count those out of bounds when it begins (R232), and go on. -/
def indexedRun (s : State) (c : Cmd) (extent : Nat) (src idx d : Desc) (go : Run → Desc → Desc → List Int → Res) : Res :=
  let r := newRun s c (moveEngines src d)
  let (l, r) := readIndex r idx
  go { r with oob := if c.passes = 0 then r.oob + oobCount l extent else r.oob } src d l

/-- Check and open an indexed command, then go on with its descriptors. -/
def indexed (s : State) (c : Cmd) (sa ia da : Nat) (axis ctl : Nat) (rsv scatter : Bool) (go : Run → Desc → Desc → List Int → Res) :
    Res :=
  match checkAll s (c.part.getD 16) [(sa, false), (ia, false), (da, true)] [] with
  | .error (st, n) => { s := s, st := st, detail := n }
  | .ok [src, idx, d] =>
    checked s (indexedChecks s (c.part.getD 16) axis ctl rsv scatter src idx d) fun _ =>
      indexedRun s c (dim (seenExt (if scatter then d else src)) axis) src idx d go
  | .ok _ => { s := s }

/-- A GATHER that has passed its checks: each stored index of the destination takes the source element that its index names, or the
source's FILL where the index is out of bounds (R237, R232). -/
def gatherRun (axis : Nat) (along : Bool) (r : Run) (src d : Desc) (l : List Int) : Res :=
  let blocks := (rowBlocks d).map (fun b => b.map (fun ix =>
    (ix, (lookupIx l d src axis along (seenIx d ix)).map (seenIx src))))
  moveRun r false src d blocks

def bodyGather (p : GatherP) (s : State) (c : Cmd) : Res :=
  indexed s c p.srcDesc.toNat p.idxDesc.toNat p.dstDesc.toNat p.axis.toNat p.ctl.toNat (decide (p.rsvdA ≠ 0)) false
    (gatherRun p.axis.toNat (bitOf p.ctl.toNat 1))

def execGather (h : Hdr) (p : GatherP) (s : State) : Host.Outcome State Fault Refusal :=
  command (.gather h p) { op := 0x0201, n := 32, runs := .s } h (packetBytes 0x0201 h (bytesGather p))
    (onUnit .move (bodyGather p)) s

/-- The block of a scaled tensor that a stored index lies in: block number, then the outer indices. -/
def blockKey (d : Desc) (ix : List Nat) : List Nat := (dim ix 0 - dim d.lo 0) / 32 :: ix.drop 1

/-- Elements of the block with a key. -/
def blockLen (d : Desc) (key : List Nat) : Nat := min 32 (dim (validN d) 0 - 32 * dim key 0)

/-- Put a value under a key of an association list. -/
def aput {α β : Type} [DecidableEq α] (k : α) (f : Option β → β) : List (α × β) → List (α × β)
  | [] => [(k, f none)]
  | (j, v) :: t => if j = k then (k, f (some v)) :: t else (j, v) :: aput k f t

/-- Put an element into a block, replacing the one at its index. -/
def putEl (b : Block) (e : List Nat × Option (List Nat)) : Block := b.filter (fun x => decide (x.1 ≠ e.1)) ++ [e]

/-- The blocks that a scatter leaves: units of writes in their order, a whole block replacing what stood there (R227). -/
def scatterBlocks (d : Desc) (units : List Block) : List (List Nat × Block) :=
  units.foldl (fun t u =>
    match u with
    | [] => t
    | e :: _ =>
      let k := blockKey d e.1
      aput k (fun o => if u.length = blockLen d k then u else u.foldl putEl (o.getD [])) t) []

/-- Sort a block's elements by their index in dimension 0. -/
def sortBlock (b : Block) : Block :=
  b.foldr (fun e l => (l.takeWhile (fun x => decide (dim x.1 0 < dim e.1 0))) ++ e :: l.dropWhile (fun x => decide (dim x.1 0 < dim e.1 0)))
    []

/-- A SCATTER that has passed its checks: each source element goes to the destination element that its index names, or nowhere
(R238, R232). -/
def scatterRun (axis : Nat) (along : Bool) (r : Run) (src d : Desc) (l : List Int) : Res :=
  let pairs := (allIdx (seenExt src)).filterMap (fun ix =>
    (lookupIx l src d axis along ix).bind (fun y =>
      if inValid d (seenIx d y) then some (dim ix axis, seenIx d y, seenIx src ix) else none))
  if d.acc || !elemScaled d.elem || d.given then
    moveRun r false src d (pairs.map (fun x => [(x.2.1, some x.2.2)]))
  else
    let rowAxis := decide ((if d.trans && decide (axis < 2) then 1 - axis else axis) = 0)
    let units : List Block :=
      if along || rowAxis then pairs.map (fun x => [(x.2.1, some x.2.2)])
      else (pairs.foldl (fun t x => aput (x.1 :: blockKey d x.2.1) (fun o => o.getD [] ++ [(x.2.1, some x.2.2)]) t) []).map (·.2)
    let (units, r) := shuffle r units
    let bs := scatterBlocks d units
    if bs.all (fun b => decide (b.2.length = blockLen d b.1)) then
      moveRun r true src d (bs.map (fun b => sortBlock b.2))
    else commitRun r [] .badDescriptor []

def bodyScatter (p : ScatterP) (s : State) (c : Cmd) : Res :=
  indexed s c p.srcDesc.toNat p.idxDesc.toNat p.dstDesc.toNat p.axis.toNat p.ctl.toNat (decide (p.rsvdA ≠ 0)) true
    (scatterRun p.axis.toNat (bitOf p.ctl.toNat 1))

def execScatter (h : Hdr) (p : ScatterP) (s : State) : Host.Outcome State Fault Refusal :=
  command (.scatter h p) { op := 0x0202, n := 32, runs := .s } h (packetBytes 0x0202 h (bytesScatter p))
    (onUnit .move (bodyScatter p)) s

/-! ### DESC_CHECK (R239) -/

/-- The 48 bytes of DESC_CHECK's record. -/
def descRecord (st : Status) (order : Nat) (n : Nat) (span sc : Option (Int × Int)) : List Byte :=
  let lo := match span with
    | some x => unsext 64 x.1
    | none => 0
  let hi := match span with
    | some x => unsext 64 x.2
    | none => 0
  let ss := match sc with
    | some x => unsext 64 (x.2 - x.1 + 1)
    | none => 0
  leBytes 2 (statusCode st) ++ leBytes 1 order ++ zeros 5 ++ leBytes 8 n ++ leBytes 8 lo ++ leBytes 8 hi ++ leBytes 8 ss ++ zeros 8

/-- The record for a descriptor address and role (R239). -/
def descCheckRecord (s : State) (p a : Nat) (write : Bool) : List Byte :=
  let (st, n) := match checkDesc s p a write with
    | .ok _ => (Status.ok, 0)
    | .no st n => (st, n)
  match (if n = 0 || 3 < n then parseDesc a (partRead s p a 192) else none) with
  | none => descRecord st n 0 none none
  | some d =>
    if isDense d then descRecord st n (validCount d) (dataSpan d) (scaleSpan d)
    else
      let read := decide (d.srec % 64 = 0) && pagesOk s p d.srec (d.srec + 63) false
      let count := d.ext.foldl (· * ·) 1
      descRecord st n count (if read && decide (count ≠ 0) then fullSpan s p d else none) none

def bodyDescCheck (p : DescCheckP) (s : State) (c : Cmd) : Res :=
  let pt := c.part.getD 16
  let a := p.desc.toNat
  checked s [(decide (1 < p.role.toNat) || decide (p.rsvdA ≠ 0), .badParam, 0)] fun _ =>
    let bad := decide (checkDesc s pt a (decide (p.role.toNat = 1)) = .no .integrityFail 0)
    if bad then { s := noteDesc s pt a, st := .integrityFail }
    else { s := s, record := descCheckRecord s pt a (decide (p.role.toNat = 1)) }

def execDescCheck (h : Hdr) (p : DescCheckP) (s : State) : Host.Outcome State Fault Refusal :=
  command (.descCheck h p) { op := 0x0203, n := 16, runs := .sf, rec_ := 48 } h (packetBytes 0x0203 h (bytesDescCheck p))
    (bodyDescCheck p) s

/-! ### MEM_FILL (R502) -/

/-- The writes of codes at the valid indices of a tensor, bit for bit, with given scale bytes by block, in units that are written whole: a
block of a scaled format with its scale (R227), else one element. -/
def plainUnits (d : Desc) (order : List (List Nat)) (codes scales : List Nat) : List (List Wr) :=
  if d.acc then (order.zip codes).map (fun x => [.acc (elemAddr d x.1) d.elem (toA48 none (elemDec d.elem x.2 0)).1])
  else if elemScaled d.elem then
    let t : Tab Nat := (order.zip codes).foldl (fun t x => tins (flatIx d.ext x.1) x.2 t) []
    ((rowBlocks d).zip scales).map (fun x =>
      storeWrs d x.1 (x.1.map (fun ix => tget 0 (flatIx d.ext ix) t)) ++ [.bytes (scaleAddr d (x.1.headD [])) (leBytes 1 x.2)])
  else (order.zip codes).map (fun x => storeWrs d [x.1] [x.2])

/-- Those writes in an order that is free where they may collide (R227, R228). -/
def plainWrs (r : Run) (d : Desc) (order : List (List Nat)) (codes scales : List Nat) : List Wr × Run :=
  let us := plainUnits d order (if d.elem = .a48 then codes.map a48Canon else codes) scales
  if d.acc || d.alias_ then let x := shuffle r us; (x.1.flatten, x.2) else (us.flatten, r)

/-- The flags of converting codes to A48 for an addition (R57, R228). -/
def accFlags (d : Desc) (codes : List Nat) : Flags :=
  if d.acc then codes.foldl (fun f x => f ||| (toA48 none (elemDec d.elem x 0)).2) 0 else 0

/-- A MEM_FILL that has passed its checks: the fill code at every valid element (R502). -/
def fillRun (s : State) (c : Cmd) (d : Desc) : Res :=
  let r := newRun s c []
  let codes := List.replicate (validCount d) d.fill
  let r := raise r (intoInsole d) (accFlags d codes)
  let (ws, r) := plainWrs r d (validIdx d) codes (List.replicate (rowBlocks d).length 0)
  commitRun r ws .ok []

def bodyMemFill (p : MemFillP) (s : State) (c : Cmd) : Res :=
  withDescs s c [(p.dstDesc.toNat, true)] fun ds =>
    match ds with
    | [d] => checked s [(!isDense d, .badDescriptor, 0)] fun _ => fillRun s c d
    | _ => { s := s }

def execMemFill (h : Hdr) (p : MemFillP) (s : State) : Host.Outcome State Fault Refusal :=
  command (.memFill h p) { op := 0x0100, n := 8, runs := .s } h (packetBytes 0x0100 h (bytesMemFill p)) (bodyMemFill p) s

/-! ### HOST_COPY (R503, R504) -/

/-- The valid indices of a tensor in the order that the command sees (R504). -/
def seenOrder (d : Desc) : List (List Nat) :=
  let lo := seenIx d d.lo
  (allIdx (seenIx d (validN d))).map (fun t => seenIx d ((t.zip lo).map (fun x => x.1 + x.2)))

/-- The host bytes of a tensor: its elements in seen order, then its scale bytes in block order (R504, R505). -/
def tensorBytes (r : Run) (d : Desc) : List Byte × Run :=
  let (els, r) := readEls r r.s d (seenOrder d)
  let (scs, r) := if elemScaled d.elem then readEls r r.s d ((rowBlocks d).map (fun b => b.headD [])) else ([], r)
  (packFields d.elem (els.map (fun x => if d.elem = .a48 then a48Canon x.code else x.code)) ++ scs.map (fun x => BitVec.ofNat 8 (unsext 8 (x.scale.getD 0))), r)

/-- Length of those bytes. -/
def tensorLen (d : Desc) : Nat :=
  ceilDiv (validCount d * elemBits d.elem) 8 + (if elemScaled d.elem then (rowBlocks d).length else 0)

/-- Whether a host span lies in one of the partition's ranges, a WRITE range where asked (R503). -/
def hostSpanOk (s : State) (p a n : Nat) (write : Bool) : Bool :=
  decide (n = 0) || (part s p).hosts.any (fun x =>
    decide (x.2.base ≤ a) && decide (a + n ≤ x.2.base + x.2.bytes) && (x.2.write || !write))

/-- The writes of a tensor's host bytes. -/
def tensorWrs (r : Run) (d : Desc) (b : List Byte) : List Wr × Run :=
  let n := validCount d
  plainWrs r d (seenOrder d) (fieldsOf d.elem b n) ((b.drop (ceilDiv (n * elemBits d.elem) 8)).map (·.toNat))

/-- A HOST_COPY that has passed its checks: the tensor's host bytes go out, or come in (R504); with the link down what comes in is free (entry
52). -/
def hostCopyRun (s : State) (c : Cmd) (out : Bool) (a : Nat) (d : Desc) : Res :=
  let r := newRun s c []
  if out then
    let (b, r) := tensorBytes r d
    commitRun { r with s := hostWrite r.s a b } [] .ok []
  else
    let n := tensorLen d
    let (v, r) := if s.ivtu.up then (0, r) else rChoice r
    let b := if s.ivtu.up then hostRead s a n else leBytes n v
    let r := { r with s := sendRdCur r.s a n }
    let r := raise r (intoInsole d) (accFlags d (fieldsOf d.elem b (validCount d)))
    let (ws, r) := tensorWrs r d b
    commitRun r ws .ok []

def bodyHostCopy (p : HostCopyP) (s : State) (c : Cmd) : Res :=
  let pt := c.part.getD 16
  let out := decide (p.dir.toNat = 1)
  let a := p.hostAddr.toNat
  withDescs s c [(p.desc.toNat, !out)] fun ds =>
    match ds with
    | [d] =>
      checked s [(decide (1 < p.dir.toNat) || decide (p.rsvdA ≠ 0), .badParam, 0), (!isDense d, .badDescriptor, 0),
          (!hostSpanOk s pt a (tensorLen d) out, .denied, 0)] fun _ => hostCopyRun s c out a d
    | _ => { s := s }

def execHostCopy (h : Hdr) (p : HostCopyP) (s : State) : Host.Outcome State Fault Refusal :=
  command (.hostCopy h p) { op := 0x0102, n := 24, runs := .s } h (packetBytes 0x0102 h (bytesHostCopy p)) (bodyHostCopy p) s

/-! ### COMPRESS (R135 to R138) -/

/-- What COMPRESS counts as it scans tiles, and the tiles that it writes. `open_` while no failure has been found. -/
structure Scan where
  tiles    : Nat := 0
  fallback : Nat := 0
  zero     : Nat := 0
  dropped  : Nat := 0
  excess   : Nat := 0
  need     : Nat := 0
  first    : Nat := 2 ^ 64 - 1
  used     : Nat := 0
  open_    : Bool := true
  full     : Bool := false
  wrs      : List Wr := []
deriving DecidableEq, Repr

/-- Take one built tile into the scan (R136, R137): it is written unless a failure has been found at or before it. -/
def scanTile (x : Scan) (rec_ : SRec) (i : Nat) (t : TileOut) (strict : Bool) : Scan :=
  let n := slotBytes t
  let bad := strict && !t.excess.isEmpty
  let full := decide (rec_.cap < x.used + n)
  let first := match t.excess with
    | (r, g) :: _ => if x.first = 2 ^ 64 - 1 then i * 65536 + r * 256 + g else x.first
    | [] => x.first
  let ok := x.open_ && !bad && !full
  { tiles := x.tiles + 1, fallback := x.fallback + b2n (decide (t.tag = 1)), zero := x.zero + b2n (decide (t.tag = 5)),
    dropped := x.dropped + t.dropped, excess := x.excess + t.excess.length, need := x.need + n, first := first,
    used := if ok then x.used + n else x.used, open_ := ok, full := x.full || (x.open_ && full),
    wrs := if ok then x.wrs ++ tileWrs rec_ i t x.used else x.wrs }

/-- Scan every tile of a compressed destination. -/
def scanTiles (r : Run) (src : Source) (so d : Desc) (rec_ : SRec) (strict prune : Bool) : List Nat → Scan → Scan × Run
  | [], x => (x, r)
  | i :: is, x =>
    let ixs := (List.range (32 * tileW d.elem)).map (tileIndex d i)
    let (els, r) := sourceEls r r.s src ((ixs.filterMap id).map (fun ix => seenIx so ix))
    let (full, _) := ixs.foldl (fun (a : List (Option SrcEl) × List SrcEl) ix =>
      match ix, a.2 with
      | some _, e :: es => (some e :: a.1, es)
      | _, es => (none :: a.1, es)) ([], els)
    let (t, r) := convTile r rec_ d so.elem full.reverse prune
    scanTiles r src so d rec_ strict prune is (scanTile x rec_ i t strict)

/-- The 64 bytes of COMPRESS's record (R138). -/
def scanRecord (x : Scan) : List Byte :=
  leBytes 8 x.tiles ++ leBytes 8 x.fallback ++ leBytes 8 x.zero ++ leBytes 8 x.dropped ++ leBytes 8 x.excess ++ leBytes 8 x.need ++
  leBytes 8 x.first ++ zeros 8

/-- What the units done have counted, in the order of the fields of a scan. -/
def scanTally (x : Scan) : List Nat :=
  [x.tiles, x.fallback, x.zero, x.dropped, x.excess, x.need, x.first, x.used, b2n x.open_, b2n x.full]

/-- The scan of a COMPRESS that goes on. A command that comes back from a stream record has lost its counts, which the record has no
place for: they are free values, and the data bytes used are those of the slots written (R279; DESIGN CHOICE, entry 44). -/
def scanFrom (r : Run) (rec_ : SRec) (strict : Bool) : Scan × Run :=
  let n := r.cmd.passes
  if n = 0 then ({}, r)
  else
    let f := fun (i : Nat) => r.cmd.tally.getD i 0
    if r.cmd.tally ≠ [] then
      ({ tiles := f 0, fallback := f 1, zero := f 2, dropped := f 3, excess := f 4, need := f 5, first := f 6, used := f 7,
         open_ := decide (f 8 = 1), full := decide (f 9 = 1) }, r)
    else
      let used := ((List.range n).map (fun i => roundUp (at_ (partRead r.s r.p (rec_.tbase + 32 * i + 4) 2) 0 2) 32)).sum
      let (a, r) := rChoice r
      let (b, r) := rChoice r
      let (c, r) := rChoice r
      let (e, r) := rChoice r
      let (f, r) := rChoice r
      let (g, r) := rChoice r
      ({ tiles := n, fallback := a % (n + 1), zero := b % (n + 1 - a % (n + 1)), dropped := c, excess := e, need := used + 32 * g,
         first := if e = 0 then 2 ^ 64 - 1 else f % (65536 * n), used := used, open_ := !strict || decide (e = 0) }, r)

/-- A rebuild of a compressed tensor from a source (R131, R136, R137), whose resume units are its tiles. -/
def compressRun (s : State) (c : Cmd) (mode : Nat) (so d : Desc) : Res :=
  let rec_ := loadRec s (c.part.getD 16) d
  let r := newRun s c ((if isDense so then [] else [4]) ++ [3, 4])
  let (r, residue) := runResidues r
  let n := tileCount d.elem d.ext
  let fit := fld mode 0 2
  let sizeOnly := bitOf mode 2
  let (stop, r) := unitStop r residue.isSome false n
  let (src, r) := openSource r r.s so ((allIdx d.ext).map (seenIx so))
  let (x, r) := scanFrom r rec_ (decide (fit = 0))
  let (x, r) := scanTiles r src so d rec_ (decide (fit = 0)) (decide (fit = 1)) (segment r stop (List.range n)) x
  let last : List Wr := if sizeOnly || decide (stop < n) then [] else [.bytes (rec_.addr + 32) (leBytes 8 x.used)]
  let st : Status :=
    if stop < n then .ok else if fit = 0 ∧ x.excess ≠ 0 then .groupOverfull else if rec_.cap < x.need ∧ !sizeOnly then .noResource else .ok
  endUnits r .move ((segment r stop (List.range n)).map (fun _ => 4096)) stop n (if sizeOnly then [] else x.wrs ++ last) residue st
    (scanRecord x) (scanTally x)

def bodyCompress (p : CompressP) (s : State) (c : Cmd) : Res :=
  let mode := p.mode.toNat
  withDescs s c [(p.srcDesc.toNat, false), (p.dstDesc.toNat, true)] fun ds =>
    match ds with
    | [src, d] =>
      checked s [(decide (7 < mode) || decide (1 < fld mode 0 2) || decide (p.rsvdA ≠ 0), .badParam, 0),
          (isDense d || decide (src.rank ≠ d.rank) || decide (seenExt src ≠ seenExt d) || badConv src.elem d.elem,
            .badDescriptor, 0)] fun _ => compressRun s c mode src d
    | _ => { s := s }

def execCompress (h : Hdr) (p : CompressP) (s : State) : Host.Outcome State Fault Refusal :=
  command (.compress h p) { op := 0x0400, n := 24, runs := .s, rec_ := 64 } h (packetBytes 0x0400 h (bytesCompress p))
    (onUnit .move (bodyCompress p)) s

end Sys2Proof.Machine
end

