-- ==== Sys2Proof/Machine/Zstd.lean ====
section
/-! DEFINITION. The Zstandard frames of a data record (R296): frame headers, skippable frames, blocks and the content checksum, as RFC 8878
lays them out. What a Compressed_Block decodes to is left to the configuration (entry 49). -/
namespace Sys2Proof.Machine

/-! ### Content_Checksum: XXH64 with seed 0 -/

def xxP1 : BitVec 64 := 0x9E3779B185EBCA87#64
def xxP2 : BitVec 64 := 0xC2B2AE3D27D4EB4F#64
def xxP3 : BitVec 64 := 0x165667B19E3779F9#64
def xxP4 : BitVec 64 := 0x85EBCA77C2B2AE63#64
def xxP5 : BitVec 64 := 0x27D4EB2F165667C5#64

/-- n little-endian bytes at an offset as a word. -/
def xxWord (b : List Byte) (o n : Nat) : BitVec 64 := BitVec.ofNat 64 (at_ b o n)

def xxRound (acc lane : BitVec 64) : BitVec 64 := (acc + lane * xxP2).rotateLeft 31 * xxP1
def xxMerge (h v : BitVec 64) : BitVec 64 := (h ^^^ xxRound 0 v) * xxP1 + xxP4

/-- The four accumulators after one more stripe of 32 bytes. -/
def xxStripe (b : List Byte) (v : BitVec 64 × BitVec 64 × BitVec 64 × BitVec 64) (i : Nat) : BitVec 64 × BitVec 64 × BitVec 64 × BitVec 64 :=
  let w := fun (k : Nat) => xxWord b (32 * i + 8 * k) 8
  (xxRound v.1 (w 0), xxRound v.2.1 (w 1), xxRound v.2.2.1 (w 2), xxRound v.2.2.2 (w 3))

/-- The bytes after the last whole stripe. -/
def xxTail (b : List Byte) (o : Nat) (h : BitVec 64) : BitVec 64 :=
  let n := b.length - o
  let h := (List.range (n / 8)).foldl (fun h i => (h ^^^ xxRound 0 (xxWord b (o + 8 * i) 8)).rotateLeft 27 * xxP1 + xxP4) h
  let o := o + n / 8 * 8
  let h := if 4 ≤ n % 8 then (h ^^^ xxWord b o 4 * xxP1).rotateLeft 23 * xxP2 + xxP3 else h
  let o := o + n % 8 / 4 * 4
  (List.range (n % 4)).foldl (fun h i => (h ^^^ xxWord b (o + i) 1 * xxP5).rotateLeft 11 * xxP1) h

def xxh64 (b : List Byte) : BitVec 64 :=
  let n := b.length
  let h :=
    if n < 32 then xxP5
    else
      let (v1, v2, v3, v4) := (List.range (n / 32)).foldl (xxStripe b) (xxP1 + xxP2, xxP2, 0, 0 - xxP1)
      let h := v1.rotateLeft 1 + v2.rotateLeft 7 + v3.rotateLeft 12 + v4.rotateLeft 18
      xxMerge (xxMerge (xxMerge (xxMerge h v1) v2) v3) v4
  let h := xxTail b (n / 32 * 32) (h + BitVec.ofNat 64 n)
  let h := (h ^^^ h >>> 33) * xxP2
  let h := (h ^^^ h >>> 29) * xxP3
  h ^^^ h >>> 32

/-! ### Frames -/

/-- A frame header: Window_Size, Dictionary_ID, Frame_Content_Size, Content_Checksum_Flag, and its bytes with the magic number. -/
structure ZHead where
  window : Nat
  dict   : Nat
  size   : Option Nat
  check  : Bool
  len    : Nat
deriving DecidableEq, Repr

/-- Read the header of a frame that begins with the magic number; none when it is cut short or its reserved bit is set. -/
def zHead (b : List Byte) : Option ZHead :=
  let d := at_ b 4 1
  let single := bitOf d 5
  let wl := if single then 0 else 1
  let dl := [0, 1, 2, 4].getD (fld d 0 2) 0
  let fl := match fld d 6 2 with
    | 0 => if single then 1 else 0
    | 1 => 2
    | 2 => 4
    | _ => 8
  let n := 5 + wl + dl + fl
  if b.length < n || bitOf d 3 then none
  else
    let f := at_ b (5 + wl + dl) fl
    let size := if fl = 0 then none else some (if fl = 2 then f + 256 else f)
    let w := at_ b 5 1
    let base := 2 ^ (10 + w / 8)
    some { window := if single then size.getD 0 else base + base / 8 * (w % 8), dict := at_ b (5 + wl) dl, size := size, check := bitOf d 2, len := n }

/-- The blocks of a frame up to its last one: the decoded content and what follows. `done` holds the blocks before, by type and content,
which a Compressed_Block may refer to. -/
def zBlocks (max : Nat) (dict : List Byte) : Nat → List Byte → List (Nat × List Byte) → List Byte → Option (List Byte × List Byte)
  | 0, _, _, _ => none
  | fuel + 1, b, done, out =>
    let h := at_ b 0 3
    let size := h / 8
    let type := fld h 1 2
    let n := if type = 1 then 1 else size
    let body := slice b 3 n
    if b.length < 3 + n || decide (max < size) || decide (type = 3) then none
    else
      match (match type with
        | 0 => some body
        | 1 => some (List.replicate size (body.headD 0))
        | _ => Config.zstdBlock dict done body) with
      | none => none
      | some x =>
        if max < x.length then none
        else if h % 2 = 1 then some (out ++ x, b.drop (3 + n))
        else zBlocks max dict fuel (b.drop (3 + n)) (done ++ [(type, body)]) (out ++ x)

/-- One frame with a magic number: its content and what follows; none when the frame is corrupt (R296). A frame without a Dictionary_ID uses
none. -/
def zFrame (dicts : List (Nat × List Byte)) (b : List Byte) : Option (List Byte × List Byte) :=
  match zHead b with
  | none => none
  | some h =>
    match (if h.dict = 0 then some (0, []) else dicts.find? (fun d => decide (d.1 = h.dict))) with
    | none => none
    | some d =>
      if 2 ^ 23 < h.window then none
      else match zBlocks (min h.window (2 ^ 17)) d.2 (b.length + 1) (b.drop h.len) [] [] with
        | none => none
        | some (x, rest) =>
          if (match h.size with
            | some n => decide (x.length ≠ n)
            | none => false) then none
          else if !h.check then some (x, rest)
          else if rest.length < 4 || decide (at_ rest 0 4 ≠ (xxh64 x).toNat % 2 ^ 32) then none
          else some (x, rest.drop 4)

/-- The contents of concatenated frames, skippable ones left out; none when one is corrupt. -/
def zFrames (dicts : List (Nat × List Byte)) : Nat → List Byte → Option (List Byte)
  | 0, _ => none
  | fuel + 1, b =>
    let m := at_ b 0 4
    if b.isEmpty then some []
    else if b.length < 8 then none
    else if m / 16 = 0x184D2A5 then
      if b.length < 8 + at_ b 4 4 then none else zFrames dicts fuel (b.drop (8 + at_ b 4 4))
    else if m = 0xFD2FB528 then (zFrame dicts b).bind (fun x => (zFrames dicts fuel x.2).map (x.1 ++ ·))
    else none

/-- The decoded contents of a record; none when a frame is corrupt. -/
def zstd (dicts : List (Nat × List Byte)) (b : List Byte) : Option (List Byte) := zFrames dicts (b.length + 1) b

end Sys2Proof.Machine
end

