-- ==== Sys2Proof/Machine/Data.lean ====
section
/-! DEFINITION. The data service of a job (R295 to R298): the order of records, their decoding, and the staging ring. -/
namespace Sys2Proof.Machine

/-! ### Configuration (R295) -/

def dsOn (d : DataService) : Bool := !d.cfg.isEmpty
def dsSrcCount (d : DataService) : Nat := at_ d.cfg 8 2
def dsShuffle (d : DataService) : Bool := decide (at_ d.cfg 10 1 = 1)
def dsPause (d : DataService) : Bool := decide (at_ d.cfg 11 1 = 1)
def dsRecs (d : DataService) : Nat := at_ d.cfg 12 4
def dsBase (d : DataService) : Nat := at_ d.cfg 16 8
def dsSlotBytes (d : DataService) : Nat := at_ d.cfg 24 4
def dsSlots (d : DataService) : Nat := at_ d.cfg 28 2
def dsPerStep (d : DataService) : Nat := at_ d.cfg 30 2
def dsReady (d : DataService) : Nat := at_ d.cfg 32 4
def dsFree (d : DataService) : Nat := at_ d.cfg 36 4

/-- COUNT of source entry i. -/
def dsCount (d : DataService) (i : Nat) : Nat := at_ d.sources (32 * i + 24) 4
/-- Records of all sources. -/
def dsTotal (d : DataService) : Nat := ((List.range (dsSrcCount d)).map (dsCount d)).sum
/-- Q: the records of a data epoch that each device takes (R297). -/
def dsQ (d : DataService) (ways : Nat) : Nat := dsTotal d / ways
/-- Microbatches of a data epoch on every device. -/
def dsPerEpoch (d : DataService) (ways : Nat) : Nat := dsQ d ways / dsRecs d

/-! ### The permutation (R297) -/

/-- h / 2 for r records. -/
def permHalf (r : Nat) : Nat := ((List.range 64).find? (fun k => decide (1 ≤ k) && decide (r ≤ 4 ^ k))).getD 32

/-- The four rounds on (hi, lo). -/
def permRounds (key : BitVec 64) (half x : Nat) : Nat :=
  let y := (List.range 4).foldl (fun (z : Nat × Nat) j =>
    let f := (laneOfSeed (key ^^^ BitVec.ofNat 64 (j * 2 ^ 56) ^^^ BitVec.ofNat 64 z.2) 0).toNat % 2 ^ half
    (z.2, z.1 ^^^ f)) (x / 2 ^ half, x % 2 ^ half)
  y.1 * 2 ^ half + y.2

/-- Repeat the rounds until the result is below r. -/
def permWalk (key : BitVec 64) (half r : Nat) : Nat → Nat → Nat
  | 0, x => x
  | fuel + 1, x => let y := permRounds key half x; if y < r then y else permWalk key half r fuel y

/-- perm(x) of data epoch e. -/
def perm (d : DataService) (seed : BitVec 64) (e x : Nat) : Nat :=
  if !dsShuffle d then x
  else
    let r := dsTotal d
    let half := permHalf r
    permWalk (seed + BitVec.ofNat 64 e * 0x9E3779B97F4A7C15#64) half r (4 ^ half) x

/-! ### Records (R295, R296) -/

/-- The source that holds record n, and its number there. -/
def recSource (d : DataService) : List Nat → Nat → Option (Nat × Nat)
  | [], _ => none
  | i :: is, n => if n < dsCount d i then some (i, n) else recSource d is (n - dsCount d i)

/-- Read bytes of a source: partition memory, or host memory within the partition's ranges (R503, R504); none when they cannot be
read. -/
def srcBytes (s : State) (p : Nat) (host : Bool) (a n : Nat) : Option (List Byte) :=
  if host then (if hostSpanOk s p a n false then some (hostRead s a n) else none)
  else if regionOk s p a n 1 false && !partPoisoned s p a n then some (partRead s p a n) else none

/-- The dictionaries of DICT_LIST. -/
def dsDicts (s : State) (p : Nat) (d : DataService) : List (Nat × List Byte) :=
  (List.range (d.dicts.length / 16)).map (fun i =>
    let e := slice d.dicts (16 * i) 16
    (at_ e 0 4, partRead s p (at_ e 8 8) (at_ e 4 4)))

/-- The decoded contents of a record; none when it is corrupt (R296). -/
def readRecord (s : State) (p : Nat) (d : DataService) (n : Nat) : Option (List Byte) :=
  match recSource d (List.range (dsSrcCount d)) n with
  | none => none
  | some (i, k) =>
    let e := slice d.sources (32 * i) 32
    let host := decide (at_ e 0 1 = 1)
    match srcBytes s p host (at_ e 8 8 + 16 * k) 16 with
    | none => none
    | some ix =>
      match srcBytes s p host (at_ e 16 8 + at_ ix 0 8) (at_ ix 8 4) with
      | none => none
      | some b => (zstd (dsDicts s p d) b).bind (fun x => if x.length = at_ ix 12 4 then some x else none)

/-- Whether a slot holds records of given lengths (R298). -/
def slotFits (d : DataService) (lens : List Nat) : Bool :=
  decide (64 + roundUp (4 * lens.length) 64 + (lens.map (fun n => roundUp n 64)).sum ≤ dsSlotBytes d)

/-- A slot in the making: the records held, the record numbers skipped, and the record that the service stopped at. -/
structure SlotRun where
  held : List (List Byte) := []
  skip : List Nat := []
  stop : Option Nat := none
deriving DecidableEq, Repr

/-- Take the records of a microbatch in order. -/
def slotRecords (s : State) (p : Nat) (d : DataService) : List Nat → SlotRun → SlotRun
  | [], x => x
  | n :: ns, x =>
    match (readRecord s p d n).bind (fun b => if slotFits d ((x.held ++ [b]).map (·.length)) then some b else none) with
    | some b => slotRecords s p d ns { x with held := x.held ++ [b] }
    | none => if dsPause d then { x with stop := some n } else slotRecords s p d ns { x with skip := x.skip ++ [n] }

/-- The bytes of a slot (R298). -/
def slotBytesOf (step mb epoch first skipped : Nat) (held : List (List Byte)) : List Byte :=
  let pad := fun (b : List Byte) => b ++ zeros (roundUp b.length 64 - b.length)
  pad (leBytes 8 step ++ leBytes 4 mb ++ leBytes 4 held.length ++ leBytes 8 epoch ++ leBytes 8 first ++ leBytes 4 skipped ++ zeros 28) ++
  pad (held.flatMap (fun b => leBytes 4 b.length)) ++ held.flatMap pad

/-! ### Staging (R298) -/

def dsGet (j : Job) (eval : Bool) : DataService := if eval then j.evalData else j.data
def dsSet (j : Job) (eval : Bool) (d : DataService) : Job := if eval then { j with evalData := d } else { j with data := d }

/-- Pause a job (R293): JOB_PAUSED once, with its reason. -/
def pauseJob (s : State) (p reason : Nat) : State :=
  match job s p with
  | some j => if j.paused then s else postPart (breakQuag (setJob s p { j with paused := true }) p) p 0x0101 reason []
  | none => s

/-! ### Health monitors (R313) -/

/-- ACTION and LIMIT of a monitor: of its entry, or the default when HEALTH_CFG is 0; none when it is off. -/
def monitorOf (j : Job) (m : Nat) : Option (Nat × Nat) :=
  if at_ j.record 72 8 = 0 then
    match m with
    | 1 => some (1, 60000) | 2 => some (0, 0) | 3 => some (2, 0) | 5 => some (0, 0) | _ => none
  else
    ((List.range (j.health.entries.length / 8)).find? (fun i => decide (at_ j.health.entries (8 * i) 1 = m))).map
      (fun i => (at_ j.health.entries (8 * i + 1) 1, at_ j.health.entries (8 * i + 4) 4))

/-- A monitor fires: one HEALTH event per step, with the logical core (0xFF for none) and the count, and its ACTION. STOP has stopped the
monitors of its job (R293). -/
def raiseHealth (s : State) (p m : Nat) (core : Option Nat) (count : Nat) : State :=
  match job s p with
  | none => s
  | some j =>
    match monitorOf j m with
    | none => s
    | some (action, _) =>
      if j.stopping || j.health.raised.contains m then s
      else
        let s := setJob s p { j with health := { j.health with raised := m :: j.health.raised } }
        let s := postPart s p 0x0140 m (leBytes 8 (core.getD 0xFF) ++ leBytes 8 count)
        if action = 1 then pauseJob s p 2
        else if action = 2 then (match core with
          | some c => requestTest s (physOf s c)
          | none => s)
        else s

/-- A count beyond a monitor's LIMIT fires it. -/
def checkMonitor (s : State) (p m : Nat) (core : Option Nat) (count : Nat) : State :=
  match (job s p).bind (monitorOf · m) with
  | some (_, limit) => if limit < count then raiseHealth s p m core count else s
  | none => s

/-- DATA_SKIP looks at the records skipped in the data epoch in progress. -/
def checkSkips (s : State) (p : Nat) : State :=
  match job s p with
  | some j => checkMonitor s p 6 none j.data.skipped
  | none => s

/-! ### Slots (R298) -/

/-- The token for the next slot: none is needed for the first SLOTS. -/
def slotToken (s : State) (d : DataService) : Option State :=
  if d.token || decide (d.next < dsSlots d) then some s
  else (takeEyelet (eyelet s (dsFree d)) 1).map (setEyelet s (dsFree d))

/-- Whether every host source can be reached. -/
def dsReach (s : State) (d : DataService) : Bool :=
  s.ivtu.up || (List.range (dsSrcCount d)).all (fun i => decide (at_ d.sources (32 * i) 1 ≠ 1))

/-- Report skipped records: DATA_CORRUPT for the first skip of each step (R298), and DATA_SKIP looks at once, before the epoch can end
(R313). -/
def reportSkips (s : State) (p : Nat) (eval : Bool) (step : Nat) (skip : List Nat) : State :=
  match job s p, skip with
  | some j, n :: _ =>
    let d := dsGet j eval
    let d' := { d with skipped := d.skipped + skip.length, skipStep := some step }
    let s := setJob s p (dsSet j eval d')
    checkSkips (if d.skipStep = some step then s else postPart s p 0x0111 0 (leBytes 8 n)) p
  | _, _ => s

/-- Fill the next slot. -/
def slotFill (s : State) (p : Nat) (eval : Bool) : State :=
  match job s p with
  | none => s
  | some j =>
    let d := dsGet j eval
    let per := dsPerEpoch d (jWays j)
    if !dsOn d || j.stopping || d.halted || decide (per = 0) || !dsReach s d then s
    else match slotToken s d with
      | none => s
      | some s =>
        let first := d.pos * dsRecs d
        let recs := (List.range (dsRecs d)).map (fun i => perm d j.seed d.epoch ((first + i) * jWays j + jRank j))
        let x := slotRecords s p d recs {}
        match x.stop with
        | some n =>
          let s := setJob s p (dsSet j eval { d with halted := true, token := true })
          postPart (pauseJob s p 3) p 0x0111 0 (leBytes 8 n)
        | none =>
          let step := j.start.toNat + d.next / dsPerStep d
          let b := slotBytesOf step (d.next % dsPerStep d) d.epoch first x.skip.length x.held
          let s := partWrite s p (dsBase d + d.next % dsSlots d * dsSlotBytes d) b
          let s := reportSkips s p eval step x.skip
          let s := deviceSignal s (dsReady d)
          let wrap := decide (d.pos + 1 = per)
          let s := modJob s p (fun j =>
            let d := dsGet j eval
            dsSet j eval (if wrap then { d with next := d.next + 1, token := false, epoch := d.epoch + 1, pos := 0, skipped := 0 }
                          else { d with next := d.next + 1, token := false, pos := d.pos + 1 }))
          if wrap then postPart s p 0x0110 0 (leBytes 8 (d.epoch + 1)) else s

def execDataSlotFill (p : Fin 16) (eval : Bool) (s : State) : Host.Outcome State Fault Refusal := .next (slotFill s p.val eval)

/-- The data epoch and position of the first microbatch of a step, which a checkpoint of the step before saves (R307, R310). -/
def dataPosAt (j : Job) (step : Nat) : Nat × Nat :=
  let d := j.data
  let per := dsPerEpoch d (jWays j)
  if !dsOn d || decide (per = 0) then (d.epoch, d.pos)
  else
    let at0 := d.epoch * per + d.pos - d.next
    let k := at0 + (step - j.start.toNat) * dsPerStep d
    (k / per, k % per)

end Sys2Proof.Machine
end

