-- ==== Sys2Proof/Machine/Flows.lean ====
section
/-! DEFINITION. Flows: sending and receiving ends, FLOW_SEND, TENSOR and TACK packets and their timers (R437, R505, R506). -/
namespace Sys2Proof.Machine

/-! ### The sending end -/

/-- Packets move from the queue into the window of 1,024 and are sent. -/
def flowFill (s : State) (x : FlowTx) : State × FlowTx :=
  if x.lost then (s, x)
  else
    let now := x.queued.take (1024 - x.unacked.length)
    (now.foldl (fun s k => sendPacket s k.bytes) s, { x with unacked := x.unacked ++ now, queued := x.queued.drop now.length })

/-- Give packets their FSEQ and queue them; `mk` builds the packet of an FSEQ, ARG and payload. -/
def flowPush (x : FlowTx) (mk : Nat → List Byte → List Byte → List Byte) : List (List Byte × List Byte) → FlowTx
  | [] => x
  | (arg, pay) :: rest =>
    flowPush { x with next := (x.next + 1) % 2 ^ 32, queued := x.queued ++ [{ fseq := x.next, bytes := mk x.next arg pay }] } mk rest

/-- A TACK gives the lowest FSEQ not yet received: everything before it is acknowledged. -/
def flowAck (x : FlowTx) (n : Nat) : FlowTx :=
  let rest := x.unacked.filter (fun k => !newer32 n k.fseq)
  if rest.length = x.unacked.length then x else { x with unacked := rest, resends := 0 }

/-- 1 ms without progress: every unacknowledged packet is sent again; after three such resends the flow is lost. -/
def flowTimeout (s : State) (x : FlowTx) : State × FlowTx :=
  if x.lost || x.unacked.isEmpty then (s, x)
  else if 3 ≤ x.resends then (s, { x with lost := true, unacked := [], queued := [] })
  else (x.unacked.foldl (fun s k => sendPacket s k.bytes) s, { x with resends := x.resends + 1 })

/-- Whether every packet before an FSEQ is acknowledged. -/
def flowDone (x : FlowTx) (upto : Nat) : Bool := (x.unacked ++ x.queued).all (fun k => !newer32 upto k.fseq)

/-- Cut bytes into payloads of 4,096 with their offsets. -/
def payloads (b : List Byte) : List (Nat × List Byte) :=
  let l := chunks 4096 (b.length + 1) b
  ((List.range l.length).map (4096 * ·)).zip l

/-! ### FLOW_SEND (R505) -/

/-- Build a packet of a flow from this device. -/
def flowPacket (s : State) (type cls p dpart dst flow : Nat) (fseq : Nat) (arg pay : List Byte) : List Byte :=
  mkPacket (if 0x30 ≤ type then 3 else jobVersion s p) type cls false dpart p dst s.fab.addr.toNat fseq flow arg pay

/-- The TENSOR packets of a FLOW_SEND: offset, and the mark of the last one. -/
def tensorArgs (off : Nat) (b : List Byte) : List (List Byte × List Byte) :=
  let l := payloads b
  l.map (fun x => (leBytes 8 (off + x.1) ++ leBytes 1 (b2n (decide (x.1 + x.2.length = b.length))), x.2))

/-- A FLOW_SEND that has passed its checks: the tensor's bytes enter the flow's queue as packets, and the command waits until every one
is acknowledged (R505, R437). A run that fails sends an unspecified part and ends. -/
def flowRun (s : State) (c : Cmd) (n offset : Nat) (d : Desc) : Res :=
  let p := c.part.getD 16
  let x := ctx s n
  let (b, r) := tensorBytes (newRun s c []) d
  let args := tensorArgs offset b
  let (args, bad, r) := if r.bad || r.integ then
      (let y := rChoice r; (args.take (y.1 % (args.length + 1)), true, y.2)) else (args, false, r)
  let mk := flowPacket r.s 0x20 x.cls.toNat p x.peerPart.toNat x.peer.toNat x.peerCtx.toNat
  let (s, tx) := flowFill r.s (flowPush x.tx mk args)
  let k := args.length
  let s := modCtx s n (fun y => { y with tx := tx, packets := y.packets + BitVec.ofNat 64 k })
  if bad then finishRun { r with s := s } none .ok 0 []
  else if flowDone tx tx.next then finishRun { r with s := s } none .ok 0 []
  else { finishRun { r with s := s } none .ok 0 [] with wait := some (.flow n tx.next) }

def bodyFlowSend (q : FlowSendP) (s : State) (c : Cmd) : Res :=
  let p := c.part.getD 16
  let n := q.context.toNat
  let x := ctx s n
  withDescs s c [(q.srcDesc.toNat, false)] fun ds =>
    match ds with
    | [d] =>
      checked s [(decide (q.rsvdA ≠ 0), .badParam, 0), (!(decide (n < 0x10000) && ownsCtx s p n), .denied, 0),
          (!x.isOpen || decide (x.kind ≠ 3), .badParam, 0), (!isDense d, .badDescriptor, 0), (x.tx.lost || departed s x.peer, .deferred, 3)] fun _ =>
        flowRun s c n q.offset.toNat d
    | _ => { s := s }

def execFlowSend (h : Hdr) (p : FlowSendP) (s : State) : Host.Outcome State Fault Refusal :=
  command (.flowSend h p) { op := 0x0204, n := 24, runs := .s } h (packetBytes 0x0204 h (bytesFlowSend p)) (bodyFlowSend p) s

/-- The FLOW_SEND commands of a context that are done, or that a lost flow ends. -/
def endFlows (s : State) (n : Nat) : State :=
  let x := (ctx s n).tx
  let done := s.waiting.filter (fun w => match w.wait with
    | .flow k u => decide (k = n) && (x.lost || flowDone x u)
    | _ => false)
  done.foldl (fun s w => if x.lost then endWaiting s w .deferred 3 [] else endWaiting s w .ok 0 []) s

/-- The sending context of a partition that a TACK belongs to: its PEER and PEER_PART sent it, and it carries the number of the
receiving context, since a flow's packets do not name the sender's. -/
def tackCtx (s : State) (b : List Byte) : Option Nat :=
  (s.ctxs.find? (fun x => x.2.isOpen && decide (x.2.kind = 3) && ownsCtx s (pkDpart b) x.1 && decide (x.2.peer.toNat = pkSrc b) &&
    decide (x.2.peerPart.toNat = pkSpart b) && decide (x.2.peerCtx.toNat = pkFlow b))).map (·.1)

/-- A TACK for a context's flow. -/
def tackCtxOp (s : State) (n : Nat) (b : List Byte) : State :=
  let (s, tx) := flowFill s (flowAck (ctx s n).tx (at_ (pkArg b) 0 4))
  endFlows (modCtx s n (fun y => { y with tx := tx })) n

/-- A sending context's timer. -/
def flowResend (s : State) (n : Nat) : State :=
  let (s, tx) := flowTimeout s (ctx s n).tx
  endFlows (modCtx s n (fun y => { y with tx := tx })) n

/-! ### The receiving end (R437, R506) -/

/-- Advance over the FSEQs received ahead. -/
def rxAdvance : Nat → FlowRx → FlowRx
  | 0, x => x
  | fuel + 1, x =>
    if x.ahead.contains x.next then
      rxAdvance fuel { x with ahead := x.ahead.filter (fun k => decide (k ≠ x.next)), next := (x.next + 1) % 2 ^ 32 }
    else x

/-- Whether a receiver accepts an FSEQ: within 1,024 of the lowest not yet received, and not accepted before. -/
def rxTakes (x : FlowRx) (fseq : Nat) : Bool := decide ((fseq + 2 ^ 32 - x.next) % 2 ^ 32 < 1024) && !x.ahead.contains fseq

/-- Send a TACK of a receiving context to the source of a packet. -/
def sendTack (s : State) (n : Nat) (p dst dpart : Nat) : State :=
  let x := ctx s n
  originate (modCtx s n (fun y => { y with rx := { y.rx with since := 0 } })) 0x03 x.cls.toNat false dpart p dst 0 n (leBytes 4 x.rx.next) []

/-- A packet with flow data reaches a receiving context (R506): it is written at its offset, or counted in OVERRUNS. -/
def rxPacket (s : State) (p n off : Nat) (last : Bool) (b : List Byte) : State :=
  let x := ctx s n
  if !rxTakes x.rx (pkFseq b) then s
  else
    let pay := pkPayload b
    let excess := decide (x.bufBytes.toNat < off + pay.length)
    let s := if excess then s else partWrite s p (x.buf.toNat + off) pay
    let rx := { x.rx with ahead := pkFseq b :: x.rx.ahead, lasts := if last then pkFseq b :: x.rx.lasts else x.rx.lasts, since := x.rx.since + 1 }
    let rx := rxAdvance (rx.ahead.length + 1) rx
    let due := rx.lasts.filter (fun k => newer32 rx.next k)
    let rx := { rx with lasts := rx.lasts.filter (fun k => !newer32 rx.next k) }
    let s := modCtx s n (fun y => { y with rx := rx, peer := BitVec.ofNat 16 (pkSrc b), peerPart := BitVec.ofNat 8 (pkSpart b),
                                           packets := if excess then y.packets else y.packets + 1, rxBytes := if excess then y.rxBytes else y.rxBytes + pay.length, overruns := if excess then y.overruns + 1 else y.overruns })
    let s := due.foldl (fun s _ => deviceSignal s x.eyelet.toNat) s
    if 64 ≤ rx.since then sendTack s n p (pkSrc b) (pkSpart b) else s

/-- The receiving context that a packet's FLOW names in its DPART. -/
def rxCtx (s : State) (b : List Byte) : Option Nat :=
  let n := pkFlow b
  if n < 0x10000 ∧ ownsCtx s (pkDpart b) n ∧ (ctx s n).isOpen ∧ (ctx s n).kind = 4 then some n else none

/-- A TENSOR packet; without its receiving context it is dropped and counted. -/
def tensorArrives (s : State) (b : List Byte) : State :=
  if !pkGood b then countEcrc s
  else match rxCtx s b with
    | some n => rxPacket s (pkDpart b) n (at_ (pkArg b) 0 8) (bitOf (at_ (pkArg b) 8 1) 0) b
    | none => countDrop s

def execTensor (b : List Byte) (s : State) : Host.Outcome State Fault Refusal := .next (tensorArrives s b)

/-- Every 2 µs a receiving context acknowledges, so that a lost TACK is made good, once packets that it has accepted give its peer (R437). -/
def tackTimer (s : State) (n : Nat) : State :=
  let x := ctx s n
  if x.isOpen && decide (x.kind = 4) && (decide (x.packets ≠ 0) || decide (x.overruns ≠ 0)) then
    match (List.range 16).find? (fun p => ownsCtx s p n) with
    | some p => sendTack s n p x.peer.toNat x.peerPart.toNat
    | none => s
  else s

def execFlowTackTimer (n : BitVec 16) (s : State) : Host.Outcome State Fault Refusal := .next (tackTimer s n.toNat)

end Sys2Proof.Machine
end

