-- ==== Sys2Proof/Machine/Dist.lean ====
section
/-! DEFINITION. Distribution records: the fields, their checks, the device list and the grid (R242, R243). -/
namespace Sys2Proof.Machine

/-! ### Distribution records (R242 to R245) -/

/-- A distribution record with its device list. Dimensions at and above RANK are REPLICATED with extent 1 and PARTS 1. -/
structure Dist where
  elem   : Elem
  rank   : Nat
  devs   : List Nat
  ldesc  : Nat
  ext    : List Nat
  mode   : List Nat
  parts  : List Nat
  block  : List Nat
deriving DecidableEq, Repr

/-- Bytes of the device list that a record names. -/
def devListLen (b : List Byte) : Nat := (1 + at_ b 2 1) * at_ b 4 4

/-- Whether the fields of a distribution record are in range (R242). -/
def distOk (b : List Byte) : Bool :=
  let rank := at_ b 1 1
  let form := at_ b 2 1
  let prod := (List.range 6).foldl (fun a d => if d < rank then a * at_ b (66 + 8 * d) 2 else a) 1
  (elemOfCode (at_ b 0 1)).isSome && decide (1 ≤ rank) && decide (rank ≤ 6) && decide (form ≤ 1) &&
  (decide (form = 0) || decide (at_ b 3 1 = 0)) && decide (1 ≤ at_ b 4 4) && decide (at_ b 4 4 ≤ 65536) &&
  decide (at_ b 4 4 = prod) && decide (at_ b 8 8 < 2 ^ 48) && decide (at_ b 16 8 < 2 ^ 48) && allZero (slice b 24 8) &&
  allZero (slice b 56 8) && allZero (slice b 112 16) &&
  (List.range 6).all (fun d =>
    let o := 64 + 8 * d
    if d < rank then
      decide (at_ b o 1 ≤ 2) && decide (at_ b (o + 1) 1 = 0) && decide (1 ≤ at_ b (o + 2) 2) &&
      (if at_ b o 1 = 2 then decide (1 ≤ at_ b (o + 4) 4) else decide (at_ b (o + 4) 4 = 0))
    else decide (at_ b (32 + 4 * d) 4 = 0) && allZero (slice b o 8))

/-- The fields of a record, with the bytes of its device list. -/
def parseDist (b list : List Byte) : Dist :=
  let rank := at_ b 1 1
  let per := fun (f : Nat → Nat) (v : Nat) => (List.range 6).map (fun d => if d < rank then f d else v)
  { elem := (elemOfCode (at_ b 0 1)).getD .u8, rank := rank, ldesc := at_ b 16 8,
    devs := (List.range (at_ b 4 4)).map (fun i =>
      if at_ b 2 1 = 0 then 256 * at_ b 3 1 + at_ list i 1 else at_ list (2 * i) 2),
    ext := per (fun d => at_ b (32 + 4 * d) 4) 1, mode := per (fun d => at_ b (64 + 8 * d) 1) 0,
    parts := per (fun d => at_ b (66 + 8 * d) 2) 1, block := per (fun d => at_ b (68 + 8 * d) 4) 0 }

/-- The part coordinates of a grid number (R243). -/
def gridCoords : List Nat → Nat → List Nat
  | [], _ => []
  | p :: ps, g => g % p :: gridCoords ps (g / p)

/-- The grid number of part coordinates (R243). -/
def gridOf (q : Dist) (c : List Nat) : Nat := (c.zip q.parts).foldr (fun x a => x.1 + x.2 * a) 0

end Sys2Proof.Machine
end

