-- ==== Sys2Proof/Machine/Red.lean ====
section
/-! DEFINITION. Gradient reduction inside a device: installed plans, partials of a bucket, the reduction unit of the router, and
the owner's window (R317 to R348). -/
namespace Sys2Proof.Machine

/-! ### Plans and buckets (R317, R320, R321) -/

def planOf (s : State) (p : Nat) : Option Plan := (part s p).plan
def setPlan (s : State) (p : Nat) (x : Option Plan) : State := modPart s p (fun y => { y with plan := x })
def plMode (x : Plan) : Nat := at_ x.header 4 1
def plWire (x : Plan) : Nat := at_ x.header 5 1
def plBuf (x : Plan) : Nat := at_ x.header 24 8
def plFold (x : Plan) : Nat := at_ x.header 40 8

def bucketOf (s : State) (p b : Nat) : Option Bucket :=
  match planOf s p with
  | some x => tget none b x.buckets
  | none => none
def setBucket (s : State) (p b : Nat) (x : Bucket) : State :=
  modPart s p (fun y => { y with plan := y.plan.map (fun z => { z with buckets := tput none b (some x) z.buckets }) })
def modBucket (s : State) (p b : Nat) (f : Bucket → Bucket) : State :=
  match bucketOf s p b with
  | some x => setBucket s p b (f x)
  | none => s

def beOwner (x : Bucket) : Bool := bitOf (at_ x.entry 2 1) 0
def beUncombined (x : Bucket) : Bool := bitOf (at_ x.entry 2 1) 1
def entryWindow (e : List Byte) : Nat := if at_ e 3 1 = 0 then 16 else at_ e 3 1
def entryElems (e : List Byte) : Nat := if at_ e 4 4 = 0 then 2097152 else at_ e 4 4
def beWindow (x : Bucket) : Nat := entryWindow x.entry
def beElems (x : Bucket) : Nat := entryElems x.entry
def beParent (x : Bucket) : Nat := at_ x.entry 8 2
def beChildren (x : Bucket) : Nat := at_ x.entry 10 2
def beSlot (x : Bucket) : Nat := at_ x.entry 12 2
def beSlots (x : Bucket) : Nat := at_ x.entry 14 2
def beCores (x : Bucket) : Nat := at_ x.entry 16 2
def beFoldCore (x : Bucket) : Nat := at_ x.entry 18 1
def beEyelet (x : Bucket) : Nat := at_ x.entry 20 4
def beTokens (x : Bucket) : Nat := at_ x.entry 48 2
/-- Segments of a bucket, and elements of segment j (R317). -/
def beSegs (x : Bucket) : Nat := ceilDiv (beElems x) 8192
def segLen (x : Bucket) (j : Nat) : Nat := min 8192 (beElems x - 8192 * j)
/-- Address of element i of the fold partial, and of the owner's window (R326, R334). -/
def foldAddr (x : Plan) (b : Bucket) (i : Nat) : Nat := plFold x + at_ b.entry 24 8 + 8 * i
def winAddr (x : Plan) (b : Bucket) (i : Nat) : Nat := plBuf x + at_ b.entry 32 8 + 8 * i

/-- The step sequence of the partition's job (R318). -/
def stepSeq (s : State) (p : Nat) : BitVec 32 :=
  match (part s p).job with
  | some j => BitVec.ofNat 32 j.step.toNat
  | none => 0

/-! ### GRAD_SEG packets (R436) -/

/-- An element as it travels in a wire format, and the flags of rounding it (R72, R436). -/
def wireElem (wire v : Nat) : List Byte × BitVec 4 :=
  match elemOfCode wire with
  | some .a48 => (leBytes 6 (v / 2 * 2), 0)
  | some e =>
    let (c, f) := elemEnc e false 0 none 0 (a48Dec v)
    (leBytes (elemBytes e) c, f)
  | none => ([], 0)

/-- Bytes of an element on the wire. -/
def wireBytes (wire : Nat) : Nat :=
  match elemOfCode wire with
  | some .a48 => 6
  | some e => elemBytes e
  | none => 1

/-- The A48 values of a payload (R330): the conversion from a linear format is exact. -/
def wireVals (wire : Nat) (b : List Byte) : List (BitVec 48) :=
  let n := wireBytes wire
  (List.range (b.length / n)).map (fun i =>
    let c := at_ b (n * i) n
    match elemOfCode wire with
    | some .a48 => BitVec.ofNat 48 c
    | some e => BitVec.ofNat 48 (toA48 none (elemDec e c 0)).1
    | none => 0)

/-- The ARG bytes of a GRAD_SEG packet. -/
def gradArg (bucket : Nat) (tag : BitVec 32) (slot seg k wire : Nat) (zero : Bool) (flags : BitVec 4) : List Byte :=
  leBytes 2 bucket ++ leBytes 4 tag.toNat ++ leBytes 2 slot ++ leBytes 2 (seg % 2048 + 2048 * k) ++ leBytes 1 wire ++
  leBytes 1 (b2n zero * 128 + flags.toNat) ++ zeros 2

/-- Send a whole segment to the bucket's PARENT in WIRE, rounded once: a zero marker, or packets of 512 elements (R328, R330). -/
def sendSegment (s : State) (p b : Nat) (x : Bucket) (wire : Nat) (tag : BitVec 32) (seg : Nat) (vals : List (BitVec 48))
    (flags : BitVec 4) (zero : Bool) : State :=
  let out := fun (s : State) (k : Nat) (fl : BitVec 4) (bs : List Byte) =>
    originate s 0x10 1 false p p (beParent x) 0 0 (gradArg b tag (beSlot x) seg k wire zero fl) bs
  if zero then out s 0 flags []
  else
    let es := vals.map (fun v => wireElem wire v.toNat)
    let fl := es.foldl (fun f e => f ||| e.2) flags
    let ps := chunks 512 (es.length + 1) (es.map (·.1))
    (ps.zip (List.range ps.length)).foldl (fun s x => out s x.2 fl (x.1.flatMap id)) s

/-! ### The reduction unit (R330 to R333, R338, R340) -/

/-- Whether this device's partial goes to the owner unadded: PARENT is ignored on the owner itself (R321). -/
def bePast (x : Bucket) : Bool := beUncombined x && !beOwner x

/-- The inputs of this device's own partial: the fold, or each contributing core under STREAM; none when it goes to the owner
unadded. -/
def ownInputs (mode : Nat) (x : Bucket) : List Nat :=
  if bePast x || decide (beCores x = 0) then [] else if mode = 0 then [16] else bitsSet (beCores x) 16

/-- The mark that binds slot 0 to the owner's own copy. -/
def ownCopy : Nat := 2 ^ 16

/-- Whether the root binds the copy that an owner's partial in slot 0 is: its entry marks a slot with a backup by UNCOMBINED (R338). -/
def backedOwn (x : Bucket) : Bool := beOwner x && beUncombined x && decide (beCores x ≠ 0)

/-- The input number of another device's frames, by slot at the root and by sender. -/
def devInput (slot src : Nat) : Nat := 2 ^ 17 * slot + 32 + src

/-- The packet bits of a whole segment. -/
def fullMask (x : Bucket) (j : Nat) : BitVec 16 := BitVec.ofNat 16 (2 ^ ceilDiv (segLen x j) 512 - 1)

/-- Whether an input of a segment has arrived whole. -/
def inputDone (x : Bucket) (g : Seg) (j i : Nat) : Bool := decide (tget 0 i g.got = fullMask x j)

/-- Whether every input that a segment expects has arrived (R330). -/
def segDone (mode : Nat) (x : Bucket) (r : Reduction) (j : Nat) : Bool :=
  let g := tget {} j r.segs
  let own := ownInputs mode x
  if beOwner x then
    (List.range (beSlots x)).all (fun k =>
      r.excluded.contains k ||
      (if k = 0 ∧ own ≠ [] ∧ !(backedOwn x && decide (tget none 0 r.slots ≠ some ownCopy)) then own.all (inputDone x g j)
       else match tget none k r.slots with
         | some src => inputDone x g j (devInput k src)
         | none => false))
  else
    own.all (inputDone x g j) &&
    decide (beChildren x ≤ (g.got.filter (fun e => decide (32 ≤ e.1) && inputDone x g j e.1)).length)

/-- What becomes of a frame (R332). -/
inductive Verdict where
  | accept | wait | drop
deriving DecidableEq, Repr

/-- The copy of its slot that a frame belongs to at the root. -/
def frameCopy (f : RedFrame) : Nat := if f.input < 32 then ownCopy else f.input - 2 ^ 17 * f.slot - 32

/-- Whether the root takes a frame of a slot: not when the slot is excluded, nor when another copy is bound to it (R338, R340). Slot 0 is the
owner's own, unless its entry says that a backup may fill it (R321). -/
def slotTakes (x : Bucket) (r : Reduction) (f : RedFrame) : Bool :=
  !beOwner x ||
  (!r.excluded.contains f.slot &&
   (if f.input < 32 then !backedOwn x || decide (tget none 0 r.slots = none) || decide (tget none 0 r.slots = some ownCopy)
    else decide (f.slot < beSlots x) && !(decide (f.slot = 0) && decide (beCores x ≠ 0) && !backedOwn x) &&
      (match tget none f.slot r.slots with
       | some src => decide (src = frameCopy f)
       | none => true)))

/-- R331 and R332 for a frame. -/
def verdict (x : Bucket) (f : RedFrame) : Verdict :=
  let fresh := if f.seg < min (beWindow x) (beSegs x) then Verdict.accept else if beSegs x ≤ f.seg then .drop else .wait
  match x.red with
  | none => fresh
  | some r =>
    if f.tag = r.tag then
      if !r.isOpen || !slotTakes x r f || decide (beSegs x ≤ f.seg) || decide (f.seg < r.next) ||
          inputDone x (tget {} f.seg r.segs) f.seg f.input then .drop
      else if f.seg < r.next + beWindow x then .accept else .wait
    else if newer32 f.tag.toNat r.tag.toNat then (if r.isOpen then .wait else fresh)
    else .drop

/-- Whether a waiting frame opens a reduction, though it is not yet admitted: its tag is newer and none is open (R332). -/
def opensRed (x : Bucket) (f : RedFrame) : Bool :=
  (match x.red with
   | none => true
   | some r => !r.isOpen && newer32 f.tag.toNat r.tag.toNat) && decide (f.seg < beSegs x)

/-- The completed reductions of a bucket, the last one among them, when a new one opens. -/
def keepPast (x : Bucket) (tag : BitVec 32) : List PastRed :=
  match x.red with
  | some r =>
    if r.tag = tag then x.past
    else { tag := r.tag, missing := r.missing, excluded := r.excluded, flags := r.flags } :: x.past
  | none => x.past

/-- The reduction that takes a frame: the open one, or a new one, whose timer starts at the root (R339). -/
def takeRed (x : Bucket) (f : RedFrame) : Reduction :=
  match x.red with
  | some r => if r.tag = f.tag then r else { tag := f.tag, timer := beOwner x }
  | none => { tag := f.tag, timer := beOwner x }

/-- Add values to a segment from an element on, rounding to nearest even (R330). -/
def addVals (g : Seg) (from_ : Nat) (vals : List (BitVec 48)) : Seg :=
  (vals.zip (List.range vals.length)).foldl (fun g v =>
    let (c, f) := a48Add none (tget 0 (from_ + v.2) g.sums).toNat v.1.toNat
    { g with sums := tput 0 (from_ + v.2) (BitVec.ofNat 48 c) g.sums, flags := g.flags ||| f }) g

/-- Add a frame to its segment. -/
def addFrame (x : Bucket) (g : Seg) (f : RedFrame) : Seg :=
  let bits : BitVec 16 := match f.k with
    | some k => if f.zero then fullMask x f.seg else BitVec.ofNat 16 (2 ^ k)
    | none => fullMask x f.seg
  let g := if f.zero then g else { addVals g (512 * f.k.getD 0) f.vals with touched := true }
  { g with got := tput 0 f.input (tget 0 f.input g.got ||| bits) g.got, flags := g.flags ||| f.flags }

/-- Admit a frame: it opens its reduction when none is open, binds its slot at the root, and adds to its segment. -/
def admitFrame (x : Bucket) (f : RedFrame) : Bucket :=
  let r := takeRed x f
  let slots := if beOwner x && (decide (32 ≤ f.input) || backedOwn x) then tput none f.slot (some (frameCopy f)) r.slots else r.slots
  let g := addFrame x (tget {} f.seg r.segs) f
  { x with past := keepPast x f.tag, red := some { r with slots := slots, missing := r.missing.filter (· ≠ f.slot), segs := tput {} f.seg g r.segs } }

/-- The values of a segment. -/
def segVals (x : Bucket) (g : Seg) (j : Nat) : List (BitVec 48) := tgets 0 (segLen x j) 0 g.sums

/-- A completed reduction that is not the unit's current one. -/
def pastOf (x : Bucket) (tag : BitVec 32) : Option PastRed := x.past.find? (fun q => decide (q.tag = tag))

/-- The record of REDUCE_WAIT (R335). -/
def waitRecord (x : Bucket) (tag : BitVec 32) : List Byte :=
  let old : List Nat × List Nat × BitVec 4 := match pastOf x tag with
    | some q => (q.missing, q.excluded, q.flags)
    | none => ([], [], 0)
  let (miss, exc, fl) := match x.red with
    | some r => if r.tag = tag then (r.missing, r.excluded, r.flags) else old
    | none => old
  leBytes 4 tag.toNat ++ leBytes 2 (beSlots x - miss.length - exc.length) ++ leBytes 2 miss.length ++ leBytes 1 fl.toNat ++ zeros 7 ++
  leBytes 128 (miss.map (2 ^ ·)).sum

/-- End the commands that wait for a reduction of a tag. -/
def endRedWaits (s : State) (p b : Nat) (tag : BitVec 32) (st : Status) (record : List Byte) : State :=
  (s.waiting.filter (fun w => decide (w.cmd.part = some p) && decide (w.wait = .reduce b tag.toNat))).foldl
    (fun s w => endWaiting s w st 0 record) s

/-- The next segment of the open reduction, when every input has arrived and it may leave its slot: forwarded to PARENT, or
stored in the owner's window, unless the window still holds an older sum (R330, R334). -/
def emitNext (s : State) (p b : Nat) : Option State :=
  match planOf s p, bucketOf s p b with
  | some pl, some x =>
    (match x.red with
     | none => none
     | some r =>
       let j := r.next
       if !r.isOpen || decide (beSegs x ≤ j) || !segDone (plMode pl) x r j then none
       else
         let g := tget {} j r.segs
         let last := decide (j + 1 = beSegs x)
         let r' := { r with next := j + 1, isOpen := !last, timer := r.timer && !last, segs := tput {} j {} r.segs,
                            flags := r.flags ||| g.flags }
         if !beOwner x then
           let s := sendSegment s p b x (plWire pl) r.tag j (segVals x g j) g.flags (!g.touched)
           some (setBucket s p b { x with red := some r' })
         else if (match x.win with
             | .complete _ => true
             | _ => false) then none
         else
           let s := partWrite s p (winAddr pl x (8192 * j)) ((segVals x g j).flatMap (fun v => leBytes 8 v.toNat))
           let x := { x with red := some r', win := if last then .complete r.tag else .filling r.tag }
           let s := setBucket s p b x
           if !last then some s
           else
             let s := if beEyelet x < 16384 then
                 (List.range (beTokens x)).foldl (fun s _ => deviceSignal s (beEyelet x)) s else s
             some (endRedWaits s p b r.tag .ok (waitRecord x r.tag)))
  | _, _ => none

/-! ### Sending the device's partial (R328, R329) -/

/-- A local frame of the fold partial: its next segment, read from the fold region. -/
def foldFrame (s : State) (p : Nat) (pl : Plan) (x : Bucket) (q : Partial) : RedFrame :=
  let j := q.sent
  let zero := !tget false j q.touched
  let bs := if zero then [] else partRead s p (foldAddr pl x (8192 * j)) (8 * segLen x j)
  { input := 16, slot := 0, tag := q.tag, seg := j, k := none, flags := tget 0 j q.flags, zero := zero,
    vals := (List.range (bs.length / 8)).map (fun i => BitVec.ofNat 48 (at_ bs (8 * i) 8)) }

/-- Every core of LOCAL_CORES has closed the partial. -/
def allClosed (x : Bucket) (q : Partial) : Bool := decide (q.closed.toNat = beCores x)

/-- Wake the commands that wait for a bucket to open again (R328). -/
def wakeContribs (s : State) (p b : Nat) : State :=
  restartWaiting s (fun w => decide (w.cmd.part = some p) && decide (w.wait = .contrib b))

/-- End the CLOSE commands of a bucket, of one core or of every core; under OK the status that a command's own elements have given stands
(R325, R329). -/
def endCloses (s : State) (p b : Nat) (core : Option Nat) (st : Status) : State :=
  (s.waiting.filter (fun w => decide (w.cmd.part = some p) && (match w.wait with
    | .redClose b' c => decide (b' = b) && (match core with
      | some k => decide (c = k)
      | none => true)
    | _ => false))).foldl (fun s w => endWaiting s w (if st = .ok then w.cmd.st else st) 0 []) s

/-- The partial has been sent: the bucket may open for the next step (R328). -/
def partialSent (s : State) (p b : Nat) (tag : BitVec 32) : State :=
  wakeContribs (endCloses (modBucket s p b (fun x => { x with part := none, last := some tag })) p b none .ok) p b

/-- Offer the next segment of a filled fold partial to the unit, or send it to the owner when UNCOMBINED. -/
def foldStep (s : State) (p b : Nat) : Option State :=
  match planOf s p, bucketOf s p b with
  | some pl, some x =>
    (match x.part with
     | none => none
     | some q =>
       if !q.sending || decide (plMode pl ≠ 0) then none
       else if beSegs x ≤ q.sent then some (partialSent s p b q.tag)
       else
         let f := foldFrame s p pl x q
         let x' := { x with part := some { q with sent := q.sent + 1 } }
         if bePast x then
           some (sendSegment (setBucket s p b x') p b x (plWire pl) q.tag f.seg f.vals f.flags f.zero)
         else match verdict x f with
           | .wait => none
           | .drop => some (countRedDrop (setBucket s p b x'))
           | .accept => some (setBucket s p b (admitFrame x' f)))
  | _, _ => none

/-- A frame is done with: its port's buffer drains (R331), and a CLOSE of its core under STREAM ends with its last segment. -/
def frameDone (s : State) (p b : Nat) (f : RedFrame) : State :=
  let s := drainPort s f.port 1 f.blocks
  match f.core, bucketOf s p b with
  | some c, some x =>
    (match x.part with
     | some q =>
       if !bitOf q.closed.toNat c || x.held.any (fun g => decide (g.core = some c)) then s
       else
         let s := endCloses s p b (some c) .ok
         if allClosed x q && !x.held.any (fun g => g.core.isSome) then partialSent s p b q.tag else s
     | none => s)
  | _, _ => s

/-- Handle the first waiting frame that need not wait any longer; with none, the first that opens a reduction does so (R332). -/
def heldStep (s : State) (p b : Nat) : Option State :=
  match bucketOf s p b with
  | none => none
  | some x =>
    match x.held.find? (fun f => decide (verdict x f ≠ .wait)) with
    | none => (x.held.find? (opensRed x)).map (fun f => setBucket s p b { x with past := keepPast x f.tag, red := some (takeRed x f) })
    | some f =>
      let x' := { x with held := x.held.erase f }
      match verdict x f with
      | .accept => some (frameDone (setBucket s p b (admitFrame x' f)) p b f)
      | _ => some (frameDone (countRedDrop (setBucket s p b x')) p b f)

/-- Let a bucket's unit go on until nothing more can be admitted, forwarded or stored. -/
def settleGo : Nat → State → Nat → Nat → State
  | 0, s, _, _ => s
  | fuel + 1, s, p, b =>
    match emitNext s p b with
    | some s => settleGo fuel s p b
    | none =>
      match heldStep s p b with
      | some s => settleGo fuel s p b
      | none =>
        match foldStep s p b with
        | some s => settleGo fuel s p b
        | none => s

/-- A plan that is to be removed goes once none of its reductions is open (R322). -/
def dropPlan (s : State) (p : Nat) : State :=
  match planOf s p with
  | some x =>
    if x.ending && x.buckets.all (fun e => match e.2 with
        | some b => b.part.isNone && b.held.isEmpty && (match b.red with
          | some r => !r.isOpen
          | none => true)
        | none => true) then setPlan s p none else s
  | none => s

/-- Settle a bucket. -/
def settle (s : State) (p b : Nat) : State :=
  match bucketOf s p b with
  | some x => dropPlan (settleGo (4 * beSegs x + 2 * x.held.length + 8) s p b) p
  | none => s

/-- A slot whose frame has arrived is no longer missing (R339, R340). -/
def arrivedRed (x : Bucket) (f : RedFrame) : Option Reduction :=
  x.red.map (fun r => if beOwner x ∧ r.tag = f.tag then { r with missing := r.missing.filter (· ≠ f.slot) } else r)

/-- A frame joins those that wait for the unit, in order of arrival. -/
def offer (s : State) (p b : Nat) (f : RedFrame) : State := modBucket s p b (fun x => { x with held := x.held ++ [f], red := arrivedRed x f })

/-! ### Contributions of the cores (R325 to R329) -/

/-- The partial that a delivery or contribution joins; it opens with the current step sequence (R318). -/
def openPartial (s : State) (p b : Nat) : State :=
  modBucket s p b (fun x => match x.part with
    | some _ => x
    | none => { x with part := some { tag := stepSeq s p } })

/-- Whether a delivery or contribution of a core waits: the bucket is closed for the step sequence that the counter gives (R328). -/
def mustHold (s : State) (p : Nat) (x : Bucket) (c : Nat) : Bool :=
  match x.part with
  | some q => bitOf q.closed.toNat c
  | none => decide (x.last = some (stepSeq s p))

/-- A staged segment of a core (R329). -/
def stagedOf (q : Partial) (c j : Nat) : StageSeg := tget {} j (tget [] c q.staged)

/-- Change the partial of a bucket. -/
def modPartial (s : State) (p b : Nat) (f : Partial → Partial) : State :=
  modBucket s p b (fun x => { x with part := x.part.map f })

/-- Add one A48 value to an element of the fold partial, clearing its segment at the first touch (R326). -/
def foldOne (r : Run) (b i v : Nat) : Run :=
  match planOf r.s r.p, bucketOf r.s r.p b with
  | some pl, some x =>
    (match x.part with
     | none => r
     | some q =>
       let j := i / 8192
       let s := if tget false j q.touched then r.s
         else partWrite (modPartial r.s r.p b (fun q => { q with touched := tput false j true q.touched })) r.p
           (foldAddr pl x (8192 * j)) (zeros (8 * segLen x j))
       let a := foldAddr pl x i
       if partPoisoned s r.p a 8 then { r with s := s, integ := true }
       else
         let (c, f) := a48Add none (at_ (partRead s r.p a 8) 0 8) v
         let s := partWrite s r.p a (leBytes 8 c)
         let s := modPartial s r.p b (fun q => { q with flags := tput 0 j (tget 0 j q.flags ||| f) q.flags })
         { r with s := s, wl := r.wl ||| f, unit := r.unit ||| f })
  | _, _ => r

/-- Add one value to a staged segment of a core (R329); true when the segment has been sent for the current tag. -/
def stageOne (r : Run) (b c i v : Nat) : Bool × Run :=
  match bucketOf r.s r.p b with
  | none => (false, r)
  | some x =>
    match x.part with
    | none => (false, r)
    | some q =>
      let g := stagedOf q c (i / 8192)
      if g.sent then (true, r)
      else
        let k := i % 8192
        let (w, f) := a48Add none (tget 0 k g.vals).toNat v
        let g := { g with vals := tput 0 k (BitVec.ofNat 48 w) g.vals, got := tput false k true g.got, flags := g.flags ||| f }
        let s := modPartial r.s r.p b (fun q => { q with staged := tmod [] c (tput {} (i / 8192) g) q.staged })
        (false, { r with s := s, wl := r.wl ||| f, unit := r.unit ||| f })

/-- Send a staged segment of a core: to the device's unit, or to the owner when UNCOMBINED (R329, R333). -/
def sendStaged (s : State) (p b c j : Nat) : State :=
  match planOf s p, bucketOf s p b with
  | some pl, some x =>
    (match x.part with
     | none => s
     | some q =>
       let g := stagedOf q c j
       let zero := g.got.isEmpty
       let vals := if zero then [] else tgets 0 (segLen x j) 0 g.vals
       let s := modPartial s p b (fun q => { q with staged := tmod [] c (tput {} j { sent := true }) q.staged })
       if bePast x then sendSegment s p b x (plWire pl) q.tag j vals g.flags zero
       else offer s p b { input := c, slot := 0, tag := q.tag, seg := j, k := none, vals := vals, flags := g.flags, zero := zero,
                          core := some c })
  | _, _ => s

/-- Write a staged segment into the core's staging buffers, which hold it until it is sent (R329). -/
def stageBytes (r : Run) (b c stage j : Nat) : Run :=
  match bucketOf r.s r.p b with
  | none => r
  | some x =>
    match x.part with
    | none => r
    | some q =>
      let g := stagedOf q c j
      { r with s := partWrite r.s r.p (stage + 65536 * (j % 2)) ((tgets 0 (segLen x j) 0 g.vals).flatMap (fun v => leBytes 8 v.toNat)) }

/-- Deliver values to elements of a bucket from a core, in order (R325, R326, R329): the run, and whether one came to a segment
already sent. -/
def deliverVals (r : Run) (b c stage : Nat) (vals : List (Nat × Nat)) : Bool × Run :=
  let r := { r with s := openPartial r.s r.p b }
  match planOf r.s r.p, bucketOf r.s r.p b with
  | some pl, some x =>
    let inside := vals.filter (fun v => decide (v.1 < beElems x))
    let r := { r with oob := r.oob + (vals.length - inside.length) }
    if plMode pl = 0 then (false, inside.foldl (fun r v => foldOne r b v.1 v.2) r)
    else
      let (late, r) := inside.foldl (fun (a : Bool × Run) v => let y := stageOne a.2 b c v.1 v.2; (a.1 || y.1, y.2)) (false, r)
      let segs := (List.range (beSegs x)).filter (fun j => inside.any (fun v => decide (v.1 / 8192 = j)))
      let r := segs.foldl (fun r j => stageBytes r b c stage j) r
      let full := fun (s : State) (j : Nat) => match bucketOf s r.p b with
        | some x => (match x.part with
          | some q =>
            let g := stagedOf q c j
            !g.sent && decide (g.got.length = segLen x j)
          | none => false)
        | none => false
      let s := segs.foldl (fun s j => if full s j then sendStaged s r.p b c j else s) r.s
      (late, { r with s := settle s r.p b })
  | _, _ => (false, r)

/-- CLOSE of a core (R328, R329): its unsent segments go under STREAM, and under BUCKET the last core's CLOSE sends the partial. -/
def closeCore (s : State) (p b c : Nat) : State :=
  let s := openPartial s p b
  match planOf s p, bucketOf s p b with
  | some pl, some x =>
    (match x.part with
     | none => s
     | some q0 =>
       let q := { q0 with closed := BitVec.ofNat 16 (setBit q0.closed.toNat c true) }
       let s := setBucket s p b { x with part := some { q with sending := decide (plMode pl = 0) && allClosed x q } }
       if plMode pl = 0 then s
       else (List.range (beSegs x)).foldl (fun s j =>
         if (stagedOf q c j).sent then s else sendStaged s p b c j) s)
  | _, _ => s

/-- Whether a CLOSE of a core has nothing left to wait for (R328, R329). -/
def closeDone (s : State) (p b c : Nat) : Bool :=
  match planOf s p, bucketOf s p b with
  | some pl, some x =>
    if plMode pl = 0 then (match x.part with
      | some q => !bitOf q.closed.toNat c
      | none => true)
    else !x.held.any (fun g => decide (g.core = some c))
  | _, _ => true

/-- Under STREAM with nothing held, the last core's CLOSE ends the partial. -/
def closeEnd (s : State) (p b : Nat) : State :=
  match planOf s p, bucketOf s p b with
  | some pl, some x =>
    (match x.part with
     | some q =>
       if decide (plMode pl = 1) && allClosed x q && !x.held.any (fun g => g.core.isSome) then dropPlan (partialSent s p b q.tag) p else s
     | none => s)
  | _, _ => s

/-! ### Abandoning (R348) -/

/-- Drop a frame that no reduction takes any more. -/
def forgetFrame (s : State) (f : RedFrame) : State := drainPort s f.port 1 f.blocks

/-- Abandon the open reductions of a bucket: pending CLOSE and REDUCE_WAIT commands complete with MISSING_CONTRIBUTION, and so do
the contributions that wait; no further contribution is taken. -/
def abandonBucket (s : State) (p b : Nat) : State :=
  match bucketOf s p b with
  | none => s
  | some x =>
    let s := x.held.foldl forgetFrame s
    let red := x.red.map (fun r => { r with isOpen := false, timer := false, segs := ([] : Tab Seg) })
    let rec_ := fun (t : Nat) => waitRecord x (BitVec.ofNat 32 t)
    let win : RedWin := match x.win with
      | .filling _ => .empty
      | w => w
    let s := setBucket s p b { x with lost := true, part := none, red := red, held := [], win := win }
    let mine := s.waiting.filter (fun w => decide (w.cmd.part = some p) && (match w.wait with
      | .reduce b' _ => decide (b' = b)
      | .contrib b' => decide (b' = b)
      | .redClose b' _ => decide (b' = b)
      | _ => false))
    mine.foldl (fun s w => endWaiting s w .missingContribution 0 (match w.wait with
      | .reduce _ t => rec_ t
      | _ => [])) s

/-- Abandon every reduction of a plan. -/
def abandonPlan (s : State) (p : Nat) : State :=
  match planOf s p with
  | some x => x.buckets.foldl (fun s e => abandonBucket s p e.1) s
  | none => s

/-- A lost parent or owner (R348, R456). -/
def parentLost (s : State) (addr : Nat) : State :=
  (List.range 16).foldl (fun s p =>
    match planOf s p with
    | some x => x.buckets.foldl (fun s e => match e.2 with
        | some b => if !beOwner b && decide (beParent b = addr) then dropPlan (abandonBucket s p e.1) p else s
        | none => s) s
    | none => s) s

/-- The job of a partition has ended: its plan goes once its reductions are complete or abandoned (R322). -/
def endPlan (s : State) (p : Nat) : State := dropPlan (modPart s p (fun y => { y with plan := y.plan.map (fun x => { x with ending := true }) })) p

end Sys2Proof.Machine
end

