-- ==== Sys2Proof/Machine/Sole.lean ====
section
/-! DEFINITION. The Sole: products, seam groups and running sums (R80 to R86), the accumulator file and its save records (R95 to
R99, R107), passes, and the store and load of C (R102, R134). -/
namespace Sys2Proof.Machine

/-! ### Arithmetic (R80 to R86) -/

/-- The product of two log values in a processing element, and whether it is inexact (R47, R80). -/
def peProduct (a b : Val) : Val × Bool :=
  match a, b with
  | .log x t, .log y u =>
    let v := t + u
    let (m, q) := t36 none (v % 256).toNat
    (.fin (xor x y) m (q + v / 256), decide (v % 256 ≠ 0))
  | .nan _, _ => (.nan false, false)
  | _, .nan _ => (.nan false, false)
  | x, y => (.zero (xor (valNeg x) (valNeg y)), false)

/-- Exponent of a non-zero product. -/
def prodExp : Val → Option Int
  | .fin _ m e => some (finExp m e)
  | _ => none

/-- The window sum of a seam: each product aligned to 2^(Emax − 90), its lower bits dropped (R82); the sum and whether bits of
value 1 were dropped. -/
def windowSum (q : Int) (ps : List Val) : Int × Bool :=
  ps.foldl (fun (a : Int × Bool) p =>
    match p with
    | .fin n m e =>
      if q ≤ e then (a.1 + sgn n (m <<< (e - q).toNat), a.2)
      else
        let k := (q - e).toNat
        (a.1 + sgn n (m >>> k), a.2 || decide (m % 2 ^ k ≠ 0))
    | _ => a) (0, false)

/-- The group sum of 32 products as an A48 code, its flags, and whether bits were dropped (R83). A group with a NaN product has no
window sum, so none of its bits is dropped: whether the hardware counts or flags the bits that its other products would lose is not
stated (DESIGN CHOICE, entry 44). -/
def seamSum (ps : List (Val × Bool)) : Nat × Flags × Bool :=
  let vs := ps.map (·.1)
  let inx := flagIf (ps.any (·.2)) fInexact
  if vs.any (fun v => decide (v = .nan false)) then (a48Nan, inx, false)
  else
    match vs.filterMap prodExp with
    | [] => (a48Zero (vs.all (fun v => decide (v = .zero true))), inx, false)
    | e :: es =>
      let q := es.foldl (fun a b => if a < b then b else a) e - 90
      let (z, dropped) := windowSum q vs
      let (c, f) := toA48 none (dyVal z q)
      (c, f ||| inx ||| flagIf dropped fInexact, dropped)

/-- One running-sum addition S + G, nearest even or stochastic (R85, R86). -/
def sumStep (r : Run) (sr : Bool) (s g : Nat) : Nat × Run :=
  let x := valAdd (a48Dec s) (a48Dec g)
  let (u, r) := drawIf r (sr && valFinite x.1)
  let (c, f) := a48Of u x
  (c, { r with so := r.so ||| f, unit := r.unit ||| f })

/-- One group enters a running sum; a group with dropped bits counts in SOLE_DROP_CNT (R83). A group of fewer than 32 positions
has +0 in the others (R84). -/
def groupStep (r : Run) (sr : Bool) (s : Nat) (ps : List (Val × Bool)) : Nat × Run :=
  let full := if ps.length < 32 then ps ++ [(.zero false, false)] else ps
  let (g, f, dropped) := seamSum full
  let r := { r with so := r.so ||| f, unit := r.unit ||| f, drops := r.drops + b2n dropped }
  sumStep r sr s g

/-- The groups of one element of a pass, in ascending order along K (R85). -/
def elemPass (r : Run) (sr : Bool) : Nat → List (List (Val × Bool)) → Nat × Run
  | s, [] => (s, r)
  | s, g :: gs =>
    let (s, r) := groupStep r sr s g
    elemPass r sr s gs

/-- A value of a stationary operand: its position along the reduction of the walk that uses it, its value, and the tag of its tile. -/
structure Packed where
  at_ : Nat
  val : Val
  tag : Nat := 1

/-- Values that one output meets in one seam. -/
abbrev Group := List Packed

/-- One pass over a tile: the groups that each output of the tile takes in it, in order. -/
abbrev Pass := List (List Group)

/-- One row of A in a pass: every output's running sum. -/
def rowPass (r : Run) (sr : Bool) (a : List Val) : List (Nat × List Group) → List Nat × Run
  | [] => ([], r)
  | (s, gs) :: rest =>
    let (s, r) := elemPass r sr s (gs.map (fun g => g.map (fun y => peProduct (a.getD y.at_ (.zero false)) y.val)))
    let (ss, r) := rowPass r sr a rest
    (s :: ss, r)

/-- The rows of a pass; a skipped row keeps its sums (R157). -/
def rowsPass (r : Run) (sr : Bool) (pass : Pass) : List (List Nat × List Val × Bool) → List (List Nat) × Run
  | [] => ([], r)
  | (ss, a, skip) :: rest =>
    let (ss, r) := if skip then (ss, r) else rowPass r sr a (ss.zip pass)
    let (out, r) := rowsPass r sr pass rest
    (ss :: out, r)

/-- Passes of a tile one after another, each with the rows of A that it skips; each is one unit of work of f busy cycles for every row
that it takes (R76, R157, R265, R613). `rows` holds each row of A from the tile's first reduction index. -/
def tilePasses (sr : Bool) (f : Nat) (rows : List (List Val)) : List (Pass × List Bool) → Run → List (List Nat) → List (List Nat) × Run
  | [], r, sums => (sums, r)
  | (p, skips) :: rest, r, sums =>
    let n := (skips.filter (fun x => !x)).length * f
    let (sums, r) := rowsPass r sr p (sums.zip (rows.zip skips))
    tilePasses sr f rows rest (endUnit { r with busy := r.busy + n, uses := r.uses ++ [n] }) sums

/-- The passes of a dense operand of `n` columns over K tiles of 320 in ascending order (R76). -/
def densePasses (m : Nat) (cols : List (List Val)) (k : Nat) : List (Pass × List Bool) :=
  (List.range (ceilDiv k 320)).map (fun j =>
    (cols.map (fun c => chunks 32 321 ((((c.drop (320 * j)).take 320).zip (List.range 320)).map (fun x => { at_ := 320 * j + x.2, val := x.1 }))),
     List.replicate m false))

/-! ### The accumulator file (R95, R96) -/

/-- Rows and columns of a region in a mode. -/
def regionDims (paired : Bool) : Nat × Nat := if paired then (1024, 160) else (512, 320)

def regionOf (s : State) (k i : Nat) : AccRegion := (streamOf (coreP s k) i).region
def setRegion (s : State) (k i : Nat) (x : AccRegion) : State :=
  modCoreP s k (fun c => setStreamOf c i { streamOf c i with region := x })

/-- The rows of a region from a first row: m rows of n columns. -/
def regionRows (g : AccRegion) (paired : Bool) (row m n : Nat) : List (List Nat) :=
  (List.range m).map (fun a => (List.range n).map (fun b => (tget 0 ((row + a) * (regionDims paired).2 + b) g.entries).toNat))

/-- Write rows into a region; it takes the mode of the write and is no longer clear. The entries outside the written rows keep what
they hold at their place in the region, whatever the mode: the rules name no other value (DESIGN CHOICE, entry 44). -/
def putRows (g : AccRegion) (paired : Bool) (row : Nat) (rows : List (List Nat)) : AccRegion :=
  if rows.isEmpty then g
  else
  let e := (rows.zip (List.range rows.length)).foldl (fun t x =>
    tputs 0 ((row + x.2) * (regionDims paired).2) (x.1.map (BitVec.ofNat 48)) t) g.entries
  { entries := e, paired := paired, clear := false }

/-! ### Save records (R97 to R99, R107) -/

/-- The entries of a region in memory form. -/
def regionBytes (g : AccRegion) : List Byte := (tgets 0 163840 0 g.entries).flatMap (fun e => leBytes 8 e.toNat)

/-- The accumulator save record of a region (R98). -/
def saveRecord (i passes : Nat) (g : AccRegion) : List Byte :=
  let e := regionBytes g
  leBytes 2 1 ++ leBytes 1 i ++ leBytes 1 (b2n g.paired) ++ zeros 4 ++ leBytes 8 passes ++ leBytes 4 (crc32c e) ++ zeros 44 ++ e

/-- Read a save record back; none when its KIND or MODE is reserved or its CRC fails (R99). -/
def restoreRecord (b : List Byte) : Option AccRegion :=
  let e := slice b 64 1310720
  if at_ b 0 2 ≠ 1 ∨ 1 < at_ b 3 1 ∨ crc32c e ≠ at_ b 16 4 then none
  else
    let es : List (BitVec 48) := (List.range 163840).map (fun i => BitVec.ofNat 48 (a48Canon (at_ e (8 * i) 8)))
    some { entries := tputs 0 0 es [], paired := decide (at_ b 3 1 = 1), clear := false }

/-- An OP of SOLE_ACC_CMD of a physical core: while BUSY it is dropped and sets ERR (R107). -/
def accStart (s : State) (k i : Nat) (op : Option Bool) (addr : Nat) : State :=
  modCoreP s k (fun k =>
    if k.accBusy then { k with accErr := true }
    else match op with
      | none => setStreamOf { k with accStream := BitVec.ofNat 2 i } i { streamOf k i with region := {} }
      | some restore =>
        { k with accStream := BitVec.ofNat 2 i, accBusy := true, accOp := some (i, restore),
                 accAddr := BitVec.ofNat 64 (addr / 64 * 64) })

/-- The passes done of the product in progress on a stream, which stands at a pass boundary (R98). -/
def passesDone (s : State) (c i : Nat) : Nat :=
  match (pausedAt s c i).find? (fun w => decide (unitOfOp w.cmd.op = some .sole)) with
  | some w => w.cmd.passes
  | none => 0

/-- The bytes of a save record at an address: of the core's partition, or a device address of a core without a logical number. -/
def accRead (s : State) (lc : Option Nat) (a n : Nat) : List Byte :=
  match lc.bind (partOfCore s) with
  | some p => partRead s p a n
  | none => devRead s a n

def accWrite (s : State) (lc : Option Nat) (a : Nat) (bs : List Byte) : State :=
  match lc.bind (partOfCore s) with
  | some p => partWrite s p a bs
  | none => devWrite s a bs

/-- A save record whose CRC fails fires the die's tensor-CRC source and counts towards the core's trigger (R417, R418). -/
def badSave (s : State) (k : Nat) (b : List Byte) : State :=
  if crc32c (slice b 64 1310720) = at_ b 16 4 then s else countCrcTrigger (fireDie s (dieOfPhys k) 0x308) k

/-- The save or restore of a physical core ends: its memory is written or read, and DONE fires the Sole source (R97, R99, R107). The address
is the one that SOLE_ACC_SAVE_ADDR holds now (DESIGN CHOICE, entry 44). A product of the stream that the save held goes on (R97). -/
def accDone (s : State) (k : Nat) : State :=
  match (coreP s k).accOp with
  | none => s
  | some (i, restore) =>
    let a := (coreP s k).accAddr.toNat
    let lc := logicalOf s k
    let s :=
      if restore then
        let b := accRead s lc a 1310784
        match restoreRecord b with
        | some g => setRegion s k i g
        | none => badSave (modCoreP s k (fun x => { x with accErr := true })) k b
      else accWrite s lc a (saveRecord i (match lc with
        | some c => passesDone s c i
        | none => 0) (regionOf s k i))
    let s := fireCore (modCoreP s k (fun x => { x with accBusy := false, accOp := none, accDone := true })) k 2
    match lc with
    | some c => if (pausedAt s c i).isEmpty then s else owe s (.resume c .sole)
    | none => s

def execSoleAccSave (core : Fin 16) (stream : Fin 3) (addr : BitVec 48) (s : State) : Host.Outcome State Fault Refusal :=
  .next (if inService s core.val then accStart s (physOf s core.val) stream.val (some false) addr.toNat else regError s)
def execSoleAccRestore (core : Fin 16) (stream : Fin 3) (addr : BitVec 48) (s : State) : Host.Outcome State Fault Refusal :=
  .next (if inService s core.val then accStart s (physOf s core.val) stream.val (some true) addr.toNat else regError s)
def execSoleAccClear (core : Fin 16) (stream : Fin 3) (s : State) : Host.Outcome State Fault Refusal :=
  .next (if inService s core.val then accStart s (physOf s core.val) stream.val none 0 else regError s)
def execSoleAccDone (core : Fin 18) (s : State) : Host.Outcome State Fault Refusal := .next (accDone s core.val)

/-! ### Operands of a product (R77, R78) -/

/-- Formats that may be operands of the Sole (R78). -/
def soleElem (e : Elem) : Bool :=
  match e with
  | .l4 | .l8 | .l16 | .l16s => true
  | _ => false
/-- Two-byte operand formats. -/
def wideElem (e : Elem) : Bool := decide (elemBits e = 16)
/-- Cycles for one row of A (R77). -/
def rowCycles (a : Elem) : Nat := if wideElem a then 2 else 1

/-- Every element of a tensor as values, in the order of its seen indices, read through its tiles when compressed. -/
def loadVals (r : Run) (d : Desc) : List Val × Run :=
  let ixs := (allIdx (seenExt d)).map (seenIx d)
  let (src, r) := openSource r r.s d ixs
  if r.bad || r.stop then ([], r)
  else let (xs, r) := sourceEls r r.s src ixs; (xs.map (srcVal d.elem), r)

/-- The same as A48 codes converted in the load conversion unit under R57, with its flags. -/
def loadA48 (r : Run) (d : Desc) : List Nat × Run :=
  let (vs, r) := loadVals r d
  vs.foldl (fun (x : List Nat × Run) v => let y := toA48 none v; (x.1 ++ [y.1], raise x.2 true y.2)) ([], r)

/-- Cut a flat list into rows of n. -/
def rowsOf {α : Type} (n count : Nat) (l : List α) : List (List α) :=
  (List.range count).map (fun i => (l.drop (n * i)).take n)

/-- The transpose of `n`-element rows. -/
def columns {α : Type} (n : Nat) (rows : List (List α)) : List (List α) :=
  (List.range n).map (fun c => rows.filterMap (fun row => row[c]?))

/-! ### Stores of A48 results (R102, R134) -/

/-- Store elements of format `se`, given by seen index, into a dense tensor, block by block. -/
def storeDense (r : Run) (se : Elem) (d : Desc) (f : List Nat → Option SrcEl) : List (List (List Nat)) → (List Wr × List Wr) × Run
  | [] => (([], []), r)
  | b :: rest =>
    let have_ := b.filterMap (fun ix => (f (seenIx d ix)).map (fun v => (ix, v)))
    let ((ws, ss), r) := if have_.isEmpty then (([], []), r) else blockWrs r false se d (have_.map (·.1)) (have_.map (·.2))
    let ((ws', ss'), r) := storeDense r se d f rest
    ((ws ++ ws', ss ++ ss'), r)

/-- The writes that store elements into a dense destination. -/
def denseWrs (r : Run) (se : Elem) (d : Desc) (f : List Nat → Option SrcEl) : List Wr × Run :=
  let (blocks, r) := if d.alias_ || d.acc then shuffle r (rowBlocks d) else (rowBlocks d, r)
  let ((ws, ss), r) := storeDense r se d f blocks
  (ws ++ ss, r)

/-- Store into a compressed tensor by a rewrite of whole tiles with FIT = STRICT (R134): the failing status, if any. The first tile that
fails ends the store: the tiles before it are written, and none after it is looked at (DESIGN CHOICE, entry 44: the rule does not say
which of two failures counts, nor whether later tiles are written). -/
def storeTiles (r : Run) (se : Elem) (rec_ : SRec) (d : Desc) (f : List Nat → Option SrcEl) : List Nat → Status × Run
  | [] => (.ok, r)
  | i :: is =>
    let ixs := (List.range (32 * tileW d.elem)).map (tileIndex d i)
    let els := ixs.map (fun o => o.bind f)
    if els.all (·.isNone) then storeTiles r se rec_ d f is
    else
      let (t, r) := convTile r rec_ d se els false
      if !t.excess.isEmpty then (.groupOverfull, r)
      else
        match rewriteTile r rec_ d.elem i t with
        | (true, r) => storeTiles r se rec_ d f is
        | (false, r) => (.noResource, r)

/-- Whether a list is all true or all false. -/
def uniform (l : List Bool) : Bool := l.all (fun b => b) || l.all (fun b => !b)

/-- Whether a store that covers these seen indices covers every tile of a compressed destination (R134), or every block of a scaled
format without SCALE_GIVEN (R50), whole or not at all. -/
def coversWhole (d : Desc) (cov : List Nat → Bool) : Bool :=
  if isDense d then
    !elemScaled d.elem || d.given || (rowBlocks d).all (fun b => uniform (b.map (fun ix => cov (seenIx d ix))))
  else (List.range (tileCount d.elem d.ext)).all (fun i => uniform (((List.range (32 * tileW d.elem)).filterMap (tileIndex d i)).map cov))

/-- Whether the blocks of a destination meet the tiles of a product (R102), so that each tile's results can be stored as it ends: its
results wait for the command's end otherwise (DESIGN CHOICE, entry 44). -/
def storesByTile (d : Desc) : Bool := isDense d && (!elemScaled d.elem || d.given || decide (dim d.lo 0 % 32 = 0))

/-- Store elements into a destination: the status, the writes that are still to make, and the run. -/
def storeInto (r : Run) (se : Elem) (d : Desc) (f : List Nat → Option SrcEl) : Status × List Wr × Run :=
  if isDense d then let x := denseWrs r se d f; (.ok, x.1, x.2)
  else let x := storeTiles r se (loadRec r.s r.p d) d f (List.range (tileCount d.elem d.ext)); (x.1, [], x.2)

end Sys2Proof.Machine
end

