-- ==== Sys2Proof/Machine/Reduce.lean ====
section
/-! DEFINITION. The reduction commands and the packets and timer of the reduction unit (R322 to R340). -/
namespace Sys2Proof.Machine

/-! ### REDUCE_SETUP (R322) -/

/-- The entries of a plan header, read from the partition. -/
def planEntries (s : State) (p : Nat) (hd : List Byte) : List (List Byte) :=
  let n := at_ hd 12 2
  let a := at_ hd 16 8
  if regionOk s p a (64 * n) 64 false then (List.range n).map (fun i => partRead s p (a + 64 * i) 64) else []

/-- Whether a parameter wire format suits the gradient wire format (R346). -/
def pwireOk (wire pw : Nat) : Bool :=
  match elemOfCode pw with
  | none => decide (wire = 0x08) && decide (pw = 0)
  | some e =>
    if elemInt e then false
    else if wire = 0x08 then true
    else if wire = 0x12 then decide (e = .fp32) || decide (e = .bf16) || decide (e = .e4m3) || decide (e = .e5m2)
    else decide (e = .bf16)

/-- SLOTS of the REDUCTION entry of a capability list, from the entry at an offset on by NEXT; 0 without one (R510, R511). -/
def capSlots (caps : List Byte) : Nat → Nat → Nat
  | 0, _ => 0
  | fuel + 1, o =>
    let next := at_ caps (o + 6) 2
    if at_ caps o 2 = 5 then at_ caps (o + 8) 2 else if next = 0 then 0 else capSlots caps fuel next

/-- Whether a capability list that is known lacks reduction slots (R342). -/
def lacksSlots (s : State) (addr : Nat) : Bool :=
  match s.fab.known.find? (fun k => decide (k.addr.toNat = addr)) with
  | some k => !k.caps.isEmpty && decide (capSlots k.caps k.caps.length 0 = 0)
  | none => false

/-- The field checks of a bucket entry (R321, R322, R342). -/
def entryOk (s : State) (p mode : Nat) (e : List Byte) : Bool :=
  let fl := at_ e 2 1
  let owner := bitOf fl 0
  let cores := at_ e 16 2
  let el := at_ e 4 4
  let done := at_ e 20 4
  decide (fl < 8) && decide (at_ e 3 1 ≤ 64) && (decide (el = 0) || (decide (131072 ≤ el) && decide (el ≤ 16777216))) &&
  decide (at_ e 10 2 ≤ 1024) &&
  (if owner then decide (1 ≤ at_ e 14 2) && decide (at_ e 14 2 ≤ 1024) && decide (at_ e 40 8 ≠ 0) else decide (at_ e 14 2 = 0)) &&
  (bitsSet cores 16).all (fun c => holdsCore s p c && inService s c) &&
  (decide (mode ≠ 0) || decide (cores = 0) || (decide (at_ e 18 1 < 16) && bitOf cores (at_ e 18 1))) &&
  decide (at_ e 19 1 = 0) && allZero (slice e 50 14) && decide (1 ≤ at_ e 48 2) &&
  (!owner || decide (done = 0xFFFFFFFF) || (decide (done < 16384) && ownsEyelet s p done)) &&
  !(!owner && decide (fld fl 1 2 ≠ 0) && lacksSlots s (at_ e 8 2))

/-- The weights of an owner's entry. -/
def entryWeights (s : State) (p : Nat) (e : List Byte) : List Nat :=
  let n := at_ e 14 2
  if regionOk s p (at_ e 40 8) (2 * n) 1 false then
    let b := partRead s p (at_ e 40 8) (2 * n)
    (List.range n).map (fun i => at_ b (2 * i) 2)
  else List.replicate n 1

/-- The devices that a job's distribution records name, each with the version that it has given. -/
def jobPeers (s : State) (j : Job) : List (Nat × Option Nat) :=
  let devs := (j.gathers.flatMap (fun g => (parseDist g.dist g.devs).devs)).foldl (fun l a => if l.contains a then l else a :: l) []
  devs.map (fun a => (a, peerVersion s a))

/-- Whether WIRE lies within the job's negotiated formats (R322, R346): no newer than the generations that the device knows of allow, and exactly
theirs when it knows every contributing device (DEDUCED, entry 48: other devices, which no record here names, may be older). -/
def wireOk (s : State) (j : Job) (wire devs : Nat) : Bool :=
  let l := jobPeers s j
  decide (wireVersion wire ≤ j.version) &&
  (!(decide (devs ≤ l.length) && l.all (fun x => x.2.isSome)) || decide (wireVersion wire = l.foldl (fun a x => min a (x.2.getD 3)) 3))

/-- The BAD_PARAM checks of INSTALL. -/
def planOk (s : State) (p : Nat) (hd : List Byte) (es : List (List Byte)) : Bool :=
  let tag := match (part s p).job with
    | some j => some (jTag j)
    | none => none
  let mode := at_ hd 4 1
  let wire := at_ hd 5 1
  let devs := at_ hd 8 4
  let n := at_ hd 12 2
  (match (part s p).job with
   | some j => wireOk s j wire devs
   | none => false) &&
  decide (tag = some (at_ hd 0 4)) && decide (mode < 2) && decide (mode = if 1024 < devs then 1 else 0) &&
  (decide (wire = 0x08) || decide (wire = 0x12) || decide (wire = 0x10)) && pwireOk wire (at_ hd 6 1) &&
  decide (at_ hd 7 1 = 0) && decide (1 ≤ devs) && decide (devs ≤ 65536) && decide (1 ≤ n) && decide (n ≤ 4096) &&
  allZero (slice hd 56 8) && (decide (mode = 0) || decide (at_ hd 40 8 = 0)) &&
  es.all (entryOk s p mode) && decide ((es.map (fun e => at_ e 0 2)).Nodup) &&
  es.all (fun e => !bitOf (at_ e 2 1) 0 || (decide (at_ hd 24 8 ≠ 0) && (entryWeights s p e).all (fun w => decide (w ≠ 0))))

/-- Whether the regions of a list are disjoint. -/
def disjoint : List (Nat × Nat) → Bool
  | [] => true
  | x :: xs => xs.all (fun y => !meets x.1 x.2 y.1 y.2) && disjoint xs

/-- The BAD_DESCRIPTOR checks of INSTALL: the regions and what lies in them (R322, R405, R663). -/
def planRegionsOk (s : State) (p : Nat) (hd : List Byte) (es : List (List Byte)) : Bool :=
  let buf := (at_ hd 24 8, at_ hd 32 8)
  let fold := (at_ hd 40 8, at_ hd 48 8)
  let size := fun (e : List Byte) => 8 * entryElems e
  let wins := (es.filter (fun e => bitOf (at_ e 2 1) 0)).map (fun e => (at_ e 32 8, size e))
  let parts := if at_ hd 4 1 = 0 then (es.filter (fun e => decide (at_ e 16 2 ≠ 0))).map (fun e => (at_ e 24 8, size e)) else []
  let regs := (if buf.1 = 0 then [] else [buf]) ++ (if at_ hd 4 1 = 0 && decide (0 < fold.2) then [fold] else [])
  decide (es.length = at_ hd 12 2) && disjoint regs && regs.all (fun r => decide (0 < r.2) && spanHbm s p r.1 r.2) &&
  (decide (buf.1 = 0) || regionOk s p buf.1 buf.2 (2 ^ 21) true) && (decide (fold.2 = 0) || regionOk s p fold.1 fold.2 4096 true) &&
  wins.all (fun w => decide (w.1 + w.2 ≤ buf.2)) && parts.all (fun w => decide (w.1 + w.2 ≤ fold.2)) && disjoint wins && disjoint parts &&
  es.all (fun e => !bitOf (at_ e 2 1) 0 || regionOk s p (at_ e 40 8) (2 * at_ e 14 2) 1 false)

/-- Store slots that a plan reserves (R323). -/
def planSlots (x : Plan) : Nat := (x.buckets.map (fun e => match e.2 with
  | some b => beWindow b
  | none => 0)).sum

/-- Store slots reserved by every installed plan (R349). -/
def reservedSlots (s : State) : Nat := ((List.range 16).map (fun p => match planOf s p with
  | some x => planSlots x
  | none => 0)).sum

/-- Slots that hold a segment in progress or awaiting its window (R349). -/
def busySlots (s : State) : Nat := ((List.range 16).map (fun p => match planOf s p with
  | some x => (x.buckets.map (fun e => match e.2 with
    | some b => (match b.red with
      | some r => r.segs.length
      | none => 0)
    | none => 0)).sum
  | none => 0)).sum

/-- Whether a plan has a reduction or a partial open on this device. -/
def planOpen (x : Plan) : Bool := x.buckets.any (fun e => match e.2 with
  | some b => b.part.isSome || !b.held.isEmpty || (match b.red with
    | some r => r.isOpen
    | none => false)
  | none => false)

/-- The plan that INSTALL puts in place. -/
def newPlan (s : State) (p : Nat) (hd : List Byte) (es : List (List Byte)) : Plan :=
  let weights := fun (e : List Byte) => if bitOf (at_ e 2 1) 0 then entryWeights s p e else []
  { header := hd, buckets := es.foldl (fun t e => tins (at_ e 0 2) (some { entry := e, weights := weights e }) t) [] }

/-- Whether any partition of this device holds a plan for a job (R322). -/
def jobPlanned (s : State) (tag : Nat) : Bool := (List.range 16).any (fun p => match planOf s p with
  | some x => decide (at_ x.header 0 4 = tag)
  | none => false)

/-- Whether poison meets what INSTALL reads: the header, the entries or their weights (R416). -/
def planPoisoned (s : State) (p a : Nat) (hd : List Byte) (es : List (List Byte)) : Bool :=
  partPoisoned s p a 64 || (!es.isEmpty && partPoisoned s p (at_ hd 16 8) (64 * es.length)) ||
  es.any (fun e => bitOf (at_ e 2 1) 0 && regionOk s p (at_ e 40 8) (2 * at_ e 14 2) 1 false && partPoisoned s p (at_ e 40 8) (2 * at_ e 14 2))

/-- Put a plan in place: its WIRE tells the generation of the job's oldest device (R346, R451). A plan of an ended job whose reductions are still
open is abandoned for it (DESIGN CHOICE, entry 50: a unit finds its reduction by partition and bucket, so that the two cannot stand together). -/
def installPlan (s : State) (p : Nat) (x : Plan) : State :=
  let s := if (planOf s p).isSome then abandonPlan s p else s
  modPart (setPlan s p (some x)) p (fun y => { y with job := y.job.map (fun j => { j with version := wireVersion (plWire x) }) })

def bodyReduceSetup (q : ReduceSetupP) (s : State) (c : Cmd) : Res :=
  let p := c.part.getD 16
  let a := q.plan.toNat
  let hd := partRead s p a 64
  let mine := match planOf s p with
    | some x => decide (at_ x.header 0 4 = at_ hd 0 4)
    | none => false
  checked s [(decide (q.rsvdA ≠ 0) || decide (2 < q.op.toNat) || !regionOk s p a 64 64 false, .badParam, 0)] fun _ =>
    if q.op = 0 then
      let es := planEntries s p hd
      let slots := (es.map entryWindow).sum
      checked s [(planPoisoned s p a hd es, .integrityFail, 0), (jobPlanned s (at_ hd 0 4) || draining s, .contextBusy, 0),
          (!planOk s p hd es, .badParam, 0), (!planRegionsOk s p hd es, .badDescriptor, 0),
          (decide (768 < reservedSlots (setPlan s p none) + slots), .noResource, 0)] fun _ =>
        { s := installPlan s p (newPlan s p hd es) }
    else
      checked s [(!mine, .badParam, 0),
          (decide (q.op = 1) && (match planOf s p with
            | some x => planOpen x
            | none => false), .contextBusy, 0)] fun _ =>
        { s := setPlan (if q.op = 2 then abandonPlan s p else s) p none }

def execReduceSetup (h : Hdr) (p : ReduceSetupP) (s : State) : Host.Outcome State Fault Refusal :=
  command (.reduceSetup h p) { op := 0x0500, n := 16, runs := .f } h (packetBytes 0x0500 h (bytesReduceSetup p)) (bodyReduceSetup p) s

/-! ### REDUCE_TARGET and REDUCE_CONTRIB (R324, R327) -/

/-- The bucket that a command names: of the partition's plan for that job. -/
def namedBucket (s : State) (p job b : Nat) : Option Bucket :=
  match planOf s p with
  | some x => if at_ x.header 0 4 = job then bucketOf s p b else none
  | none => none

/-- Whether a core contributes to the bucket that a command names. -/
def contributes (s : State) (p job b core : Nat) : Bool :=
  match namedBucket s p job b with
  | some x => bitOf (beCores x) core
  | none => false

/-- The plan mode of a partition. -/
def modeOf (s : State) (p : Nat) : Nat :=
  match planOf s p with
  | some x => plMode x
  | none => 0

/-- Whether 128 KiB at an address lie in a core's Insole (R324). -/
def inInsole (a core : Nat) : Bool :=
  decide (addrKind a = .insole core) && decide (addrKind (a + 131071) = .insole core) && decide (a % 64 = 0)

def bodyReduceTarget (q : ReduceTargetP) (s : State) (c : Cmd) : Res :=
  let p := c.part.getD 16
  let (core, i) := (streamOfHdr s c.h).getD (0, 0)
  let stageBad := if modeOf s p = 1 then !inInsole q.stageAddr.toNat core else decide (q.stageAddr ≠ 0)
  let t : RedTarget := { job := q.job.toNat, bucket := q.bucket.toNat, baseElem := q.baseElem.toNat, rowPitch := q.rowPitch.toNat,
                         stageAddr := q.stageAddr.toNat }
  checked s [(decide (q.rsvdA ≠ 0) || !contributes s p q.job.toNat q.bucket.toNat core || stageBad, .badParam, 0)] fun _ =>
    { s := modStream s core i (fun x => { x with target := some t }) }

def execReduceTarget (h : Hdr) (p : ReduceTargetP) (s : State) : Host.Outcome State Fault Refusal :=
  command (.reduceTarget h p) { op := 0x0501, n := 24, runs := .s } h (packetBytes 0x0501 h (bytesReduceTarget p)) (bodyReduceTarget p) s

/-- CLOSE of the issuing core at the end of a run: the command waits until the unit has accepted every segment (R328, R329). -/
def closeRes (r : Res) (c : Cmd) (p b core : Nat) : Res :=
  let s := settle (closeCore r.s p b core) p b
  let done := closeDone s p b core
  let r := { r with s := closeEnd s p b }
  if done then r else { r with wait := some (.redClose b core), cmd := some { c with st := r.st } }

/-- Where the staging buffers of a stream lie: its target's, or none. -/
def stageOf (s : State) (core i : Nat) : Nat :=
  match (stream s core i).target with
  | some t => t.stageAddr
  | none => 0x0D0000000000 + 0x1000000 * core

/-- A REDUCE_CONTRIB that has passed its checks: the elements of its source, if any, are delivered to the bucket from BASE_ELEM on,
and CLOSE ends the core's contribution (R327, R328). -/
def contribRun (s : State) (c : Cmd) (core i b base : Nat) (close : Bool) (d : Option Desc) : Res :=
  let p := c.part.getD 16
  let r := newRun s c [1, 2]
  let r := { r with s := openPartial r.s p b }
  let (vals, r) := match d with
    | some d => loadA48 r d
    | none => ([], r)
  let (r, residue) := runResidues r
  if r.bad || r.stop || residue.isSome then finishRun r residue .ok 0 []
  else
    let (late, r) := deliverVals r b core (stageOf s core i) ((List.range vals.length).map (fun k => (base + k, vals.getD k 0)))
    let res := finishRun r none (if late then .aliasWrite else .ok) 0 []
    if close then closeRes res c p b core else res

def bodyReduceContrib (q : ReduceContribP) (s : State) (c : Cmd) : Res :=
  let p := c.part.getD 16
  let b := q.bucket.toNat
  let (core, i) := (streamOfHdr s c.h).getD (0, 0)
  let ctl := q.ctl.toNat
  let hasSrc := bitOf ctl 1
  let close := bitOf ctl 0
  checked s [(decide (3 < ctl) || decide (ctl = 0) || decide (q.rsvdA ≠ 0) || decide (q.rsvdB ≠ 0) ||
        (!hasSrc && decide (q.srcDesc ≠ 0)) || !contributes s p q.job.toNat b core, .badParam, 0)] fun _ =>
    withDescs s c (if hasSrc then [(q.srcDesc.toNat, false)] else []) fun ds =>
      checked s [(ds.any (fun d => !isDense d || elemInt d.elem), .badDescriptor, 0),
          ((match bucketOf s p b with
            | some x => x.lost
            | none => false), .missingContribution, 0)] fun _ =>
        if (match bucketOf s p b with
            | some x => mustHold s p x core
            | none => false) then { s := s, wait := some (.contrib b) }
        else contribRun s c core i b q.baseElem.toNat close ds.head?

def execReduceContrib (h : Hdr) (p : ReduceContribP) (s : State) : Host.Outcome State Fault Refusal :=
  command (.reduceContrib h p) { op := 0x0502, n := 24, runs := .s } h (packetBytes 0x0502 h (bytesReduceContrib p))
    (bodyReduceContrib p) s

/-! ### REDUCE_WAIT, REDUCE_RELEASE, REDUCE_EXCLUDE (R335, R336, R340) -/

/-- Whether the named bucket is owned here. -/
def ownsBucket (s : State) (p job b : Nat) : Bool :=
  match namedBucket s p job b with
  | some x => beOwner x
  | none => false

/-- How REDUCE_WAIT for a tag stands at once: complete, reported missing, which it stays while the reduction is open, or waiting (R335). A tag
that the unit has neither completed nor reported is waited for. -/
def waitNow (x : Bucket) (tag : BitVec 32) : Option Status :=
  match x.red with
  | none => if x.lost then some .missingContribution else none
  | some r =>
    if x.lost && r.tag = tag then some .missingContribution
    else if r.tag = tag then (if !r.isOpen then some .ok else if r.reported then some .missingContribution else none)
    else if (pastOf x tag).isSome then some .ok
    else if x.lost then some .missingContribution else none

def bodyReduceWait (q : ReduceWaitP) (s : State) (c : Cmd) : Res :=
  let p := c.part.getD 16
  let b := q.bucket.toNat
  let tag := BitVec.ofNat 32 q.step.toNat
  checked s [(decide (q.rsvdA ≠ 0) || !ownsBucket s p q.job.toNat b, .badParam, 0)] fun _ =>
    match bucketOf s p b with
    | none => { s := s, st := .badParam }
    | some x =>
      match waitNow x tag with
      | some st => { s := s, st := st, record := waitRecord x tag }
      | none => { s := s, wait := some (.reduce b tag.toNat) }

def execReduceWait (h : Hdr) (p : ReduceWaitP) (s : State) : Host.Outcome State Fault Refusal :=
  command (.reduceWait h p) { op := 0x0503, n := 16, runs := .sf, rec_ := 144 } h (packetBytes 0x0503 h (bytesReduceWait p))
    (bodyReduceWait p) s

def bodyReduceRelease (q : ReduceReleaseP) (s : State) (c : Cmd) : Res :=
  let p := c.part.getD 16
  let b := q.bucket.toNat
  checked s [(decide (q.rsvdA ≠ 0) || !ownsBucket s p q.job.toNat b, .badParam, 0)] fun _ =>
    match bucketOf s p b with
    | some x =>
      (match x.win with
       | .complete _ => { s := settle (setBucket s p b { x with win := .empty }) p b }
       | _ => { s := s })
    | none => { s := s }

def execReduceRelease (h : Hdr) (p : ReduceReleaseP) (s : State) : Host.Outcome State Fault Refusal :=
  command (.reduceRelease h p) { op := 0x0504, n := 8, runs := .sf } h (packetBytes 0x0504 h (bytesReduceRelease p))
    (bodyReduceRelease p) s

/-- a / b in FP32, rounded to nearest even (R340). -/
def ratioFp32 (a b : Nat) : Nat :=
  match linFmt .fp32 with
  | some f =>
    let q := a * 2 ^ 64 / b
    (linRound f false none false (2 * q + b2n (decide (q * b ≠ a * 2 ^ 64))) (-65) false).1
  | none => 0

/-- The record of REDUCE_EXCLUDE. -/
def excludeRecord (x : Bucket) (miss : List Nat) : List Byte :=
  let total := x.weights.sum
  let out := (miss.map (fun k => x.weights.getD k 0)).sum
  leBytes 2 miss.length ++ zeros 2 ++ leBytes 4 total ++ leBytes 4 out ++ leBytes 4 (ratioFp32 total (total - out))

def bodyReduceExclude (q : ReduceExcludeP) (s : State) (c : Cmd) : Res :=
  let p := c.part.getD 16
  let b := q.bucket.toNat
  let tag := BitVec.ofNat 32 q.step.toNat
  checked s [(decide (q.rsvdA ≠ 0) || !ownsBucket s p q.job.toNat b, .badParam, 0)] fun _ =>
    match bucketOf s p b with
    | none => { s := s, st := .badParam }
    | some x =>
      match x.red with
      | none => { s := s, st := .badParam }
      | some r =>
        if r.tag ≠ tag then { s := s, st := .badParam }
        else if !r.isOpen || r.missing.isEmpty then { s := s, record := excludeRecord x [] }
        else if beSlots x ≤ r.missing.length + r.excluded.length then { s := s, st := .missingContribution }
        else
          let r' := { r with missing := [], excluded := r.excluded ++ r.missing }
          { s := settle (setBucket s p b { x with red := some r' }) p b, record := excludeRecord x r.missing }

def execReduceExclude (h : Hdr) (p : ReduceExcludeP) (s : State) : Host.Outcome State Fault Refusal :=
  command (.reduceExclude h p) { op := 0x0505, n := 16, runs := .f, rec_ := 16 } h (packetBytes 0x0505 h (bytesReduceExclude p))
    (bodyReduceExclude p) s

/-! ### The root's timer and arriving packets (R330, R339) -/

/-- Slots of which no frame has arrived, whether the unit has admitted it or not (R339). -/
def silentSlots (mode : Nat) (x : Bucket) (r : Reduction) : List Nat :=
  let own := ownInputs mode x
  (List.range (beSlots x)).filter (fun k =>
    !r.excluded.contains k && !x.held.any (fun f => decide (f.tag = r.tag) && decide (f.slot = k)) &&
    (if k = 0 ∧ own ≠ [] ∧ !backedOwn x then !(decide (0 < r.next) || r.segs.any (fun g => own.any (fun i => decide (tget 0 i g.2.got ≠ 0))))
     else (tget none k r.slots).isNone))

/-- The root's timer expires (R339). -/
def rootTimeout (s : State) (p b : Nat) : State :=
  match planOf s p, bucketOf s p b with
  | some pl, some x =>
    (match x.red with
     | some r =>
       if !r.timer || !r.isOpen then s
       else
         let miss := silentSlots (plMode pl) x r
         let r' := { r with timer := false, missing := miss, reported := !miss.isEmpty }
         let x' := { x with red := some r' }
         let s := setBucket s p b x'
         if r'.missing.isEmpty then s else endRedWaits s p b r.tag .missingContribution (waitRecord x' r.tag)
     | none => s)
  | _, _ => s

def execReductionRootTimeout (p : Fin 16) (b : BitVec 16) (s : State) : Host.Outcome State Fault Refusal :=
  .next (rootTimeout s p.val b.toNat)

/-- The frame that a GRAD_SEG packet carries. -/
def gradFrame (x : Bucket) (port : Option (Fin 32)) (b : List Byte) : RedFrame :=
  let a := pkArg b
  let slot := at_ a 6 2
  let sg := at_ a 8 2
  let zero := bitOf (at_ a 11 1) 7
  { input := devInput (if beOwner x then slot else 0) (pkSrc b), slot := if beOwner x then slot else 0,
    tag := BitVec.ofNat 32 (at_ a 2 4), seg := fld sg 0 11, k := some (fld sg 11 5),
    vals := if zero then [] else wireVals (at_ a 10 1) (pkPayload b), flags := BitVec.ofNat 4 (fld (at_ a 11 1) 0 4), zero := zero,
    port := port, blocks := frameBlocks b }

/-- A GRAD_SEG packet reaches the unit that adds it; without a matching reduction it is dropped (R436). -/
def gradArrives (s : State) (port : Option (Fin 32)) (b : List Byte) : State :=
  let p := pkDpart b
  let k := at_ (pkArg b) 0 2
  if !pkGood b then drainPort (countEcrc s) port 1 (frameBlocks b)
  else match bucketOf s p k with
    | some x => if x.lost then drainPort (countDrop s) port 1 (frameBlocks b) else settle (offer s p k (gradFrame x port b)) p k
    | none => drainPort (countDrop s) port 1 (frameBlocks b)

def execGradSeg (port : Option (Fin 32)) (b : List Byte) (s : State) : Host.Outcome State Fault Refusal :=
  .next (gradArrives s port b)

end Sys2Proof.Machine
end

