-- ==== Sys2Proof/Machine/Gemm.lean ====
section
/-! DEFINITION. GEMM: its checks, tiles, initial values and the three ways out of the accumulators (R74 to R79, R100 to R103, R324,
R325), and the passes of a product as resume units (R94, R278), which the sparse products share. -/
namespace Sys2Proof.Machine

/-! ### Delivery to the Welt (R324, R325) -/

/-- What a command with ACC_OUT = 0b10 meets before it starts: no usable target, a bucket whose parent is lost, a closed bucket. -/
inductive Ready where
  | go (t : Option RedTarget)
  | no (st : Status)
  | hold (b : Nat)
deriving DecidableEq, Repr

/-- R324 and R328 for a command of core c, stream i. -/
def deliverReady (s : State) (p c i : Nat) : Ready :=
  match (stream s c i).target with
  | none => .no .badParam
  | some t =>
    if !contributes s p t.job t.bucket c then .no .badParam
    else match bucketOf s p t.bucket with
      | none => .no .badParam
      | some x => if x.lost then .no .missingContribution else if mustHold s p x c then .hold t.bucket else .go (some t)

/-- The bucket elements of a tile's rows (R325). -/
def tileElems (t : RedTarget) (rows : List (List Nat)) : List (Nat × Nat) :=
  (rows.zip (List.range rows.length)).flatMap (fun x =>
    (x.1.zip (List.range x.1.length)).map (fun y => (t.baseElem + x.2 * t.rowPitch + y.2, y.1)))

/-! ### Tiles -/

/-- What the tiles of a product leave: the passes gone by, the stream's region, results by place in C, and deliveries in order. -/
structure TileOuts where
  n      : Nat := 0
  region : AccRegion
  stores : Tab Nat := []
  out    : List (Nat × Nat) := []

/-- ACC_OUT and ACC_INIT of a CTL field (R100). -/
def accOut (ctl : Nat) : Nat := fld ctl 2 2
def accInit (ctl : Nat) : Nat := fld ctl 0 2
/-- Whether a product works in one tile (R102). -/
def oneTile (ctl : Nat) : Bool := decide (accOut ctl = 0) || decide (accInit ctl = 1)

/-- The geometry of a product: rows, reduction positions, columns, mode, cycles per row, first region row. -/
structure Geo where
  m : Nat
  k : Nat
  n : Nat
  paired : Bool
  f : Nat
  row : Nat
  ctl : Nat
  target : Option RedTarget := none
deriving DecidableEq, Repr

/-- The (n tile, m tile) starts with their sizes, in the order of R102. -/
def tileStarts (g : Geo) : List (Nat × Nat × Nat × Nat) :=
  if oneTile g.ctl then [(0, g.n, 0, g.m)]
  else
    let (rows, cols) := regionDims g.paired
    (List.range (ceilDiv g.n cols)).flatMap (fun x => (List.range (ceilDiv g.m rows)).map (fun y =>
      (cols * x, min cols (g.n - cols * x), rows * y, min rows (g.m - rows * y))))

/-- One tile of a product: its batch and place, its rows of A, its passes in order with the rows of A that each skips, and C's values
under ACC_INIT = 0b10. -/
structure TileJob where
  b      : Nat
  n0     : Nat
  nn     : Nat
  m0     : Nat
  mm     : Nat
  rows   : List (List Val)
  passes : List (Pass × List Bool)
  init   : List (List Nat) := []

/-- The first region row of a product's tiles. -/
def tileRow (g : Geo) : Nat := if oneTile g.ctl then g.row else 0

/-- The initial sums of a tile: +0, the region's rows (+0 where it is clear), or C converted to A48 (R96, R102). -/
def tileInit (g : Geo) (o : TileOuts) (j : TileJob) : List (List Nat) :=
  if accInit g.ctl = 1 then
    (if o.region.clear then List.replicate j.mm (List.replicate j.nn 0) else regionRows o.region g.paired g.row j.mm j.nn)
  else if accInit g.ctl = 2 then j.init
  else List.replicate j.mm (List.replicate j.nn 0)

/-- What a product makes of a tile's sums: the rows that the region takes while passes are left, and the tile's final sums taken out. -/
structure Outlet where
  keep : TileOuts → TileJob → List (List Nat) → List (List Nat)
  out  : TileOuts → TileJob → List (List Nat) → TileOuts

/-- Where a run of passes ends: the number of passes done then, and the rows that a failing pass has committed (R94). -/
structure Cut where
  stop : Nat
  tail : Option Nat := none

/-- Run the passes of a tile that lie in this segment of its command, which has done `from_` passes; `o.n` passes lie before the
tile. -/
def runTile (g : Geo) (ol : Outlet) (from_ : Nat) (cut : Cut) (x : TileOuts × Run) (j : TileJob) : TileOuts × Run :=
  let (o, r) := x
  let k := j.passes.length
  let lo := o.n
  let next := { o with n := lo + k }
  let here := cut.tail.isSome && decide (lo ≤ cut.stop) && decide (cut.stop < lo + k)
  if decide (0 < from_) && decide (lo + k ≤ from_) then (next, r)
  else if (decide (cut.stop ≤ lo) && decide (0 < k) && !here) || decide (cut.stop < lo) then (next, r)
  else
    let start := from_ - lo
    let sr := bitOf g.ctl 4
    let sums := if start = 0 then tileInit g o j else regionRows o.region g.paired (tileRow g) j.mm j.nn
    let (sums, r) := tilePasses sr g.f j.rows ((j.passes.take (cut.stop - lo)).drop start) r sums
    if lo + k ≤ cut.stop then ({ ol.out o j sums with n := lo + k }, r)
    else
      let (sums, r) := match cut.tail, j.passes[cut.stop - lo]? with
        | some t, some p =>
          (let y := rowsPass r sr p.1 ((sums.zip (j.rows.zip p.2)).take t)
           (y.1 ++ (if cut.stop = lo then [] else sums.drop t), y.2))
        | _, _ => (sums, r)
      ({ next with region := putRows o.region g.paired (tileRow g) (ol.keep o j sums) }, r)

/-- Where this segment of a product of `total` passes over tiles of at most `rows` rows ends. A run that fails has done an unspecified
number of its passes and of the rows of the next one (R94); one that a second mismatch holds stops before an unspecified pass. -/
def passCut (r : Run) (fails whole : Bool) (total rows : Nat) : Cut × Run :=
  let (stop, r) := unitStop r fails whole total
  if fails then
    let (w, r) := rChoice r
    ({ stop := stop - 1, tail := some (w % (rows + 1)) }, r)
  else ({ stop := stop }, r)

/-- The place in C of a row and column of a tile. -/
def placeOf (g : Geo) (j : TileJob) (a b : Nat) : Nat := g.m * g.n * j.b + (j.m0 + a) * g.n + j.n0 + b

/-- Every sum of a tile with its row and column in the tile. -/
def cellsOf {α : Type} (rows : List (List α)) : List (Nat × Nat × α) :=
  (rows.zip (List.range rows.length)).flatMap (fun x => (x.1.zip (List.range x.1.length)).map (fun y => (x.2, y.2, y.1)))

/-- The outlet of a dense product: final sums go into the region, and into C's results or the deliveries. -/
def gemmOutlet (g : Geo) : Outlet where
  keep := fun _ _ sums => sums
  out := fun o j sums =>
    let o := { o with region := putRows o.region g.paired (tileRow g) sums }
    if accOut g.ctl = 1 then { o with stores := (cellsOf sums).foldl (fun t x => tins (placeOf g j x.1 x.2.1) x.2.2 t) o.stores }
    else match g.target with
      | some t => if accOut g.ctl = 2 then { o with out := o.out ++ tileElems t sums } else o
      | none => o

/-- How a product's deliveries reach their target: to the Welt (R324, R325), to a Fen table (R158), or nowhere. -/
abbrev Deliver := Run → List (Nat × Nat) → Status × Run

/-- Deliveries to the Welt, which take one of its main cycles for each row, ahead of arbitration (R265). -/
def toWelt (core : Nat) (g : Geo) (r : Run) (out : List (Nat × Nat)) : Status × Run :=
  match g.target with
  | none => (.ok, r)
  | some t =>
    let r := { r with s := modCoreP r.s r.k (fun k =>
      setArb k .welt (setDef k.weltArb r.i (defOf k.weltArb r.i - ((ceilDiv out.length (max 1 g.n) : Nat) : Int)))) }
    let (late, r) := deliverVals r t.bucket core t.stageAddr out
    (if late then .aliasWrite else .ok, r)

/-- A segment of a product over its tiles: the passes run, the region keeps the last sums, and the results of the tiles done go to C or
to their target (R94, R102, R103, R278). `cov` says which elements of C the whole product writes. -/
def productRun (r : Run) (g : Geo) (ol : Outlet) (jobs : List TileJob) (cd : Option Desc) (cov : List Nat → Bool) (deliver : Deliver) :
    Res :=
  let (r, residue) := runResidues r
  let fails := r.stop || residue.isSome
  let total := (jobs.map (fun j => j.passes.length)).sum
  let cd := if accOut g.ctl = 1 then cd else none
  let whole := match cd with
    | some d => !storesByTile d
    | none => false
  let from_ := r.cmd.passes
  let (cut, r) := passCut r fails whole total (min g.m (regionDims g.paired).1)
  if r.held && decide (cut.stop = from_) then pauseRun r from_ .ok []
  else
    let (o, r) := jobs.foldl (runTile g ol from_ cut) ({ region := regionOf r.s r.k r.i }, r)
    let r := { r with s := setRegion r.s r.k r.i o.region }
    let r := spend r .sole r.uses (decide (cut.stop < total))
    let (st, ws, r) : Status × List Wr × Run := match cd with
      | none => (.ok, [], r)
      | some d =>
        if !coversWhole d cov then (.badDescriptor, [], r)
        else if fails && !isDense d then (.ok, [], r)
        else storeInto r .a48 d (fun ix => (tget none (flatIx (seenExt d) ix) (o.stores.map (fun (e : Nat × Nat) => (e.1, some e.2)))).map
          (fun v => { code := v }))
    let (v, r) := if fails then rChoice r else (0, r)
    let n := ws.length + o.out.length
    let part := if fails then v % (n + 1) else n
    let r := doWrs r (if fails then ws.take part else joinWrs ws)
    let (st', r) := deliver r (o.out.take (part - ws.length))
    let st : Status := if st = .ok then st' else st
    if !fails && (r.held || decide (cut.stop < total)) then pauseRun r cut.stop st [] else finishRun r residue st 0 []

/-! ### GEMM (R100 to R103) -/

/-- The extents of a tensor's batch dimensions. -/
def batchExt (d : Desc) : List Nat := (seenExt d).drop 2

/-- The shape and format checks of R101. -/
def gemmShape (a b : Desc) (c : Option Desc) : Bool :=
  soleElem a.elem && soleElem b.elem && decide (dim (seenExt a) 0 = dim (seenExt b) 1) &&
  ((batchExt a).zip ((batchExt b).zip (b.str.drop 2))).all (fun x => decide (x.1 = x.2.1) || decide (x.2.2 = 0)) &&
  (match c with
   | none => true
   | some d => decide (dim (seenExt d) 1 = dim (seenExt a) 1) && decide (dim (seenExt d) 0 = dim (seenExt b) 0) &&
     decide (batchExt d = batchExt a) && !elemInt d.elem)

/-- The accumulator checks of R101, which SPMM and SPMM_T share. -/
def accChecks (s : State) (k i : Nat) (g : Geo) (cMissing : Bool) : List (Bool × Status × Nat) :=
  let reg := regionOf s k i
  let (rows, cols) := regionDims g.paired
  [(oneTile g.ctl && (decide (rows < g.row + g.m) || decide (cols < g.n)), .badParam, 0),
   (decide (accInit g.ctl = 1) && !reg.clear && (reg.paired != g.paired), .badParam, 0), (cMissing, .badParam, 0)]

/-- The geometry of a dense product. -/
def gemmGeo (a b : Desc) (ctl row : Nat) : Geo :=
  { m := dim (seenExt a) 1, k := dim (seenExt a) 0, n := dim (seenExt b) 0, paired := wideElem b.elem, f := rowCycles a.elem, row := row,
    ctl := ctl }

/-- The batch of B that serves a batch index of A. -/
def bBatch (b : Desc) (ix : List Nat) (ext : List Nat) : Nat :=
  flatIx (batchExt b) ((ix.zip (ext.zip (batchExt b))).map (fun x => if x.2.1 = x.2.2 then x.1 else 0))

/-- The tiles of a dense product, batch by batch. -/
def gemmJobs (g : Geo) (a b : Desc) (av bv : List Val) (cv : List Nat) : List TileJob :=
  let batches := allIdx (batchExt a)
  (batches.zip (List.range batches.length)).flatMap (fun e =>
    let rows := rowsOf g.k g.m (av.drop (g.m * g.k * e.2))
    let cols := if g.k = 0 then List.replicate g.n [] else columns g.n (rowsOf g.n g.k (bv.drop (g.k * g.n * bBatch b e.1 (batchExt a))))
    let cs := rowsOf g.n g.m (cv.drop (g.m * g.n * e.2))
    (tileStarts g).map (fun t =>
      let (n0, nn, m0, mm) := t
      { b := e.2, n0 := n0, nn := nn, m0 := m0, mm := mm, rows := (rows.drop m0).take mm,
        passes := densePasses mm ((cols.drop n0).take nn) g.k, init := ((cs.drop m0).take mm).map (fun row => (row.drop n0).take nn) }))

/-- A product that has passed its checks. -/
def gemmRun (s : State) (cmd : Cmd) (core : Nat) (a b : Desc) (c : Option Desc) (g : Geo) : Res :=
  let r := newRun s cmd ([0] ++ (if accInit g.ctl = 2 then [2] else []) ++ (if accOut g.ctl = 1 then [3] else []) ++
    (if accOut g.ctl = 2 then [1] else []) ++ (if isDense a && isDense b then [] else [4]))
  let r := withHot r (if accOut g.ctl = 1 then c else none)
  let (av, r) := loadVals r a
  let (bv, r) := loadVals r b
  let (cv, r) := match c with
    | some d => if accInit g.ctl = 2 then loadA48 r d else ([], r)
    | none => ([], r)
  if r.bad || r.stop then commitRun r [] .ok []
  else productRun r g (gemmOutlet g) (gemmJobs g a b av bv cv) c (fun _ => true) (toWelt core g)

/-- Whether a CTL field makes C an operand or a result (R100). -/
def needsC (ctl : Nat) : Bool := decide (accOut ctl = 1) || decide (accInit ctl = 2)

/-- The descriptors of a GEMM, and whether it writes each: C only where CTL uses it (R100). -/
def gemmList (q : GemmP) : List (Nat × Bool) :=
  [(q.aDesc.toNat, false), (q.bDesc.toNat, false)] ++
  (if needsC q.ctl.toNat && decide (q.cDesc.toNat ≠ 0) then [(q.cDesc.toNat, decide (accOut q.ctl.toNat = 1))] else [])

/-- The checks of R101 after those of R225. -/
def gemmChecks (s : State) (k i : Nat) (q : GemmP) (a b : Desc) (c : Option Desc) : List (Bool × Status × Nat) :=
  let ctl := q.ctl.toNat
  [(decide (32 ≤ ctl) || decide (accOut ctl = 3) || decide (accInit ctl = 3) || decide (q.rsvdA ≠ 0), .badParam, 0),
   (!gemmShape a b c, .badDescriptor, 0)] ++
  accChecks s k i (gemmGeo a b ctl q.accRow.toNat) (needsC ctl && decide (q.cDesc.toNat = 0))

def bodyGemm (q : GemmP) (s : State) (cmd : Cmd) : Res :=
  let p := cmd.part.getD 16
  let (core, i) := (streamOfHdr s cmd.h).getD (0, 0)
  let ctl := q.ctl.toNat
  withDescs s cmd (gemmList q) fun ds =>
    match ds with
    | a :: b :: rest =>
      let g := gemmGeo a b ctl q.accRow.toNat
      checked s (gemmChecks s (physOf s core) i q a b rest.head?) fun _ =>
        if accOut ctl = 2 then
          match deliverReady s p core i with
          | .no st => { s := s, st := st }
          | .hold k => { s := s, wait := some (.contrib k) }
          | .go t => gemmRun s cmd core a b rest.head? { g with target := t }
        else gemmRun s cmd core a b rest.head? g
    | _ => { s := s }

def execGemm (h : Hdr) (p : GemmP) (s : State) : Host.Outcome State Fault Refusal :=
  command (.gemm h p) { op := 0x0300, n := 32, runs := .s } h (packetBytes 0x0300 h (bytesGemm p))
    (onUnit .sole (bodyGemm p)) s

end Sys2Proof.Machine
end

