-- ==== Sys2Proof/Machine/Fen.lean ====
section
/-! DEFINITION. The Fen pool: binding, contributions, eviction, spill blocks, FEN_MERGE and FEN_SCATTER (R166 to R187). -/
namespace Sys2Proof.Machine

def poolOf (s : State) (k : Nat) : FenPool := (coreP s k).fen
def setPool (s : State) (k : Nat) (x : FenPool) : State := modCoreP s k (fun c => { c with fen := x })
def fenTable (s : State) (k t : Nat) : FenTable := tget {} t (poolOf s k).tables
def setFenTable (s : State) (k t : Nat) (x : FenTable) : State :=
  let f := poolOf s k
  setPool s k { f with tables := tput {} t x f.tables }
def fenEntry (s : State) (k i : Nat) : Option FenEntry := tget none i (poolOf s k).entries
def setFenEntry (s : State) (k i : Nat) (x : Option FenEntry) : State :=
  let f := poolOf s k
  setPool s k { f with entries := tput none i x f.entries }
/-- Live entries of the pool (R184). -/
def fenOccupancy (s : State) (k : Nat) : Nat := (poolOf s k).entries.length
/-- Live entries of one table, in ascending index. -/
def fenLive (s : State) (k t : Nat) : List (Nat × FenEntry) :=
  (poolOf s k).entries.filterMap (fun e => e.2.bind (fun x => if x.table.toNat = t then some (e.1, x) else none))

/-! ### Table descriptors (R167) -/

/-- The parameter checks on the address of a table descriptor (R663): alignment and a page that the pool may write. -/
def fenAddrOk (s : State) (p a : Nat) : Bool := regionOk s p a 64 64 true

/-- Whether a descriptor lies in a poisoned sector, so that its bytes cannot be used (R416). -/
def fenDescHurt (s : State) (p a : Nat) : Bool := partPoisoned s p a 64

/-- The checks on a descriptor's contents: reserved fields, and a spill region that is aligned, mapped writable and in HBM. A reserved field
that is not zero and a SPILL_CAPACITY that is no multiple of 4,096 fail as a spill region outside HBM does, with BAD_DESCRIPTOR: R167 gives
them no status (DESIGN CHOICE, entry 16). -/
def fenDescOk (s : State) (p a : Nat) : Bool :=
  let b := partRead s p a 64
  let base := at_ b 8 8
  let cap := at_ b 16 8
  decide (at_ b 0 1 < 16) && decide (at_ b 1 1 < 2) && allZero (slice b 2 6) && decide (cap % 4096 = 0) && allZero (slice b 36 4) &&
  allZero (slice b 48 16) && regionOk s p base cap 4096 true && (decide (cap = 0) || spanHbm s p base cap)

/-- The table number of a descriptor. -/
def fenNumber (s : State) (p a : Nat) : Nat := fld (at_ (partRead s p a 1) 0 1) 0 4

/-- Whether a command's table number is bound to another address. -/
def fenConflict (s : State) (p k a : Nat) : Bool :=
  match (fenTable s k (fenNumber s p a)).desc with
  | some d => decide (d ≠ a)
  | none => false

/-- Bind a table to its descriptor; a bound one takes the descriptor's ROUND again (R167, R224). -/
def fenBind (s : State) (p k a : Nat) : State :=
  let b := partRead s p a 64
  let t := fenNumber s p a
  let x := fenTable s k t
  let round := bitOf (at_ b 1 1) 0
  if x.desc.isSome then setFenTable s k t { x with round := round }
  else setFenTable s k t { desc := some a, part := p, base := at_ b 8 8, cap := at_ b 16 8, used := at_ b 24 8, seq := at_ b 32 4,
                           spilled := at_ b 40 8, round := round }

/-- Store a table and write SPILL_USED, SPILL_SEQ and SPILLED of its descriptor. -/
def fenStore (s : State) (k t : Nat) (x : FenTable) : State :=
  let s := setFenTable s k t x
  match x.desc with
  | some a => partWrite (partWrite s x.part (a + 24) (leBytes 8 x.used ++ leBytes 4 x.seq)) x.part (a + 40) (leBytes 8 x.spilled)
  | none => s

/-! ### Spill blocks (R172 to R175) -/

/-- A spill record. -/
def spillBytes (t : Nat) (x : SpillRec) : List Byte :=
  leBytes 3 x.key.toNat ++ leBytes 1 t ++ leBytes 4 x.count.toNat ++ leBytes 8 x.sum.toNat

/-- A spill block of raw records. -/
def spillBlock (seq : Nat) (recs : List (List Byte)) : List Byte :=
  let b := slice (recs.flatMap id) 0 4080 ++ leBytes 2 recs.length ++ zeros 2 ++ leBytes 4 seq ++ zeros 4
  b ++ leBytes 4 (crc32c b)

/-- Write the staging block of a table. Past the capacity the table overflows and its records are lost; true then. -/
def writeStaging (s : State) (k t : Nat) : Bool × State :=
  let x := fenTable s k t
  if x.staging.isEmpty then (false, s)
  else if x.cap < x.used + 4096 then (true, fenStore s k t { x with overflow := true, staging := [] })
  else
    let s := partWrite s x.part (x.base + x.used) (spillBlock x.seq (x.staging.map (spillBytes t)))
    (false, fenStore s k t { x with used := x.used + 4096, seq := (x.seq + 1) % 2 ^ 32, staging := [] })

/-- Stage a spill record; a full block is written. True when that write overflows the table. -/
def spill (s : State) (k t : Nat) (x : SpillRec) : Bool × State :=
  let f := fenTable s k t
  let s := fenStore s k t { f with staging := f.staging ++ [x], spilled := f.spilled + 1 }
  let s := countCore s k 5 1 (·.fenSpill) (fun c v => { c with fenSpill := v })
  if f.staging.length + 1 = 255 then writeStaging s k t else (false, s)

/-- Write every table's staging block, as a migration or a switch-out does (R174). -/
def flushStaging (s : State) (k : Nat) : State := (List.range 16).foldl (fun s t => (writeStaging s k t).2) s

/-! ### Contributions (R168 to R170, R180) -/

/-- An entry with its residues (R166). -/
def fenMake (key t count sum : Nat) : FenEntry :=
  { key := BitVec.ofNat 24 key, table := BitVec.ofNat 4 t, count := BitVec.ofNat 32 count, sum := BitVec.ofNat 48 sum,
    keyRes := BitVec.ofNat 3 (key % 2 ^ 24 % 7), sumRes := BitVec.ofNat 2 (sum % 2 ^ 48 % 3) }

/-- The eight probes of a key (R168). -/
def fenProbes (t key : Nat) : List Nat :=
  let x := t * 2 ^ 24 + key
  let h0 := x * 0x9E3779B1 % 2 ^ 32 / 2 ^ 16
  let h1 := (x ^^^ 0xA5A5A5A5) * 0x85EBCA6B % 2 ^ 32 / 2 ^ 16
  (List.range 8).map (fun i => ((if i % 2 = 0 then h0 else h1) + i / 2) % 65536)

/-- Evict entries in ascending index from the sweep pointer until occupancy is at most 49,152 (R170); true when a block of table
`t` overflowed. The list holds the entries in sweep order. -/
def evictGo (k t : Nat) : List Nat → State → Bool → Bool × State
  | [], s, ov => (ov, s)
  | i :: is, s, ov =>
    if fenOccupancy s k ≤ 49152 then (ov, s)
    else match fenEntry s k i with
      | none => evictGo k t is s ov
      | some e =>
        let s := setFenEntry s k i none
        let f := poolOf s k
        let s := setPool s k { f with sweep := (i + 1) % 65536 }
        let (o, s) := spill s k e.table.toNat { key := e.key, count := e.count, sum := e.sum }
        evictGo k t is s (ov || (o && decide (e.table.toNat = t)))

/-- Evict when occupancy is above 57,344. -/
def evict (s : State) (k t : Nat) : Bool × State :=
  if fenOccupancy s k ≤ 57344 then (false, s)
  else
    let ix := (poolOf s k).entries.map (·.1)
    let w := (poolOf s k).sweep
    evictGo k t (ix.filter (fun i => decide (w ≤ i)) ++ ix.filter (fun i => decide (i < w))) s false

/-- Place a value in its key's entry or in the first empty probe, while occupancy after an insertion stays at most `limit`; none
when it finds neither (R169, R178). -/
def fenPlace (r : Run) (t key count v limit : Nat) : Option Run :=
  let x := fenTable r.s r.k t
  let ps := fenProbes t key
  match ps.find? (fun i => match fenEntry r.s r.k i with
      | some e => decide (e.table.toNat = t) && decide (e.key.toNat = key)
      | none => false) with
  | some i =>
    (match fenEntry r.s r.k i with
     | none => none
     | some e =>
       let y := valAdd (a48Dec e.sum.toNat) (a48Dec v)
       let (u, r) := drawIf r (x.round && valFinite y.1)
       let (c, f) := a48Of u y
       let n := min (e.count.toNat + count) (2 ^ 32 - 1)
       some { r with s := setFenEntry r.s r.k i (some (fenMake key t n c)),
                     wl := r.wl ||| f, unit := r.unit ||| f })
  | none =>
    match ps.find? (fun i => (fenEntry r.s r.k i).isNone) with
    | none => none
    | some i =>
      if limit < fenOccupancy r.s r.k + 1 then none
      else
        some { r with s := setFenEntry r.s r.k i (some (fenMake key t (min count (2 ^ 32 - 1)) v)) }

/-- One contribution (R169): true when the command is to complete with NO_RESOURCE (R175). -/
def contribute (r : Run) (t addr key v : Nat) : Bool × Run :=
  let x := fenTable r.s r.k t
  if x.desc ≠ some addr then (false, r)
  else if x.overflow then (true, r)
  else
    let r := { r with s := countCore r.s r.k 5 1 (·.fenContrib) (fun c n => { c with fenContrib := n }) }
    match fenPlace r t key 1 v 65536 with
    | some r => let (o, s) := evict r.s r.k t; (o, { r with s := s })
    | none =>
      let s := countCore r.s r.k 5 1 (·.fenChain) (fun c n => { c with fenChain := n })
      let (o, s) := spill s r.k t { key := BitVec.ofNat 24 key, count := 1, sum := BitVec.ofNat 48 v }
      (o, { r with s := s })

/-- Contributions of a command, in an unspecified order (R169). -/
def contributeAll (r : Run) (t addr : Nat) (l : List (Nat × Nat)) : Bool × Run :=
  let (l, r) := shuffle r l
  l.foldl (fun (a : Bool × Run) e => let y := contribute a.2 t addr e.1 e.2; (a.1 || y.1, y.2)) (false, r)

/-! ### FEN_MERGE (R177 to R182) -/

/-- The spill blocks of a table by ascending BLOCK_SEQ, as (BLOCK_SEQ, raw records); reading ends at a block that fails. -/
def readBlocks (r : Run) (x : FenTable) : Nat → Nat → List (Nat × List (List Byte)) → List (Nat × List (List Byte)) × Run
  | 0, _, acc => (acc, r)
  | n + 1, o, acc =>
    let (b, r) := rRead r r.s (x.base + o) 4096
    if r.bad || partPoisoned r.s r.p (x.base + o) 4096 then (acc, { r with stop := true })
    else if crc32c (b.take 4092) ≠ at_ b 4092 4 then (acc, { r with integ := true, stop := true, crc := r.crc + 1 })
    else
      let recs := (List.range (min 255 (at_ b 4080 2))).map (fun i => slice b (16 * i) 16)
      let seq := at_ b 4084 4
      let before := acc.filter (fun e => decide (e.1 ≤ seq))
      let after := acc.filter (fun e => decide (seq < e.1))
      readBlocks r x n (o + 4096) (before ++ [(seq, recs)] ++ after)

/-- Table number, key, count and sum of a raw record. -/
def recTable (b : List Byte) : Nat := fld (at_ b 3 1) 0 4
def recKey (b : List Byte) : Nat := at_ b 0 3
def recCount (b : List Byte) : Nat := at_ b 4 4
def recSum (b : List Byte) : Nat := a48Canon (at_ b 8 8)

/-- The record of FEN_MERGE (R182). -/
def mergeRecord (entries read folded remaining out foreign : Nat) : List Byte :=
  leBytes 8 entries ++ leBytes 8 read ++ leBytes 8 folded ++ leBytes 8 remaining ++ leBytes 8 out ++ leBytes 8 foreign

/-- Apply spill records to the pool under FOLD; the ones that stay spilled (R178). -/
def foldRecs (t : Nat) : Run → List (List Byte) → List (List Byte) × Run
  | r, [] => ([], r)
  | r, b :: bs =>
    match if recTable b = t then fenPlace r t (recKey b) (recCount b) (recSum b) 57344 else none with
    | some r => foldRecs t r bs
    | none => let (l, r) := foldRecs t r bs; (b :: l, r)

/-- Empty a table's entries. -/
def clearEntries (s : State) (k t : Nat) : State := (fenLive s k t).foldl (fun s e => setFenEntry s k e.1 none) s

/-- FOLD of a table whose blocks have been read. A record counts in FEN_SPILL_CNT when it is staged; the ones that FOLD writes again do not
count anew (R186; DESIGN CHOICE, entry 44). -/
def fenFold (r : Run) (t live : Nat) (recs : List (List Byte)) : Res :=
  let (stay, r) := foldRecs t r recs
  let x := fenTable r.s r.k t
  let blocks := chunks 255 (stay.length + 1) stay
  let s := (blocks.zip (List.range blocks.length)).foldl (fun s b => partWrite s r.p (x.base + 4096 * b.2) (spillBlock b.2 b.1)) r.s
  let s := fenStore s r.k t { x with used := 4096 * blocks.length, seq := blocks.length, spilled := stay.length }
  let foreign := (recs.filter (fun b => decide (recTable b ≠ t))).length
  commitRun { r with s := s } [] .ok (mergeRecord live recs.length (recs.length - stay.length) stay.length 0 foreign)

/-- A destination element that DRAIN adds a key to: none outside the valid region; false when it lies beyond the extent (R179). -/
def drainPlace (d : Desc) (key : Nat) : Bool × Option (List Nat) :=
  let ext := seenExt d
  if ext.foldl (· * ·) 1 ≤ key then (false, none)
  else
    let ix := seenIx d ((ext.foldl (fun (a : List Nat × Nat) e => (a.1 ++ [a.2 % e], a.2 / e)) ([], key)).1)
    (true, if inValid d ix then some ix else none)

/-- The writes of zero to a destination's valid region. -/
def zeroWrs (d : Desc) : List Wr := (validIdx d).map (fun ix => Wr.bytes (elemAddr d ix) (zeros (elemBytes d.elem)))

/-- DRAIN of a table whose blocks have been read. -/
def fenDrain (r : Run) (t : Nat) (d : Desc) (zero : Bool) (recs : List (List Byte)) : Res :=
  let live := fenLive r.s r.k t
  let mine := recs.filter (fun b => decide (recTable b = t))
  let items := live.map (fun e => (e.2.key.toNat, e.2.sum.toNat)) ++ mine.map (fun b => (recKey b, recSum b))
  let r := if zero then doWrs r (joinWrs (zeroWrs d)) else r
  let (items, r) := shuffle r items
  let beyond := (items.filter (fun e => !(drainPlace d e.1).1)).length
  let out := (items.filter (fun e => (drainPlace d e.1).2.isNone)).length
  let ws := items.filterMap (fun e => (drainPlace d e.1).2.map (fun ix => Wr.acc (elemAddr d ix) d.elem e.2))
  let r := doWrs { r with oob := r.oob + beyond } ws
  let s := clearEntries r.s r.k t
  let s := fenStore s r.k t { fenTable s r.k t with used := 0, seq := 0, spilled := 0 }
  commitRun { r with s := s } [] .ok (mergeRecord live.length recs.length 0 0 out (recs.length - mine.length))

/-- A FEN_MERGE that has passed its checks. -/
def fenMergeRun (s : State) (c : Cmd) (k a mode : Nat) (d : Option Desc) : Res :=
  let p := c.part.getD 16
  let t := fenNumber s p a
  let s := fenBind s p k a
  let live := (fenLive s k t).length
  let op := fld mode 0 2
  if op = 2 then
    let s := clearEntries s k t
    let s := fenStore s k t { fenTable s k t with used := 0, seq := 0, spilled := 0, staging := [] }
    { s := setFenTable s k t {}, record := mergeRecord live 0 0 0 0 0 }
  else if (fenTable s k t).overflow then { s := s, st := .noResource, record := mergeRecord live 0 0 0 0 0 }
  else
    let (ov, s) := writeStaging s k t
    if ov then { s := s, st := .noResource, record := mergeRecord live 0 0 0 0 0 }
    else
      let r := newRun s c [5]
      let (r, residue) := runResidues r
      if residue.isSome then finishRun r residue .ok 0 []
      else
        let x := fenTable r.s k t
        let (blocks, r) := readBlocks r x (x.used / 4096) 0 []
        let r := { r with cmd := { r.cmd with h := { r.cmd.h with upsets := [] } } }
        if r.bad || r.stop then commitRun r [] .ok []
        else
          let recs := blocks.flatMap (·.2)
          match d with
          | some d => fenDrain r t d (bitOf mode 2) recs
          | none => fenFold r t live recs

/-- FEN_MERGE (R177). DST_DESC other than 0 without DRAIN is a reserved value, BAD_PARAM: R177 says that it is 0 and names no status
(DESIGN CHOICE, entry 15). -/
def bodyFenMerge (q : FenMergeP) (s : State) (c : Cmd) : Res :=
  let p := c.part.getD 16
  let k := physOf s ((streamOfHdr s c.h).getD (0, 0)).1
  let a := q.tableDesc.toNat
  let mode := q.mode.toNat
  let drain := decide (fld mode 0 2 = 1)
  checked s [(!fenAddrOk s p a, .badParam, 0), (fenDescHurt s p a, .integrityFail, 0), (!fenDescOk s p a, .badDescriptor, 0),
      (drain && decide (q.dstDesc = 0), .badParam, 0)] fun _ =>
    withDescs s c (if drain then [(q.dstDesc.toNat, true)] else []) fun ds =>
      checked s [(decide (8 ≤ mode) || decide (fld mode 0 2 = 3) || decide (q.rsvdA ≠ 0) || (!drain && decide (q.dstDesc ≠ 0)), .badParam, 0),
          (ds.any (fun d => !isDense d || !(decide (d.elem = .a48) || decide (d.elem = .fp32) || decide (d.elem = .l16))), .badDescriptor, 0),
          (fenConflict s p k a, .badParam, 0)] fun _ => fenMergeRun s c k a mode ds.head?

def execFenMerge (h : Hdr) (p : FenMergeP) (s : State) : Host.Outcome State Fault Refusal :=
  command (.fenMerge h p) { op := 0x0304, n := 24, runs := .s, rec_ := 48 } h (packetBytes 0x0304 h (bytesFenMerge p)) (bodyFenMerge p) s

/-! ### FEN_SCATTER (R183) -/

/-- Convert values to A48 under R57 on the Welt, its flags going to WELT_FLG. -/
def weltA48 (r : Run) : List Val → List Nat × Run
  | [] => ([], r)
  | v :: vs =>
    let (c, f) := toA48 none v
    let (cs, r) := weltA48 { r with wl := r.wl ||| f, unit := r.unit ||| f } vs
    (c :: cs, r)

/-- A FEN_SCATTER that has passed its checks. A zero that SKIP_ZERO skips forms no access, so its key is not tested against the bound
(DESIGN CHOICE, entry 44). -/
def fenScatterRun (s : State) (c : Cmd) (k a : Nat) (skip : Bool) (kd vd : Desc) : Res :=
  let p := c.part.getD 16
  let t := fenNumber s p a
  let r := newRun (fenBind s p k a) c ([1, 5] ++ (if isDense vd then [] else [4]))
  let (keys, r) := readIndex r kd
  let (vals, r) := loadVals r vd
  let (r, residue) := runResidues r
  if r.bad || r.stop || residue.isSome then finishRun r residue .ok 0 []
  else
    let pairs := (keys.zip vals).filter (fun x => !skip || (match x.2 with
      | .zero _ => false
      | _ => true))
    let (codes, r) := weltA48 r (pairs.map (·.2))
    let items := (pairs.map (·.1)).zip codes
    let good := items.filter (fun x => decide (0 ≤ x.1) && decide (x.1 < ((2 ^ 24 : Nat) : Int)))
    let (ov, r) := contributeAll { r with oob := r.oob + (items.length - good.length) } t a (good.map (fun x => (x.1.toNat, x.2)))
    finishRun r none (if ov then .noResource else .ok) 0 []

def bodyFenScatter (q : FenScatterP) (s : State) (c : Cmd) : Res :=
  let p := c.part.getD 16
  let k := physOf s ((streamOfHdr s c.h).getD (0, 0)).1
  let a := q.fenDesc.toNat
  checked s [(!fenAddrOk s p a, .badParam, 0), (fenDescHurt s p a, .integrityFail, 0), (!fenDescOk s p a, .badDescriptor, 0)] fun _ =>
    withDescs s c [(q.keyDesc.toNat, false), (q.valDesc.toNat, false)] fun ds =>
      match ds with
      | [kd, vd] =>
        let idxOk := isDense kd && (decide (kd.elem = .u32) || decide (kd.elem = .s32) || decide (kd.elem = .u64))
        checked s [(decide (1 < q.ctl.toNat) || decide (q.rsvdA ≠ 0) || fenConflict s p k a, .badParam, 0),
            (!idxOk || !isDense vd || elemInt vd.elem || decide (seenExt kd ≠ seenExt vd), .badDescriptor, 0)] fun _ =>
          fenScatterRun s c k a (bitOf q.ctl.toNat 0) kd vd
      | _ => { s := s }

def execFenScatter (h : Hdr) (p : FenScatterP) (s : State) : Host.Outcome State Fault Refusal :=
  command (.fenScatter h p) { op := 0x0307, n := 32, runs := .s } h (packetBytes 0x0307 h (bytesFenScatter p)) (bodyFenScatter p) s

end Sys2Proof.Machine
end

