-- ==== Sys2Proof/Machine/Sparse.lean ====
section
/-! DEFINITION. SPMM and SPMM_T: packed operands, the forward and the transposed walk, the output bitmap and the ways out of the
accumulators (R145 to R159). -/
namespace Sys2Proof.Machine

/-! ### The packed operand (R147, R148 to R152) -/

/-- The stored positions of stored row n in ascending order along K. A DENSE_FALLBACK tile packs every position of the extent;
a value stored beyond the extent is not used (R129). -/
def packedRow (d : Desc) (t : Tab TileData) (n : Nat) : List Packed :=
  let w := tileW d.elem
  let cols := (tileGrid d.elem d.ext).1
  (List.range cols).flatMap (fun tc =>
    let x := tget (zeroTile d.elem) (n / 32 * cols + tc) t
    (x.stored.filter (fun p => decide (p / w = n % 32) && (decide (x.tag ≠ 1) || decide (w * tc + p % w < dim d.ext 0)))).map (fun p =>
      { at_ := w * tc + p % w, tag := x.tag,
        val := if dim d.ext 0 ≤ w * tc + p % w then .zero false
          else elemDec d.elem (x.codes.getD p 0) (if elemScaled d.elem then x.scales.getD (p / 32) 0 else 0) }))

/-- Every stored row of S, packed. -/
def packedRows (d : Desc) (t : Tab TileData) : List (List Packed) := (List.range (dim d.ext 1)).map (packedRow d t)

/-- A walk over one tile of outputs: its passes in order. -/
abbrev Walk := List Pass

/-! ### Forward walks -/

/-- Positions that the front end steers as one: a Tussock block, else one position. -/
def walkUnit (x : SRec) : Nat := if x.format = 3 then 32 else 1
/-- The most positions that a pass window covers (R148 to R150). -/
def walkSpan (x : SRec) : Nat := if x.format = 2 then min (320 * mOf x.nm / nOf x.nm) 1280 else 1280

/-- Packed values of a column within a window. -/
def inWindow (lo hi : Nat) (l : List Packed) : List Packed := l.filter (fun x => decide (lo ≤ x.at_) && decide (x.at_ < hi))

/-- The end of the window that starts at `lo`: after the unit by which a column fills 320 array rows, or after the span. -/
def windowEnd (cols : List (List Packed)) (unit span lo : Nat) : Nat → Nat → Nat
  | 0, hi => hi
  | fuel + 1, hi =>
    if span ≤ hi - lo || cols.any (fun c => decide (320 ≤ (inWindow lo hi c).length)) then hi
    else windowEnd cols unit span lo fuel (hi + unit)

/-- The end of a Stitched window: after the span, or where a column fills 320 array rows. The slots of a group lie side by side, so a
window that a group fills reaches the group's end; only a column of a DENSE_FALLBACK tile can fill its rows inside a group (R148). -/
def stitchedEnd (x : SRec) (cols : List (List Packed)) (lo : Nat) : Nat :=
  let far := lo + walkSpan x
  let hi := windowEnd cols 1 (walkSpan x) lo (walkSpan x) (lo + 1)
  let up := min far (roundUp hi (mOf x.nm))
  if cols.all (fun c => decide ((inWindow lo up c).length ≤ 320)) then up else hi

/-- The passes of a forward walk over the stored rows of an N tile. -/
def forwardWalk (x : SRec) (cols : List (List Packed)) (k : Nat) : Nat → Nat → Walk
  | 0, _ => []
  | fuel + 1, lo =>
    if k ≤ lo then []
    else
      let hi := if x.format = 2 then stitchedEnd x cols lo else windowEnd cols (walkUnit x) (walkSpan x) lo (walkSpan x) (lo + walkUnit x)
      let pass := cols.map (fun c => let l := inWindow lo hi c; chunks 32 (l.length + 1) l)
      pass :: forwardWalk x cols k fuel hi

/-! ### Transposed walks -/

/-- What an output at position k of S's group dimension gathers, in ascending stored row (R151, R152). -/
def gathered (rows : List (List Packed)) (k : Nat) : List Packed :=
  (rows.zip (List.range rows.length)).flatMap (fun x =>
    (x.1.filter (fun y => decide (y.at_ = k) && !(decide (y.tag = 2) && (match y.val with
      | .zero _ => true
      | _ => false)))).map (fun y => { y with at_ := x.2 }))

/-- The identity of a command, to which its walker's choices belong: the same whenever the command goes on (R278). -/
def walkSeed (c : Cmd) : Nat := c.h.context.toNat * 2 ^ 32 + c.h.seq.toNat

/-- Cut a window's values into `c` consecutive non-empty ranges of at most 320, as the walker chooses (R151). The walker's choices are
free values by the number of the choice. -/
def splitColumns (w j : Nat) : Nat → List Packed → List (List Packed) × Nat
  | 0, _ => ([], j)
  | c + 1, l =>
    let lo := max 1 (l.length - 320 * c)
    let hi := min 320 (l.length - c)
    let n := lo + Config.walkPick w j % (hi + 1 - lo)
    let (rest, j) := splitColumns w (j + 1) c (l.drop n)
    (l.take n :: rest, j)

/-- The array columns that serve an output, lowest first, over windows of at most 1,280 stored rows of the walker's choice. -/
def walkColumns (w j : Nat) : Nat → List Packed → List (List Packed) × Nat
  | 0, _ => ([], j)
  | fuel + 1, l =>
    match l with
    | [] => ([], j)
    | x :: _ =>
      let win := l.takeWhile (fun y => decide (y.at_ < x.at_ + 1 + Config.walkPick w j % 1280))
      let (cols, j) := splitColumns w (j + 1) (ceilDiv win.length 320) win
      let (rest, j) := walkColumns w j fuel (l.drop win.length)
      (cols ++ rest, j)

/-- The array columns of an output of a transposed walk, each with its groups. A Tussock seam holds one block (R152). -/
def gatheredColumns (w j : Nat) (x : SRec) (l : List Packed) : List (List Group) × Nat :=
  if x.format = 3 then
    let gs := (List.range (l.foldl (fun a y => max a (y.at_ / 32 + 1)) 0)).map (fun b => l.filter (fun y => decide (y.at_ / 32 = b)))
    (chunks 10 (gs.length + 1) (gs.filter (fun g => !g.isEmpty)), j)
  else
    let (cols, j) := walkColumns w j (l.length + 1) l
    (cols.map (fun c => chunks 32 (c.length + 1) c), j)

/-- The array columns of every output of a K tile, with the output's number. -/
def transposedColumns (w j : Nat) (x : SRec) (rows : List (List Packed)) : List (Nat × Nat) → List (Nat × List Group) × Nat
  | [] => ([], j)
  | (o, k) :: ks =>
    let (g, j) := gatheredColumns w j x (gathered rows k)
    let (gs, j) := transposedColumns w j x rows ks
    (g.map (fun c => (o, c)) ++ gs, j)

/-- Spread array columns over passes of at most `n`, as the walker chooses. -/
def cutPasses (w j n : Nat) : Nat → List (Nat × List Group) → List (List (Nat × List Group)) × Nat
  | 0, _ => ([], j)
  | fuel + 1, l =>
    if l.isEmpty then ([], j)
    else
      let m := 1 + Config.walkPick w j % n
      let (rest, j) := cutPasses w (j + 1) n fuel (l.drop m)
      (l.take m :: rest, j)

/-- The passes of a transposed walk over the outputs `k0` to `k0 + nn - 1` with `n` array columns (R151). -/
def transposedWalk (w j n : Nat) (x : SRec) (rows : List (List Packed)) (k0 nn : Nat) : Walk × Nat :=
  let (cols, j) := transposedColumns w j x rows ((List.range nn).map (fun i => (i, k0 + i)))
  let (ps, j) := cutPasses w j n (cols.length + 1) cols
  (ps.map (fun p => (List.range nn).map (fun i => (p.filter (fun c => decide (c.1 = i))).flatMap (·.2))), j)

/-! ### Passes -/

/-- The geometry of a sparse product: that of its shapes, the walk, S's record and packed rows, and its quiet outputs. -/
structure SGeo where
  g     : Geo
  tr    : Bool
  rec_  : SRec
  rows  : List (List Packed)
  sel   : Option (List Byte) := none

/-- Whether output column n of row m of a batch is quiet (R143, R157). -/
def quiet (q : SGeo) (b m n : Nat) : Bool :=
  match q.sel with
  | none => false
  | some bs =>
    let words := ceilDiv (ceilDiv q.g.n 32) 64
    !bitOf (at_ bs (8 * ((b * q.g.m + m) * words + n / 32 / 64)) 8) (n / 32 % 64)

/-- The rows of A that a pass skips: those whose granules in its output columns are all quiet (R157). In a transposed walk a pass's
output columns are those that it gathers values for. -/
def skipsOf (q : SGeo) (b n0 m0 mm : Nat) (p : Pass) : List Bool :=
  let outs := (p.zip (List.range p.length)).filter (fun x => !q.tr || !x.1.isEmpty)
  (List.range mm).map (fun i => outs.all (fun x => quiet q b (m0 + i) (n0 + x.2)))

/-- The tiles of a sparse product, batch by batch, and the number of the walker's next choice. -/
def sparseJobs (w : Nat) (q : SGeo) (av : List Val) (cv : List Nat) : List (Nat × (Nat × Nat × Nat × Nat)) → Nat → List TileJob
  | [], _ => []
  | (b, n0, nn, m0, mm) :: rest, j =>
    let g := q.g
    let (walk, j) := if q.tr then transposedWalk w j (if g.paired then 160 else 320) q.rec_ q.rows n0 nn
      else ((forwardWalk q.rec_ ((q.rows.drop n0).take nn) g.k (g.k + 1) 0).filter (fun p => p.any (fun c => !c.isEmpty)), j)
    let rows := ((rowsOf g.k g.m (av.drop (g.m * g.k * b))).drop m0).take mm
    let cs := ((rowsOf g.n g.m (cv.drop (g.m * g.n * b))).drop m0).take mm
    { b := b, n0 := n0, nn := nn, m0 := m0, mm := mm, rows := rows, passes := walk.map (fun p => (p, skipsOf q b n0 m0 mm p)),
      init := cs.map (fun row => (row.drop n0).take nn) } :: sparseJobs w q av cv rest j

/-- The outlet of a sparse product (R157, R158). Under ACC_OUT = 0b00 a quiet output is +0 or keeps its region entry; under 0b01 it is +0
or untouched; the Welt receives it as +0; it is not contributed to a Fen table. -/
def sparseOutlet (q : SGeo) : Outlet :=
  let g := q.g
  let stays := bitOf g.ctl 5
  let isQuiet := fun (j : TileJob) (a b : Nat) => quiet q j.b (j.m0 + a) (j.n0 + b)
  let old := fun (o : TileOuts) (j : TileJob) => regionRows o.region g.paired (tileRow g) j.mm j.nn
  let remap := fun (f : Nat → Nat → Nat → Nat) (sums : List (List Nat)) => (sums.zip (List.range sums.length)).map (fun x =>
    (x.1.zip (List.range x.1.length)).map (fun y => f x.2 y.2 y.1))
  let kept := fun (o : TileOuts) (j : TileJob) (sums : List (List Nat)) =>
    let r := old o j
    remap (fun a b v => if isQuiet j a b && stays && decide (accOut g.ctl = 0) then (r.getD a []).getD b 0 else v) sums
  { keep := kept
    out := fun o j sums =>
      let shown := remap (fun a b v => if isQuiet j a b && !(stays && decide (accOut g.ctl = 0)) then 0 else v) (kept o j sums)
      let o := { o with region := putRows o.region g.paired (tileRow g) (if accOut g.ctl = 0 then shown else sums) }
      let items := (cellsOf shown).filterMap (fun x =>
        if isQuiet j x.1 x.2.1 && (stays || decide (accOut g.ctl = 3)) then none else some (placeOf g j x.1 x.2.1, x.2.2))
      match accOut g.ctl with
      | 1 => { o with stores := items.foldl (fun t e => tins e.1 e.2 t) o.stores }
      | 2 => (match g.target with
        | some t => { o with out := o.out ++ tileElems t shown }
        | none => o)
      | 3 => { o with out := o.out ++ items.filter (fun e => decide (e.2 % 2 ^ 47 ≠ 0)) }
      | _ => o }

/-- Contributions to a Fen table (R158, R159). -/
def toFen (t addr : Nat) (r : Run) (out : List (Nat × Nat)) : Status × Run :=
  let (full, r) := contributeAll r t addr out
  (if full then .noResource else .ok, r)

/-- Bytes of an output bitmap (R143, R157). -/
def selBytes (rows cols : Nat) : Nat := 8 * rows * ceilDiv (ceilDiv cols 32) 64

/-- The shape checks of R101 and R156. -/
def sparseShape (tr : Bool) (a x : Desc) (c : Option Desc) : Bool :=
  isDense a && !isDense x && decide (x.rank = 2) && soleElem a.elem && soleElem x.elem &&
  decide (dim (seenExt a) 0 = dim x.ext (b2n tr)) &&
  (match c with
   | none => true
   | some d => decide (dim (seenExt d) 1 = dim (seenExt a) 1) && decide (dim (seenExt d) 0 = dim x.ext (1 - b2n tr)) &&
     decide (batchExt d = batchExt a) && !elemInt d.elem)

/-- A sparse product that has passed its checks. -/
def sparseRun (s : State) (cmd : Cmd) (core : Nat) (tr : Bool) (a x : Desc) (c : Option Desc) (g : Geo) (sel fen : Nat) : Res :=
  let p := cmd.part.getD 16
  let out := accOut g.ctl
  let k := physOf s core
  let t := fenNumber s p fen
  let s := if out = 3 then fenBind s p k fen else s
  let r := newRun s cmd ([0, 4] ++ (if accInit g.ctl = 2 then [2] else []) ++ (if out = 1 then [3] else []) ++
    (if out = 2 then [1] else []) ++ (if out = 3 then [5] else []))
  let nb := (batchExt a).foldl (· * ·) 1
  let (bm, r) := if bitOf g.ctl 6 then rRead r r.s sel (selBytes (g.m * nb) g.n) else ([], r)
  let r := withHot r (if out = 1 then c else none)
  let (av, r) := loadVals r a
  let rec_ := loadRec r.s r.p x
  let (tiles, r) := readTiles r r.s rec_ x (List.range (tileCount x.elem x.ext)) []
  let (cv, r) := match c with
    | some d => if accInit g.ctl = 2 then loadA48 r d else ([], r)
    | none => ([], r)
  if r.bad || r.stop then commitRun r [] .ok []
  else
    let q : SGeo := { g := g, tr := tr, rec_ := rec_, rows := packedRows x tiles, sel := if bitOf g.ctl 6 then some bm else none }
    let starts := (List.range nb).flatMap (fun b => (tileStarts g).map (fun t => (b, t)))
    let cov := fun (ix : List Nat) => !(bitOf g.ctl 5 && quiet q (flatIx (((c.map seenExt).getD []).drop 2) (ix.drop 2)) (dim ix 1) (dim ix 0))
    productRun r g (sparseOutlet q) (sparseJobs (walkSeed cmd) q av cv starts 0) c cov (if out = 3 then toFen t fen else toWelt core g)

/-- The parameters that SPMM and SPMM_T share. -/
structure SparseP where
  a : Nat
  x : Nat
  c : Nat
  ctl : Nat
  row : Nat
  rsvd : Bool
  sel : Nat
  fen : Nat

/-- The geometry of a sparse product; `tr` when S is used transposed. -/
def sparseGeo (tr : Bool) (a x : Desc) (ctl row : Nat) : Geo :=
  { m := dim (seenExt a) 1, k := dim x.ext (b2n tr), n := dim x.ext (1 - b2n tr), paired := wideElem x.elem,
    f := rowCycles a.elem, row := row, ctl := ctl }

/-- The descriptors of a sparse product, and whether it writes each. -/
def sparseList (q : SparseP) : List (Nat × Bool) :=
  [(q.a, false), (q.x, false)] ++ (if needsC q.ctl && decide (q.c ≠ 0) then [(q.c, decide (accOut q.ctl = 1))] else [])

/-- Whether a sparse product uses a Fen table, and a selection bitmap. -/
def sparseFen (q : SparseP) : Bool := decide (accOut q.ctl = 3) && decide (q.fen ≠ 0)
def sparseSel (q : SparseP) : Bool := bitOf q.ctl 6 && decide (q.sel ≠ 0)

/-- The checks of a sparse product before those of R225 (R663). -/
def sparseFirst (s : State) (p : Nat) (q : SparseP) : List (Bool × Status × Nat) :=
  [(sparseSel q && !regionOk s p q.sel 1 1 false, .badParam, 0), (sparseFen q && !fenAddrOk s p q.fen, .badParam, 0),
   (sparseFen q && fenDescHurt s p q.fen, .integrityFail, 0),
   (sparseFen q && !fenDescOk s p q.fen, .badDescriptor, 0)]

/-- The checks of a sparse product after those of R225 (R155, R181, R186). -/
def sparseChecks (tr : Bool) (s : State) (p k i : Nat) (q : SparseP) (a x : Desc) (c : Option Desc) : List (Bool × Status × Nat) :=
  let ctl := q.ctl
  let out := accOut ctl
  let g := sparseGeo tr a x ctl q.row
  let nb := (batchExt a).foldl (· * ·) 1
  [(decide (128 ≤ ctl) || decide (accInit ctl = 3) || q.rsvd, .badParam, 0), (!sparseShape tr a x c, .badDescriptor, 0)] ++
  accChecks s k i g (needsC ctl && decide (q.c = 0)) ++
  [(decide (out = 3) && (decide (accInit ctl ≠ 0) || decide (q.fen = 0)), .badParam, 0),
   (bitOf ctl 6 && decide (q.sel = 0), .badParam, 0),
   (decide (out = 3) && decide (2 ^ 24 < g.m * g.n * nb), .badParam, 0),
   (sparseSel q && !regionOk s p q.sel (selBytes (g.m * nb) g.n) 1 false, .badParam, 0),
   (sparseFen q && fenConflict s p k q.fen, .badParam, 0)]

/-- R155 to R159 for either walk. -/
def bodySparse (tr : Bool) (q : SparseP) (s : State) (cmd : Cmd) : Res :=
  let p := cmd.part.getD 16
  let (core, i) := (streamOfHdr s cmd.h).getD (0, 0)
  checked s (sparseFirst s p q) fun _ =>
    withDescs s cmd (sparseList q) fun ds =>
      match ds with
      | a :: x :: rest =>
        let g := sparseGeo tr a x q.ctl q.row
        checked s (sparseChecks tr s p (physOf s core) i q a x rest.head?) fun _ =>
          if accOut q.ctl = 2 then
            match deliverReady s p core i with
            | .no st => { s := s, st := st }
            | .hold b => { s := s, wait := some (.contrib b) }
            | .go t => sparseRun s cmd core tr a x rest.head? { g with target := t } q.sel q.fen
          else sparseRun s cmd core tr a x rest.head? g q.sel q.fen
      | _ => { s := s }

/-- The parameters of SPMM. -/
def spmmOf (q : SpmmP) : SparseP :=
  { a := q.aDesc.toNat, x := q.sDesc.toNat, c := q.cDesc.toNat, ctl := q.ctl.toNat, row := q.accRow.toNat,
    rsvd := decide (q.rsvdA ≠ 0), sel := q.selAddr.toNat, fen := q.fenDesc.toNat }

def bodySpmm (q : SpmmP) : State → Cmd → Res := bodySparse false (spmmOf q)

def execSpmm (h : Hdr) (p : SpmmP) (s : State) : Host.Outcome State Fault Refusal :=
  command (.spmm h p) { op := 0x0301, n := 48, runs := .s } h (packetBytes 0x0301 h (bytesSpmm p))
    (onUnit .sole (bodySpmm p)) s

/-- The parameters of SPMM_T. -/
def spmmTOf (q : SpmmTP) : SparseP :=
  { a := q.aDesc.toNat, x := q.sDesc.toNat, c := q.cDesc.toNat, ctl := q.ctl.toNat, row := q.accRow.toNat,
    rsvd := decide (q.rsvdA ≠ 0), sel := q.selAddr.toNat, fen := q.fenDesc.toNat }

def bodySpmmT (q : SpmmTP) : State → Cmd → Res := bodySparse true (spmmTOf q)

def execSpmmT (h : Hdr) (p : SpmmTP) (s : State) : Host.Outcome State Fault Refusal :=
  command (.spmmT h p) { op := 0x0302, n := 48, runs := .s } h (packetBytes 0x0302 h (bytesSpmmT p))
    (onUnit .sole (bodySpmmT p)) s

end Sys2Proof.Machine
end

