-- ==== Sys2Proof/Machine/Sounding.lean ====
section
/-! DEFINITION. SOUNDING: the sampled estimate of a product and the output bitmap (R160 to R165), and TOPK (R188 to R190). -/
namespace Sys2Proof.Machine

def slotOf (s : State) (k n : Nat) : SoundSlot := tget {} n (coreP s k).slots
def setSlotOf (s : State) (k n : Nat) (x : SoundSlot) : State := modCoreP s k (fun c => { c with slots := tput {} n x c.slots })

/-- Every element of a tensor in the order of its seen indices. -/
def loadEls (r : Run) (d : Desc) : List SrcEl × Run :=
  let ixs := (allIdx (seenExt d)).map (seenIx d)
  let (src, r) := openSource r r.s d ixs
  if r.bad || r.stop then ([], r) else sourceEls r r.s src ixs

/-! ### Scores and thresholds (R162, R163) -/

/-- The estimate round_nearest_even_a48(KB / s × Σ) of a product sum. -/
def estimate (kb n : Nat) (sum : Nat) : Nat × Flags :=
  match a48Dec sum with
  | .fin neg m e =>
    let num := m * kb * 2 ^ 64
    let q := num / max 1 n
    a48Round none neg (2 * q + b2n (decide (q * max 1 n ≠ num))) (e - 65) false
  | _ => (sum, 0)

/-- The score of a granule: the largest magnitude of its estimates, or NaN. -/
def granScore (l : List Nat) : Nat :=
  if l.any (fun c => decide (0x7FE000000000 < c % 2 ^ 47)) then a48Nan else l.foldl (fun a c => max a (c % 2 ^ 47)) 0

/-- floor(4 × log2 score) of a finite non-zero score. -/
def scoreBin (c : Nat) : Option Int :=
  match a48Dec c with
  | .fin _ m e => some ((Nat.log2 (m ^ 4) : Int) + 4 * e)
  | _ => none

/-- The bin of a score: zero scores take the lowest, and only finite scores are binned. -/
def binOf (c : Nat) : Option Nat :=
  if c % 2 ^ 47 = 0 then some 0
  else (scoreBin c).map (fun z => if z < -2048 then 0 else if 2047 < z then 4095 else (z + 2048).toNat)

/-- The largest bin such that the scores in it and above number at least `need`; the value is open when no bin holds so many. -/
def valueBin (r : Run) (h : Tab Nat) (need : Nat) : Int × Run :=
  let hit := h.reverse.foldl (fun (a : Nat × Option Nat) e =>
    match a.2 with
    | some _ => a
    | none => (a.1 + e.2, if need ≤ a.1 + e.2 then some e.1 else none)) (0, none)
  match hit.2 with
  | some b => ((b : Int) - 2048, r)
  | none => let x := rChoice r; ((x.1 % 4096 : Nat) - (2048 : Int), x.2)

/-- Round a quotient by 4 to nearest even. -/
def quarterRne (z : Int) : Int :=
  let q := z / 4
  let m := z % 4
  if m < 2 then q else if m = 2 then (if q % 2 = 0 then q else q + 1) else q + 1

/-- Whether a score is NaN or at least 2^(b/4). -/
def atLeast (b : Int) (c : Nat) : Bool :=
  decide (0x7FE000000000 ≤ c % 2 ^ 47) ||
  (match scoreBin c with
   | some z => decide (b ≤ z)
   | none => false)

/-- A tile's scores under a slot: the bits that the tile takes, and the slot after it (R163). -/
def slotTile (r : Run) (x : SoundSlot) (keep : Nat) (scores : List Nat) : List Bool × SoundSlot × Run :=
  let g := scores.length
  let hist := fun (h : Tab Nat) => scores.foldl (fun h c => match binOf c with
    | some b => tmod 0 b (· + 1) h
    | none => h) h
  if x.count < 4 then
    let h := hist x.hist
    let x' := { x with count := x.count + 1, hist := h, seen := x.seen + g }
    let all := scores.map (fun _ => true)
    if x'.count = 4 then
      let (b, r) := valueBin r h (ceilDiv (x'.seen * keep) 256)
      (all, { x' with b := b }, r)
    else (all, x', r)
  else
    let (bt, r) := valueBin r (hist []) (ceilDiv (g * keep) 256)
    (scores.map (atLeast x.b), { x with b := quarterRne (3 * x.b + bt) }, r)

/-! ### Sampling (R161) -/

/-- The largest scale that elements carry; what a block without any carries is open. -/
def topScale (r : Run) (l : List SrcEl) : Int × Run :=
  match l.filterMap (·.scale) with
  | [] => let x := rChoice r; ((x.1 % 256 : Nat) - (128 : Int), x.2)
  | e :: es => (es.foldl (fun a b => if a < b then b else a) e, r)

/-- Keys of the blocks of a tile under top-scale sampling; rows and columns hold the elements along the reduction. -/
def blockKeys (r : Run) (rows cols : List (List SrcEl)) : List Nat → List (Nat × Int) × Run
  | [] => ([], r)
  | j :: js =>
    let cut := fun (l : List (List SrcEl)) => l.flatMap (fun v => (v.drop (32 * j)).take 32)
    let (x, r) := topScale r (cut rows)
    let (y, r) := topScale r (cut cols)
    let (rest, r) := blockKeys r rows cols js
    ((j, x + y) :: rest, r)

/-- The sampled blocks of a tile in ascending order. -/
def sampleBlocks (r : Run) (top : Bool) (phase kb : Nat) (rows cols : List (List SrcEl)) : List Nat × Run :=
  if kb = 0 then ([], r)
  else if top then
    let (ks, r) := blockKeys r rows cols (List.range kb)
    ((ks.filter (fun x => decide ((ks.filter (fun y => decide (x.2 < y.2) || (decide (y.2 = x.2) && decide (y.1 < x.1)))).length <
      ceilDiv kb 8))).map (·.1), r)
  else
    let l := (List.range kb).filter (fun j => decide (j % 8 = phase))
    (if l.isEmpty then [kb - 1] else l, r)

/-! ### The estimate of a tile -/

/-- The operands of a sounding pass: the shapes, A's rows and B's columns along the reduction, and B's packed rows when it is
compressed, with the walk. -/
structure SoundOps where
  m : Nat
  k : Nat
  n : Nat
  rec_ : Option SRec
  tr : Bool
  packed : List (List Packed)

/-- The passes of a tile over the sampled blocks, and the number of the walker's next choice. A dense pass holds ten blocks; a compressed
operand packs the sampled positions. -/
def soundWalk (w j : Nat) (q : SoundOps) (blocks : List Nat) (cols : List (List Val)) (n0 : Nat) : Walk × Nat :=
  let inS := fun (k : Nat) => blocks.contains (k / 32)
  match q.rec_ with
  | none =>
    ((chunks 10 (blocks.length + 1) blocks).map (fun bs => cols.map (fun c => bs.map (fun j =>
      (((c.drop (32 * j)).take 32).zip (List.range 32)).map (fun x => { at_ := 32 * j + x.2, val := x.1 })))), j)
  | some rc =>
    if q.tr then
      let rows := (q.packed.zip (List.range q.packed.length)).map (fun x => if inS x.2 then x.1 else [])
      transposedWalk w j 320 rc rows n0 cols.length
    else
      let mine := ((q.packed.drop n0).take cols.length).map (fun c => (c.filter (fun y => inS y.at_)).map (fun y =>
        { y with at_ := 32 * (blocks.idxOf (y.at_ / 32)) + y.at_ % 32 }))
      let back := fun (y : Packed) => { y with at_ := 32 * blocks.getD (y.at_ / 32) 0 + y.at_ % 32 }
      let w := (forwardWalk rc mine (32 * blocks.length) (32 * blocks.length + 1) 0).filter (fun p => p.any (fun c => !c.isEmpty))
      (w.map (fun p => p.map (fun c => c.map (fun g => g.map back))), j)

/-- The parameters of SOUNDING that its tiles use. -/
structure SoundCtl where
  top   : Bool
  phase : Nat
  calib : Bool
  keep  : Nat
  thr   : Nat

/-- Whether a score is NaN or at least the absolute threshold. -/
def overThreshold (thr c : Nat) : Bool :=
  match a48Dec c, a48Dec (thr % 2 ^ 48) with
  | .nan _, _ => true
  | _, .nan _ => false
  | .zero _, .zero _ => true
  | x, t => !valLt x t

/-- A tile of a sounding: its place and passes as a product's, and its number of sampled blocks. -/
structure SoundTile where
  job : TileJob
  s   : Nat

/-- The tiles of a batch, n tiles outer and m tiles inner (R161): rows of A and columns of B along the reduction. -/
def soundTiles (r : Run) (w j : Nat) (q : SoundOps) (z : SoundCtl) (b : Nat) (a c : List (List SrcEl)) :
    List (Nat × Nat) → (List SoundTile × Nat) × Run
  | [] => (([], j), r)
  | (n0, m0) :: rest =>
    let rows := (a.drop m0).take 320
    let cols := (c.drop n0).take 320
    let (blocks, r) := sampleBlocks r z.top z.phase (ceilDiv q.k 32) rows cols
    let vals := fun (l : List (List SrcEl)) => l.map (fun v => v.map (srcVal .l4))
    let (walk, j) := soundWalk w j q blocks (vals cols) n0
    let t : SoundTile := { s := blocks.length, job :=
      { b := b, n0 := n0, nn := cols.length, m0 := m0, mm := rows.length, rows := vals rows,
        passes := walk.map (fun p => (p, rows.map (fun _ => false))) } }
    let ((ts, j), r) := soundTiles r w j q z b a c rest
    ((t :: ts, j), r)

/-- What the tiles of a sounding leave in a segment: the passes gone by, the region, estimates by place, bits by row and granule, the
slot after each tile, and the counts. -/
structure SoundOuts where
  n      : Nat := 0
  region : AccRegion
  est    : Tab (Option Nat) := []
  bits   : Tab Bool := []
  slots  : List SoundSlot
  grans  : Nat := 0
  on     : Nat := 0
  tiles  : Nat := 0

/-- A tile's product sums give its estimates, scores and bits (R162, R163). The flags of the estimates' rounding go to WELT_FLG: the rules
give it no flag field, and the Welt forms the estimate (DESIGN CHOICE, entry 44). -/
def soundOut (r : Run) (q : SoundOps) (z : SoundCtl) (o : SoundOuts) (t : SoundTile) (sums : List (List Nat)) : SoundOuts × Run :=
  let j := t.job
  let es := sums.map (fun row => row.map (estimate (ceilDiv q.k 32) t.s))
  let fl := es.foldl (fun a row => row.foldl (fun a e => a ||| e.2) a) (0 : Flags)
  let r := endUnit { r with wl := r.wl ||| fl, unit := r.unit ||| fl }
  let es := es.map (fun row => row.map (·.1))
  let per := ceilDiv j.nn 32
  let scores := es.flatMap (fun row => (List.range per).map (fun g => granScore ((row.drop (32 * g)).take 32)))
  let x := o.slots.headD {}
  let (bits, x, r) := if z.calib then slotTile r x z.keep scores else (scores.map (overThreshold z.thr), x, r)
  let est := (cellsOf es).foldl (fun t c => tins ((j.b * q.m + j.m0 + c.1) * q.n + j.n0 + c.2.1) (some c.2.2) t) o.est
  let gw := ceilDiv q.n 32
  let on := (bits.zip (List.range bits.length)).foldl (fun t e => tins ((j.b * q.m + j.m0 + e.2 / max 1 per) * gw + j.n0 / 32 + e.2 % max 1 per) e.1 t) o.bits
  ({ o with est := est, bits := on, slots := x :: o.slots, tiles := o.tiles + 1, grans := o.grans + bits.length,
            on := o.on + (bits.filter (fun y => y)).length }, r)

/-- The geometry of a sounding's tiles: single mode, from row 0 of the stream's region, whose rows its passes use as any passes do (R95;
DEDUCED, entry 44). -/
def soundGeo (q : SoundOps) : Geo := { m := q.m, k := q.k, n := q.n, paired := false, f := 1, row := 0, ctl := 4 }

/-- Run the passes of a sounding's tile that lie in this segment. -/
def soundOne (q : SoundOps) (z : SoundCtl) (from_ : Nat) (cut : Cut) (x : SoundOuts × Run) (t : SoundTile) : SoundOuts × Run :=
  let (o, r) := x
  let ol : Outlet := { keep := fun _ _ s => s, out := fun o _ s => { o with region := putRows o.region false 0 s, out := [(1, 1)] } }
  let (y, r) := runTile (soundGeo q) ol from_ cut ({ n := o.n, region := o.region }, r) t.job
  let o := { o with n := y.n, region := y.region }
  if y.out.isEmpty then (o, r) else soundOut r q z o t (regionRows y.region false 0 t.job.mm t.job.nn)

/-- The bytes of a bitmap of rows of `gw` positions (R143). -/
def bitmapBytes (bits : Tab Bool) (rows gw : Nat) : List Byte :=
  (List.range rows).flatMap (fun m => (List.range (ceilDiv gw 64)).flatMap (fun w =>
    leBytes 8 ((List.range 64).foldl (fun a i =>
      if 64 * w + i < gw ∧ tget false (m * gw + 64 * w + i) bits = true then a + 2 ^ i else a) 0)))

/-- The record of SOUNDING (R165). -/
def soundRecord (o : SoundOuts) : List Byte :=
  let x := o.slots.headD {}
  leBytes 8 o.tiles ++ leBytes 8 o.grans ++ leBytes 8 o.on ++ leBytes 2 (unsext 16 x.b) ++ leBytes 1 x.count ++ zeros 5

/-- The words of a bitmap that hold a bit of the given ones: its other bits keep what the bits before them wrote, and those past the end of
a row are 0 (R143). -/
def bitmapWrs (r : Run) (base gw : Nat) (bits : Tab Bool) : List Wr :=
  let words := ceilDiv gw 64
  let ws : Tab Unit := bits.foldl (fun t e => tins (e.1 / gw * words + e.1 % gw / 64) () t) []
  ws.map (fun e =>
    let old := at_ (partRead r.s r.p (base + 8 * e.1) 8) 0 8
    .bytes (base + 8 * e.1) (leBytes 8 ((List.range 64).foldl (fun a i =>
      let g := 64 * (e.1 % words) + i
      let v := decide (g < gw) && (match (bits.find? (fun b => decide (b.1 = e.1 / words * gw + g))) with
        | some b => b.2
        | none => bitOf old i)
      if v then a + 2 ^ i else a) 0)))

/-- The bits that a command which goes on has given already, as its bitmap holds them: what a record that came back has lost (R279). -/
def soundFrom (r : Run) (slot : SoundSlot) (ts : List SoundTile) (q : SoundOps) (base : Nat) : SoundOuts :=
  let region := regionOf r.s r.k r.i
  if r.cmd.passes = 0 then { region := region, slots := [slot] }
  else
    let gw := ceilDiv q.n 32
    let done := (ts.foldl (fun (a : List SoundTile × Nat) t =>
      let n := a.2 + t.job.passes.length
      (if n ≤ r.cmd.passes then t :: a.1 else a.1, n)) ([], 0)).1
    let cells := done.flatMap (fun t => (List.range t.job.mm).flatMap (fun i => (List.range (ceilDiv t.job.nn 32)).map (fun g =>
      let row := t.job.b * q.m + t.job.m0 + i
      bitOf (at_ (partRead r.s r.p (base + 8 * (row * ceilDiv gw 64 + (t.job.n0 / 32 + g) / 64)) 8) 0 8) ((t.job.n0 / 32 + g) % 64))))
    { region := region, slots := [slot], tiles := done.length, grans := cells.length, on := (cells.filter (fun b => b)).length }

/-- A SOUNDING that has passed its checks: its passes, and the estimates and bits of the tiles done (R160 to R165, R278). -/
def soundRun (s : State) (cmd : Cmd) (a b : Desc) (est : Option Desc) (tr : Bool) (z : SoundCtl) (slot bitmap : Nat) (reset : Bool) : Res :=
  let r := newRun s cmd ([0, 1] ++ (if est.isSome then [3] else []) ++ (if isDense a && isDense b then [] else [4]))
  let r := withHot r est
  let (m, k) := (dim (seenExt a) 1, dim (seenExt a) 0)
  let n := if isDense b then dim (seenExt b) 0 else dim b.ext (1 - b2n tr)
  let (av, r) := loadEls r a
  let (bv, r) := loadEls r b
  let rec_ := if isDense b then none else some (loadRec r.s r.p b)
  let (tiles, r) := match rec_ with
    | some rc => readTiles r r.s rc b (List.range (tileCount b.elem b.ext)) []
    | none => ([], r)
  if r.bad || r.stop then commitRun r [] .ok []
  else
    let (r, residue) := runResidues r
    let fails := r.stop || residue.isSome
    let q : SoundOps := { m := m, k := k, n := n, rec_ := rec_, tr := tr, packed := if isDense b then [] else packedRows b tiles }
    let nb := (batchExt a).foldl (· * ·) 1
    let places := (List.range (ceilDiv n 320)).flatMap (fun i => (List.range (ceilDiv m 320)).map (fun j => (320 * i, 320 * j)))
    let ((ts, _), r) := ((allIdx (batchExt a)).zip (List.range nb)).foldl (fun (x : (List SoundTile × Nat) × Run) e =>
      let rows := rowsOf k m (av.drop (m * k * e.2))
      let cols := if isDense b then columns n (rowsOf n k (bv.drop (k * n * bBatch b e.1 (batchExt a))))
        else if tr then columns n (rowsOf n k bv) else rowsOf k n bv
      let cols := if k = 0 then List.replicate n [] else cols
      let y := soundTiles x.2 (walkSeed cmd) x.1.2 q z e.2 rows cols places
      ((x.1.1 ++ y.1.1, y.1.2), y.2)) (([], 0), r)
    let total := (ts.map (fun t => t.job.passes.length)).sum
    let (cut, r) := passCut r fails false total (min m 320)
    if r.held && decide (cut.stop = cmd.passes) then pauseRun r cmd.passes .ok []
    else
      let start : SoundSlot := if reset && decide (cmd.passes = 0) then {} else slotOf r.s r.k slot
      let (o, r) := ts.foldl (soundOne q z cmd.passes cut) (soundFrom r start ts q bitmap, r)
      let r := { r with s := setSlotOf (setRegion r.s r.k r.i o.region) r.k slot (o.slots.headD {}) }
      let r := spend r .sole r.uses (decide (cut.stop < total))
      let (ws, r) := match est with
        | some d => denseWrs r .a48 d (fun ix => (tget none (flatIx (seenExt d) ix) o.est).map (fun v => { code := v }))
        | none => ([], r)
      let ws := ws ++ bitmapWrs r bitmap (ceilDiv n 32) o.bits
      let (v, r) := if fails then rChoice r else (0, r)
      let r := doWrs r (if fails then ws.take (v % (ws.length + 1)) else joinWrs ws)
      if !fails && (r.held || decide (cut.stop < total)) then pauseRun r cut.stop .ok [] else finishRun r residue .ok 0 (soundRecord o)

/-- The shape and format checks of R160. -/
def soundShape (a b : Desc) (est : Option Desc) (tr : Bool) : Bool :=
  decide (a.elem = .l4) && decide (b.elem = .l4) &&
  (if isDense b then decide (dim (seenExt a) 0 = dim (seenExt b) 1) &&
      ((batchExt a).zip ((batchExt b).zip (b.str.drop 2))).all (fun x => decide (x.1 = x.2.1) || decide (x.2.2 = 0))
   else decide (b.rank = 2) && decide (dim (seenExt a) 0 = dim b.ext (b2n tr))) &&
  (match est with
   | none => true
   | some d => isDense d && (decide (d.elem = .a48) || decide (d.elem = .fp32)) && decide (dim (seenExt d) 1 = dim (seenExt a) 1) &&
     decide (dim (seenExt d) 0 = if isDense b then dim (seenExt b) 0 else dim b.ext (1 - b2n tr)) && decide (batchExt d = batchExt a))

/-- The descriptors of a SOUNDING, and whether it writes each. -/
def soundList (q : SoundingP) : List (Nat × Bool) :=
  [(q.aShadow.toNat, false), (q.bShadow.toNat, false)] ++ (if q.estDesc = 0 then [] else [(q.estDesc.toNat, true)])

/-- CTL, KEEP and THRESHOLD of a SOUNDING. -/
def soundCtl (q : SoundingP) : SoundCtl :=
  { top := bitOf q.ctl.toNat 3, phase := fld q.ctl.toNat 0 3, calib := decide (fld q.ctl.toNat 4 2 = 1), keep := q.keep.toNat,
    thr := q.threshold.toNat }

/-- The checks of a SOUNDING after those of R225 (R159). -/
def soundChecks (s : State) (p : Nat) (q : SoundingP) (a b : Desc) (e : Option Desc) : List (Bool × Status × Nat) :=
  let ctl := q.ctl.toNat
  let tr := bitOf ctl 7
  let mode := fld ctl 4 2
  let n := if isDense b then dim (seenExt b) 0 else dim b.ext (1 - b2n tr)
  let rows := dim (seenExt a) 1 * (batchExt a).foldl (· * ·) 1
  [(decide (512 ≤ ctl) || bitOf ctl 6 || decide (2 ≤ mode) || decide (q.rsvdA ≠ 0) || decide (15 < q.slot.toNat) ||
     (decide (mode = 1) && decide (q.keep = 0)) || (tr && isDense b), .badParam, 0),
   (!soundShape a b e tr, .badDescriptor, 0),
   (!regionOk s p q.bitmap.toNat (selBytes rows n) 1 true, .badParam, 0)]

def bodySounding (q : SoundingP) (s : State) (c : Cmd) : Res :=
  let p := c.part.getD 16
  let ctl := q.ctl.toNat
  let bm := q.bitmap.toNat
  checked s [(!regionOk s p bm 1 1 true, .badParam, 0)] fun _ =>
    withDescs s c (soundList q) fun ds =>
      match ds with
      | a :: b :: rest =>
        checked s (soundChecks s p q a b rest.head?) fun _ =>
          soundRun s c a b rest.head? (bitOf ctl 7) (soundCtl q) q.slot.toNat bm (bitOf ctl 8)
        | _ => { s := s }

def execSounding (h : Hdr) (p : SoundingP) (s : State) : Host.Outcome State Fault Refusal :=
  command (.sounding h p) { op := 0x0303, n := 48, runs := .s, rec_ := 32 } h (packetBytes 0x0303 h (bytesSounding p))
    (onUnit .sole (bodySounding p)) s

/-! ### TOPK (R188 to R190) -/

/-- The rank of an A48 key, larger for a larger key; `nan` is where NaN stands above the finite keys. -/
def rankKey (mag : Bool) (nan : Int) (c : Nat) : Int :=
  let m : Int := (c % 2 ^ 47 : Nat)
  if 0x7FE000000000 < c % 2 ^ 47 then nan else if mag || !bitOf c 47 then m else -m

/-- Insert a candidate (key, position, element) into a list in rank order, after equal keys. -/
def insRank (small : Bool) (x : Int × Nat × SrcEl) : List (Int × Nat × SrcEl) → List (Int × Nat × SrcEl)
  | [] => [x]
  | y :: ys => if (if small then decide (x.1 < y.1) else decide (y.1 < x.1)) then x :: y :: ys else y :: insRank small x ys

/-- The first n eligible elements of a row in rank order. -/
def topOf (small : Bool) (n : Nat) (l : List (Int × Nat × SrcEl)) : List (Int × Nat × SrcEl) :=
  l.foldl (fun a x => (insRank small x a).take n) []

/-- Eligible elements of a row with their positions, under SELECT and the row's mask words. -/
def eligibleEls (select : Nat) (mask : List Byte) (row : List SrcEl) : List (Nat × SrcEl) :=
  ((List.range row.length).zip row).filter (fun x =>
    decide (select = 0) || (bitOf (at_ mask (8 * (x.1 / 64)) 8) (x.1 % 64) == decide (select = 1)))

/-- The keys of eligible elements, converted on the Welt. -/
def keyEls (r : Run) (e : Elem) (mag : Bool) (nan : Int) (l : List (Nat × SrcEl)) : List (Int × Nat × SrcEl) × Run :=
  let (cs, r) := weltA48 r (l.map (fun x => srcVal e x.2))
  ((cs.zip l).map (fun x => (rankKey mag nan x.1, x.2.1, x.2.2)), r)

/-- A mask bitmap row: ceil(L / 64) words (R143). -/
def maskRow (b : List Byte) (len row : Nat) : List Byte := slice b (8 * ceilDiv len 64 * row) (8 * ceilDiv len 64)

/-- A TOPK that has passed its checks, whose resume units are its rows (R188 to R190, R278). The short rows of the units done before it
came back from a stream record are a free value (R279; DESIGN CHOICE, entry 44). -/
def topkRun (s : State) (c : Cmd) (src vd pd : Desc) (n ctl maskAt : Nat) : Res :=
  let len := dim (seenExt src) 0
  let rows := ((seenExt src).drop 1).foldl (· * ·) 1
  let select := fld ctl 2 2
  let r := newRun s c ([1] ++ (if src.elem = vd.elem && !elemScaled vd.elem then [] else [3]) ++ (if isDense src then [] else [4]))
  let r := withHot r (some vd)
  let (els, r) := loadEls r src
  let (bm, r) := if select = 0 then ([], r) else rRead r r.s maskAt (8 * ceilDiv len 64 * rows)
  let (v, r) := rChoice r
  let nan : Int := if v % 2 = 0 then 2 ^ 48 else 0x7FDFFFFFFFFF
  if r.bad || r.stop then commitRun r [] .ok []
  else
    let (r, residue) := runResidues r
    let whole := !isDense vd || (elemScaled vd.elem && !vd.given && decide (seenExt vd ≠ vd.ext))
    let (stop, r) := unitStop r residue.isSome whole rows
    let mine := segment r stop (List.range rows)
    let (tops, r) := mine.foldl (fun (x : Tab (List (Nat × SrcEl) × Bool) × Run) i =>
      let el := eligibleEls select (maskRow bm len i) ((els.drop (len * i)).take len)
      let (ks, r) := keyEls x.2 src.elem (bitOf ctl 1) nan el
      (tins i ((topOf (bitOf ctl 0) n ks).map (·.2), decide (el.length < n)) x.1, endUnit r)) ([], r)
    let (before, r) := if c.passes = 0 then (0, r) else match c.tally with
      | x :: _ => (x, r)
      | [] => let y := rChoice r; (y.1 % (c.passes + 1), y.2)
    let short := before + (tops.filter (·.2.2)).length
    let pick := fun (d : Desc) (ix : List Nat) =>
      let f := flatIx (seenExt d) ix
      if mine.contains (f / n) then some (((tget ([], false) (f / n) tops).1)[f % n]?) else none
    let val := fun (ix : List Nat) => (pick vd ix).map (fun o => (o.map (·.2)).getD { code := 0 })
    let pos := fun (ix : List Nat) => (pick pd ix).map (fun o => ({ code := (o.map (·.1)).getD 0xFFFFFFFF } : SrcEl))
    let (ps, r) := denseWrs r .u32 pd pos
    let (st, vs, r) := storeInto r src.elem vd val
    endUnits r .welt (mine.map (fun _ => ceilDiv len 1024)) stop rows (vs ++ ps) residue st (leBytes 8 rows ++ leBytes 8 short) [short]

/-- Whether a destination holds rows × K elements. -/
def topShape (src d : Desc) (n : Nat) : Bool :=
  decide (dim (seenExt d) 0 = n) && decide (((seenExt d).drop 1).foldl (· * ·) 1 = ((seenExt src).drop 1).foldl (· * ·) 1)

/-- Whether a TOPK uses its mask address. -/
def topkMasked (q : TopkP) : Bool := decide (fld q.ctl.toNat 2 2 ≠ 0) && decide (q.maskAddr.toNat ≠ 0)

/-- The checks of a TOPK after those of R225 (R188). -/
def topkChecks (s : State) (p : Nat) (q : TopkP) (src vd pd : Desc) : List (Bool × Status × Nat) :=
  let n := q.k.toNat
  let ctl := q.ctl.toNat
  let select := fld ctl 2 2
  let m := q.maskAddr.toNat
  let len := dim (seenExt src) 0
  let rows := ((seenExt src).drop 1).foldl (· * ·) 1
  [(decide (n = 0) || decide (64 < n) || decide (16 ≤ ctl) || decide (select = 3) || decide (q.rsvdA ≠ 0), .badParam, 0),
   (decide (select ≠ 0) && decide (m = 0), .badParam, 0),
   (elemInt src.elem || elemInt vd.elem || decide (pd.elem ≠ .u32) || !isDense pd || decide (0xFFFFFFFE < len) ||
     !topShape src vd n || !topShape src pd n, .badDescriptor, 0),
   (topkMasked q && !regionOk s p m (8 * ceilDiv len 64 * rows) 1 false, .badParam, 0)]

def bodyTopk (q : TopkP) (s : State) (c : Cmd) : Res :=
  let p := c.part.getD 16
  checked s [(topkMasked q && !regionOk s p q.maskAddr.toNat 1 1 false, .badParam, 0)] fun _ =>
    withDescs s c [(q.srcDesc.toNat, false), (q.valDesc.toNat, true), (q.posDesc.toNat, true)] fun ds =>
      match ds with
      | [src, vd, pd] =>
        checked s (topkChecks s p q src vd pd) fun _ => topkRun s c src vd pd q.k.toNat q.ctl.toNat q.maskAddr.toNat
      | _ => { s := s }

def execTopk (h : Hdr) (p : TopkP) (s : State) : Host.Outcome State Fault Refusal :=
  command (.topk h p) { op := 0x0305, n := 40, runs := .s, rec_ := 16 } h (packetBytes 0x0305 h (bytesTopk p))
    (onUnit .welt (bodyTopk p)) s

end Sys2Proof.Machine
end

