-- ==== Sys2Proof/Machine/Masks.lean ====
section
/-! DEFINITION. Mask records, PRUNE, REGROW and REMASK, the epoch vote and its decision, and the commit and abort of staged
records (R191 to R213). -/
namespace Sys2Proof.Machine

/-! ### Mask bitmaps and records (R143, R191 to R194) -/

/-- Rows of a shard: every index beyond the innermost dimension. -/
def shardRows (ext : List Nat) : Nat := (ext.drop 1).foldl (· * ·) 1
/-- Bytes of a shard's mask bitmap. -/
def maskBytes (ext : List Nat) : Nat := 8 * ceilDiv (dim ext 0) 64 * shardRows ext
/-- Whether a linear position is in the mask that a bitmap's bytes hold. -/
def maskAt (b : List Byte) (len f : Nat) : Bool := bitOf (at_ b (8 * ceilDiv len 64 * (f / len) + f % len / 8) 1) (f % len % 8)
/-- The mask of a shard by linear position. -/
def maskBits (b : List Byte) (ext : List Nat) : List Bool :=
  (List.range (dim ext 0 * shardRows ext)).map (maskAt b (dim ext 0))
/-- The bitmap of a mask; bits beyond the extent are written 0. -/
def maskPut (m : List Bool) (ext : List Nat) : List Byte := bitmapBytes (tputs false 0 m []) (shardRows ext) (dim ext 0)

/-- A mask record as a command reads it. -/
structure MaskRec where
  addr  : Nat
  state : Nat
  epoch : Nat
  cur   : Nat
  next  : Nat
  ext   : List Nat
deriving DecidableEq, Repr

/-- The shape that SHAPE_DESC gives, or the failing check of R225. Its element format is ignored (R192), so the parts of checks 3 to 8 that
turn on a format do not apply (DESIGN CHOICE, entry 45). -/
def shapeExt (s : State) (p a : Nat) : Except Nat (List Nat) :=
  if decide (a % 64 ≠ 0) || !pagesOk s p a (a + 191 : Nat) false then .error 1
  else
    match parseDesc a (leBytes 1 0x30 ++ (partRead s p a 192).drop 1) with
    | none => .error 1
    | some d =>
      if !(d.lo.zip (d.hi.zip d.ext)).all (fun x => decide (x.1 ≤ x.2.1) && decide (x.2.1 ≤ x.2.2)) then .error 2
      else if d.trans && !decide (2 ≤ d.rank) then .error 3
      else if d.srec ≠ 0 ∧ d.srec % 64 ≠ 0 then .error 5
      else .ok (seenExt d)

/-- The BAD_PARAM conditions of R193 on a record's own fields. -/
def recordBad (b : List Byte) : Bool :=
  decide (4 < at_ b 0 1) || !allZero (slice b 1 7) || !allZero (slice b 60 4) || decide (at_ b 8 8 = 0) ||
  decide (at_ b 8 8 = 2 ^ 64 - 1) || decide (at_ b 16 8 % 64 ≠ 0) || decide (at_ b 24 8 % 64 ≠ 0) || decide (at_ b 32 8 % 64 ≠ 0)

/-- The checks of R193 and R194 on a record, after the command's own parameters; `accept` gives the status of a state in which the
command is not accepted. The record, or how the command ends. -/
def recordOf (s : State) (p a : Nat) (bad : Bool) (accept : Nat → Option Status) : Except Res MaskRec :=
  let b := partRead s p a 64
  match firstFail [(!regionOk s p a 64 64 true, .badParam, 0), (bad, .badParam, 0), (partPoisoned s p a 64, .integrityFail, 0),
      (recordBad b, .badParam, 0)] with
  | some (st, d) => .error { s := if partPoisoned s p a 64 then noteRead s p a 64 else s, st := st, detail := d }
  | none =>
    match shapeExt s p (at_ b 32 8) with
    | .error d => .error { s := s, st := .badDescriptor, detail := d }
    | .ok ext =>
      let n := maskBytes ext
      let (c, x) := (at_ b 16 8, at_ b 24 8)
      match firstFail [(meets c n x n || meets c n a 64 || meets x n a 64, .badParam, 0),
          (!regionOk s p c n 64 false || !regionOk s p x n 64 true, .badDescriptor, 0)] with
      | some (st, d) => .error { s := s, st := st, detail := d }
      | none =>
        match accept (at_ b 0 1) with
        | some st => .error { s := s, st := st }
        | none => .ok { addr := a, state := at_ b 0 1, epoch := at_ b 8 8, cur := c, next := x, ext := ext }

/-- Whether another command that has begun holds a record (R193). -/
def recordHeld (s : State) (p a : Nat) : Bool :=
  s.waiting.any (fun w => decide (w.cmd.part = some p) && decide (0 < w.cmd.passes) && (match w.wait, w.instr with
    | .units _, .prune _ q => decide (q.record.toNat = a)
    | .units _, .regrow _ q => decide (q.record.toNat = a)
    | _, _ => false))

/-- Go on with a record that passes its checks. -/
def withRecord (s : State) (p a : Nat) (bad : Bool) (accept : Nat → Option Status) (go : MaskRec → Res) : Res :=
  match recordOf s p a bad accept with
  | .error r => r
  | .ok m => go m

/-- The writes of a new NEXT_MASK, and of REMOVED and ADDED as the masks then stand (R192, R196, R199). -/
def maskWrs (m : MaskRec) (cur next : List Bool) : List Wr :=
  let z := cur.zip next
  [.bytes m.next (maskPut next m.ext),
   .bytes (m.addr + 40) (leBytes 8 (z.filter (fun x => x.1 && !x.2)).length ++ leBytes 8 (z.filter (fun x => !x.1 && x.2)).length)]

/-- IDLE to OPEN: CUR_MASK is copied to NEXT_MASK (R194). -/
def openRecord (r : Run) (m : MaskRec) (cur : List Byte) : Run :=
  if m.state = 0 then
    doWrs r [.bytes m.next cur, .bytes m.addr (leBytes 1 1), .bytes (m.addr + 40) (zeros 16)]
  else r

/-- The scope units of one row of a shard as runs of linear positions: its groups, or the row (R195). -/
def rowUnits (len scope glog q : Nat) : List (List Nat) :=
  let row := (List.range len).map (q * len + ·)
  if scope = 1 then [row] else chunks (2 ^ glog) (len + 1) row

/-- The scope units of a shard: groups, rows or the whole (R195). -/
def scopeUnits (ext : List Nat) (scope glog : Nat) : List (List Nat) :=
  let len := dim ext 0
  let rows := shardRows ext
  if scope = 2 then [List.range (len * rows)] else (List.range rows).flatMap (rowUnits len scope glog)

/-- The resume units of a mask command (R278): rows, but one under TENSOR scope, each as its scope units. -/
def maskUnits (ext : List Nat) (scope glog : Nat) : List (List (List Nat)) :=
  if scope = 2 then [scopeUnits ext 2 0] else (List.range (shardRows ext)).map (rowUnits (dim ext 0) scope glog)

/-- Main cycles of a mask command's resume units on the Welt (R201). -/
def maskUse (ext : List Nat) (scope : Nat) : Nat :=
  if scope = 2 then 3 * ceilDiv (dim ext 0 * shardRows ext) 1024 else ceilDiv (dim ext 0) 1024

/-- What the units done before have counted: changed positions and short units. A command that came back from a stream record has lost
both, which are free values (R279; DESIGN CHOICE, entry 44). -/
def maskBefore (r : Run) : Nat × Nat × Run :=
  if r.cmd.passes = 0 then (0, 0, r)
  else match r.cmd.tally with
    | a :: b :: _ => (a, b, r)
    | _ => let x := rChoice r; let y := rChoice x.2; (x.1, y.1, y.2)

/-- A reserved SCOPE, GROUP_LOG or K (R195, R198). -/
def scopeBad (scope glog k : Nat) : Bool :=
  decide (2 < scope) || decide (k = 0) ||
  (if scope = 0 then decide (glog < 2) || decide (6 < glog) || decide (2 ^ glog < k)
   else decide (glog ≠ 0) || (decide (scope = 1) && decide (64 < k)))

/-- Where a NaN stands against an infinity among ranking keys: unspecified (R188). -/
def nanKey (r : Run) : Int × Run := let x := rChoice r; (if x.1 % 2 = 0 then 2 ^ 48 else 0x7FDFFFFFFFFF, x.2)

/-- The mask bitmaps of a record. -/
def readMasks (r : Run) (m : MaskRec) : List Byte × List Byte × Run :=
  let (c, r) := rRead r r.s m.cur (maskBytes m.ext)
  let (n, r) := if m.state = 0 then (c, r) else rRead r r.s m.next (maskBytes m.ext)
  (c, n, r)

/-! ### PRUNE (R195 to R197) -/

/-- The positions that PRUNE removes of one unit, and whether it had fewer eligible than K. -/
def pruneUnit (r : Run) (e : Elem) (els : List SrcEl) (next : List Bool) (k : Nat) (keep : Bool) (nan : Int) (unit : List Nat) :
    List Nat × Bool × Run :=
  let el := unit.filter (fun f => next.getD f false)
  let (ks, r) := keyEls r e true nan (el.map (fun f => (f, els.getD f { code := 0 })))
  let top := (topOf (!keep) k ks).map (·.2.1)
  (if keep then el.filter (fun f => !top.contains f) else top, decide (el.length < k), r)

/-- A PRUNE that has passed its checks (R196, R197). -/
def pruneRun (s : State) (c : Cmd) (m : MaskRec) (d : Desc) (k scope glog : Nat) (keep : Bool) : Res :=
  let r := newRun s c ([1] ++ (if isDense d then [] else [4]))
  let (cb, nb, r) := readMasks r m
  let r := openRecord r m cb
  let (els, r) := loadEls r d
  if r.bad || r.stop then commitRun r [] .ok []
  else
    let (r, residue) := runResidues r
    let units := maskUnits m.ext scope glog
    let (stop, r) := unitStop r residue.isSome false units.length
    let mine := segment r stop units
    let next := maskBits nb m.ext
    let (nan, r) := nanKey r
    let (n0, short0, r) := maskBefore r
    let (out, short, r) := mine.flatten.foldl (fun (x : List Nat × Nat × Run) u =>
      let (l, sh, r) := pruneUnit x.2.2 d.elem els next k keep nan u
      (x.1 ++ l, x.2.1 + b2n sh, endUnit r)) ([], short0, r)
    let gone : Tab Bool := out.foldl (fun t f => tput false f true t) []
    let next' := (next.zip (List.range next.length)).map (fun x => x.1 && !tget false x.2 gone)
    let n := n0 + out.length
    endUnits r .welt (mine.map (fun _ => maskUse m.ext scope)) stop units.length (maskWrs m (maskBits cb m.ext) next') residue .ok
      (leBytes 8 n ++ leBytes 8 short ++ zeros 8) [n, short]

/-- PRUNE and REGROW are accepted in IDLE and OPEN (R194). -/
def acceptEdit (st : Nat) : Option Status := if st ≤ 1 then none else some .badParam

/-- Whether PRUNE's parameters break R195. -/
def pruneBad (q : PruneP) : Bool :=
  scopeBad q.scope.toNat q.groupLog.toNat q.k.toNat || decide (1 < q.ctl.toNat) || decide (q.rsvdA ≠ 0)

def bodyPrune (q : PruneP) (s : State) (c : Cmd) : Res :=
  let p := c.part.getD 16
  checked s [(!regionOk s p q.record.toNat 64 64 true, .badParam, 0)] fun _ =>
  withDescs s c [(q.wDesc.toNat, false)] fun ds =>
  withRecord s p q.record.toNat (pruneBad q) acceptEdit fun m =>
      match ds with
      | [d] =>
        checked s [(elemInt d.elem || decide (seenExt d ≠ m.ext), .badDescriptor, 0), (recordHeld s p m.addr, .contextBusy, 0)] fun _ =>
          pruneRun s c m d q.k.toNat q.scope.toNat q.groupLog.toNat (bitOf q.ctl.toNat 0)
      | _ => { s := s }

def execPrune (h : Hdr) (p : PruneP) (s : State) : Host.Outcome State Fault Refusal :=
  command (.prune h p) { op := 0x0401, n := 32, runs := .s, rec_ := 24 } h (packetBytes 0x0401 h (bytesPrune p))
    (onUnit .welt (bodyPrune p)) s

/-! ### REGROW (R198 to R200) -/

/-- The estimates by linear position of the shard: those of the rows that ROWS_DESC names, later entries last. -/
def estimates (m : MaskRec) (els : List SrcEl) (rows : Option (List Int)) : Tab (Option SrcEl) :=
  let len := dim m.ext 0
  let put := fun (t : Tab (Option SrcEl)) (row i : Nat) => tputs none (row * len) (((els.drop (i * len)).take len).map some) t
  match rows with
  | none => (List.range (shardRows m.ext)).foldl (fun t i => put t i i) []
  | some l => (l.zip (List.range l.length)).foldl (fun t x =>
      if 0 ≤ x.1 ∧ x.1 < ((shardRows m.ext : Nat) : Int) then put t x.1.toNat x.2 else t) []

/-- The cap group of a linear position. -/
def capGroup (len cap f : Nat) : Nat := (f / len) * (ceilDiv len (2 ^ cap)) + f % len / 2 ^ cap

/-- Walk a unit's eligible positions in rank order, adding up to k of them under the cap; `full` counts present positions by cap
group. -/
def regrowWalk (len capLog cap : Nat) : Nat → List Nat → Tab Nat → List Nat → List Nat × Tab Nat
  | _, [], full, acc => (acc, full)
  | 0, _, full, acc => (acc, full)
  | k + 1, f :: fs, full, acc =>
    let g := capGroup len capLog f
    if capLog ≠ 0 ∧ cap ≤ tget 0 g full then regrowWalk len capLog cap (k + 1) fs full acc
    else regrowWalk len capLog cap k fs (tmod 0 g (· + 1) full) (f :: acc)
termination_by structural _ l => l

/-- What REGROW's parameters say of the walk. -/
structure RegrowCtl where
  k      : Nat
  scope  : Nat
  glog   : Nat
  capLog : Nat
  cap    : Nat
  excl   : Bool
deriving DecidableEq, Repr

/-- A REGROW that has passed its checks. -/
def regrowRun (s : State) (c : Cmd) (m : MaskRec) (d : Desc) (rd : Option Desc) (z : RegrowCtl) : Res :=
  let r := newRun s c [1]
  let (cb, nb, r) := readMasks r m
  let r := openRecord r m cb
  let (els, r) := loadEls r d
  let (rows, r) := match rd with
    | some x => (let y := readIndex r x; (some y.1, y.2))
    | none => (none, r)
  if r.bad || r.stop then commitRun r [] .ok []
  else
    let (r, residue) := runResidues r
    let units := maskUnits m.ext z.scope z.glog
    let (stop, r) := unitStop r residue.isSome false units.length
    let mine := segment r stop units
    let len := dim m.ext 0
    let r := { r with oob := if c.passes ≠ 0 then r.oob else r.oob + (match rows with
      | some l => oobCount l (shardRows m.ext)
      | none => 0) }
    let est := estimates m els rows
    let (cur, next) := (maskBits cb m.ext, maskBits nb m.ext)
    let (nan, r) := nanKey r
    let (n0, short0, r) := maskBefore r
    let full : Tab Nat := (next.zip (List.range next.length)).foldl (fun t x =>
      if x.1 = true then tmod 0 (capGroup len z.capLog x.2) (· + 1) t else t) []
    let (added, _, short, r) := mine.flatten.foldl (fun (x : List Nat × Tab Nat × Nat × Run) u =>
      let el := u.filterMap (fun f =>
        if next.getD f false || (z.excl && cur.getD f false) then none else (tget none f est).map (fun e => (f, e)))
      let (ks, r) := keyEls x.2.2.2 d.elem true nan el
      let order := (topOf false el.length ks).map (·.2.1)
      let (l, full) := regrowWalk len z.capLog z.cap z.k order x.2.1 []
      (x.1 ++ l, full, x.2.2.1 + b2n (decide (l.length < z.k)), endUnit r)) ([], full, short0, r)
    let more : Tab Bool := added.foldl (fun t f => tput false f true t) []
    let next' := (next.zip (List.range next.length)).map (fun x => x.1 || tget false x.2 more)
    let n := n0 + added.length
    endUnits r .welt (mine.map (fun _ => maskUse m.ext z.scope)) stop units.length (maskWrs m cur next') residue .ok
      (leBytes 8 n ++ leBytes 8 short ++ zeros 8) [n, short]

/-- The shapes that REGROW accepts (R198). -/
def regrowShape (m : MaskRec) (d : Desc) (rd : Option Desc) : Bool :=
  isDense d && !elemInt d.elem &&
  (match rd with
   | none => decide (seenExt d = m.ext)
   | some x => isDense x && decide (x.elem = .u32) && decide (dim (seenExt d) 0 = dim m.ext 0) &&
     decide (shardRows (seenExt d) = (seenExt x).foldl (· * ·) 1))

/-- The parameters of a REGROW. -/
def regrowCtl (q : RegrowP) : RegrowCtl :=
  { k := q.k.toNat, scope := q.scope.toNat, glog := q.groupLog.toNat, capLog := q.capLog.toNat, cap := q.cap.toNat, excl := bitOf q.ctl.toNat 0 }

/-- Whether REGROW's parameters break R198. -/
def regrowBad (q : RegrowP) : Bool :=
  let z := regrowCtl q
  let capBad := if z.capLog = 0 then decide (z.cap ≠ 0)
    else decide (z.capLog < 2) || decide (4 < z.capLog) || decide (z.cap = 0) || decide (2 ^ z.capLog ≤ z.cap)
  scopeBad z.scope z.glog z.k || capBad || decide (1 < q.ctl.toNat) || decide (q.rsvdA ≠ 0)

/-- The descriptors of a REGROW. -/
def regrowList (q : RegrowP) : List (Nat × Bool) :=
  [(q.estDesc.toNat, false)] ++ (if q.rowsDesc = 0 then [] else [(q.rowsDesc.toNat, false)])

def bodyRegrow (q : RegrowP) (s : State) (c : Cmd) : Res :=
  let p := c.part.getD 16
  checked s [(!regionOk s p q.record.toNat 64 64 true, .badParam, 0)] fun _ =>
  withDescs s c (regrowList q) fun ds =>
  withRecord s p q.record.toNat (regrowBad q) acceptEdit fun m =>
      match ds with
      | d :: rest =>
        checked s [(!regrowShape m d rest.head?, .badDescriptor, 0), (recordHeld s p m.addr, .contextBusy, 0)] fun _ => regrowRun s c m d rest.head? (regrowCtl q)
      | _ => { s := s }

def execRegrow (h : Hdr) (p : RegrowP) (s : State) : Host.Outcome State Fault Refusal :=
  command (.regrow h p) { op := 0x0402, n := 40, runs := .s, rec_ := 24 } h (packetBytes 0x0402 h (bytesRegrow p))
    (onUnit .welt (bodyRegrow p)) s

/-! ### Values under a new mask (R204, R205) -/

/-- The regrown values of a block: codes by place, and the scale that the block then carries. `old` is the block's scale before,
none when it held only zeros. -/
def regrownBlock (r : Run) (d : Desc) (init : Option Elem) (old : Option Int) (els : List SrcEl) : (List Nat × Option Int) × Run :=
  match init with
  | none => ((els.map (fun _ => 0), none), r)
  | some se =>
    if els.isEmpty then (([], none), r)
    else
      let x := convBlock r false se d.elem d.sat d.sr old els
      ((x.1.1, if elemScaled d.elem && old.isNone then some x.1.2 else none), x.2)

/-- One entry of a block under the masks: place, code before, current and next bits, and the initial value. -/
structure MaskEl where
  code : Nat
  cur  : Bool
  next : Bool
  init : SrcEl

/-- The codes of a block under the new mask, and its scale. -/
def remaskBlock (r : Run) (d : Desc) (init : Option Elem) (scale : Int) (l : List MaskEl) : (List Nat × Int) × Run :=
  let grown := l.filter (fun x => x.next && !x.cur)
  let zero := l.all (fun x => zeroCode d.elem x.code)
  let ((cs, e), r) := regrownBlock r d init (if elemScaled d.elem && !zero then some scale else none) (grown.map (·.init))
  let out := l.foldl (fun (a : List Nat × List Nat) x =>
    if x.next && !x.cur then (a.1 ++ [a.2.headD 0], a.2.tail) else (a.1 ++ [if x.next then x.code else 0], a.2)) ([], cs)
  ((out.1, e.getD scale), r)

/-- Remask the 32-element blocks of a tile in order: codes and scales. -/
def remaskBlocks (r : Run) (d : Desc) (init : Option Elem) : List (Int × List MaskEl) → (List Nat × List Int) × Run
  | [] => (([], []), r)
  | (e, l) :: rest =>
    let ((cs, e'), r) := remaskBlock r d init e l
    let ((cs', es'), r) := remaskBlocks r d init rest
    ((cs ++ cs', e' :: es'), r)

/-! ### REMASK (R202 to R206) -/

/-- A remask entry that has passed its checks. -/
structure REntry where
  at_    : Nat
  bytes  : List Byte
  d      : Desc
  dBytes : List Byte
  rec_   : Option SRec
  init   : Option Desc
  iBytes : List Byte
deriving DecidableEq, Repr

def reWeight (b : List Byte) : Bool := decide (at_ b 32 1 = 0)

/-- Check a remask entry (R203, R206): every condition gives BAD_DESCRIPTOR. -/
def checkEntry (s : State) (p a : Nat) (m : MaskRec) : Except Status REntry :=
  let b := partRead s p a 48
  if partPoisoned s p a 48 then .error .integrityFail
  else
    match checkDesc s p (at_ b 0 8) true with
    | .no st _ => .error (if st = .integrityFail then st else .badDescriptor)
    | .ok d =>
      let ia := at_ b 40 8
      let init : Except Status (Option Desc) :=
        if ia = 0 then .ok none
        else match checkDesc s p ia false with
          | .no st _ => .error (if st = .integrityFail then st else .badDescriptor)
          | .ok x => if isDense x && decide (seenExt x = m.ext) && !badConv x.elem d.elem && (d.alias_ || !isDense d || !overlap s p x d)
            then .ok (some x) else .error .badDescriptor
      let (st, sd, cap) := (at_ b 8 8, at_ b 16 8, at_ b 24 8)
      let rec_ := if isDense d then none else some (loadRec s p d)
      let tn := 32 * tileCount d.elem d.ext
      let place := match rec_ with
        | none => decide (st = 0) && decide (sd = 0) && decide (cap = 0)
        | some x => decide (cap % 32 = 0) && regionOk s p st tn 32 true && regionOk s p sd cap 32 true && !meets st tn sd cap &&
          (recRegions x (tileCount d.elem d.ext)).all (fun y => !meets st tn y.1 y.2 && !meets sd cap y.1 y.2)
      if decide (1 < at_ b 32 1) || !allZero (slice b 33 7) || (decide (ia ≠ 0) && !reWeight b) || decide (seenExt d ≠ m.ext) || !place
      then .error .badDescriptor
      else init.map (fun i => { at_ := a, bytes := b, d := d, dBytes := partRead s p (at_ b 0 8) 192, rec_ := rec_, init := i,
                                iBytes := if ia = 0 then [] else partRead s p ia 192 })

/-- Check every entry. -/
def checkEntries (s : State) (p : Nat) (m : MaskRec) : List Nat → Except Status (List REntry)
  | [] => .ok []
  | a :: rest =>
    match checkEntry s p a m with
    | .error st => .error st
    | .ok e => (checkEntries s p m rest).map (e :: ·)

/-- Whether a Stitched tensor could not hold a mask: a group with more than N present positions (R206). -/
def maskOverfull (x : SRec) (ext : List Nat) (next : List Bool) : Bool :=
  decide (x.format = 2) && (scopeUnits ext 0 (mLog x.nm)).any (fun g => decide (nOf x.nm < (g.filter (fun f => next.getD f false)).length))

/-- The masked elements of a tile, block by block, with each block's scale before. -/
def tileBlocks (d : Desc) (i : Nat) (t : TileData) (cur next : List Bool) (init : List SrcEl) : List (Int × List MaskEl) :=
  let w := tileW d.elem
  let el := fun (p : Nat) =>
    match tileIndex d i p with
    | none => ({ code := 0, cur := false, next := false, init := { code := 0 } } : MaskEl)
    | some ix =>
      let f := flatIx d.ext ix
      { code := t.codes.getD p 0, cur := cur.getD f false, next := next.getD f false, init := init.getD f { code := 0 } }
  (List.range w).map (fun b => (if elemScaled d.elem then t.scales.getD b 0 else 0, (List.range 32).map (fun j => el (32 * b + j))))

/-- Rebuild the tiles of a compressed entry into its spare regions (R131, R206): the writes in order, none past SPARE_CAPACITY, and
DATA_USED. -/
def remaskTiles (r : Run) (e : REntry) (x : SRec) (cur next : List Bool) (init : List SrcEl) :
    List Nat → Nat → List Wr → List Wr × Nat × Run
  | [], used, ws => (ws, used, r)
  | i :: is, used, ws =>
    let (t, r) := readTile r r.s (loadRec r.s r.p e.d) e.d.elem e.d.ext i
    if r.bad || r.stop then (ws, used, r)
    else
      let ((codes, scl), r) := remaskBlocks r e.d (e.init.map (·.elem)) (tileBlocks e.d i t cur next init)
      let inx := (List.range (32 * tileW e.d.elem)).map (inExtent e.d.elem e.d.ext i)
      let out := buildTile x.format e.d.elem x.nm codes (if elemScaled e.d.elem then scl.map (unsext 8) else []) inx false
      remaskTiles (tick r 4096) e x cur next init is (used + slotBytes out)
        (if used + slotBytes out ≤ x.cap then ws ++ tileWrs x i out used else ws)

/-- Stage one entry: its writes into the spare regions and DATA_USED. -/
def stageEntry (r : Run) (epoch : Nat) (cur next : List Bool) (e : REntry) : List Wr × Nat × Bool × Run :=
  match e.rec_ with
  | none => ([], 0, false, r)
  | some x =>
    let x' : SRec := { x with tbase := at_ e.bytes 8 8, dbase := at_ e.bytes 16 8, cap := at_ e.bytes 24 8, used := 0, epoch := epoch }
    let (init, r) := match e.init with
      | some d => loadEls r d
      | none => ([], r)
    let (ws, used, r) := remaskTiles r e x' cur next init (List.range (tileCount e.d.elem e.d.ext)) 0 []
    (ws, used, decide (x'.cap < used), r)

/-- Stage entries one after another until one fails to fit or to be read. -/
def stageEntries (r : Run) (epoch : Nat) (cur next : List Bool) : List REntry → List Wr → List Nat → List Wr × List Nat × Bool × Run
  | [], ws, us => (ws, us, false, r)
  | e :: es, ws, us =>
    let (w, u, full, r) := stageEntry r epoch cur next e
    if full || r.bad || r.stop then (ws ++ w, us, full, r) else stageEntries r epoch cur next es (ws ++ w) (us ++ [u])

/-- The parameters of MASK_VOTE in order. -/
def voteParams (q : RemaskP) (epoch vote : Nat) : List Byte :=
  leBytes 4 q.job.toNat ++ leBytes 2 q.shard.toNat ++ leBytes 1 vote ++ [0] ++ leBytes 8 epoch ++ leBytes 8 q.effStep.toNat ++
  leBytes 2 q.voters.toNat ++ leBytes 2 q.mcast.toNat ++ leBytes 2 q.timeout.toNat ++ zeros 2

/-- Send MASK_VOTE to ROOT (R206, R207). -/
def sendVote (s : State) (p : Nat) (q : RemaskP) (epoch vote : Nat) : State :=
  peerCommand s p q.root.toNat false 0x0404 (voteParams q epoch vote)

/-- The pending-epoch entry of a key. -/
def pendOf (s : State) (p : Nat) (job : BitVec 32) (epoch : Nat) : Option PendEpoch :=
  (part s p).pend.find? (fun e => decide (e.job = job) && decide (e.epoch.toNat = epoch))

/-- Open a pending-epoch entry for a stage, or join the one open for it. -/
def joinPend (s : State) (p : Nat) (q : RemaskP) (epoch : Nat) (x : StagedRec) : State :=
  modPart s p (fun y =>
    match y.pend.find? (fun e => decide (e.job = q.job) && decide (e.epoch.toNat = epoch)) with
    | some _ => { y with pend := y.pend.map (fun e => if e.job = q.job ∧ e.epoch.toNat = epoch then
        { e with records := e.records.filter (fun z => decide (z.addr ≠ x.addr)) ++ [x] } else e) }
    | none => { y with pend := y.pend ++
        [{ job := q.job, epoch := BitVec.ofNat 64 epoch, eff := q.effStep, timeout := q.timeout, records := [x] }] })

/-- The step counter of a job on this device; 0 when it does not run here. -/
def jobStep (s : State) (p : Nat) (tag : Nat) : Nat :=
  match job s p with
  | some j => if jTag j = tag then j.step.toNat else 0
  | none => 0

/-- The stage of a record whose entries have passed their checks (R206 from step 2). -/
def stageRun (s : State) (c : Cmd) (q : RemaskP) (m : MaskRec) (es : List REntry) : Res :=
  let p := c.part.getD 16
  let (core, i) := (streamOfHdr s c.h).getD (0, 0)
  let epoch := m.epoch + 1
  let r := newRun s c [3, 4]
  let (cb, nb, r) := readMasks r m
  let (cur, next) := (maskBits cb m.ext, maskBits nb m.ext)
  let x : StagedRec :=
    { addr := m.addr, entryAt := q.entryAddr.toNat, entries := es.map (·.bytes), descs := es.map (·.dBytes), inits := es.map (·.iBytes),
      used := [], cur := cb, next := nb, eyelet := q.doneEyelet.toNat, core := core, stream := i }
  let excess := es.any (fun e => match e.rec_ with
    | some y => maskOverfull y m.ext next
    | none => false)
  let (ws, used, full, r) := if excess then ([], [], false, r) else stageEntries r epoch cur next es [] []
  let (r, residue) := runResidues r
  if excess || full || r.bad || r.stop || r.integ || residue.isSome then
    let (v, r) := rChoice r
    let r := doWrs r (ws.take (v % (ws.length + 1)))
    let r := doWrs r [.bytes m.addr (leBytes 1 1)]
    let y := finishRun r residue (if excess then .groupOverfull else if full then .noResource else .ok) 0 []
    { y with s := sendVote (joinPend y.s p q epoch x) p q epoch 1 }
  else
    let r := doWrs r (joinWrs ws)
    let r := doWrs r [.bytes m.addr (leBytes 1 3), .bytes (m.addr + 56) (leBytes 4 q.job.toNat)]
    let y := finishRun r none .ok 0 []
    { y with s := sendVote (joinPend y.s p q epoch { x with used := used }) p q epoch 0 }

/-- OP = STAGE: the entries, the step, and an entry of another step (R206 step 1). -/
def remaskStage (s : State) (c : Cmd) (q : RemaskP) (m : MaskRec) : Res :=
  let p := c.part.getD 16
  match checkEntries s p m ((List.range q.entryCount.toNat).map (fun i => q.entryAddr.toNat + 48 * i)) with
  | .error st => { s := s, st := st }
  | .ok es =>
    let other := match pendOf s p q.job (m.epoch + 1) with
      | some e => decide (e.eff ≠ q.effStep)
      | none => false
    if decide (q.effStep.toNat ≤ jobStep s p q.job.toNat) || other then
      { s := sendVote s p q (m.epoch + 1) 1, st := .badParam }
    else stageRun s c q m es

/-- An abort is accepted in IDLE and OPEN, a stage in OPEN (R194). -/
def acceptAbort (st : Nat) : Option Status := if 2 ≤ st then some .contextBusy else none
def acceptStage (st : Nat) : Option Status := if st = 1 then none else some .badParam

/-- The checks of OP = STAGE on its own parameters (R206). -/
def stageChecks (s : State) (p : Nat) (q : RemaskP) : List (Bool × Status × Nat) :=
  let e := q.doneEyelet.toNat
  let n := q.entryCount.toNat
  let bad := decide (1 < q.ctl.toNat) || decide (n = 0) || decide (16 < n) || decide (q.voters = 0) ||
    decide (q.voters.toNat ≤ q.shard.toNat) || decide (q.rsvdA ≠ 0) || !regionOk s p q.entryAddr.toNat (48 * n) 64 true ||
    (decide (e ≠ 0xFFFFFFFF) && decide (16384 ≤ e))
  [(!regionOk s p q.record.toNat 64 64 true || bad, .badParam, 0), (decide (e ≠ 0xFFFFFFFF) && !ownsEyelet s p e, .denied, 0)]

def bodyRemask (q : RemaskP) (s : State) (c : Cmd) : Res :=
  let p := c.part.getD 16
  if q.ctl.toNat = 1 then
    withRecord s p q.record.toNat false acceptAbort fun m =>
      if recordHeld s p m.addr then { s := s, st := .contextBusy }
      else if m.state = 0 then { s := s }
      else { s := partWrite (partWrite s p m.addr (leBytes 1 0)) p (m.addr + 40) (zeros 16) }
  else
    checked s (stageChecks s p q) fun _ =>
      withRecord s p q.record.toNat false acceptStage fun m =>
        if recordHeld s p m.addr then { s := s, st := .contextBusy } else remaskStage s c q m

def execRemask (h : Hdr) (p : RemaskP) (s : State) : Host.Outcome State Fault Refusal :=
  command (.remask h p) { op := 0x0403, n := 48, runs := .s } h (packetBytes 0x0403 h (bytesRemask p)) (bodyRemask p) s

/-! ### The epoch root (R207, R208) -/

/-- Send MASK_DECIDE to a multicast group. -/
def sendDecide (s : State) (p mc : Nat) (job : BitVec 32) (decision : Nat) (epoch eff : BitVec 64) : State :=
  peerCommand s p mc true 0x0405 (leBytes 4 job.toNat ++ leBytes 1 decision ++ zeros 3 ++ leBytes 8 epoch.toNat ++ leBytes 8 eff.toNat)

/-- Close a vote with its decision. -/
def closeVote (s : State) (v : MaskVote) (decision : Nat) : State :=
  let s := { s with votes := s.votes.filter (fun x => !(decide (x.job = v.job) && decide (x.epoch = v.epoch))) }
  sendDecide s v.part v.mcast.toNat v.job decision v.epoch v.eff

/-- Count a vote that belongs to an open key. -/
def countVote (s : State) (v : MaskVote) (q : MaskVoteP) : State :=
  let k := q.shard.toNat
  if v.got.contains k then s
  else if q.vote ≠ 0 ∨ q.effStep ≠ v.eff ∨ q.voters ≠ v.voters ∨ q.mcast ≠ v.mcast ∨ q.timeout ≠ v.timeout ∨ v.voters.toNat ≤ k then
    closeVote s v 1
  else
    let v' := { v with got := v.got ++ [k] }
    let s := { s with votes := s.votes.map (fun x => if x.job = v.job ∧ x.epoch = v.epoch then v' else x) }
    if v'.got.length = v.voters.toNat then closeVote s v' 0 else s

/-- A MASK_VOTE reaches the root. -/
def rootVote (s : State) (p : Nat) (q : MaskVoteP) : State :=
  match s.votes.find? (fun x => decide (x.job = q.job) && decide (x.epoch = q.newEpoch)) with
  | some v => countVote s v q
  | none =>
    if 64 ≤ s.votes.length then sendDecide s p q.mcast.toNat q.job 1 q.newEpoch q.effStep
    else
      let v : MaskVote := { job := q.job, epoch := q.newEpoch, eff := q.effStep, voters := q.voters, mcast := q.mcast, timeout := q.timeout, part := p }
      countVote { s with votes := s.votes ++ [v] } v q

/-- A MASK_VOTE with VOTERS = 0, which names no shard that could vote, completes with BAD_PARAM and counts for no key (DESIGN CHOICE, entry
45: the rule says only that the field is as staged). -/
def bodyMaskVote (q : MaskVoteP) (s : State) (c : Cmd) : Res :=
  checked s [(decide (1 < q.vote.toNat) || decide (q.rsvdA ≠ 0) || decide (q.rsvdB ≠ 0) || decide (q.voters = 0), .badParam, 0)] fun _ =>
    { s := rootVote s (c.part.getD 16) q }

def execMaskVote (h : Hdr) (p : MaskVoteP) (s : State) : Host.Outcome State Fault Refusal :=
  command (.maskVote h p) { op := 0x0404, n := 32, runs := .p } h (packetBytes 0x0404 h (bytesMaskVote p)) (bodyMaskVote p) s

/-- The root's timer of a vote expires (R208). -/
def voteTimeoutOp (s : State) (tag : BitVec 32) (epoch : BitVec 64) : State :=
  match s.votes.find? (fun x => decide (x.job = tag) && decide (x.epoch = epoch)) with
  | some v => closeVote s v 1
  | none => s

def execEpochVoteTimeout (tag : BitVec 32) (epoch : BitVec 64) (s : State) : Host.Outcome State Fault Refusal :=
  .next (voteTimeoutOp s tag epoch)

/-! ### The decision and the commit (R209 to R211) -/

/-- Whether a pending entry is of the job that runs in partition p, for the step at whose boundary its counter stands. -/
def pendDue (s : State) (p : Nat) (e : PendEpoch) : Bool :=
  match job s p with
  | some j => decide (jTag j = e.job.toNat) && decide (e.eff.toNat = j.step.toNat + 1)
  | none => false

/-- Whether the step counter of a partition's job is held by an epoch that is not yet decided or not yet acted on (R210). -/
def epochHolds (s : State) (p : Nat) : Bool := (part s p).pend.any (pendDue s p)

/-- Record a decision; the first one for an entry stands, and another EFFECTIVE_STEP makes it an abort (R209). -/
def decideEpoch (s : State) (p : Nat) (tag : BitVec 32) (commit : Bool) (epoch eff : BitVec 64) : State :=
  let s := modPart s p (fun y => { y with pend := y.pend.map (fun e =>
    if e.job = tag ∧ e.epoch = epoch ∧ e.decision = none then { e with decision := some (commit && decide (e.eff = eff)) } else e) })
  match pendOf s p tag epoch.toNat with
  | some e =>
    let i := Fin.ofNat 16 p
    if pendDue s p e then owe s (.run (if e.decision = some true then .maskEpochCommit i tag else .maskEpochAbort i tag)) else s
  | none => s

def bodyMaskDecide (q : MaskDecideP) (s : State) (c : Cmd) : Res :=
  checked s [(decide (1 < q.decision.toNat) || decide (q.rsvdA ≠ 0), .badParam, 0)] fun _ =>
    { s := decideEpoch s (c.part.getD 16) q.job (decide (q.decision = 0)) q.newEpoch q.effStep }

def execMaskDecide (h : Hdr) (p : MaskDecideP) (s : State) : Host.Outcome State Fault Refusal :=
  command (.maskDecide h p) { op := 0x0405, n := 24, runs := .fp } h (packetBytes 0x0405 h (bytesMaskDecide p)) (bodyMaskDecide p) s

/-- The run of a commit, on the unit that staged the record: its conversion flags go to that stream (R205). -/
def commitUnit (s : State) (p : Nat) (x : StagedRec) : Run :=
  { s := s, p := p, k := physOf s x.core, i := x.stream, engs := [],
    cmd := { op := 0x0403, h := peerHdr 0 [], part := some p, win := none } }

/-- The writes of a dense entry's changed positions, block by block (R204, R205, R211). -/
def commitBlocks (r : Run) (d : Desc) (init : Option Desc) (cur next : List Bool) : List (List (List Nat)) → List Wr × Run
  | [] => ([], r)
  | b :: rest =>
    match b with
    | [] => commitBlocks r d init cur next rest
    | ix0 :: _ =>
      let at2 := fun (ix : List Nat) => flatIx (seenExt d) (seenIx d ix)
      let (els, r) := readEls r r.s d b
      let (ivs, r) := match init with
        | some x => readEls r r.s x (b.map (fun ix => seenIx x (seenIx d ix)))
        | none => (b.map (fun _ => ({ code := 0 } : SrcEl)), r)
      let l : List MaskEl := (b.zip (els.zip ivs)).map (fun y =>
        { code := y.2.1.code, cur := cur.getD (at2 y.1) false, next := next.getD (at2 y.1) false, init := y.2.2 })
      let zero := l.all (fun y => zeroCode d.elem y.code)
      let old := ((els.head?).bind (·.scale)).getD 0
      let ((cs, e), r) := remaskBlock r d (init.map (·.elem)) old l
      let changed := (b.zip (l.zip cs)).filter (fun y => y.2.1.cur != y.2.1.next)
      let ws := storeWrs d (changed.map (·.1)) (changed.map (fun y => y.2.2))
      let sw := if elemScaled d.elem && zero && l.any (fun y => y.next && !y.cur) && init.isSome then [scaleWr d ix0 e] else []
      let (ws', r) := commitBlocks r d init cur next rest
      (ws ++ sw ++ ws', r)

/-- Commit one entry of a staged record (R211 steps 2 and 3). -/
def commitEntry (s : State) (p : Nat) (x : StagedRec) (epoch : Nat) (i : Nat) (b db ib : List Byte) : State :=
  match parseDesc (at_ b 0 8) db with
  | none => s
  | some d =>
    if isDense d then
      let init := if ib.isEmpty then none else parseDesc (at_ b 40 8) ib
      let (ws, r) := commitBlocks (commitUnit s p x) d init (maskBits x.cur (seenExt d)) (maskBits x.next (seenExt d)) (rowBlocks d)
      runSetFlags (doWrs r ws)
    else
      let old := partRead s p d.srec 64
      let new := slice old 0 8 ++ leBytes 8 (at_ b 8 8) ++ leBytes 8 (at_ b 16 8) ++ leBytes 8 (at_ b 24 8) ++
        leBytes 8 (x.used.getD i 0) ++ leBytes 8 epoch ++ zeros 16
      partWrite (partWrite s p d.srec new) p (x.entryAt + 48 * i + 8) (slice old 8 24)

/-- Commit a staged record (R211): none when it is not STAGED. -/
def commitRecord (s : State) (p : Nat) (x : StagedRec) : Option State :=
  let b := partRead s p x.addr 64
  if at_ b 0 1 ≠ 3 then none
  else
    let s := partWrite s p x.addr (leBytes 1 4)
    let epoch := at_ b 8 8 + 1
    let all := x.entries.zip (x.descs.zip x.inits)
    let s := (all.zip (List.range all.length)).foldl (fun s y => commitEntry s p x epoch y.2 y.1.1 y.1.2.1 y.1.2.2) s
    let s := partWrite s p (x.addr + 8) (leBytes 8 epoch ++ slice b 24 8 ++ slice b 16 8)
    some (partWrite (partWrite s p (x.addr + 40) (zeros 16)) p x.addr (leBytes 1 0))

/-- Return a staged record to OPEN (R194, R211). -/
def abortRecord (s : State) (p : Nat) (x : StagedRec) : State :=
  if at_ (partRead s p x.addr 1) 0 1 = 3 then partWrite s p x.addr (leBytes 1 1) else s

/-- The distinct eyelets that the stages of an entry named. -/
def doneEyelets (l : List StagedRec) : List Nat :=
  l.foldl (fun a x => if x.eyelet = 0xFFFFFFFF ∨ a.contains x.eyelet then a else a ++ [x.eyelet]) []

/-- A commit of an entry: MASK_EPOCH_SPLIT when a record is not STAGED, every staged record, the eyelet and the event (R211). -/
def commitPend (s : State) (p : Nat) (e : PendEpoch) : State :=
  let split := e.records.any (fun x => decide (at_ (partRead s p x.addr 1) 0 1 ≠ 3))
  let s := if split then postPart s p 0x0153 0 (leBytes 8 e.epoch.toNat) else s
  let (s, done) := e.records.foldl (fun (a : State × List StagedRec) x =>
    match commitRecord a.1 p x with
    | some s => (s, a.2 ++ [x])
    | none => a) (s, [])
  let s := (doneEyelets done).foldl deviceSignal s
  postPart s p 0x0150 0 (leBytes 8 e.epoch.toNat)

/-- An abort of an entry. -/
def abortPend (s : State) (p : Nat) (e : PendEpoch) : State :=
  postPart (e.records.foldl (fun s x => abortRecord s p x) s) p 0x0151 0 (leBytes 8 e.epoch.toNat)

/-- A full root timeout after the boundary with the entry still undecided (R210). -/
def undecidedOp (s : State) (p : Nat) (tag : BitVec 32) : State :=
  match job s p with
  | none => s
  | some j =>
    if !laceDone s j then s
    else
      match (part s p).pend.find? (fun e => decide (e.job = tag) && pendDue s p e && e.decision.isNone && !e.told) with
      | none => s
      | some e =>
        let s := modPart s p (fun y => { y with pend := y.pend.map (fun z => if z.epoch = e.epoch ∧ z.job = tag then { z with told := true } else z) })
        postPart s p 0x0152 0 (leBytes 8 e.epoch.toNat)

def execMaskEpochUndecided (p : Fin 16) (tag : BitVec 32) (s : State) : Host.Outcome State Fault Refusal := .next (undecidedOp s p.val tag)

end Sys2Proof.Machine
end

