-- ==== Sys2Proof/Machine/Params.lean ====
section
/-! DEFINITION. Distributed tensors (R242 to R246), the multicast of parameters (R302, R343, R344) and the gather service that
places them (R300, R301, R345, R436). -/
namespace Sys2Proof.Machine

/-! ### Parts of a distributed tensor (R244 to R246) -/

/-- Local extent of one dimension at a part coordinate (R244). -/
def localExt1 (mode e parts block c : Nat) : Nat :=
  if mode = 0 then e
  else if mode = 1 then let w := ceilDiv e parts; min w (e - c * w)
  else
    let full := e / (block * parts)
    full * block + min block (e - full * block * parts - c * block)

/-- Local extents of a shard (R244). -/
def localExt (q : Dist) (grid : Nat) : List Nat :=
  let c := gridCoords q.parts grid
  (List.range 6).map (fun d => localExt1 (dim q.mode d) (dim q.ext d) (dim q.parts d) (dim q.block d) (dim c d))

/-- Part coordinate, that of the primary copy in a REPLICATED dimension, and local index of a global index in one dimension
(R243, R245). -/
def placeIn (mode e parts block g : Nat) : Nat × Nat :=
  if mode = 0 then (0, g)
  else if mode = 1 then let w := ceilDiv e parts; (g / w, g % w)
  else (g / block % parts, g / (block * parts) * block + g % block)

/-- The grid number of the primary copy of a global element, and its local index. -/
def shardPlace (q : Dist) (g : List Nat) : Nat × List Nat :=
  let x := (List.range 6).map (fun d => placeIn (dim q.mode d) (dim q.ext d) (dim q.parts d) (dim q.block d) (dim g d))
  (gridOf q (x.map (·.1)), x.map (·.2))

/-- Whether a grid number holds the primary copy of its shard (R245). -/
def isOwner (q : Dist) (grid : Nat) : Bool :=
  ((gridCoords q.parts grid).zip q.mode).all (fun x => decide (x.2 ≠ 0) || decide (x.1 = 0))

/-- A checked distribution record: its bytes and device list, its fields, the local descriptor, and this device's grid number. -/
structure DistRec where
  bytes : List Byte
  list  : List Byte
  dist  : Dist
  lbytes : List Byte
  desc  : Desc
  grid  : Nat
deriving DecidableEq, Repr

/-- R244 on a record and this device's LOCAL_DESC. -/
def checkDist (s : State) (p a : Nat) : Except (Status × Nat) DistRec :=
  if !regionOk s p a 128 64 false then .error (.badDescriptor, 0)
  else if partPoisoned s p a 128 then .error (.integrityFail, 0)
  else
    let b := partRead s p a 128
    if !distOk b || !regionOk s p (at_ b 8 8) (devListLen b) 1 false then .error (.badDescriptor, 0)
    else if partPoisoned s p (at_ b 8 8) (devListLen b) then .error (.integrityFail, 0)
    else
      let l := partRead s p (at_ b 8 8) (devListLen b)
      let q := parseDist b l
      match q.devs.findIdx? (· == s.fab.addr.toNat) with
      | none => .error (.badDescriptor, 0)
      | some g =>
        if !decide q.devs.Nodup then .error (.badDescriptor, 0)
        else match checkDesc s p q.ldesc false with
          | .no st n => .error (st, n)
          | .ok d =>
            if decide (d.rank ≠ q.rank) || decide (d.elem ≠ q.elem) || decide (seenExt d ≠ localExt q g) then .error (.badDescriptor, 0)
            else .ok { bytes := b, list := l, dist := q, lbytes := partRead s p q.ldesc 192, desc := d, grid := g }

/-! ### Wire images (R436) -/

/-- PWIRE of a partition's plan (R320, R346); 0x00, the shard's own format, without one. -/
def pwire (s : State) (p : Nat) : Nat :=
  match planOf s p with
  | some x => at_ x.header 6 1
  | none => 0

/-- Pack elements as they travel: in their memory form, an A48 element in 6 bytes (R436). -/
def wireFields (e : Elem) (codes : List Nat) : List Byte :=
  if e = .a48 then codes.flatMap (fun c => leBytes 6 (c / 2 * 2)) else packFields e codes

/-- Bytes of n elements on the wire. -/
def wireLen (e : Elem) (n : Nat) : Nat := if e = .a48 then 6 * n else ceilDiv (n * elemBits e) 8

/-- The blocks of the valid region in linear index order: 32 elements along the innermost seen dimension (R221). -/
def seenBlocks (d : Desc) : List (List (List Nat)) :=
  let n0 := dim (seenIx d (validN d)) 0
  (chunks n0 (validCount d + 1) (seenOrder d)).flatMap (fun row => chunks 32 (n0 + 1) row)

/-- Convert the blocks of a shard to the wire format (R72): codes, and a scale for each block of a scaled format. Elements that
keep their format go bit for bit with their block scales. -/
def wireBlocks (r : Run) (src : Source) (d : Desc) (e : Elem) : List (List (List Nat)) → (List Nat × List Int) × Run
  | [] => (([], []), r)
  | b :: rest =>
    let (els, r) := sourceEls r r.s src b
    let ((cs, sc), r) := if e = d.elem && !(d.trans && elemScaled e) then
        ((els.map (·.code), ((els.head?).bind (·.scale)).getD 0), r)
      else convBlock r false d.elem e false false none els
    let ((cs', ss), r) := wireBlocks (tick r (b.length * elemBits e / 8)) src d e rest
    ((cs ++ cs', (if elemScaled e then [sc] else []) ++ ss), r)

/-- The format in which a shard travels: PWIRE, or the shard's own format with PWIRE = 0 (R344), within the formats of the job's version
(R346, R450). A shard that goes out before a plan gives PWIRE, in a format which the version does not carry, goes as BF16 or FP32 (DESIGN
CHOICE, entry 48). -/
def wireFmt (s : State) (p : Nat) (e : Elem) : Elem :=
  let w := pwire s p
  let f := if w = 0 then e else (elemOfCode w).getD e
  match jobVersion s p with
  | 1 => .bf16
  | 2 => if f = .fp32 ∨ f = .bf16 ∨ f = .e4m3 ∨ f = .e5m2 then f else .fp32
  | _ => f

/-- The tiles of a compressed shard as they travel, each read under the checks of R128: its trailer, then its payload padded to 32 bytes. -/
def tileStream (r : Run) (d : Desc) (rec_ : SRec) : List Nat → List Byte × Run
  | [] => ([], r)
  | i :: is =>
    let (_, r) := readTile r r.s rec_ d.elem d.ext i
    if r.bad || r.stop then ([], r)
    else
      let t := partRead r.s r.p (rec_.tbase + 32 * i) 32
      let n := if at_ t 0 1 = 5 then 0 else at_ t 4 2
      let b := partRead r.s r.p (rec_.dbase + 32 * at_ t 8 8) n
      let (more, r) := tileStream r d rec_ is
      (t ++ b ++ zeros (roundUp n 32 - n) ++ more, r)

/-- NM of (2, 4) (R117). -/
def nm24 : Nat := 4

/-- Whether a compressed shard goes to BL2 parts as (2, 4) tiles (R142): Stitched with N ≤ 2 in one of their formats. A tensor that holds a
DENSE_FALLBACK tile has groups with more values and goes dense (DEDUCED, entry 48). -/
def goes24 (s : State) (p : Nat) (d : Desc) (rec_ : SRec) : Bool :=
  decide (rec_.format = 2) && decide (nOf rec_.nm ≤ 2) && [Elem.e4m3, .e5m2, .bf16, .fp32].contains d.elem &&
  (List.range (tileCount d.elem d.ext)).all (fun i => decide (at_ (partRead s p (rec_.tbase + 32 * i) 1) 0 1 ≠ 1))

/-- The tiles of a Stitched shard with N ≤ 2 re-encoded as (2, 4) tiles, a ZERO tile as one of filler slots (R142). OFFSET counts the payloads
sent before (DESIGN CHOICE, entry 48). -/
def tileStream24 (r : Run) (d : Desc) (rec_ : SRec) (off : Nat) : List Nat → List Byte × Run
  | [] => ([], r)
  | i :: is =>
    let (x, r) := readTile r r.s rec_ d.elem d.ext i
    if r.bad || r.stop then ([], r)
    else
      let inx := (List.range (32 * tileW d.elem)).map (inExtent d.elem d.ext i)
      let t := buildStitched d.elem nm24 x.codes [] inx false
      let n := slotBytes t
      let (more, r) := tileStream24 r d rec_ (off + n) is
      (trailerBytes { rec_ with nm := nm24 } t off ++ t.payload ++ zeros (n - t.payload.length) ++ more, r)

/-- The wire image of a shard: format, ENC and bytes. A compressed shard in its own format goes as a tile stream as far as the job's version
carries one (R142, R450); any other shard goes dense. An integer shard has no wire format (R36, R450): nothing goes. -/
def wireImage (r : Run) (d : Desc) : (Nat × Nat × List Byte) × Run :=
  let e := wireFmt r.s r.p d.elem
  let v := jobVersion r.s r.p
  let x := loadRec r.s r.p d
  let tiles := List.range (tileCount d.elem d.ext)
  if elemInt d.elem then ((elemCode e, 0, []), { r with bad := true })
  else if !isDense d && decide (e = d.elem) && decide (3 ≤ v) then
    let (b, r) := tileStream r d x tiles
    ((elemCode e, 1, b), r)
  else if !isDense d && decide (e = d.elem) && decide (v = 2) && goes24 r.s r.p d x then
    let (b, r) := tileStream24 r d x 0 tiles
    ((elemCode e, 1, b), r)
  else
    let (src, r) := openSource r r.s d (seenOrder d)
    let ((cs, ss), r) := wireBlocks r src d e (seenBlocks d)
    ((elemCode e, 0, wireFields e cs ++ ss.map (fun x => BitVec.ofNat 8 (unsext 8 x))), r)

/-- The ARG bytes of a PARAM packet. -/
def paramArg (tag grid off fmt enc : Nat) : List Byte :=
  leBytes 4 tag ++ leBytes 2 grid ++ leBytes 6 off ++ leBytes 1 fmt ++ leBytes 1 enc

/-- The frames of a wire image: at most 4,096 bytes, whole elements only. -/
def imageFrames (fmt : Nat) (b : List Byte) : List (Nat × List Byte) :=
  let n := if fmt = 0x08 then 4092 else 4096
  let l := chunks n (b.length + 1) b
  ((List.range l.length).map (n * ·)).zip l

/-- Multicast frames of a shard in class C1 (R344). -/
def sendFrames (s : State) (p mc step grid fmt enc : Nat) (l : List (Nat × List Byte)) : State :=
  l.foldl (fun s x => originate s 0x11 1 true 0 p mc 0 0 (paramArg step grid x.1 fmt enc) x.2) s

/-- Multicast a shard (R302, R344): a shard that cannot be read whole is sent in part. -/
def mcastShard (r : Run) (d : Desc) (mc step grid : Nat) : Run :=
  let ((fmt, enc, b), r) := wireImage r d
  let l := imageFrames fmt b
  if r.bad || r.stop || r.integ then
    let (n, r) := rChoice r
    { r with s := sendFrames r.s r.p mc step grid fmt enc (l.take (n % (l.length + 1))) }
  else { r with s := sendFrames r.s r.p mc step grid fmt enc l }

/-! ### The hub's own conversions -/

/-- Work on tensors that the hub does for a service: no stream's flags or generator take part. -/
def hubRun (s : State) (p : Nat) : Run :=
  let (v, s) := freeEntropy s
  let s := modCoreP s 32 (fun c => setStreamOf c 0 { gen := { seed := v } })
  { s := s, p := p, k := 32, i := 0, engs := [], cmd := { op := 0, h := peerHdr 0 [], part := some p, win := none } }

/-- The end of the hub's work. -/
def hubEnd (r : Run) : State := setCoreP r.s 32 {}

/-- Multicast the shard of a checked record, as a service does. -/
def mcastLocal (s : State) (p : Nat) (x : DistRec) (mc step : Nat) : State :=
  hubEnd (mcastShard (hubRun s p) x.desc mc step x.grid)

/-! ### PARAM_MCAST (R302, R343, R344) -/

/-- Whether a pending mask epoch entry holds the multicasts of a step (R302). -/
def paramHolds (s : State) (p step : Nat) : Bool := (part s p).pend.any (fun e => decide (e.eff.toNat = step))

/-- The step counter of a partition's job. -/
def stepOf (s : State) (p : Nat) : Nat :=
  match job s p with
  | some j => j.step.toNat
  | none => 0

/-- A PARAM_MCAST that has passed its checks: the shard's wire image goes to the group, tagged with its step (R301, R344). -/
def mcastRun (s : State) (c : Cmd) (d : Desc) (mc step : Nat) (grid : Nat) : Res :=
  let (r, residue) := runResidues (mcastShard (newRun s c ([3] ++ if isDense d then [] else [4])) d mc step grid)
  finishRun r residue .ok 0 []

/-- The step that a PARAM_MCAST is tagged with: STEP, or the one after the counter (R344). -/
def mcastStep (s : State) (p : Nat) (q : ParamMcastP) : Nat :=
  if q.ctl.toNat = 1 then q.step.toNat else (stepOf s p + 1) % 2 ^ 64

/-- The checks on SRC_DESC, then those on the distribution record with its LOCAL_DESC, come before the command's own (R225). -/
def bodyParamMcast (q : ParamMcastP) (s : State) (c : Cmd) : Res :=
  let p := c.part.getD 16
  let ctl := q.ctl.toNat
  checked s [(!regionOk s p q.dist.toNat 128 64 false, .badParam, 0)] fun _ =>
    withDescs s c [(q.srcDesc.toNat, false)] fun ds =>
      match ds with
      | [d] =>
        match checkDist s p q.dist.toNat with
        | .error (st, n) => { s := s, st := st, detail := n }
        | .ok x =>
          let step := mcastStep s p q
          checked s [(decide (1 < ctl) || decide (q.rsvdA ≠ 0) || decide (4096 ≤ q.mcast.toNat), .badParam, 0),
              (decide (d.rank ≠ x.dist.rank) || decide (seenExt d ≠ localExt x.dist x.grid) || elemInt d.elem, .badDescriptor, 0),
              (!isOwner x.dist x.grid, .denied, 0)] fun _ =>
            if paramHolds s p step then { s := s, wait := some (.paramHeld p step) }
            else mcastRun s c d q.mcast.toNat step x.grid
      | _ => { s := s }

def execParamMcast (h : Hdr) (p : ParamMcastP) (s : State) : Host.Outcome State Fault Refusal :=
  command (.paramMcast h p) { op := 0x0506, n := 32, runs := .s } h (packetBytes 0x0506 h (bytesParamMcast p)) (bodyParamMcast p) s

/-- The distribution record and the group that a waiting PARAM_MCAST names. -/
def mcastOf : Instr → Option (Nat × Nat)
  | .paramMcast _ q => some (q.dist.toNat, q.mcast.toNat)
  | _ => none

/-- Send a multicast that a service held, from the shard as it stands now. -/
def mcastHeld (s : State) (p : Nat) (m : HeldMcast) : State :=
  if m.dist = 0 then
    match checkDesc s p m.desc false with
    | .ok d => hubEnd (mcastShard (hubRun s p) d m.mc m.step m.grid)
    | .no .. => s
  else match checkDist s p m.dist with
    | .ok x => mcastLocal s p x m.mc m.step
    | .error _ => s

/-- A held PARAM_MCAST goes on from LOCAL_DESC as the decision left it, and ends with the status that its run gives (R302, R662). -/
def mcastGoesOn (s : State) (p : Nat) (w : Waiting) (dist mc step : Nat) : State :=
  match checkDist s p dist with
  | .error (st, n) => endWaiting s w st n []
  | .ok x => let r := mcastRun s w.cmd x.desc mc step x.grid; endWaiting r.s w r.st r.detail r.record

/-- The multicasts of a partition that no pending entry holds any more are sent from LOCAL_DESC (R302). -/
def releaseParams (s : State) (p : Nat) : State :=
  let s : State := match job s p with
    | some j =>
      let due := j.mcasts.filter (fun m => !paramHolds s p m.step)
      let j' := { j with mcasts := j.mcasts.filter (fun m => paramHolds s p m.step) }
      due.foldl (fun s m => mcastHeld s p m) (setJob s p j')
    | none => s
  let due := s.waiting.filter (fun w => match w.wait with
    | .paramHeld q t => decide (q = p) && !paramHolds s p t
    | _ => false)
  due.foldl (fun s w =>
    match w.wait, mcastOf w.instr with
    | .paramHeld _ t, some (dist, mc) => mcastGoesOn s p w dist mc t
    | _, _ => s) s

/-! ### Gather entries (R300) -/

def gaEyelet (g : GatherCfg) : Nat := at_ g.entry 32 4
def gaTokens (g : GatherCfg) : Nat := at_ g.entry 36 2
def gaMcast (g : GatherCfg) : Nat := at_ g.entry 38 2
def gaBufs (g : GatherCfg) : Nat := at_ g.entry 40 1
def gaDist (g : GatherCfg) : Dist := parseDist g.dist g.devs
/-- The descriptor of the copy for a step. -/
def gaBuf (g : GatherCfg) (step : Nat) : Option Desc :=
  let i := step % max 1 (gaBufs g)
  parseDesc (at_ g.entry (8 + 8 * i) 8) (g.bufs.getD i [])

/-! ### Mask bitmaps for older peers (R215) -/

/-- The mask-bitmap image of a committed record (R143, R436). -/
def bitmapImage (tag epoch : Nat) (mask : List Byte) : List Byte := leBytes 4 tag ++ zeros 4 ++ leBytes 8 epoch ++ mask

/-- After a commit, in a job with older devices, the owner of each shard whose mask it changed sends the bitmap to the devices that hold or
gather the shard. They are those of the group of the gather entry whose LOCAL_DESC the record's entry names, and FMT is the format in which
the shard's parameters travel (DESIGN CHOICE, entry 48: R215 names neither group nor FMT). -/
def sendBitmap (s : State) (p : Nat) (e : PendEpoch) (x : StagedRec) : State :=
  match job s p with
  | none => s
  | some j =>
    if 3 ≤ j.version then s
    else
      j.gathers.foldl (fun s g =>
        let q := gaDist g
        match q.devs.findIdx? (· == s.fab.addr.toNat) with
        | some grid =>
          if isOwner q grid && x.entries.any (fun b => decide (at_ b 0 8 = q.ldesc)) then
            sendFrames s p (gaMcast g) e.eff.toNat grid (elemCode (wireFmt s p q.elem)) 2
              (imageFrames 0 (bitmapImage e.job.toNat e.epoch.toNat x.next))
          else s
        | none => s) s

/-! ### The gather service (R300, R301, R345) -/

/-- Bytes of a shard's wire image that have arrived; none while one is missing. -/
def wireBytesAt (c : GatherCopy) (grid o n : Nat) : Option (List Byte) :=
  (tgets none n (2 ^ 48 * grid + o) c.wire).foldr (fun b l => match b, l with
    | some x, some xs => some (x :: xs)
    | _, _ => none) (some [])

/-- Find a tile in a tile stream: its trailer and payload, once every byte up to it has arrived. -/
def streamTile (c : GatherCopy) (grid : Nat) : Nat → Nat → Option (List Byte × List Byte)
  | i, o =>
    match wireBytesAt c grid o 32 with
    | none => none
    | some t =>
      let n := if at_ t 0 1 = 5 then 0 else at_ t 4 2
      match i with
      | 0 => (wireBytesAt c grid (o + 32) n).map (fun b => (t, b))
      | i + 1 => streamTile c grid i (o + 32 + roundUp n 32)

/-- Expand a tile that has arrived, under the checks of R128; one that fails a check is never expanded (DESIGN CHOICE, entry 48: the outcome
that the rule gives is a command's, and no command takes an arrival). -/
def streamData (e : Elem) (t b : List Byte) : Option TileData :=
  let tag := at_ t 0 1
  let nm := if tag = 2 then at_ t 2 1 else 0
  let x : SRec := { addr := 0, format := if tag = 1 ∨ tag = 5 then 2 else tag, elem := elemCode e, nm := nm, tbase := 0, dbase := 0,
                    cap := 2 ^ 48, used := 0, epoch := 0 }
  if !(decide (2 ≤ x.format) && decide (x.format ≤ 4) && tileElemOk x.format e && (decide (tag ≠ 2) || nmOk nm) && trailerOk x e t false) ||
      decide (crc32c (b ++ t.take 28) ≠ at_ t 28 4) then none
  else match readBody tag e nm b with
    | none => none
    | some y =>
      if (y.stored.filter (fun z => !zeroCode e z.2)).length ≠ at_ t 6 2 || residueWord y.sbytes.sum y.poss.sum y.fields.sum ≠ at_ t 20 4 then none
      else some (if tag = 5 then zeroTile e else spreadTile e tag y)

/-- The element at a local index of a shard, once its bytes have arrived. -/
def wireEl (c : GatherCopy) (q : Dist) (grid : Nat) (l : List Nat) : Option SrcEl :=
  match elemOfCode c.fmt with
  | none => none
  | some e =>
    let ext := localExt q grid
    let n := ext.foldl (· * ·) 1
    let f := flatIx ext l
    if tget 0 grid c.encs = 1 then
      let d : Desc := { addr := 0, elem := e, rank := 6, given := false, sat := false, sr := false, acc := false, alias_ := false, nib := false,
                        trans := false, base := 0, sbase := 0, srec := 0, fill := 0, ext := ext, lo := [], hi := [], str := [] }
      let (i, pos) := tileOf d l
      match streamTile c grid i 0 with
      | none => none
      | some (t, b) =>
        (streamData e t b).map (fun y =>
          ({ code := y.codes.getD pos 0, scale := if elemScaled e then some (y.scales.getD (pos / 32) 0) else none } : SrcEl))
    else
      let (o, k) := if e = .a48 then (6 * f, 6) else if e = .l4 then (f / 2, 1) else (elemBytes e * f, elemBytes e)
      match wireBytesAt c grid o k with
      | none => none
      | some b =>
        let code := if e = .l4 then fld (leNat b) (4 * (f % 2)) 4 else leNat b
        if !elemScaled e then some { code := code }
        else
          let e0 := dim ext 0
          (wireBytesAt c grid (wireLen e n + f / e0 * ceilDiv e0 32 + dim l 0 / 32) 1).map
            (fun x => { code := code, scale := some (sext 8 (leNat x)) })

/-- The parts of a copy that are written as one: single elements, blocks of a scaled format, or a whole compressed tensor. -/
def copyUnits (d : Desc) : List (List (List Nat)) :=
  if !isDense d then [validIdx d] else if elemScaled d.elem then rowBlocks d else (validIdx d).map (fun ix => [ix])

/-- The elements of a unit, once all have arrived. -/
def unitEls (c : GatherCopy) (q : Dist) (d : Desc) (u : List (List Nat)) : Option (List SrcEl) :=
  (u.map (fun ix => let x := shardPlace q (seenIx d ix); wireEl c q x.1 x.2)).foldr (fun e l => match e, l with
    | some x, some xs => some (x :: xs)
    | _, _ => none) (some [])

/-- Write a unit of a copy under its descriptor's CONV byte (R301). -/
def placeUnit (s : State) (p : Nat) (src : Elem) (d : Desc) (u : List (List Nat)) (els : List SrcEl) : State :=
  let r := hubRun s p
  if isDense d then
    let ((ws, ss), r) := blockWrs r false src d u els
    hubEnd (doWrs r (ws ++ ss))
  else
    let t : Tab (Option SrcEl) := (u.zip els).foldl (fun t x => tput none (flatIx d.ext x.1) (some x.2) t) []
    let (_, r) := storeTiles r src (loadRec s p d) d (fun ix => tget none (flatIx d.ext ix) t) (List.range (tileCount d.elem d.ext))
    hubEnd r

/-- Write what has become writable of a copy; a whole copy signals CURRENT_EYELET. -/
def placeCopy (s : State) (p : Nat) (g : GatherCfg) (c : GatherCopy) : State × GatherCopy :=
  match gaBuf g c.step, elemOfCode c.fmt with
  | some d, some src =>
    let us := copyUnits d
    let (s, c) := (us.zip (List.range us.length)).foldl (fun (a : State × GatherCopy) u =>
      if tget false u.2 a.2.placed then a
      else match unitEls a.2 (gaDist g) d u.1 with
        | some els => (placeUnit a.1 p src d u.1 els, { a.2 with placed := tput false u.2 true a.2.placed })
        | none => a) (s, c)
    if !c.done && decide (c.placed.length = us.length) then
      ((List.range (gaTokens g)).foldl (fun s _ => deviceSignal s (gaEyelet g)) s, { c with done := true })
    else (s, c)
  | _, _ => (s, c)

/-- An arrival of a step within the window goes into its copy. -/
def gatherArrival (s : State) (p k : Nat) (g : GatherCfg) (step : Nat) (b : List Byte) : State :=
  let a := pkArg b
  let (grid, off, fmt, enc) := (at_ a 4 2, at_ a 6 6, at_ a 12 1, at_ a 13 1)
  match job s p with
  | none => s
  | some j =>
    let mine := fun (c : GatherCopy) => decide (c.entry = k) && decide (c.step = step)
    let c := (j.copies.find? mine).getD { entry := k, step := step, fmt := fmt }
    if c.done || decide (c.fmt ≠ fmt) then s
    else
      let c := { c with encs := tput 0 grid enc c.encs, wire := tputs none (2 ^ 48 * grid + off) ((pkPayload b).map some) c.wire }
      let (s, c) := placeCopy s p g c
      modJob s p (fun j => { j with copies := j.copies.filter (fun x => !mine x) ++ [c] })

/-- The step that a tag names, against the counter by serial-number arithmetic; none when it lies before the counter's last step. -/
def tagStep (now tag : Nat) : Option Nat :=
  let d := (tag + 2 ^ 32 - now % 2 ^ 32) % 2 ^ 32
  if d < 2 ^ 31 then some (now + d)
  else if d = 2 ^ 32 - 1 ∧ 1 ≤ now then some (now - 1) else none

/-- An arrival for a partition's job (R301): mask bitmaps, which serve older devices only (R215), and groups that no gather entry
names are dropped, and a stopped job's gather service takes none (R293). -/
def paramArrives (s : State) (p : Nat) (b : List Byte) : State :=
  match job s p with
  | none => s
  | some j =>
    let a := pkArg b
    match if j.stopping then none else j.gathers.findIdx? (fun g => decide (gaMcast g = pkDst b)) with
    | none => s
    | some k =>
      if 2 ≤ at_ a 13 1 then s
      else match tagStep j.step.toNat (at_ a 0 4) with
        | none => setJob s p { j with dropped := j.dropped + 1 }
        | some t =>
          if j.step.toNat + 2 ≤ t then setJob s p { j with held := j.held ++ [{ step := t, packet := b }] }
          else match j.gathers[k]? with
            | some g => gatherArrival s p k g t b
            | none => s

/-- A PARAM packet reaches a partition (R345). -/
def execParam (p : Fin 16) (b : List Byte) (s : State) : Host.Outcome State Fault Refusal :=
  .next (if !pkGood b then countEcrc s else paramArrives s p.val b)

/-- At an advance to step s the copies before s − 1 are forgotten, and the arrivals that the hub holds for steps up to s + 1 are
taken in order (R301). -/
def gatherAdvance (s : State) (p : Nat) : State :=
  match job s p with
  | none => s
  | some j =>
    let n := j.step.toNat
    let due := j.held.filter (fun h => decide (h.step ≤ n + 1))
    let j := { j with held := j.held.filter (fun h => decide (n + 1 < h.step)), copies := j.copies.filter (fun c => decide (n ≤ c.step + 1)) }
    due.foldl (fun s h => paramArrives s p h.packet) (setJob s p j)

end Sys2Proof.Machine
end

