-- ==== Sys2Proof/Machine/Ckpt.lean ====
section
/-! DEFINITION. Checkpoints (R306 to R310), their transfer to and from storage peers (R311, R438). -/
namespace Sys2Proof.Machine

/-! ### Configuration (R306) -/

def ckOn (k : CkptService) : Bool := !k.cfg.isEmpty
def ckStreaming (k : CkptService) : Bool := decide (at_ k.cfg 0 1 = 1)
def ckPeers (k : CkptService) : List Nat := (List.range (at_ k.cfg 1 1)).map (fun i => at_ k.cfg (2 + 2 * i) 2)
def ckItems (k : CkptService) : Nat := at_ k.cfg 6 2
def ckEvery (k : CkptService) : Nat := at_ k.cfg 8 4
def ckOnStop (k : CkptService) : Bool := decide (at_ k.cfg 12 1 = 1)
def ckSlot (k : CkptService) (i : Nat) : Nat := at_ k.cfg (24 + 8 * i) 8
def ckSlotBytes (k : CkptService) : Nat := at_ k.cfg 40 8
def ckEyelet (k : CkptService) : Nat := at_ k.cfg 48 4
/-- Item list entry i. -/
def ckItem (k : CkptService) (i : Nat) : Nat := at_ k.items (8 * i) 8

/-! ### Items (R306, R307) -/

/-- The data of an item: a tensor's valid elements in seen order with their scale bytes, a compressed tensor's layout record,
trailers and data up to DATA_USED, or an idle mask record and its CUR_MASK; and whether it could be read. -/
def itemData (s : State) (p e : Nat) : Bool × List Byte :=
  let a := fld e 0 48
  let r := hubRun s p
  if fld e 62 2 = 1 then
    let (b, r) := rRead r s a 64
    match shapeExt s p (at_ b 32 8) with
    | .error _ => (false, [])
    | .ok ext =>
      let (m, r) := rRead r s (at_ b 16 8) (maskBytes ext)
      (!r.bad && !r.integ, [0] ++ slice b 1 39 ++ zeros 16 ++ slice b 56 8 ++ m)
  else
    let (db, r) := rRead r s a 192
    match parseDesc a db with
    | none => (false, [])
    | some d =>
      if isDense d then
        let (b, r) := tensorBytes r d
        (!r.bad && !r.integ, b)
      else
        let x := loadRec s p d
        let (rb, r) := rRead r s d.srec 64
        let (t, r) := rRead r s x.tbase (32 * tileCount d.elem d.ext)
        let (b, r) := rRead r s x.dbase x.used
        (!r.bad && !r.integ, rb ++ t ++ b)

/-- Write an item's data back to its source (R310). -/
def itemRestore (s : State) (p e : Nat) (b : List Byte) : State :=
  let a := fld e 0 48
  if fld e 62 2 = 1 then partWrite (partWrite s p a (slice b 0 64)) p (at_ b 16 8) (b.drop 64)
  else match parseDesc a (partRead s p a 192) with
    | none => s
    | some d =>
      if isDense d then
        (let (ws, r) := tensorWrs (hubRun s p) d b
         hubEnd (doWrs r (joinWrs ws)))
      else
        let x := parseRec d.srec (slice b 0 64)
        let n := 32 * tileCount d.elem d.ext
        partWrite (partWrite (partWrite s p d.srec (slice b 0 64)) p x.tbase (slice b 64 n)) p x.dbase (b.drop (64 + n))

/-- Whether a written tensor overlaps an item. -/
def itemMeets (s : State) (p e : Nat) (w : Desc) : Bool :=
  let a := fld e 0 48
  if fld e 62 2 = 1 then spansMeet (some ((a : Int), (a : Int) + 63)) (fullSpan s p w)
  else match parseDesc a (partRead s p a 192) with
    | some d => overlap s p d w
    | none => false

/-- The items that a checkpoint in progress has not read. -/
def unreadItems (j : Job) : List Nat :=
  match j.ckpt.run with
  | some r =>
    if r.phase = .reading then ((List.range (ckItems j.ckpt)).filter (fun i => (tget none i r.items).isNone)).map (ckItem j.ckpt) else []
  | none => []

/-- Whether an unread item holds an OPT_UPDATE that writes given tensors (R309). -/
def ckptHoldsDescs (s : State) (p : Nat) (ws : List Desc) : Bool :=
  match job s p with
  | some j => (unreadItems j).any (fun e => ws.any (itemMeets s p e))
  | none => false

/-- Whether an unread item holds the commit of a pending entry: one of its records, or a tensor of their entries. -/
def ckptHoldsPend (s : State) (p : Nat) (x : PendEpoch) : Bool :=
  match job s p with
  | some j => (unreadItems j).any (fun e => x.records.any (fun r =>
      (decide (fld e 62 2 = 1) && decide (fld e 0 48 = r.addr)) ||
      (r.entries.zip r.descs).any (fun y => match parseDesc (at_ y.1 0 8) y.2 with
        | some d => itemMeets s p e d
        | none => false)))
  | none => false

/-- Under STREAMING the items that a completed OPT_UPDATE wrote are copied (R309). -/
def streamItems (s : State) (p : Nat) (ws : List Desc) : State :=
  match job s p with
  | none => s
  | some j =>
    if !ckOn j.ckpt || !ckStreaming j.ckpt then s
    else
      let t := (List.range (ckItems j.ckpt)).foldl (fun t i =>
        if ws.any (itemMeets s p (ckItem j.ckpt i)) then
          (let x := itemData s p (ckItem j.ckpt i)
           if x.1 then tput none i (some x.2) t else t)
        else t) j.ckpt.streamed
      setJob s p { j with ckpt := { j.ckpt with streamed := t } }

/-! ### Manifests (R307) -/

/-- The item entries of a manifest, given each item's list entry and data, and where the next item's data goes. -/
def manifestEntries : List (Nat × List Byte) → Nat → List Byte × Nat
  | [], o => ([], o)
  | (e, b) :: rest, o =>
    let (more, end_) := manifestEntries rest (roundUp (o + b.length) 4096)
    (leBytes 1 (fld e 62 2) ++ zeros 3 ++ leBytes 4 (crc32c b) ++ leBytes 8 e ++ leBytes 8 o ++ leBytes 8 b.length ++ more,
     if rest.isEmpty then o + b.length else end_)

/-- The header of a manifest with its CRC. -/
def manifestHeader (jobTag step epoch pos seed items : Nat) (entries : List Byte) : List Byte :=
  let a := leBytes 2 3
  let b := leBytes 1 0 ++ leBytes 4 jobTag ++ leBytes 8 step ++ leBytes 8 epoch ++ leBytes 8 pos ++ leBytes 8 seed ++ leBytes 2 items ++ zeros 2
  let crc := crc32c (a ++ [0] ++ b ++ zeros 4 ++ zeros 16 ++ entries)
  a ++ [1] ++ b ++ leBytes 4 crc ++ zeros 16

/-- Whether the CRC of a manifest's header and entries checks. -/
def manifestCrc (h entries : List Byte) : Bool :=
  decide (at_ h 44 4 = crc32c (slice h 0 2 ++ [0] ++ slice h 3 41 ++ zeros 4 ++ slice h 48 16 ++ entries))

/-- A manifest in memory: header and entries, within the room that it may take. -/
def readManifest (s : State) (p a room : Nat) : List Byte × List Byte :=
  let h := partRead s p a 64
  (h, partRead s p (a + 64) (min (32 * at_ h 40 2) (room - 64)))

/-- The data of item i of a manifest. -/
def manifestItem (s : State) (p a : Nat) (entries : List Byte) (i : Nat) : List Byte :=
  let e := slice entries (32 * i) 32
  partRead s p (a + at_ e 16 8) (at_ e 24 8)

/-- Whether every item lies within the room and its CRC checks. -/
def manifestItemsOk (s : State) (p a room : Nat) (entries : List Byte) : Bool :=
  (List.range (entries.length / 32)).all (fun i =>
    let e := slice entries (32 * i) 32
    decide (at_ e 16 8 + at_ e 24 8 ≤ room) && !partPoisoned s p (a + at_ e 16 8) (at_ e 24 8) &&
    decide (crc32c (manifestItem s p a entries i) = at_ e 4 4))

/-! ### Taking a checkpoint (R308, R309) -/

/-- The slot of the next checkpoint: the one that does not hold the last complete one. -/
def nextSlot (k : CkptService) : Nat :=
  match k.last with
  | some (0, _) => 1
  | _ => 0

/-- Start the checkpoint of a step, or skip it while its slot is being sent or the one before is being written. -/
def startCkpt (s : State) (p : Nat) (step : BitVec 64) : State :=
  match job s p with
  | none => s
  | some j =>
    let k := nextSlot j.ckpt
    let items := j.ckpt.streamed
    let j' := { j with ckpt := { j.ckpt with streamed := [] } }
    if j.ckpt.run.isSome || (part s p).sends.any (fun x => decide (x.slot = k)) then postPart (setJob s p j') p 0x0122 1 (leBytes 1 k)
    else
      let (e, pos) := dataPosAt j (step.toNat + 1)
      setJob s p { j' with ckpt := { j'.ckpt with run := some { step := step, slot := k, phase := .reading, items := items, epoch := e, pos := pos } } }

/-- A checkpoint ends without being complete. -/
def failCkpt (s : State) (p reason : Nat) : State :=
  match job s p with
  | some j =>
    (match j.ckpt.run with
     | some r => postPart (setJob s p { j with ckpt := { j.ckpt with run := none } }) p 0x0122 reason (leBytes 1 r.slot)
     | none => s)
  | none => s

/-- What a checkpoint's end lets go on: an ON_STOP checkpoint that waited for it. -/
def ckptEnded (s : State) (p : Nat) : State :=
  match job s p with
  | some j =>
    if j.ckpt.onStop && j.ckpt.run.isNone then
      startCkpt (setJob s p { j with ckpt := { j.ckpt with onStop := false } }) p j.step
    else s
  | none => s

/-- The OPT_UPDATE commands and mask commits that a checkpoint held go on (R309). -/
def releaseHeld (s : State) (p : Nat) : State :=
  let s := restartWaiting s (fun w => decide (w.wait = .ckptHeld p))
  (part s p).pend.foldl (fun s e => match e.decision with
    | some d => if pendDue s p e then owe s (.run (if d then .maskEpochCommit (Fin.ofNat 16 p) e.job else .maskEpochAbort (Fin.ofNat 16 p) e.job)) else s
    | none => s) s

/-- Every item is read (R309): SNAP_EYELET is signalled, the held commands go on, and writing begins with COMPLETE = 0. -/
def itemsRead (s : State) (p : Nat) : State :=
  match job s p with
  | none => s
  | some j =>
    match j.ckpt.run with
    | none => s
    | some r =>
      if r.phase ≠ .reading then s
      else
        let all := (List.range (ckItems j.ckpt)).map (fun i => match tget none i r.items with
          | some b => (true, b)
          | none => itemData s p (ckItem j.ckpt i))
        let items := (all.zip (List.range all.length)).foldl (fun t x => tput none x.2 (some x.1.2) t) ([] : Tab (Option (List Byte)))
        let s := setJob s p { j with ckpt := { j.ckpt with run := some { r with phase := .writing, items := items } } }
        let s := releaseHeld (deviceSignal s (ckEyelet j.ckpt)) p
        if all.all (·.1) then partWrite s p (ckSlot j.ckpt r.slot + 2) [0] else ckptEnded (failCkpt s p 2) p

def execCkptItemsRead (p : Fin 16) (s : State) : Host.Outcome State Fault Refusal := .next (itemsRead s p.val)

/-- Whether the far tier fails at a page of the first n bytes of a slot (R404). -/
def slotFails (s : State) (p a n : Nat) : Bool :=
  (List.range (ceilDiv n (2 ^ 21))).any (fun i => match xlate s p (a + 2 ^ 21 * i) with
    | some d => (match addrKind d with
      | .far q => portDown s q
      | _ => false)
    | none => true)

/-- The transfer of a slot to its peers (R308, R438), each on a flow of its own. -/
def sendSlot (s : State) (p : Nat) (j : Job) (slot len : Nat) (step : BitVec 64) : State :=
  let b := partRead s p (ckSlot j.ckpt slot) len
  (ckPeers j.ckpt).foldl (fun s peer =>
    let (f, s) := freeNat s
    let flow := f % 2 ^ 17
    let args := (payloads b).map (fun x => (leBytes 8 x.1 ++ leBytes 1 slot, x.2))
    let (s, tx) := flowFill s (flowPush {} (flowPacket s 0x30 3 p 0 peer flow) args)
    modPart s p (fun y => { y with sends := y.sends ++
      [{ job := jTag j, slot := slot, step := step, peer := BitVec.ofNat 16 peer, flow := flow, len := len, tx := tx }] })) s

/-- The items and the manifest are written: CKPT_COMPLETE, and the slot goes to the peers (R308). A far-tier error, or items that
do not fit the slot, end it with CKPT_FAILED. -/
def completeCkpt (s : State) (p : Nat) : State :=
  match job s p with
  | none => s
  | some j =>
    match j.ckpt.run with
    | none => s
    | some r =>
      if r.phase ≠ .writing then s
      else
        let a := ckSlot j.ckpt r.slot
        let n := ckItems j.ckpt
        let items := (List.range n).map (fun i => (ckItem j.ckpt i, (tget none i r.items).getD []))
        let (entries, len) := manifestEntries items (roundUp (64 + 32 * n) 4096)
        if slotFails s p a len || decide (ckSlotBytes j.ckpt < len) then ckptEnded (failCkpt s p 2) p
        else
          let s := (items.zip (List.range n)).foldl (fun s x => partWrite s p (a + at_ entries (32 * x.2 + 16) 8) x.1.2) s
          let s := partWrite s p (a + 64) entries
          let s := partWrite s p a (manifestHeader (jTag j) r.step.toNat r.epoch r.pos j.seed.toNat n entries)
          let s := setJob s p { j with ckpt := { j.ckpt with run := none, last := some (r.slot, r.step.toNat) } }
          let s := postPart s p 0x0120 0 (leBytes 1 r.slot)
          ckptEnded (sendSlot s p j r.slot len r.step) p

def execCheckpointComplete (p : Fin 16) (s : State) : Host.Outcome State Fault Refusal := .next (completeCkpt s p.val)

/-! ### Storage peers (R438) -/

/-- Post an event of a transfer: with the job's counter while the job runs, else with the checkpoint's step. -/
def postSend (s : State) (p : Nat) (x : CkptSend) (code reason : Nat) : State :=
  match job s p with
  | some j => if jTag j = x.job then postPart s p code reason (leBytes 1 x.slot) else postEvent s p code reason x.job x.step.toNat (leBytes 1 x.slot)
  | none => postEvent s p code reason x.job x.step.toNat (leBytes 1 x.slot)

/-- Two transfers of one checkpoint. -/
def sameCkpt (x y : CkptSend) : Bool := decide (x.job = y.job) && decide (x.slot = y.slot) && decide (x.step = y.step)

/-- A lost peer ends the checkpoint's transfers with CKPT_FAILED, reason 3. -/
def peerLost (s : State) (p : Nat) (x : CkptSend) : State :=
  postSend (modPart s p (fun y => { y with sends := y.sends.filter (fun z => !sameCkpt x z) })) p x 0x0122 3

/-- Change one transfer. -/
def setSend (s : State) (p : Nat) (x : CkptSend) : State :=
  modPart s p (fun y => { y with sends := y.sends.map (fun z => if sameCkpt x z ∧ z.peer = x.peer then x else z) })

/-- When every packet is acknowledged, CKPT_END follows; a lost flow loses the peer. -/
def sendNext (s : State) (p : Nat) (x : CkptSend) : State :=
  if x.tx.lost then peerLost s p x
  else if !x.ended && flowDone x.tx x.tx.next then
    let s := setSend s p { x with ended := true }
    originate s 0x31 0 false 0 p x.peer.toNat 0 x.flow []
      (leBytes 4 x.job ++ leBytes 1 x.slot ++ zeros 3 ++ leBytes 8 x.step.toNat ++ leBytes 8 x.len)
  else setSend s p x

/-- A TACK reaches a partition: for the flow of a context, or for a transfer. -/
def tackArrives (s : State) (b : List Byte) : State :=
  let p := pkDpart b
  if !pkGood b then countEcrc s
  else match tackCtx s b with
    | some n => tackCtxOp s n b
    | none =>
      match (part s p).sends.find? (fun x => decide (x.peer.toNat = pkSrc b) && decide (x.flow = pkFlow b)) with
      | some x =>
        let (s, tx) := flowFill s (flowAck x.tx (at_ (pkArg b) 0 4))
        sendNext s p { x with tx := tx }
      | none => s

def execTack (b : List Byte) (s : State) : Host.Outcome State Fault Refusal := .next (tackArrives s b)

/-- 1 ms without TACK progress on a flow. -/
def resendTimer (s : State) (p : Nat) (c : Option (BitVec 16)) : State :=
  match c with
  | some n => if (ctx s n.toNat).isOpen ∧ (ctx s n.toNat).kind = 3 ∧ ownsCtx s p n.toNat then flowResend s n.toNat else s
  | none =>
    match (part s p).sends.find? (fun x => !x.ended) with
    | some x =>
      let (s, tx) := flowTimeout s x.tx
      sendNext s p { x with tx := tx }
    | none => s

def execFlowResendTimeout (p : Fin 16) (c : Option (BitVec 16)) (s : State) : Host.Outcome State Fault Refusal := .next (resendTimer s p.val c)

/-- No CKPT_DONE within 2^28 reference cycles of CKPT_END: the peer is lost. -/
def doneTimeout (s : State) (p : Nat) : State :=
  match (part s p).sends.find? (·.ended) with
  | some x => peerLost s p x
  | none => s

def execCkptDoneTimeout (p : Fin 16) (s : State) : Host.Outcome State Fault Refusal := .next (doneTimeout s p.val)

/-- A peer's verdict on a slot that it was sent: durable, or the peer is lost. -/
def sendDone (s : State) (p : Nat) (x : CkptSend) (status : Nat) : State :=
  if status = 0 then
    let s := modPart s p (fun y => { y with sends := y.sends.filter (fun z => !(sameCkpt x z && decide (z.peer = x.peer))) })
    if (part s p).sends.any (sameCkpt x) then s else postSend s p x 0x0121 0
  else if status = 1 then peerLost s p x
  else s

/-! ### CKPT_FETCH (R311) -/

/-- The parameters of a waiting CKPT_FETCH. -/
def fetchOf : Instr → Option CkptFetchP
  | .ckptFetch _ q => some q
  | _ => none

/-- The record: STEP, LENGTH, PEER_STATUS. -/
def fetchRecord (step len status : Nat) : List Byte := leBytes 8 step ++ leBytes 8 len ++ leBytes 1 status ++ zeros 7

/-- End a fetch: its context closes. -/
def endFetch (s : State) (w : Waiting) (n : Nat) (st : Status) (detail step status : Nat) : State :=
  let len := (ctx s n).rxBytes
  endWaiting (setCtx s n {}) w st detail (fetchRecord step len status)

/-- When CKPT_END and every byte up to its LENGTH have arrived, the manifest is checked. -/
def checkFetch (s : State) (w : Waiting) (n : Nat) (q : CkptFetchP) (len : Nat) : State :=
  let p := w.cmd.part.getD 16
  let a := q.dst.toNat
  let room := q.dstBytes.toNat
  if room < len then endFetch s w n .badDescriptor 0 0 0xFF
  else if (ctx s n).rxBytes < len ∨ (ctx s n).rx.ahead ≠ [] then
    { s with waiting := s.waiting.map (fun x => if x.id = w.id then { x with wait := .fetch n (some len) } else x) }
  else
    let (h, entries) := readManifest s p a room
    let step := at_ h 8 8
    if at_ h 0 2 ≠ 3 ∨ at_ h 2 1 ≠ 1 ∨ at_ h 4 4 ≠ q.job.toNat ∨ (q.step.toNat ≠ 2 ^ 64 - 1 ∧ step ≠ q.step.toNat) then
      endFetch s w n .badDescriptor 0 step 0xFF
    else if partPoisoned s p a (64 + 32 * at_ h 40 2) || decide (entries.length ≠ 32 * at_ h 40 2) || !manifestCrc h entries ||
        !manifestItemsOk s p a room entries then endFetch (fwCrcFails s p) w n .integrityFail 0 step 0xFF
    else endFetch s w n .ok 0 step 0xFF

def bodyCkptFetch (q : CkptFetchP) (s : State) (c : Cmd) : Res :=
  let p := c.part.getD 16
  let a := q.dst.toNat
  let room := q.dstBytes.toNat
  let n := q.context.toNat
  checked s [(decide (1 < q.slot.toNat) || decide (q.rsvdA ≠ 0) || decide (q.rsvdB ≠ 0) || decide (room % 2 ^ 21 ≠ 0) || decide (room < 2 ^ 21) ||
        decide (2 ^ 48 ≤ room) || !regionOk s p a room (2 ^ 21) true || !(spanHbm s p a room || spanFar s p a room), .badParam, 1),
      (!(decide (n < 0x10000) && ownsCtx s p n), .denied, 0), ((ctx s n).isOpen || draining s, .contextBusy, 0),
      (departed s q.peer, .deferred, 2)] fun _ =>
    let s := setCtx s n { isOpen := true, kind := 4, cls := 3, buf := q.dst, bufBytes := q.dstBytes, eyelet := 0xFFFFFFFF }
    let s := originate s 0x33 0 false 0 p q.peer.toNat 0 0 []
      (leBytes 4 q.job.toNat ++ leBytes 1 q.slot.toNat ++ zeros 3 ++ leBytes 8 q.step.toNat ++ leBytes 4 n ++ leBytes 1 p ++ zeros 3 ++ leBytes 8 room)
    { s := s, wait := some (.fetch n none) }

def execCkptFetch (h : Hdr) (p : CkptFetchP) (s : State) : Host.Outcome State Fault Refusal :=
  command (.ckptFetch h p) { op := 0x0022, n := 40, runs := .f, rec_ := 24 } h (packetBytes 0x0022 h (bytesCkptFetch p)) (bodyCkptFetch p) s

/-- The waiting fetches of a partition with their contexts and parameters. -/
def fetches (s : State) (p : Nat) : List (Waiting × Nat × Option Nat × CkptFetchP) :=
  s.waiting.filterMap (fun w => match w.wait, fetchOf w.instr with
    | .fetch n l, some q => if w.cmd.part = some p then some (w, n, l, q) else none
    | _, _ => none)

/-- A CKPT_DATA packet is written under R506; the last one may let a fetch end. -/
def ckptDataArrives (s : State) (b : List Byte) : State :=
  if !pkGood b then countEcrc s
  else match rxCtx s b with
    | none => countDrop s
    | some n =>
      let s := rxPacket s (pkDpart b) n (at_ (pkArg b) 0 8) false b
      match (fetches s (pkDpart b)).find? (fun x => decide (x.2.1 = n)) with
      | some (w, _, some len, q) => checkFetch s w n q len
      | _ => s

def execCkptData (b : List Byte) (s : State) : Host.Outcome State Fault Refusal := .next (ckptDataArrives s b)

/-- A fetch that a packet's source, JOB and SLOT name. -/
def fetchNamed (s : State) (b : List Byte) : Option (Waiting × Nat × Option Nat × CkptFetchP) :=
  let y := pkPayload b
  (fetches s (pkDpart b)).find? (fun x => decide (x.2.2.2.peer.toNat = pkSrc b) && decide (x.2.2.2.job.toNat = at_ y 0 4) &&
    decide (x.2.2.2.slot.toNat = at_ y 4 1))

def ckptEndArrives (s : State) (b : List Byte) : State :=
  if !pkGood b then countEcrc s
  else match fetchNamed s b with
    | some (w, n, _, q) => checkFetch s w n q (at_ (pkPayload b) 16 8)
    | none => s

def execCkptEnd (b : List Byte) (s : State) : Host.Outcome State Fault Refusal := .next (ckptEndArrives s b)

/-- CKPT_DONE: the answer to a fetch (STATUS 2 or 3), or the verdict on a slot that was sent. -/
def ckptDoneArrives (s : State) (b : List Byte) : State :=
  let y := pkPayload b
  let st := at_ y 5 1
  if !pkGood b then countEcrc s
  else if st = 2 ∨ st = 3 then
    match fetchNamed s b with
    | some (w, n, _, _) => endFetch s w n .noResource 0 0 st
    | none => s
  else match (part s (pkDpart b)).sends.find? (fun x => decide (x.peer.toNat = pkSrc b) && decide (x.job = at_ y 0 4) &&
      decide (x.slot = at_ y 4 1) && decide (x.step.toNat = at_ y 8 8)) with
    | some x => sendDone s (pkDpart b) x st
    | none => s

def execCkptDone (b : List Byte) (s : State) : Host.Outcome State Fault Refusal := .next (ckptDoneArrives s b)

/-- A CKPT_FETCH packet asks a storage peer, which this module is not: it is dropped and counted. -/
def execCkptFetchPacket (b : List Byte) (s : State) : Host.Outcome State Fault Refusal :=
  .next (if !pkGood b then countEcrc s else countDrop s)

/-- PEER_STATUS of a fetch that ends without a CKPT_DONE: 0xFF once CKPT_END has arrived; what it reads before that is not stated. -/
def fetchStatus (s : State) (end_ : Option Nat) : Nat × State :=
  if end_.isSome then (0xFF, s) else let (v, s) := freeNat s; (v % 256, s)

/-- Neither CKPT_END nor CKPT_DONE has come within 2^28 reference cycles. -/
def fetchTimeout (s : State) (p : Nat) : State :=
  match (fetches s p).find? (fun x => x.2.2.1.isNone) with
  | some (w, n, end_, _) => let (v, s) := fetchStatus s end_; endFetch s w n .deferred 1 0 v
  | none => s

def execCkptFetchTimeout (p : Fin 16) (s : State) : Host.Outcome State Fault Refusal := .next (fetchTimeout s p.val)

end Sys2Proof.Machine
end

