-- ==== Sys2Proof/Machine/Context.lean ====
section
/-! DEFINITION. NOP, the context and result-pool commands, host ranges and MEM_ATOMIC (R491, R492, R495, R501 to R503). -/
namespace Sys2Proof.Machine

/-- NOP: completes with OK and has no effect (R501). -/
def execNop (h : Hdr) (s : State) : Host.Outcome State Fault Refusal :=
  command (.nop h) { op := 0x0000, n := 0, runs := .sf, needPart := false } h (packetBytes 0x0000 h []) (fun s _ => { s := s }) s

/-! ### CTX_OPEN (R491) -/

/-- Whether the fields of CTX_OPEN are valid for its kind (R490, R491): fields of other kinds are 0. -/
def ctxOpenValid (s : State) (pt : Nat) (p : CtxOpenP) : Bool :=
  let k := p.kind.toNat
  let core0 := decide (p.core = 0) && decide (p.stream = 0)
  let peer0 := decide (p.peer = 0) && decide (p.peerPart = 0) && decide (p.peerCtx = 0)
  let buf0 := decide (p.buf = 0) && decide (p.bufBytes = 0)
  let cls0 := decide (p.cls = 0)
  let clsOk := decide (p.cls.toNat = 2) || decide (p.cls.toNat = 3)
  let peerOk := decide (p.peerPart.toNat < 16) && decide (p.peerCtx.toNat < 2 ^ 17)
  decide (p.rsvdA = 0) && decide (p.rsvdB = 0) &&
  (if k = 0 then
     decide (p.core.toNat < 16) && decide (p.stream.toNat < 3) && holdsCore s pt p.core.toNat &&
     inService s p.core.toNat && cls0 && peer0 && buf0
   else if k = 1 then core0 && cls0 && peer0 && buf0
   else if k = 2 then core0 && cls0 && peerOk && buf0
   else if k = 3 then core0 && clsOk && peerOk && buf0
   else if k = 4 then
     core0 && clsOk && peer0 &&
     (decide (p.bufBytes = 0) || spanOk s pt p.buf.toNat (p.buf.toNat + p.bufBytes.toNat - 1) true) &&
     (decide (p.eyelet.toNat = 0xFFFFFFFF) || decide (p.eyelet.toNat < 16384))
   else false)

/-- The context that CTX_OPEN opens. -/
def openedCtx (p : CtxOpenP) : Ctx :=
  { isOpen := true, kind := p.kind, core := p.core, stream := p.stream, cls := p.cls, peer := p.peer,
    peerPart := p.peerPart, peerCtx := p.peerCtx, buf := p.buf, bufBytes := p.bufBytes, eyelet := p.eyelet }

/-- CTX_OPEN: DENIED outside the partition's range, CONTEXT_BUSY when open, BAD_PARAM on a reserved value (R491). -/
def bodyCtxOpen (p : CtxOpenP) (s : State) (c : Cmd) : Res :=
  let pt := c.part.getD 16
  let n := p.context.toNat
  let foreignEyelet := decide (p.kind.toNat = 4) && decide (p.eyelet.toNat < 16384) && !ownsEyelet s pt p.eyelet.toNat
  checked s [(!(decide (n < 0x10000) && ownsCtx s pt n), .denied, 0), ((ctx s n).isOpen, .contextBusy, 0),
      (!ctxOpenValid s pt p, .badParam, 0), (decide (3 ≤ p.kind.toNat) && draining s, .contextBusy, 0), (foreignEyelet, .denied, 0)] fun _ =>
    { s := setCtx s n (openedCtx p) }

def execCtxOpen (h : Hdr) (p : CtxOpenP) (s : State) : Host.Outcome State Fault Refusal :=
  command (.ctxOpen h p) { op := 0x0001, n := 40, runs := .f } h (packetBytes 0x0001 h (bytesCtxOpen p)) (bodyCtxOpen p) s

/-! ### CTX_CLOSE (R492) -/

/-- Whether a context has a command queued or running, or a flow packet unacknowledged (R492). -/
def ctxBusy (s : State) (n : Nat) : Bool :=
  let mine : Hdr → Bool := fun h => decide (hdrCtx h = n)
  s.waiting.any (fun w => mine w.cmd.h) || !(ctx s n).fwq.isEmpty ||
  s.work.any (fun w => match w with
    | .start q => mine q.cmd.h
    | _ => false) || !((ctx s n).tx.unacked ++ (ctx s n).tx.queued).isEmpty ||
  s.cores.any (fun k => k.2.streams.any (fun x =>
    x.2.queue.any (fun q => mine q.cmd.h) || x.2.held.any (fun q => mine q.cmd.h)))

/-- CTX_CLOSE delivers PACKETS and OVERRUNS (R492). -/
def bodyCtxClose (p : CtxCloseP) (s : State) (c : Cmd) : Res :=
  let pt := c.part.getD 16
  let n := p.context.toNat
  let x := ctx s n
  checked s [(decide (p.rsvdA ≠ 0), .badParam, 0), (decide (0x10000 ≤ n), .badParam, 0), (!ownsCtx s pt n, .denied, 0),
      (!x.isOpen || ctxBusy s n, .contextBusy, 0)] fun _ =>
    { s := setCtx s n {}, record := leBytes 8 x.packets.toNat ++ leBytes 8 x.overruns.toNat }

def execCtxClose (h : Hdr) (p : CtxCloseP) (s : State) : Host.Outcome State Fault Refusal :=
  command (.ctxClose h p) { op := 0x0002, n := 8, runs := .f, rec_ := 16 } h (packetBytes 0x0002 h (bytesCtxClose p))
    (bodyCtxClose p) s

/-! ### RESULT_POOL (R495) -/

/-- Whether a pool has a window allocated. -/
def poolBusy (k : Option Pool) : Bool :=
  match k with
  | some k => k.windows.any (fun w => w.2.inUse)
  | none => false

/-- RESULT_POOL sets the issuing partition's pool; its pages are then mapped for reads only (R495). -/
def bodyResultPool (p : ResultPoolP) (s : State) (c : Cmd) : Res :=
  let pt := c.part.getD 16
  let base := p.base.toNat
  let n := p.count.toNat
  checked s [(decide (p.rsvdA ≠ 0), .badParam, 0), (decide (base % 2 ^ 21 ≠ 0), .badParam, 0),
      (decide (n % 256 ≠ 0) || decide (n < 256) || decide (65536 < n), .badParam, 0),
      (!spanOk s pt base (base + 8192 * n - 1) false, .badParam, 0), (!spanHbm s pt base (8192 * n), .badDescriptor, 0),
      (poolBusy (page s pt).pool, .contextBusy, 0)] fun _ =>
    { s := modPage (dropWindows s pt 0 65536) pt (fun q => { q with pool := some { base := base, count := n } }) }

def execResultPool (h : Hdr) (p : ResultPoolP) (s : State) : Host.Outcome State Fault Refusal :=
  command (.resultPool h p) { op := 0x0003, n := 16, runs := .f } h (packetBytes 0x0003 h (bytesResultPool p))
    (bodyResultPool p) s

/-! ### HOST_RANGE (R503) -/

/-- HOST_RANGE sets host range INDEX of partition PART; BYTES 0 removes it (R503). -/
def bodyHostRange (p : HostRangeP) (s : State) (_c : Cmd) : Res :=
  let r : HostRange := if p.bytes = 0 then {} else { base := p.base.toNat, bytes := p.bytes.toNat, write := bitOf p.flags.toNat 0 }
  checked s [(decide (p.rsvdA ≠ 0) || decide (15 < p.part.toNat) || decide (15 < p.index.toNat) ||
      decide (1 < p.flags.toNat) || decide (p.base.toNat % 4096 ≠ 0) || decide (p.bytes.toNat % 4096 ≠ 0), .badParam, 0)] fun _ =>
    { s := modPart s p.part.toNat (fun x => { x with hosts := tput {} p.index.toNat r x.hosts }) }

def execHostRange (h : Hdr) (p : HostRangeP) (s : State) : Host.Outcome State Fault Refusal :=
  command (.hostRange h p) { op := 0x0103, n := 24, runs := .m, needPart := false } h (packetBytes 0x0103 h (bytesHostRange p))
    (bodyHostRange p) s

/-! ### MEM_ATOMIC (R502, R410) -/

/-- One operation of R410 on an old value of `w` bytes. -/
def atomicOp (op w old operand compare : Nat) : Nat :=
  let m := 2 ^ (8 * w)
  let a := operand % m
  let so := sext (8 * w) old
  let sa := sext (8 * w) a
  if op = 0 then (old + a) % m
  else if op = 1 then (if old = compare % m then a else old)
  else if op = 2 then a
  else if op = 3 then old &&& a
  else if op = 4 then old ||| a
  else if op = 5 then old ^^^ a
  else if op = 6 then (if old ≤ a then old else a)
  else if op = 7 then (if old ≤ a then a else old)
  else if op = 8 then (if so ≤ sa then old else a)
  else (if so ≤ sa then a else old)

/-- MEM_ATOMIC delivers OLD, zero-extended; a poisoned line drops the operation and gives INTEGRITY_FAIL (R419, R502). -/
def bodyMemAtomic (p : MemAtomicP) (s : State) (c : Cmd) : Res :=
  let pt := c.part.getD 16
  let a := p.addr.toNat
  let w := p.width.toNat
  checked s [(decide (p.rsvdA ≠ 0) || decide (9 < p.op.toNat) || !(decide (w = 4) || decide (w = 8)), .badParam, 0),
      (decide (a % w ≠ 0) || !pageOk s pt a true, .badParam, 0)] fun _ =>
    let bad := partPoisoned s pt a w
    let old := leNat (partRead s pt a w)
    let d := (xlate s pt a).getD 0
    let s := countAtomic s pt d 1
    let s := partWrite s pt a (leBytes w (atomicOp p.op.toNat w old p.operand.toNat p.compare.toNat))
    { s := s, st := if bad then .integrityFail else .ok, record := if bad then [] else leBytes 8 old }

def execMemAtomic (h : Hdr) (p : MemAtomicP) (s : State) : Host.Outcome State Fault Refusal :=
  command (.memAtomic h p) { op := 0x0101, n := 32, runs := .sf, rec_ := 8 } h (packetBytes 0x0101 h (bytesMemAtomic p))
    (bodyMemAtomic p) s

end Sys2Proof.Machine
end

