-- ==== Sys2Proof/Machine/FabOps.lean ====
section
/-! DEFINITION. The fabric's link frames, port schedulers, routing and membership (R430 to R457): the operations that every
fabric event shares. -/
namespace Sys2Proof.Machine

/-! ### Identity (R509 to R511) -/

/-- One capability entry without its NEXT field: ID and data (R510). -/
def capEntries (s : State) : List (Nat × List Byte) :=
  [(0x0001, leBytes 1 3 ++ leBytes 1 16 ++ leBytes 1 18 ++ leBytes 1 64 ++ leBytes 2 768 ++ leBytes 2 384 ++ leBytes 1 16 ++ zeros 3 ++ leBytes 4 65536),
   (0x0002, leBytes 1 7 ++ leBytes 1 32 ++ leBytes 1 7 ++ zeros 1 ++ leBytes 2 4096 ++ zeros 2),
   (0x0003, leBytes 16 (([0x01, 0x02, 0x03, 0x04, 0x08, 0x10, 0x11, 0x12, 0x13, 0x14, 0x30, 0x31, 0x32, 0x33, 0x34].map (2 ^ ·)).sum)),
   (0x0004, leBytes 1 0x3F ++ leBytes 1 0xFF ++ leBytes 1 0x0F ++ leBytes 1 64 ++ zeros 4),
   (0x0005, leBytes 2 1024 ++ leBytes 2 768 ++ leBytes 1 0x0F ++ zeros 3),
   (0x0006, leBytes 1 0x03 ++ leBytes 1 64 ++ zeros 6),
   (0x0007, leBytes 2 16384 ++ leBytes 2 1024 ++ leBytes 2 8192 ++ leBytes 1 0x01 ++ zeros 1),
   (0x0008, leBytes 2 128 ++ leBytes 2 6 ++ leBytes 4 ((tget {} 0 s.cxl).pages.toNat + (tget {} 1 s.cxl).pages.toNat) ++ leBytes 1 0x07 ++ zeros 7),
   (0x0009, leBytes 1 0x1F ++ leBytes 1 23 ++ zeros 6),
   (0x000A, leBytes 1 0x01 ++ leBytes 1 0x01 ++ leBytes 1 0x01 ++ leBytes 1 0x03 ++ zeros 4),
   (0x000B, leBytes 1 1 ++ zeros 3 ++ leBytes 4 (hdrVersion (runHeader s 3))),
   (0x000C, leBytes 1 1 ++ leBytes 1 2 ++ zeros 6),
   (0x000D, leBytes 1 0x03 ++ leBytes 1 0x03 ++ leBytes 1 16 ++ leBytes 1 16 ++ leBytes 2 16 ++ zeros 2)]

/-- The entries laid out from an offset, each with its NEXT. -/
def capLayout : List (Nat × List Byte) → Nat → List Byte
  | [], _ => []
  | (id, d) :: rest, o =>
    let next := o + 8 + d.length
    leBytes 2 id ++ [1, 0] ++ leBytes 2 d.length ++ leBytes 2 (if rest.isEmpty then 0 else next) ++ d ++ capLayout rest next

/-- The capability list (R510, R511). -/
def capList (s : State) : List Byte := capLayout (capEntries s) 0

/-! ### Link frames (R430) -/

def kCredit : Nat := 0x01
def kAck : Nat := 0x02
def kNak : Nat := 0x03
def kMaint : Nat := 0x04
def kData : Nat := 0x10

/-- A link frame: header, body, LCRC. -/
def linkFrame (kind lseq : Nat) (ack : Option Nat) (body : List Byte) : List Byte :=
  let a := match ack with
    | some l => 0x8000 + l
    | none => 0
  let f := leBytes 1 kind ++ [0] ++ leBytes 2 lseq ++ leBytes 2 a ++ leBytes 2 body.length ++ body
  f ++ leBytes 4 (crc32c f)

def frKind (f : List Byte) : Nat := at_ f 0 1
def frLseq (f : List Byte) : Nat := fld (at_ f 2 2) 0 12
def frLen (f : List Byte) : Nat := at_ f 6 2
def frBody (f : List Byte) : List Byte := slice f 8 (frLen f)
/-- ACKSEQ when VALID. -/
def frAck (f : List Byte) : Option Nat := if bitOf (at_ f 4 2) 15 then some (fld (at_ f 4 2) 0 12) else none

/-- Whether a LEN suits a KIND; no LEN suits a reserved one. -/
def lenSuits (kind n : Nat) : Bool :=
  if kind = kCredit then decide (n = 16)
  else if kind = kAck ∨ kind = kNak then decide (n = 0)
  else if kind = kMaint then decide (4 ≤ n) && decide (n ≤ 1028)
  else if kind = kData then decide (36 ≤ n) && decide (n ≤ 4132)
  else false

/-- Whether a receiver keeps a frame: its LCRC, KIND and LEN. -/
def frameOk (f : List Byte) : Bool :=
  decide (f.length = frLen f + 12) && decide (at_ f (8 + frLen f) 4 = crc32c (f.take (8 + frLen f))) && lenSuits (frKind f) (frLen f)

/-- Count a discarded frame. -/
def countLcrc (s : State) : State := countFab s 1 (·.lcrcCnt) (fun f c => { f with lcrcCnt := c })

/-- Send a link frame; it carries ACKSEQ once a DATA frame has been accepted, and so acknowledges it (R431). -/
def linkSend (s : State) (q kind lseq : Nat) (body : List Byte) : State :=
  send (modPort s q (fun x => { x with ackDue := false })) (.frame q (linkFrame kind lseq (portOf s q).rxLast body))

/-- Send a MAINT frame to the neighbour of an UP port. -/
def sendMaint (s : State) (q : Nat) (body : List Byte) : State := linkSend s q kMaint 0 body

/-! ### Sending DATA frames (R431, R432, R447) -/

/-- Credit that a class starts with, in blocks of 64 bytes (R432). -/
def initCredit (cls : Nat) : Nat := if cls = 0 then 256 else if cls = 3 then 1024 else 4096
def creditOf (x : Port) (cls : Nat) : Nat := tget (initCredit cls) cls x.credit
/-- Blocks that a class may still send, modulo 2^32. -/
def creditLeft (x : Port) (cls : Nat) : Nat := (creditOf x cls + 2 ^ 32 - tget 0 cls x.used % 2 ^ 32) % 2 ^ 32
def queueOf (x : Port) (cls : Nat) : List (List Byte) := tget [] cls x.queues
/-- Bytes of a packet's DATA frame. -/
def dataBytes (b : List Byte) : Nat := b.length + 12

/-- Whether the replay buffer admits a frame: 2,047 frames, 512 KiB, of which 16 KiB are kept for C0. -/
def replayRoom (x : Port) (b : List Byte) : Bool :=
  let total := (x.replay.map (fun f => dataBytes f.packet)).sum
  let others := ((x.replay.filter (fun f => decide (pkClass f.packet ≠ 0))).map (fun f => dataBytes f.packet)).sum
  decide (x.replay.length < 2047) && decide (total + dataBytes b ≤ 524288) && (decide (pkClass b = 0) || decide (others + dataBytes b ≤ 507904))

/-- Whether a port carries DATA frames: it is UP, and no dedicated port of a partition that is being scrubbed (R458). -/
def carriesData (s : State) (x : Port) : Bool :=
  decide (x.lstate = .up) && !(x.dedicated && decide ((part s x.owner.toNat).pstate = .scrubbing))

/-- Whether the head of a class's queue may be sent now. -/
def headReady (x : Port) (cls : Nat) : Bool :=
  match queueOf x cls with
  | [] => false
  | b :: _ => decide (frameBlocks b ≤ creditLeft x cls) && replayRoom x b

def classWeight (s : State) (cls : Nat) : Nat := fld s.fab.arb.toNat (8 * (3 - cls)) 8

/-- The class to serve next: C0 first, then the weighted round robin of C1 to C3 in units of 256 bytes, C3 of weight 0 only while
C1 and C2 have nothing that may be sent: a frame of theirs that waits for credit delays no other class (R432). A round begins anew when no class that can send has budget left. -/
def pickClass (s : State) (x : Port) : Option (Nat × Port) :=
  if headReady x 0 then some (0, x)
  else
    let ready := [1, 2, 3].filter (fun c => headReady x c && decide (classWeight s c ≠ 0))
    match ready.find? (fun c => decide (tget 0 c x.budget ≠ 0)) with
    | some c => some (c, x)
    | none =>
      match ready with
      | c :: _ =>
        let fresh : Tab Nat := [(1, 256 * classWeight s 1), (2, 256 * classWeight s 2), (3, 256 * classWeight s 3)]
        some (c, { x with budget := fresh.filter (fun e => decide (e.2 ≠ 0)) })
      | [] => if headReady x 3 && !headReady x 1 && !headReady x 2 then some (3, x) else none

/-- Send the DATA frames that a port may send now. -/
def pumpGo : Nat → State → Nat → State
  | 0, s, _ => s
  | fuel + 1, s, q =>
    let x := portOf s q
    if !carriesData s x then s
    else match pickClass s x with
      | none => s
      | some (c, x) =>
        match queueOf x c with
        | [] => s
        | b :: rest =>
          let frame : TxFrame := { lseq := x.txNext, packet := b }
          let left := tget 0 c x.budget - dataBytes b
          let x := { x with queues := tput [] c rest x.queues, used := tput 0 c (tget 0 c x.used + frameBlocks b) x.used, txNext := (x.txNext + 1) % 4096,
                            replay := x.replay ++ [frame], budget := if c = 0 then x.budget else tput 0 c left x.budget }
          pumpGo fuel (linkSend (setPort s q x) q kData frame.lseq b) q

/-- Serve a port's queues. -/
def pump (s : State) (q : Nat) : State :=
  pumpGo (((portOf s q).queues.map (fun e => e.2.length)).sum + 1) s q

/-- Queue a packet at an output port. -/
def enqueue (s : State) (q : Nat) (b : List Byte) : State :=
  let c := pkClass b
  pump (modPort s q (fun x => { x with queues := tput [] c (queueOf x c ++ [b]) x.queues })) q

/-- Frames up to and with an LSEQ are acknowledged (R431). -/
def ackUpto (s : State) (q l : Nat) : State :=
  let x := portOf s q
  if x.replay.any (fun f => decide (f.lseq = l)) then
    pump (setPort s q { x with replay := (x.replay.dropWhile (fun f => decide (f.lseq ≠ l))).drop 1 }) q
  else s

/-- The acknowledgement that a frame carries. -/
def carriedAck (s : State) (q : Nat) (f : List Byte) : State :=
  match frAck f with
  | some l => ackUpto s q l
  | none => s

/-! ### Routing (R444, R445, R459) -/

/-- Whether the device holds an address (R439, R462). -/
def hasAddr (s : State) : Bool := decide (s.fab.mode ≠ .unassigned)

/-- Whether a dedicated port may carry a packet: one that this device originates from partition OWNER (R459). -/
def mayCarry (s : State) (x : Port) (b : List Byte) (own : Bool) : Bool :=
  !x.dedicated || (own && decide (pkSpart b = x.owner.toNat) && decide (pkSrc b = s.fab.addr.toNat))

/-- Ports of a mask that are up, of a version that suffices, and that may carry the packet, in ascending order. -/
def upPorts (s : State) (mask : Nat) (b : List Byte) (own : Bool) : List Nat :=
  (bitsSet mask 32).filter (fun q =>
    let x := portOf s q
    decide (x.lstate = .up) && decide (pkVersion b ≤ x.ver.toNat) && mayCarry s x b own)

/-- The route entry of a destination (R444). -/
def routeEntry (s : State) (dst : Nat) : Nat :=
  if hasAddr s ∧ dst / 256 = s.fab.addr.toNat / 256 then (tget 0 (dst % 256) s.fab.mbr).toNat else (tget 0 (dst / 256) s.fab.grp).toNat

/-- Bytes queued at a port for a class. -/
def queuedBytes (s : State) (cls q : Nat) : Nat := ((queueOf (portOf s q) cls).map (·.length)).sum

/-- The candidate whose queue holds fewest bytes, the lower port on a tie. -/
def leastQueued (s : State) (cls : Nat) : List Nat → Option Nat
  | [] => none
  | q :: rest =>
    match leastQueued s cls rest with
    | none => some q
    | some r => if queuedBytes s cls r < queuedBytes s cls q then some r else some q

/-- The output port of a unicast packet among its candidates (R444). -/
def pickPort (s : State) (b : List Byte) (cand : List Nat) : Option Nat :=
  if pkClass b ≤ 1 then
    let h := (((pkSrc b * 65536 + pkDst b) * 0x9E3779B1) % 2 ^ 32) / 65536
    if cand.isEmpty then none else cand[h % cand.length]?
  else leastQueued s (pkClass b) cand

/-- Send a unicast packet on, or drop it and fire the route-miss source. `own` holds for a packet of this device. -/
def routeOn (s : State) (b : List Byte) (own : Bool) : State :=
  let e := routeEntry s (pkDst b)
  if !bitOf e 63 then routeMiss s
  else match pickPort s b (upPorts s e b own) with
    | some q => enqueue s q b
    | none => routeMiss s

/-- Whether a destination still has an up candidate (R454). -/
def reachable (s : State) (addr : Nat) : Bool :=
  bitOf (routeEntry s addr) 63 && !(upPorts s (routeEntry s addr) (mkPacket 1 0x42 0 false 0 (devSpart s) addr s.fab.addr.toNat 0 0 [] []) true).isEmpty

/-! ### Membership (R441, R454 to R456) -/

def knownOf (s : State) (a : BitVec 16) : Option Known := s.fab.known.find? (fun k => decide (k.addr = a))
def setKnown (s : State) (k : Known) : State :=
  { s with fab := { s.fab with known := s.fab.known.filter (fun x => decide (x.addr ≠ k.addr)) ++ [k] } }

/-- The 14 ARG bytes of an ANNOUNCE (R455). -/
def announceArg (kind : Nat) (addr : BitVec 16) (id : Nat) : List Byte :=
  leBytes 1 kind ++ [0] ++ leBytes 2 addr.toNat ++ leBytes 8 id ++ zeros 2

/-- Send an announcement on group 4,095 and as a MAINT frame to every neighbour. -/
def announceAll (s : State) (kind : Nat) (addr : BitVec 16) (id : Nat) : State :=
  let arg := announceArg kind addr id
  let s := originate s 0x44 0 true 0 (devSpart s) 4095 0 0 arg []
  (List.range 32).foldl (fun s q => if (portOf s q).lstate = .up then sendMaint s q (leBytes 1 3 ++ arg) else s) s

/-- The 16 bytes of detail that name an address and a DEVICE_ID. -/
def addrDetail (addr : BitVec 16) (id : Nat) : List Byte := leBytes 2 addr.toNat ++ zeros 6 ++ leBytes 8 id

/-- The sending flow contexts for which a test holds are lost (R437, R441, R456). -/
def loseFlows (s : State) (f : Ctx → Bool) : State :=
  (s.ctxs.filter (fun e => e.2.isOpen && decide (e.2.kind = 3) && f e.2)).foldl (fun s e =>
    endFlows (modCtx s e.1 (fun x => { x with tx := { x.tx with lost := true, unacked := [], queued := [] } })) e.1) s

/-- The checkpoint transfers and fetches for which a test of the peer holds are lost. -/
def loseTransfers (s : State) (f : BitVec 16 → Bool) : State :=
  (List.range 16).foldl (fun s p =>
    let s := (part s p).sends.foldl (fun s x => if f x.peer && (part s p).sends.any (sameCkpt x) then peerLost s p x else s) s
    (fetches s p).foldl (fun s e =>
      let (w, n, end_, q) := e
      if f q.peer then (let (v, s) := fetchStatus s end_; endFetch s w n .deferred 3 0 v) else s) s) s

/-- The device learns that an address has departed (reason 1) or been lost (reason 2) (R456). -/
def peerGone (s : State) (addr : BitVec 16) (id reason : Nat) : State :=
  let old := (knownOf s addr).getD { addr := addr }
  let s := setKnown s { old with deviceId := BitVec.ofNat 64 id, present := false, departed := true }
  let s := { s with fab := { s.fab with probing := s.fab.probing.filter (fun x => decide (x.addr ≠ addr)) } }
  let s := loseFlows s (fun x => decide (x.peer = addr))
  let s := loseTransfers s (fun a => decide (a = addr))
  let s := parentLost s addr.toNat
  postMgmt (fireHub s 0x031) 0x0171 reason (addrDetail addr id)

/-- The device yields its address to a conflicting claimant (R441). -/
def yieldAddr (s : State) (other : Nat) : State :=
  let a := s.fab.addr
  let s := { s with fab := { s.fab with mode := .unassigned, addr := 0 } }
  let s := loseTransfers (loseFlows s (fun _ => true)) (fun _ => true)
  postMgmt (fireHub s 0x030) 0x0172 0 (addrDetail a other)

/-- A HELLO, ANNOUNCE or DISC_REPLY names an address with a DEVICE_ID and a STATE: if it is the device's own, the conflict is
resolved (R441). A DRAINING device keeps its address as an ACTIVE one does. -/
def checkConflict (s : State) (addr id state : Nat) : State :=
  let joining := decide (s.fab.mode = .joining)
  if !hasAddr s || decide (s.fab.mode = .departed) || decide (addr ≠ s.fab.addr.toNat) || decide (id = deviceNum) || decide (state = 0) then s
  else if !joining && decide (state = 1) then fireHub s 0x030
  else if joining && decide (state ≠ 1) then yieldAddr s id
  else if deviceNum < id then fireHub s 0x030
  else yieldAddr s id

/-- Announce a neighbour as lost, and learn it here (R454). -/
def announceLost (s : State) (addr : BitVec 16) (id : Nat) : State :=
  if departed s addr then s else peerGone (announceAll s 3 addr id) addr id 2

/-- Act on an announcement that changes what the device knows of the address (R455). -/
def learn (s : State) (arg : List Byte) : State :=
  let kind := at_ arg 0 1
  let addr := BitVec.ofNat 16 (at_ arg 2 2)
  let id := at_ arg 4 8
  let own := hasAddr s && decide (addr = s.fab.addr)
  match knownOf s addr with
  | none =>
    if kind = 1 then
      (if own then checkConflict s addr.toNat id 2
       else postMgmt (setKnown s { addr := addr, deviceId := BitVec.ofNat 64 id, present := true }) 0x0170 0 (addrDetail addr id))
    else if (kind = 2 ∨ kind = 3) ∧ !own then peerGone s addr id (kind - 1) else s
  | some k =>
    if kind = 1 then
      (if own then checkConflict s addr.toNat id 2
       else if k.present ∧ k.deviceId.toNat = id then s
       else postMgmt (setKnown s { k with deviceId := BitVec.ofNat 64 id, present := true, departed := false }) 0x0170 0 (addrDetail addr id))
    else if (kind = 2 ∨ kind = 3) ∧ !own ∧ !k.departed ∧ k.deviceId.toNat = id then peerGone s addr id (kind - 1)
    else s

/-! ### Link states (R433, R440, R446, R454, R464) -/

/-- The code of LSTATE. -/
def lstateCode : LState → Nat
  | .down => 0 | .training => 1 | .hello => 2 | .caps => 3 | .up => 4

/-- Change LSTATE: the port's source fires and FABRIC_LINK is sent. -/
def setLink (s : State) (q : Nat) (l : LState) : State :=
  let x := portOf s q
  if x.lstate = l then s
  else
    postMgmt (fireHub (setPort s q { x with lstate := l }) (0x010 + q)) 0x0173 (lstateCode l) (leBytes 1 q ++ [0] ++ leBytes 2 x.peer.toNat)

/-- What a port keeps when its link goes down. -/
def freshPort (x : Port) : Port :=
  { ready := x.ready, restart := x.restart, lstate := x.lstate, dedicated := x.dedicated, owner := x.owner, downCnt := x.downCnt }

/-- The frames that a reduction unit still holds in a port's buffer no longer return credit to it. -/
def forgetPort (s : State) (q : Nat) : State :=
  let clean := fun (f : RedFrame) => if f.port.map (·.val) = some q then { f with port := none } else f
  (List.range 16).foldl (fun s p =>
    match (part s p).plan with
    | none => s
    | some x =>
      let bs := x.buckets.map (fun e => (e.1, e.2.map (fun b => { b with held := b.held.map clean })))
      modPart s p (fun y => { y with plan := some { x with buckets := bs } })) s

/-- A link goes down (R433): DOWN_CNT counts it; C2 and C3 frames are routed again, C0 and C1 frames are dropped (R446); the port
restarts bring-up later. -/
def dropLink (s : State) (q : Nat) : State :=
  let x := portOf s q
  let packets := x.replay.map (·.packet) ++ queueOf x 0 ++ queueOf x 1 ++ queueOf x 2 ++ queueOf x 3
  let s := setLink s q .down
  let s := modPort s q (fun y =>
    let y := freshPort y
    { y with restart := true, downCnt := if y.downCnt.toNat = 65535 then y.downCnt else y.downCnt + 1 })
  let s := forgetPort s q
  packets.foldl (fun s b => if pkClass b ≤ 1 then countDrop s else routeOn s b (decide (pkSrc b = s.fab.addr.toNat))) s

/-- The neighbour of a link that has gone down is probed, or announced as lost at once (R454). -/
def neighbourLost (s : State) (addr : BitVec 16) (id : BitVec 64) : State :=
  if departed s addr || decide (s.fab.mode = .departed) then s
  else if reachable s addr.toNat then
    let e : Probing := { addr := addr, id := id }
    { s with fab := { s.fab with probing := s.fab.probing.filter (fun x => decide (x.addr ≠ addr)) ++ [e] } }
  else announceLost s addr id.toNat

/-- A link goes down, with what its neighbour's loss sets going; nothing in DOWN and TRAINING. -/
def linkDown (s : State) (q : Nat) : State :=
  let x := portOf s q
  match x.lstate with
  | .down | .training => s
  | .hello | .caps => dropLink s q
  | .up => if x.peerValid then neighbourLost (dropLink s q) x.peer x.peerId else dropLink s q

/-- A port starts bring-up. -/
def bringUp (s : State) (q : Nat) : State := setLink (modPort s q (fun x => { x with restart := false })) q .training

/-- Take every link down for good: nothing restarts and nobody is announced (R453). -/
def allLinksDown (s : State) : State :=
  (List.range 32).foldl (fun s q =>
    let s := if (portOf s q).lstate = .down then s else dropLink s q
    modPort s q (fun x => { x with ready := false, restart := false })) s

end Sys2Proof.Machine
end

