-- ==== Sys2Proof/Machine/Ivtu.lean ====
section
/-! DEFINITION. Submission rings, completion rings, command-window slots, event rings and result-window acknowledgement, as
the host drives them over Ivtu (R471 to R484, R498, R507). -/
namespace Sys2Proof.Machine

/-- A packet whose opcode is reserved: the checks before check 4, and then BAD_OPCODE (R487, R501). -/
def rejectUnknown (s : State) (via : Via) (b : List Byte) : State :=
  let h := parseHdr via 0 b
  let c : Cmd := { op := at_ b 0 2, h := h, part := if hdrCtx h = 0x10000 then none else srcPart s via, win := none,
                   prot := match viaPage via with
                     | some q => decide (q < 16) && (part s q).protected_
                     | none => false }
  let busy := match srcPart s via with
    | some p => (part s p).busy
    | none => false
  let r := firstFail [(busy, .partitionResetting, 0), (!isAwl via && !ctxAllowed s h, .denied, 0),
      (isAwl via && !awlCtxOk s h, .badParam, 1), (!ctxOpen s h, .badParam, 1), (true, .badOpcode, 0)]
  match r with
  | some (st, d) => deliver s (dropBadReply s c) st d 0xFFFFFFFF 0 []
  | none => s

/-- A packet that the device has read: a step it owes, or the rejection of a reserved opcode. -/
def takePacket (s : State) (via : Via) (b : List Byte) : State :=
  match parsePacket via b with
  | some i => owe s (.run i)
  | none => rejectUnknown s via b

/-- Open a sealed command (R543, R544): the plaintext and the state, or the sealed rejection with DETAIL 4 or 5. -/
def openSealed (s : State) (q r : Nat) (a : Agreement) (b : List Byte) : (Nat ⊕ List Byte) × State :=
  let len := at_ b 0 2
  let ctr := at_ b 8 8
  let env := slice b 0 16
  let fresh := match a.cmdCtr with
    | none => true
    | some l => decide (l < ctr)
  match Config.gcmOpen (dirKey a 1) (sealIv 1 ctr) (env ++ leBytes 1 q ++ leBytes 1 r) (slice b 16 len) (slice b (16 + len) 16) with
  | none => (.inl 4, s)
  | some pt =>
    if fresh then (.inr pt, modPart s q (fun p => { p with agreement := some { a with cmdCtr := some ctr } }))
    else (.inl 5, s)

/-- The command of a sealed rejection: a sealed reply with SEQ 0 and STATUS DENIED (R544). -/
def rejectedCmd (via : Via) : Cmd :=
  { op := 0, part := none, win := none, prot := true,
    h := parseHdr via 0 (zeros 64) }

/-- Take a packet of a page's ring or slot, opening it first when the partition is PROTECTED. -/
def takePagePacket (s : State) (q r : Nat) (via : Via) (b : List Byte) : State :=
  match sealing s q with
  | none => takePacket s via b
  | some a =>
    match openSealed s q r a b with
    | (.inr pt, s) => takePacket s via (pt ++ zeros (256 - pt.length))
    | (.inl d, s) => deliver (fireHub s 0x142) (rejectedCmd via) .denied d 0xFFFFFFFF 0 []

/-- The PHASE bit of a ring entry: header byte 14, or the envelope's byte 2 (R482, R543). -/
def entryPhase (s : State) (q : Nat) (b : List Byte) : Bool := bitOf (at_ b (if (sealing s q).isSome then 2 else 14) 1) 0

/-- Fetch the entry at SQ_HEAD: the head moves on, the place is taken, the line held for the snoop is dropped, and the packet is a step the
device owes. -/
def fetchEntry (s : State) (q r : Nat) (b : List Byte) : State :=
  let x := ring s q r
  let n := (x.sqHead.toNat + 1) % 2 ^ x.log2.toNat
  let pass := if n = 0 then !x.sqPass else x.sqPass
  let s := sendRdCur s (x.sqBase.toNat + 256 * x.sqHead.toNat) 256
  let s := modRing s q r (fun y => { y with sqHead := BitVec.ofNat 16 n, sqPass := pass, flight := y.flight + 1, lineS := false })
  takePagePacket s q r (.ring (Fin.ofNat 17 q) (Fin.ofNat 16 r) s.ivtu.downs) b

/-- Whether ring r may fetch one more entry (R480, R483). -/
def mayFetch (s : State) (q r : Nat) : Bool :=
  let x := ring s q r
  s.ivtu.up && x.enable && !x.halted && decide (x.flight + x.unread < 2 ^ x.log2.toNat)

/-- The bytes of the entry at SQ_HEAD. -/
def headEntry (s : State) (q r : Nat) : List Byte := hostRead s ((ring s q r).sqBase.toNat + 256 * (ring s q r).sqHead.toNat) 256

/-- Whether ring r has an entry to fetch: up to the doorbell's TAIL, or by snoop once the entry shows the expected PHASE (R482). -/
def wantsEntry (s : State) (q r : Nat) : Bool :=
  let x := ring s q r
  mayFetch s q r && (decide (x.sqHead ≠ x.sqTail) || (x.snoop && decide (entryPhase s q (headEntry s q r) = x.sqPass)))

/-- Fetch one entry of a ring that has one; an entry of another PHASE within the doorbell's TAIL sets ERR and stops fetching (R482). -/
def fetchOne (s : State) (q r : Nat) : State :=
  let x := ring s q r
  let b := headEntry s q r
  if x.sqHead = x.sqTail then modRing (fetchEntry s q r b) q r (fun y => { y with sqTail := y.sqHead })
  else if entryPhase s q b = x.sqPass then fetchEntry s q r b
  else modRing s q r (fun y => { y with err := true, halted := true })

/-- With SNOOP the device keeps the first line of entry SQ_HEAD in S (R474, R482). -/
def armSnoop (s : State) (q r : Nat) : State :=
  let x := ring s q r
  if x.enable && x.snoop && !x.halted && s.ivtu.up && !x.lineS then
    send (modRing s q r (fun y => { y with lineS := true })) (.rdS (x.sqBase.toNat + 256 * x.sqHead.toNat))
  else s

/-- The ring of a page that fetches next, by deficit round robin in entries: the ring in turn while its deficit lasts, and else the next
that has an entry, with a deficit of its WEIGHT; a ring that runs dry keeps none (R482). -/
def pickRing (s : State) (q : Nat) : Option (Nat × State) :=
  let t := (page s q).turn
  if wantsEntry s q t && decide (0 < (ring s q t).deficit) then some (t, s)
  else
    match ((List.range 16).map (fun i => (t + 1 + i) % 16)).find? (wantsEntry s q) with
    | some r =>
      let s := modRing s q t (fun y => { y with deficit := 0 })
      let s := modRing s q r (fun y => { y with deficit := y.weight.toNat })
      some (r, modPage s q (fun p => { p with turn := r }))
    | none => none

/-- Whether a page has an entry to fetch. -/
def pageWants (s : State) (q : Nat) : Bool := (List.range 16).any (wantsEntry s q)

/-- One turn of the arbiter of ring entries: the next page in round robin that has an entry, and of its rings the one in turn (R482). -/
def fetchTurn (s : State) : State :=
  match ((List.range 17).map (fun i => (s.ivtu.turn + i) % 17)).find? (pageWants s) with
  | none => s
  | some q =>
    let s := { s with ivtu := { s.ivtu with turn := (q + 1) % 17 } }
    match pickRing s q with
    | none => s
    | some (r, s) =>
      let s := modRing s q r (fun y => { y with deficit := y.deficit - 1 })
      let s := armSnoop (fetchOne s q r) q r
      if (List.range 17).any (pageWants s) then oweFetch s else s

/-- Go on fetching from a ring: the device owes its arbiter a turn, and keeps the line that its snoop needs. -/
def fetchAll (s : State) (q r : Nat) : State :=
  let s := if wantsEntry s q r then oweFetch s else s
  armSnoop s q r

/-- IVT_SQ_DB: fetch every entry from SQ_HEAD up to TAIL (R482). -/
def ivtSqDbOp (s : State) (q r tail : Nat) : State :=
  let x := ring s q r
  let t := BitVec.ofNat 16 (tail % 2 ^ x.log2.toNat)
  if x.enable && s.ivtu.up then fetchAll (modRing s q r (fun y => { y with sqTail := t })) q r else s

def execIvtSqDb (q : Fin 17) (r : Fin 16) (tail : BitVec 16) (s : State) : Host.Outcome State Fault Refusal :=
  .next (ivtSqDbOp s q.val r.val tail.toNat)

/-- Entries consumed when an index moves from `old` to `new` in a ring of a size, with `unread` entries waiting: a full ring
consumed at once leaves the index where it was. -/
def consumed (size old new unread : Nat) : Nat :=
  if new % size = old % size then (if unread = size then size else 0)
  else (new % size + size - old % size) % size

/-- IVT_CQ_DB: the host has consumed replies up to HEAD; a NOTIFY that waited is sent, and fetching goes on (R483, R507). -/
def ivtCqDbOp (s : State) (q r head : Nat) : State :=
  let x := ring s q r
  let size := 2 ^ x.log2.toNat
  let n := consumed size x.cqHead.toNat head x.unread
  let hd := BitVec.ofNat 16 (head % size)
  let s := modRing s q r (fun y => { y with cqHead := hd, unread := y.unread - n, notifyOut := false, notifyWait := false })
  let s := if x.notifyWait then notifyRing s q r else s
  fetchAll s q r

def execIvtCqDb (q : Fin 17) (r : Fin 16) (head : BitVec 16) (s : State) : Host.Outcome State Fault Refusal :=
  .next (ivtCqDbOp s q.val r.val head.toNat)

/-- A write of IVT_RING_CFG (R480): ERR is W1C, LOG2 is dropped while ENABLE is 1, reserved LOG2 and WEIGHT leave their fields
unchanged, and writing ENABLE 1 restarts the ring. -/
def ringCfgOp (s : State) (q r v : Nat) : State :=
  let x := ring s q r
  let en := bitOf v 31
  let lg := fld v 16 5
  let wt := fld v 0 8
  let log2 := if x.enable || decide (lg < 4) || decide (16 < lg) then x.log2 else BitVec.ofNat 5 lg
  let weight := if wt = 0 then x.weight else BitVec.ofNat 8 wt
  let err := x.err && !bitOf v 30
  let y : Ring := { x with enable := en, err := err, snoop := bitOf v 29, log2 := log2, weight := weight, lineS := false }
  let y : Ring :=
    if en then { y with halted := false, sqHead := 0, sqTail := 0, cqTail := 0, cqHead := 0, sqPass := true, cqPass := true, unread := 0 }
    else y
  let s := modRing s q r (fun _ => y)
  if en then fetchAll s q r else s

def execIvtRingEnable (q : Fin 17) (r : Fin 16) (v : BitVec 32) (s : State) : Host.Outcome State Fault Refusal :=
  .next (ringCfgOp s q.val r.val v.toNat)

/-- A write of IVT_EV_CFG (R480): writing ENABLE 1 resets TAIL and LOST to 0. -/
def evCfgOp (s : State) (q v : Nat) : State :=
  let e := (page s q).ev
  let en := bitOf v 31
  let lg := fld v 16 5
  let log2 := if e.enable || decide (lg < 4) || decide (16 < lg) then e.log2 else BitVec.ofNat 5 lg
  let e : EvRing := { e with enable := en, notify := bitOf v 30, log2 := log2 }
  let e : EvRing := if en then { e with tail := 0, head := 0, lost := 0, unread := 0 } else e
  modPage s q (fun p => { p with ev := e })

def execIvtEvEnable (q : Fin 17) (v : BitVec 32) (s : State) : Host.Outcome State Fault Refusal :=
  .next (evCfgOp s q.val v.toNat)

/-- IVT_EV_HEAD: events consumed up to HEAD; a NOTIFY that waited is sent (R507). -/
def evHeadOp (s : State) (q head : Nat) : State :=
  let e := (page s q).ev
  let size := 2 ^ e.log2.toNat
  let n := consumed size e.head.toNat head e.unread
  let hd := BitVec.ofNat 16 (head % size)
  let s := modPage s q (fun p =>
    { p with ev := { e with head := hd, unread := e.unread - n, notifyOut := e.notifyWait, notifyWait := false } })
  if e.notifyWait then notify s (q * 256 + 0xFF) else s

def execIvtEvHead (q : Fin 17) (head : BitVec 16) (s : State) : Host.Outcome State Fault Refusal :=
  .next (evHeadOp s q.val head.toNat)

/-! ### Command windows (R484) -/

/-- Run the packet of a slot: its reply area is cleared first. -/
def runSlot (s : State) (q i : Nat) (b : List Byte) : State :=
  let n := if (sealing s q).isSome then 64 else 32
  let s := modSlot s q i (fun x => { x with snooped := false, taken := [], bytes := tputs 0 256 (zeros n) x.bytes })
  takePagePacket s q 0x10 (.slot (Fin.ofNat 17 q) (Fin.ofNat 16 i) s.ivtu.downs) b

/-- IVT_CWIN_DB: a busy slot's doorbell is dropped and fires the protocol-error source; otherwise the device takes the packet,
with SnpInv where the host holds its lines in M (R477, R484). A NOTIFY that waited for this doorbell is sent. -/
def cwinDbOp (s : State) (q i : Nat) : State :=
  let x := slot s q i
  if x.busy then fireHub s 0x101
  else
    let s := modSlot s q i (fun y => { y with busy := true, notifyOut := false, notifyWait := false })
    let s := if x.notifyWait then notifySlot s q i else s
    let b := tgets 0 256 0 x.bytes
    if x.heldM.isEmpty then runSlot s q i b
    else
      x.heldM.foldl (fun s l => send s (.snpInv (slotOffset q i + 64 * l.1))) (modSlot s q i (fun y => { y with snooped := true, taken := b }))

def execIvtCwinDb (q : Fin 17) (i : BitVec 4) (s : State) : Host.Outcome State Fault Refusal :=
  .next (cwinDbOp s q.val i.toNat)

/-! ### Acknowledging result windows (R498) -/

/-- IVT_RW_ACK: a READY window whose GEN matches becomes STALE and returns to the free pool; anything else is ignored. -/
def rwAckOp (s : State) (q hnd gen : Nat) : State :=
  match (page s q).pool with
  | none => s
  | some k =>
    let w := poolWindow k hnd
    if decide (hnd < k.count) && decide (w.state = .ready) && w.inUse && decide (w.gen.toNat = gen) then
      let st := BitVec.ofNat 16 (statusCode .staleGeneration)
      let s := modPage s q (fun p => { p with pool := some { k with freed := k.freed ++ [hnd] } })
      putWindow s q hnd { w with state := .stale, status := st, inUse := false } true
    else s

def execIvtRwAck (q : Fin 17) (hnd : BitVec 16) (gen : BitVec 32) (s : State) : Host.Outcome State Fault Refusal :=
  .next (rwAckOp s q.val hnd.toNat gen.toNat)

/-! ### Link state (R471 to R473) -/

/-- The link comes up at a width and a rate; the link-state source fires at every change (R472). -/
def linkUpOp (s : State) (x16 gt64 : Bool) : State :=
  if s.ivtu.up && s.ivtu.x16 == x16 && s.ivtu.gt64 == gt64 then s
  else fireHub { s with ivtu := { s.ivtu with up := true, x16 := x16, gt64 := gt64 } } 0x100

/-- A link reset resets the registers of every control page (R480), drops the host lines that the device holds, returns slots
that the host held in M to free, and clears every ENABLE bit (R473); result windows keep their state. -/
def resetPages (s : State) : State :=
  (List.range 17).foldl (fun s q => modPage s q (fun p => { p with rings := [], turn := 0, ev := {}, slots := p.slots.filterMap (fun x =>
    if x.2.busy && !x.2.snooped then some (x.1, { x.2 with heldS := [], heldM := [], later := [], notifyOut := false, notifyWait := false }) else none) })) s

/-- The link goes down (R473). The commands fetched until now run on, and are known by the count of the link's downs (entry 52). -/
def linkDownOp (s : State) : State :=
  if s.ivtu.up then
    fireHub (resetPages { s with ivtu := { s.ivtu with up := false, downs := s.ivtu.downs + 1, idLines := [], poolLines := [] } }) 0x100
  else s

def execIvtuLinkDown (s : State) : Host.Outcome State Fault Refusal := .next (linkDownOp s)

/-- The host's SnpInv of a ring line that the device holds in S: the device drops it, re-reads the line, and fetches the entry
once PHASE shows the expected value (R482). -/
def snpInvOp (s : State) (a : Nat) : State :=
  let s := send s (.invAck a)
  (List.range 17).foldl (fun s q => (List.range 16).foldl (fun s r =>
    let x := ring s q r
    if x.lineS && decide (a = x.sqBase.toNat + 256 * x.sqHead.toNat) then
      fetchAll (modRing s q r (fun y => { y with lineS := false })) q r
    else s) s) s

def execSnpinv (a : BitVec 52) (s : State) : Host.Outcome State Fault Refusal := .next (snpInvOp s a.toNat)

/-- The page, slot and line of an aperture offset within command-window slot bytes 0–255, if it is one. -/
def slotLine (a : Nat) : Option (Nat × Nat × Nat) :=
  if 0x10000 ≤ a ∧ a < 0x120000 then
    let q := (a - 0x10000) / 0x10000
    let o := a % 0x10000
    if 0x1000 ≤ o ∧ o < 0x3000 ∧ (o - 0x1000) % 0x200 < 0x100 then some (q, (o - 0x1000) / 0x200, ((o - 0x1000) % 0x200) / 64) else none
  else none

/-- The host asks for a packet line of a slot in S or in M: granted, unless it is still recorded as holding the line in M, when the home takes the
line back first and the request waits (R476; entry 52). -/
def askLine (s : State) (q i l : Nat) (m : Bool) : State :=
  let x := slot s q i
  let a := slotOffset q i + 64 * l
  if tget false l x.heldM then
    let s := modSlot s q i (fun y => { y with later := y.later ++ [(l, m)] })
    if x.snooped || x.later.any (fun e => decide (e.1 = l)) then s else send s (.snpInv a)
  else
    let d := tgets 0 64 (64 * l) x.bytes
    if m then send (modSlot s q i (fun y => { y with heldS := tput false l false y.heldS, heldM := tput false l true y.heldM })) (.dataM a d)
    else send (modSlot s q i (fun y => { y with heldS := tput false l true y.heldS })) (.dataS a d)

/-- Requests that waited are taken again in their order. -/
def askAgain (s : State) (q i : Nat) : State :=
  let l := (slot s q i).later
  l.foldl (fun s e => askLine s q i e.1 e.2) (modSlot s q i (fun y => { y with later := [] }))

/-- The data of a command-window line returns from the host; the packet runs once no line is left at the host (R477, R484), and then requests that
waited are taken again (R476). -/
def slotData (s : State) (q i l : Nat) (data : List Byte) : State :=
  let d := slice data 0 64
  let patch := fun (t : List Byte) => slice t 0 (64 * l) ++ d ++ t.drop (64 * l + 64)
  let s := modSlot s q i (fun x =>
    let t : List Byte := if x.snooped then patch x.taken else []
    { x with heldM := tput false l false x.heldM, bytes := tputs 0 (64 * l) d x.bytes, taken := t })
  let x := slot s q i
  if !x.snooped then askAgain s q i
  else if x.heldM.isEmpty then askAgain (runSlot s q i x.taken) q i
  else s

/-- InvData: the host answers SnpInv with an M line's data (R475, R484). -/
def execInvdata (a : BitVec 52) (data : List Byte) (s : State) : Host.Outcome State Fault Refusal :=
  match slotLine a.toNat with
  | some (q, i, l) => if tget false l (slot s q i).heldM then .next (slotData s q i l data) else .next s
  | none => .next s

end Sys2Proof.Machine
end

