-- ==== Sys2Proof/Machine/Watch.lean ====
section
/-! DEFINITION. Dumps of sync objects, the Quag watch (R370 to R375), and the Bittern registers that act (R380 to R385). -/
namespace Sys2Proof.Machine

/-- The unit word of a waiting unit (R374); control cores wait on behalf of no partition. -/
def unitWord : UnitId → Nat
  | .stream c i => c.val * 16 + i.val
  | .awl c a => 2 ^ 28 + c.val * 16 + a.val
  | .context n _ _ => 2 * 2 ^ 28 + n.toNat
  | .ctl d c => 3 * 2 ^ 28 + d.val * 16 + c.val

/-- A unit entry of a dump: unit word, object, n or generation, ticket. -/
structure DumpUnit where
  word   : Nat
  object : Nat
  n      : Nat
  ticket : Nat
deriving DecidableEq, Repr

/-- The eyelets of a partition that differ from a fresh one, and its laces. -/
def partEyelets (s : State) (p : Nat) : List (Nat × Eyelet) := s.eyelets.filter (fun e => ownsEyelet s p e.1)
def partLaces (s : State) (p : Nat) : List (Nat × Lace) := s.laces.filter (fun l => ownsLace s p l.1)

def insertUnit (u : DumpUnit) : List DumpUnit → List DumpUnit
  | [] => [u]
  | v :: vs => if u.word ≤ v.word then u :: v :: vs else v :: insertUnit u vs

/-- The waiting units of a partition in unit-word order. -/
def dumpUnits (s : State) (p : Nat) : List DumpUnit :=
  let es := (partEyelets s p).flatMap (fun e => e.2.waiters.map (fun w =>
    { word := unitWord w.unit, object := 2 ^ 62 + e.1, n := w.n, ticket := w.ticket.toNat : DumpUnit }))
  let ls := (partLaces s p).flatMap (fun l => l.2.waiters.map (fun w =>
    { word := unitWord w.unit, object := 2 * 2 ^ 62 + l.1, n := w.gen.toNat, ticket := 0 : DumpUnit }))
  (es ++ ls).foldr insertUnit []

/-- The unit entries; the reference cycles waited are free values. -/
def unitEntries : List DumpUnit → State → List (List Byte) × State
  | [], s => ([], s)
  | u :: us, s =>
    let (t, s) := freeCycles s
    let (rest, s) := unitEntries us s
    ((leBytes 4 3 ++ leBytes 4 u.word ++ leBytes 8 u.object ++ leBytes 8 u.n ++ leBytes 4 u.ticket ++
      leBytes 4 (min t (2 ^ 32 - 1))) :: rest, s)

/-- An eyelet entry of a dump. -/
def eyeletEntry (e : Nat × Eyelet) : List Byte :=
  leBytes 1 1 ++ leBytes 1 (b2n e.2.event + 2 * b2n e.2.sat) ++ zeros 2 ++ leBytes 4 e.1 ++ leBytes 8 e.2.count.toNat ++
  leBytes 4 e.2.nextTicket.toNat ++ leBytes 2 e.2.waiters.length ++ zeros 2 ++ zeros 8

/-- A lace entry of a dump. -/
def laceEntry (l : Nat × Lace) : List Byte :=
  leBytes 1 2 ++ leBytes 1 (b2n l.2.fabric) ++ zeros 2 ++ leBytes 4 l.1 ++ leBytes 8 l.2.gen.toNat ++
  leBytes 2 l.2.arrived.toNat ++ leBytes 2 l.2.early.toNat ++ leBytes 2 l.2.expected.toNat ++ zeros 2 ++
  leBytes 8 l.2.devArr

/-- The entries of a dump of partition p, in order (R374). -/
def dumpEntries (s : State) (p : Nat) : List (List Byte) × State :=
  let (us, s') := unitEntries (dumpUnits s p) s
  let es := (partEyelets s p).filter (fun e => !e.2.waiters.isEmpty || decide (e.2.count ≠ 0) || e.2.sat)
  let ls := (partLaces s p).filter (fun l =>
    !l.2.waiters.isEmpty || decide (l.2.arrived ≠ 0) || decide (l.2.early ≠ 0) || decide (l.2.devArr ≠ 0))
  (us ++ es.map eyeletEntry ++ ls.map laceEntry, s')

/-- Write a dump with its header, send SYNC_DUMP and fire the hub's source (R374, R375, R379). -/
def writeDump (s : State) (p reason trigger : Nat) : State :=
  let y := (part s p).sync
  let (all, s) := dumpEntries s p
  let room := (y.dumpSize - 64) / 32
  let es := all.take room
  let trunc := decide (room < all.length)
  let seq := y.dumpSeq + 1
  let hd := fun (crc : Nat) => leBytes 2 4 ++ leBytes 1 reason ++ leBytes 1 (b2n trunc) ++ leBytes 4 seq ++
    leBytes 4 es.length ++ leBytes 4 trigger ++ leBytes 4 0 ++ leBytes 4 crc ++ zeros 40
  let body := es.flatten
  let s := partWrite s p y.dumpBase (hd (crc32c (hd 0 ++ body)) ++ body)
  let s := modPart s p (fun x => { x with sync := { x.sync with dumpSeq := seq } })
  postPart (fireHub s 0x003) p 0x0160 reason (leBytes 4 seq ++ leBytes 4 es.length ++ leBytes 1 (b2n trunc))

/-- Whether a partition has a dump region. -/
def hasDump (s : State) (p : Nat) : Bool := decide ((part s p).sync.dumpSize ≠ 0)

/-- SYNC_CONFIG (R371, R373): mode, region and timeout; the Quag watch starts cold. -/
def bodySyncConfig (p : SyncConfigP) (s : State) (c : Cmd) : Res :=
  let pt := c.part.getD 16
  let b := p.dumpBase.toNat
  let n := p.dumpBytes.toNat
  checked s [(decide (p.rsvdA ≠ 0) || decide (p.rsvdB ≠ 0) || decide (1 < p.mode.toNat) || decide (b % 4096 ≠ 0) ||
        decide (n % 4096 ≠ 0) || decide (b = 0 ∧ n ≠ 0) || decide (b ≠ 0 ∧ n = 0), .badParam, 0),
      (decide (n ≠ 0) && !spanOk s pt b (b + n - 1) true, .badParam, 0),
      (decide (n ≠ 0) && !spanHbm s pt b n, .badDescriptor, 0)] fun _ =>
    { s := modPart s pt (fun x => { x with sync := { x.sync with
        quag := decide (p.mode.toNat = 1), dumpBase := b, dumpSize := n, timeout := p.dumpTimeout.toNat, spent := false } }) }

def execSyncConfig (h : Hdr) (p : SyncConfigP) (s : State) : Host.Outcome State Fault Refusal :=
  command (.syncConfig h p) { op := 0x0630, n := 32, runs := .f } h (packetBytes 0x0630 h (bytesSyncConfig p))
    (bodySyncConfig p) s

/-- SYNC_DUMP writes a dump on command; with no region NO_RESOURCE (R370, R371). -/
def bodySyncDump (p : SyncDumpP) (s : State) (c : Cmd) : Res :=
  let pt := c.part.getD 16
  checked s [(decide (p.rsvdA ≠ 0), .badParam, 0), (!hasDump s pt, .noResource, 0)] fun _ => { s := writeDump s pt 1 0 }

def execSyncDump (h : Hdr) (p : SyncDumpP) (s : State) : Host.Outcome State Fault Refusal :=
  command (.syncDump h p) { op := 0x0631, n := 8, runs := .f } h (packetBytes 0x0631 h (bytesSyncDump p)) (bodySyncDump p) s

/-- Mark the wait of a unit as having caused its dump; none when the unit waits on nothing or has caused one already. -/
def markTimed (s : State) (p : Nat) (u : UnitId) : Option State :=
  match (partEyelets s p).find? (fun e => e.2.waiters.any (fun w => decide (w.unit = u) && !w.timed)) with
  | some e => some (setEyelet s e.1
      { e.2 with waiters := e.2.waiters.map (fun w => if w.unit = u then { w with timed := true } else w) })
  | none =>
    match (partLaces s p).find? (fun l => l.2.waiters.any (fun w => decide (w.unit = u) && !w.timed)) with
    | some l => some (setLace s l.1
        { l.2 with waiters := l.2.waiters.map (fun w => if w.unit = u then { w with timed := true } else w) })
    | none => none

/-- A wait in DUMP mode has lasted longer than DUMP_TIMEOUT: one dump per ticket or lace wait (R370). -/
def dumpTimeoutOp (s : State) (p : Nat) (u : UnitId) : State :=
  let y := (part s p).sync
  if y.quag || decide (y.timeout = 0) || !bound s p then s
  else match markTimed s p u with
    | some s => if hasDump s p then writeDump s p 2 (unitWord u) else s
    | none => s

def execDumpTimeout (p : Fin 16) (u : UnitId) (s : State) : Host.Outcome State Fault Refusal := .next (dumpTimeoutOp s p.val u)

/-! ### The Quag watch (R372, R373) -/

/-- How a unit stands for the watch: idle, blocked or active. -/
inductive Stand where
  | idle | blocked | active
deriving DecidableEq, Repr

/-- The wait of a command in progress, by its number. -/
def waitById (s : State) (id : Nat) : Option Wait := (s.waiting.find? (fun w => decide (w.id = id))).map (·.wait)

/-- A stream's class (R372). -/
def standStream (s : State) (c i : Nat) : Stand :=
  let x := stream s c i
  if x.mode = .out ∨ x.mode = .fenced then .idle
  else match x.busy with
    | some id => (match waitById s id with
      | some w => if syncWait w && decide (x.mode = .ready) then .blocked else .active
      | none => .active)
    | none => if x.queue.isEmpty && x.held.isEmpty && decide (x.mode = .ready) then .idle else .active

/-- Whether a unit waits on an eyelet or a lace of the partition. -/
def unitWaits (s : State) (p : Nat) (u : UnitId) : Bool :=
  (partEyelets s p).any (fun e => e.2.waiters.any (fun w => decide (w.unit = u) && !w.woken)) ||
  (partLaces s p).any (fun l => l.2.waiters.any (fun w => decide (w.unit = u)))

/-- An Awl core's class: in reset or halted by the Awl monitor idle, in a window wait blocked, else active (R372). -/
def standAwl (s : State) (p c a : Nat) : Stand :=
  if (awlOf (core s c) a).inReset || (awlOf (core s c) a).halted then .idle
  else if unitWaits s p (.awl (Fin.ofNat 16 c) (Fin.ofNat 4 a)) then .blocked else .active

/-- The classes of the command contexts that have a command pending. -/
def standContexts (s : State) (p : Nat) : List Stand :=
  (s.waiting.filter (fun w => decide (w.cmd.part = some p) && (match w.unit with
    | .context .. => true
    | _ => false))).map (fun w => if syncWait w.wait then .blocked else .active)

/-- All units of a partition, classed. -/
def stands (s : State) (p : Nat) : List Stand :=
  let cs := (List.range 16).filter (holdsCore s p)
  cs.flatMap (fun c => (List.range 3).map (standStream s c)) ++ cs.flatMap (fun c => (List.range 4).map (standAwl s p c)) ++
  standContexts s p

/-- Whether a packet of partition p is still on its way inside the module, a flow or a checkpoint transfer of p has packets unacknowledged, or
its job holds a multicast of parameters. -/
def frameOut (s : State) (p : Nat) : Bool :=
  s.work.any (fun w => match w with
    | .run (.packetForward none b) => decide (pkSpart b = p)
    | _ => false) ||
  s.fab.ports.any (fun x => (x.2.replay.map (·.packet) ++ x.2.queues.flatMap (·.2)).any (fun b =>
    decide (pkSpart b = p) && decide (pkSrc b = s.fab.addr.toNat))) ||
  s.ctxs.any (fun x => ownsCtx s p x.1 && (!x.2.tx.unacked.isEmpty || !x.2.tx.queued.isEmpty)) ||
  (part s p).sends.any (fun x => !x.tx.unacked.isEmpty || !x.tx.queued.isEmpty || !x.ended) ||
  (match job s p with
   | some j => !j.mcasts.isEmpty
   | none => false)

/-- Deadlocked-looking (R372). A hold of the step counter is a pause, a host gate, a mask epoch or an evaluation hook. -/
def looksDead (s : State) (p : Nat) (held : Bool) : Bool :=
  let us := stands s p
  bound s p && us.any (· == .blocked) && !us.any (· == .active) && !frameOut s p && !held

/-- Whether a job's step counter is held by a pause, a stop, a gate, a hook or a mask epoch at its
boundary. -/
def stepHeld (s : State) (p : Nat) : Bool :=
  match job s p with
  | none => false
  | some j =>
    let n := j.step.toNat + 1
    j.paused || j.stopping || (match j.eval with
      | some e => e.hold
      | none => false) ||
    (decide (j.gateSent = some n) && !j.gates.contains n) ||
    (laceDone s j && (part s p).pend.any (fun e => decide (e.job.toNat = jTag j) && decide (e.eff.toNat = n)))

/-- The watch of a partition has counted 2^20 reference cycles (R373): dump, event, source and FIRED, once per run. -/
def quagFireOp (s : State) (p : Nat) : State :=
  let y := (part s p).sync
  if !y.quag || y.spent || !looksDead s p (stepHeld s p) then s
  else
    let n := ((stands s p).filter (· == .blocked)).length
    let s := modPart s p (fun x => { x with sync := { x.sync with fired := true, spent := true } })
    let d := hasDump s p
    let s := if d then writeDump s p 3 0 else s
    let seq := if d then (part s p).sync.dumpSeq else 0xFFFFFFFF
    fireHub (postPart s p 0x0161 0 (leBytes 4 n ++ leBytes 4 seq)) 0x002

def execQuagFire (p : Fin 16) (s : State) : Host.Outcome State Fault Refusal := .next (quagFireOp s p.val)

/-! ### Bittern (R380 to R385) -/

/-- Sources of a controller (R376). -/
def btnSources (ctrl : Nat) : Nat := if ctrl = 0 then 512 else 1024
/-- The claim-order source of a controller (R378, R379). -/
def claimOrderSource (ctrl : Nat) : Nat := if ctrl = 0 then 0x004 else 0x184

/-- The Awl core whose target this is, if any (R377): logical core and Awl core. -/
def targetAwl (ctrl t : Nat) : Option (Nat × Nat) :=
  if (ctrl = 1 ∨ ctrl = 2) ∧ 4 ≤ t ∧ t < 36 then some (8 * (ctrl - 1) + (t - 4) / 4, (t - 4) % 4) else none

/-- A read of BTN_TGT_CLAIM (R381): the value read and the state after it. -/
def btnClaim (s : State) (ctrl t : Nat) : Nat × State :=
  let b := bittern s ctrl
  match winner b ctrl t with
  | none => (0, s)
  | some k =>
    let f := fun (b : Bittern) =>
      let x := btnSrc b ctrl k
      let b := setBtnSrc b ctrl k { x with pend := false, active := true }
      let g := x.group.toNat
      let b := { b with tgts := tmod {} t (fun y => { y with stack := (BitVec.ofNat 10 k, x.prio) :: y.stack }) b.tgts }
      if (btnGrp b g).holdoff = 0 then b else { b with grps := tmod {} g (fun y => { y with running := true }) b.grps }
    (2 ^ 31 + k, modBtn s ctrl f)

/-- Whether an agent may use the CLAIM and COMPLETE registers of a target: an Awl core only those of its own (R385); a host page reaches no
register of a controller (R478). -/
def mayTarget (who : Agent) (ctrl t : Nat) : Bool :=
  match who with
  | .awl c a => decide (targetAwl ctrl t = some (c.val, a.val))
  | .hostPage _ => false
  | _ => true

/-- Whether an agent is an Awl core of a core out of service: its mesh stop accepts nothing (R287). -/
def silenced (s : State) (who : Agent) : Bool :=
  match who with
  | .awl c _ => !inService s c.val
  | _ => false

/-- The value that a read returns to its agent. -/
def retAgent (s : State) (who : Agent) (v : Nat) : State :=
  match who with
  | .awl c a => retAwl s c.val a.val v
  | .ctl d k => send s (.retCtl d.val k.val v)
  | _ => send s (.read v)

/-- BTN_TGT_CLAIM: an Awl core that claims has taken its interrupt, which ends a window wait (R359). A claim of a target that is not the
agent's reads 0 and is a register access error (R385). -/
def btnTgtClaimOp (s : State) (who : Agent) (ctrl t : Nat) : State :=
  if silenced s who then s
  else if !mayTarget who ctrl t then retAgent (regError s) who 0
  else
    let s := match who with
      | .awl c a => userLeave s (.awl c a)
      | _ => s
    let (v, s) := btnClaim s ctrl t
    retAgent s who v

def execBtnTgtClaim (who : Agent) (t : BtnPlace) (s : State) : Host.Outcome State Fault Refusal :=
  .next (btnTgtClaimOp s who t.ctrl.val t.target.toNat)

/-- A write of BTN_TGT_COMPLETE (R381): the source on top is popped; anything else is CLAIM_ORDER. -/
def btnCompleteOp (s : State) (ctrl t src : Nat) : State :=
  let b := bittern s ctrl
  match (btnTgt b t).stack with
  | top :: rest =>
    if top.1.toNat = src then
      modBtn s ctrl (fun b =>
        let b := { b with tgts := tmod {} t (fun y => { y with stack := rest }) b.tgts }
        setBtnSrc b ctrl src { btnSrc b ctrl src with active := false })
    else
      fire (modBtn s ctrl (fun b =>
        { b with tgts := tmod {} t (fun y => { y with orderErr := true, orderSrc := BitVec.ofNat 10 src }) b.tgts }))
        ctrl (claimOrderSource ctrl)
  | [] =>
    fire (modBtn s ctrl (fun b =>
      { b with tgts := tmod {} t (fun y => { y with orderErr := true, orderSrc := BitVec.ofNat 10 src }) b.tgts }))
      ctrl (claimOrderSource ctrl)

/-- A write of BTN_TGT_COMPLETE by an agent: one to a target that is not its own is dropped and is an error (R385). -/
def btnTgtCompleteOp (s : State) (who : Agent) (ctrl t src : Nat) : State :=
  if silenced s who then s else if mayTarget who ctrl t then btnCompleteOp s ctrl t src else regError s

def execBtnTgtComplete (who : Agent) (t : BtnPlace) (src : BitVec 10) (s : State) : Host.Outcome State Fault Refusal :=
  .next (btnTgtCompleteOp s who t.ctrl.val t.target.toNat src.toNat)

/-- Whether a source is a software source (R378, R379). -/
def softSource (ctrl src : Nat) : Bool :=
  if ctrl = 0 then decide (0x1E0 ≤ src) && decide (src ≤ 0x1FF)
  else (decide (0x200 ≤ src) && decide (src ≤ 0x2FF)) ||
    (decide (src < 0x120) && decide (8 ≤ src % 32) && decide (src % 32 < 12))

/-- Whether an agent may write BTN_SWPEND for a source (R248, R385). -/
def mayPend (s : State) (who : Agent) (ctrl src : Nat) : Bool :=
  match who with
  | .awl c _ =>
    softSource ctrl src &&
    (match targetAwl ctrl (btnSrc (bittern s ctrl) ctrl src).target.toNat with
     | some (d, _) => decide (partOfCore s d = partOfCore s c.val) && (partOfCore s c.val).isSome
     | none => false)
  | .hostPage q => decide (q.val = 16)
  | _ => true

/-- BTN_SWPEND sets PEND as a firing does (R382). -/
def btnSwpendOp (s : State) (who : Agent) (ctrl src : Nat) : State :=
  if silenced s who then s
  else if !mayPend s who ctrl src then regError s
  else if src < btnSources ctrl then fire s ctrl src else s

def execBtnSwpend (who : Agent) (ctrl : Fin 3) (src : BitVec 10) (s : State) : Host.Outcome State Fault Refusal :=
  .next (btnSwpendOp s who ctrl.val src.toNat)

/-- A group's hold-off timer ends (R383). -/
def execBtnHoldoffExpiry (ctrl : Fin 3) (g : BitVec 6) (s : State) : Host.Outcome State Fault Refusal :=
  .next (modBtn s ctrl.val (fun b => { b with grps := tmod {} g.toNat (fun y => { y with running := false }) b.grps }))

end Sys2Proof.Machine
end

