-- ==== Sys2Proof/Machine/Streams.lean ====
section
/-! DEFINITION. Stream sequencers as registers drive them: reservations and pushes (R267, R268), seeds (R67 to R69), switching a
stream out and in (R278 to R280), and the migration of a core to its die's spare (R281 to R286). -/
namespace Sys2Proof.Machine

/-! ### Awl cores push packets (R267, R268) -/

/-- A read of LAST_SQ_RESV. -/
def sqResv (s : State) (c a i : Nat) : Nat × State :=
  let x := stream s c i
  let w := awlOf (core s c) a
  if x.mode = .out ∨ x.mode = .fenced then (0, s)
  else if bitOf w.resv.toNat i then (1, s)
  else if queueRoom s c i = 0 then (0, s)
  else (1, modAwl s c a (fun y => { y with resv := BitVec.ofNat 3 (setBit y.resv.toNat i true) }))

def execLastSqResv (c : Fin 16) (a : Fin 4) (i : Fin 3) (s : State) : Host.Outcome State Fault Refusal :=
  let (v, t) := sqResv s c.val a.val i.val
  .next (ifServing s c.val (retAwl t c.val a.val v))

/-- A write of LAST_SQ_PUSH: the packet of the writing Awl core's window enters the queue and uses its reservation. The reserved 0b11 drops
the push and is a register access error: STREAM is WO, so it has no value to keep, and R16 names no other outcome (DESIGN CHOICE,
entry 46). -/
def sqPush (s : State) (c : Fin 16) (a : Fin 4) (i : Nat) : State :=
  if h : i < 3 then
    let w := awlOf (core s c.val) a.val
    if !bitOf w.resv.toNat i then modCore s c.val (fun k => { k with pushErr := true })
    else
      let s := modAwl s c.val a.val (fun y => { y with resv := BitVec.ofNat 3 (setBit y.resv.toNat i false) })
      takePacket s (.awl c a ⟨i, h⟩) (tgets 0 256 (256 * i) w.windows)
  else regError s

def execLastSqPush (c : Fin 16) (a : Fin 4) (i : BitVec 2) (s : State) : Host.Outcome State Fault Refusal :=
  .next (ifServing s c.val (sqPush s c a i.toNat))

/-! ### Seeds (R67 to R69) -/

/-- A seed waits for the stream's next command boundary, which is where its next command starts. -/
def seedStream (s : State) (c i : Nat) (q : SeedReq) : State := modStream s c i (fun x => { x with seedReq := some q })

def execWeltSrSeed (c : Fin 16) (i : Fin 3) (v : BitVec 64) (s : State) : Host.Outcome State Fault Refusal :=
  .next (if inService s c.val then seedStream s c.val i.val (.soft v) else regError s)

/-- RESEED bits ask for seeds of hub entropy. -/
def reseed (s : State) (c m : Nat) : State := (bitsSet m 3).foldl (fun s i => seedStream s c i .hub) s

def execWeltSrReseed (c : Fin 16) (m : BitVec 3) (s : State) : Host.Outcome State Fault Refusal :=
  .next (if inService s c.val then reseed s c.val m.toNat else regError s)

/-! ### Resume boundaries (R278) -/

/-- The resume unit of a command: 0 none, 1 pass, 2 chunk, 3 tile, 4 row. -/
def resumeKind : Instr → Nat
  | .gemm .. => 1
  | .spmm .. => 1
  | .spmmT .. => 1
  | .sounding .. => 1
  | .copy .. => 2
  | .gather .. => 2
  | .scatter .. => 2
  | .tallyCommit .. => 2
  | .compress .. => 3
  | .topk .. => 4
  | .prune _ p => if p.scope = 2 then 0 else 4
  | .regrow _ p => if p.scope = 2 then 0 else 4
  | _ => 0

/-- The command in progress of a stream. -/
def inProgress (s : State) (c i : Nat) : Option Waiting :=
  match (stream s c i).busy with
  | some id => s.waiting.find? (fun w => decide (w.id = id))
  | none => none

/-- Whether a command in progress stops where it waits: in an eyelet or lace wait, or between two of its resume units. -/
def stopsHere (w : Waiting) : Bool :=
  syncWait w.wait || decide (resumeKind w.instr ≠ 0) || (match w.wait with
    | .units _ => true
    | _ => false)

/-- Whether a stream stands at a resume boundary. -/
def atResume (s : State) (c i : Nat) : Bool :=
  match inProgress s c i with
  | some w => stopsHere w
  | none => decide ((stream s c i).busy = none)

/-- The entry that restarts an abandoned command: a LACE_ARRIVE whose arrival was made records one unit done. -/
def resumeEntry (w : Waiting) : QEntry :=
  match w.wait with
  | .lace _ _ true => { instr := w.instr, cmd := { cmdHeld w.cmd with passes := 1 } }
  | .units _ => { instr := w.instr, cmd := w.cmd }
  | _ => { instr := w.instr, cmd := cmdHeld w.cmd }

/-- Abandon the command in progress of a stream at its boundary: the entry that resumes it. -/
def abandonInProgress (s : State) (c i : Nat) : Option QEntry × State :=
  match inProgress s c i with
  | none => (none, s)
  | some w =>
    let s := { s with waiting := s.waiting.filter (fun x => decide (x.id ≠ w.id)) }
    let s := modStream (abandonUnit s w.unit) c i (fun x => { x with busy := none })
    (some (resumeEntry w), s)

/-! ### Switching out and in (R279, R280) -/

/-- The 256 bytes of a queued packet. -/
def entryBytes (q : QEntry) : List Byte := slice ((encode q.instr).getD []) 0 256

/-- FLAGS of a stream's record. -/
def streamFlags (x : Stream) : Nat :=
  b2n x.seedSoft * 2 ^ 18 + b2n x.idxIe * 2 ^ 17 + b2n x.idxFlag * 2 ^ 16 + x.numFlags.toNat

/-- The lane states of a generator. -/
def laneBytes (g : SrGen) : List Byte :=
  (List.range 1024).flatMap (fun i => leBytes 8 (tget (laneOfSeed g.seed i) i g.lanes).toNat)

/-- The stream state record (R279). -/
def streamRecord (c i addr : Nat) (x : Stream) (prog : Option QEntry) (qs : List QEntry) : List Byte :=
  let (unit, done) := match prog with
    | some q => (resumeKind q.instr, q.cmd.passes)
    | none => (0, 0)
  let all := (match prog with
    | some q => [q]
    | none => []) ++ qs
  let head := leBytes 2 2 ++ leBytes 1 i ++ leBytes 1 c ++ leBytes 1 (b2n prog.isSome) ++ leBytes 1 unit ++ leBytes 1 all.length ++
    [0] ++ leBytes 8 done ++ leBytes 4 (streamFlags x)
  let tail := leBytes 8 (addr + 0x10000) ++ zeros 32 ++ laneBytes x.gen ++ slice (all.flatMap entryBytes) 0 16640
  head ++ leBytes 4 (crc32c (head ++ tail)) ++ tail

/-- The stream goes OUT: its record and its accumulator save are written, with the passes done of a product (R98), and DONE fires the
stream source. The core's staging blocks are written as well: a stage is switched out by its streams (R174; DEDUCED, entry 44). A migration
that waits for a stage boundary looks again (R264). -/
def switchOut (s : State) (c i : Nat) : State :=
  let k := physOf s c
  let a := (core s c).ctlRun.2
  let p := (partOfCore s c).getD 16
  let (prog, s) := abandonInProgress (if (stream s c i).busy = none then boundary s c i else s) c i
  let x := stream s c i
  let done := match prog with
    | some q => if resumeKind q.instr = 1 then q.cmd.passes else 0
    | none => 0
  let s := flushStaging s k
  let s := partWrite s p a (streamRecord c i a x prog x.queue)
  let s := partWrite s p (a + 0x10000) (saveRecord i done x.region)
  let all := (match prog with
    | some q => [q]
    | none => []) ++ x.queue
  let s := modStream s c i (fun y => { y with mode := .out, queue := [], saved := all })
  lookBoundary (fireCore (modCore s c (fun y => { y with ctlBusy := false, ctlDone := true })) k 3) c

/-- A migration puts a stream OUT at its boundary; its commands stay with the core's state. -/
def migrationOut (s : State) (c i : Nat) : State :=
  let (prog, s) := abandonInProgress s c i
  let s := match prog with
    | some q => modStream s c i (fun y => { y with queue := q :: y.queue })
    | none => s
  let s := modStream s c i (fun y => { y with mode := .out })
  modDie s (dieOfCore c) (fun d => { d with migration := d.migration.map (fun m => { m with outs := m.outs ++ [i] }) })

/-- Whether LAST_STREAM_CTL is switching a stream out. -/
def switching (s : State) (c i : Nat) : Bool := (core s c).ctlBusy && decide ((core s c).ctlRun.1 = i)

/-- Ask for the boundary of a stream that is stopping: the step comes at once when it stands there. -/
def askBoundary (s : State) (c i : Nat) : State :=
  if atResume s c i then owe s (.run (.switchOutComplete (Fin.ofNat 16 c))) else s

/-- The stream that a write of LAST_STREAM_CTL names: a reserved STREAM leaves the field unchanged (R16, R280). -/
def ctlTarget (s : State) (c i : Nat) : Nat := if 3 ≤ i then (core s c).ctlStream.toNat else i

/-- OP 0b01 of LAST_STREAM_CTL: while BUSY it is dropped and sets ERR (R280). -/
def streamSwitchOutOp (s : State) (c i0 addr : Nat) : State :=
  if (core s c).ctlBusy then modCore s c (fun k => { k with ctlErr := true })
  else
    let i := ctlTarget s c i0
    let s := modCore s c (fun k =>
      { k with ctlBusy := true, ctlStream := BitVec.ofNat 2 i, ctlAddr := BitVec.ofNat 48 (addr / 64 * 64), ctlRun := (i, addr / 64 * 64 % 2 ^ 48) })
    let x := stream s c i
    let s := if x.mode = .ready then modStream s c i (fun y => { y with mode := .stopping }) else s
    askBoundary s c i

def execStreamSwitchOut (c : Fin 16) (i : BitVec 2) (a : BitVec 48) (s : State) : Host.Outcome State Fault Refusal :=
  .next (if inService s c.val then streamSwitchOutOp s c.val i.toNat a.toNat else regError s)

/-- Recover a queued command from a record: the entry that the switch-out wrote, when the packet is unchanged, else the packet as one
that the control firmware submits. -/
def restoredEntry (s : State) (c : Nat) (saved : List QEntry) (b : List Byte) : Option QEntry :=
  match saved.find? (fun q => decide (entryBytes q = b)) with
  | some q => some q
  | none =>
    let p := (partOfCore s c).getD 0
    let via := Via.device (Fin.ofNat 16 p)
    match parsePacket via b with
    | some i => some { instr := i, cmd := { op := at_ b 0 2, h := parseHdr via 0 b, part := some p, win := none } }
    | none => none

/-- Whether the CRC of a stream record holds (R279). -/
def crcHolds (b : List Byte) : Bool := decide (crc32c (slice b 0 20 ++ slice b 24 24872) = at_ b 20 4)

/-- Whether a record passes the checks of a switch-in. -/
def recordOk (c i : Nat) (b : List Byte) : Bool :=
  decide (at_ b 0 2 = 2) && decide (at_ b 2 1 = i) && decide (at_ b 3 1 = c) && crcHolds b

/-- The stream that a record restores. -/
def restoredStream (s : State) (c : Nat) (x : Stream) (b : List Byte) (g : AccRegion) : Stream :=
  let fl := at_ b 16 4
  let n := min 65 (at_ b 6 1)
  let qs := (List.range n).filterMap (fun j => restoredEntry s c x.saved (slice b (8256 + 256 * j) 256))
  let done := at_ b 8 8
  let qs := match qs with
    | q :: rest => if at_ b 4 1 = 1 then { q with cmd := { q.cmd with passes := done } } :: rest else qs
    | [] => []
  let lanes := (List.range 1024).map (fun j => (j, BitVec.ofNat 64 (at_ b (64 + 8 * j) 8)))
  { x with queue := qs, saved := [], mode := .ready, numFlags := BitVec.ofNat 16 fl, idxFlag := bitOf fl 16, idxIe := bitOf fl 17,
           seedSoft := bitOf fl 18, gen := { x.gen with lanes := lanes }, region := g }

/-- OP 0b10 of LAST_STREAM_CTL (R280): a stream that is not OUT, or a record that fails its checks, sets ERR and leaves the stream. -/
def streamSwitchInOp (s : State) (c i0 addr : Nat) : State :=
  if (core s c).ctlBusy then modCore s c (fun k => { k with ctlErr := true })
  else
    let i := ctlTarget s c i0
    let a := addr / 64 * 64
    let s := modCore s c (fun k => { k with ctlStream := BitVec.ofNat 2 i, ctlAddr := BitVec.ofNat 48 a })
    let x := stream s c i
    if x.mode ≠ .out then modCore s c (fun k => { k with ctlErr := true })
    else
      let p := (partOfCore s c).getD 16
      let b := partRead s p a 24896
      let acc := at_ b 24 8
      let ok := recordOk c i b && !partPoisoned s p a 24896 && !partPoisoned s p acc 1310784
      let s := if crcHolds b then badSave s (physOf s c) (partRead s p acc 1310784)
        else countCrcTrigger (fireDie s (dieOfCore c) 0x308) (physOf s c)
      let s := match (if ok then restoreRecord (partRead s p acc 1310784) else none) with
        | some g => modStream s c i (fun y => restoredStream s c y b g)
        | none => modCore s c (fun k => { k with ctlErr := true })
      kickStream (fireCore (modCore s c (fun k => { k with ctlDone := true })) (physOf s c) 3) c i

def execStreamSwitchIn (c : Fin 16) (i : BitVec 2) (a : BitVec 48) (s : State) : Host.Outcome State Fault Refusal :=
  .next (if inService s c.val then streamSwitchInOp s c.val i.toNat a.toNat else regError s)

/-! ### Migration (R281 to R286) -/

/-- The pool entries, slots and registers of a core arrive at the spare; LAST_RELIA_STATUS belongs to each physical core (R636). -/
def movedCore (src spare : Core) (outs : List Nat) : Core :=
  let c := outs.foldl (fun k i => setStreamOf k i { streamOf k i with mode := .ready }) src
  { c with suspect := spare.suspect, engine := spare.engine, resWin := spare.resWin, crcWin := spare.crcWin, power := .run }

/-- The record of CORE_MIGRATE (R286). Its cycle counts are free values; the copy moves at most 1,024 bytes a cycle (R283). -/
def migrationRecord (s : State) (m : Migration) : List Byte × State :=
  let (a, s) := freeCycles s
  let (b, s) := freeCycles s
  (leBytes 1 m.source ++ leBytes 1 m.spare ++ leBytes 1 (b2n m.atStage) ++ zeros 5 ++ leBytes 8 a ++ leBytes 8 (22505 + b) ++ leBytes 8 23045248, s)

/-- End the command of a die's migration, and start anew what waited for its end (R282). -/
def endMigration (s : State) (d : Nat) (st : Status) (record : List Byte) : State :=
  let s := modDie s d (fun x => { x with migration := none })
  let s := (s.waiting.filter (fun w => decide (w.wait = .migrate d))).foldl (fun s w => endWaiting s w st 0 record) s
  restartWaiting s (fun w => decide (w.wait = .bindAfter d))

/-- The test phase of a core that a migration has handed over begins (R621 step 3): the core starts through the stagger queue. -/
def testPhase (s : State) (d : Nat) (m : Migration) : State :=
  let s := match (die s d).test with
    | some t =>
      if t.req.core = m.source then
        modDie s d (fun x => { x with test := some { t with phase := 3, spare := some m.spare, atStage := m.atStage } })
      else s
    | none => s
  match (die s d).test with
  | some t => if t.req.core = m.source then wakeCore s m.source else requestTest s m.source
  | none => requestTest s m.source

/-- Whether the source's state cannot be read (R284): a sector of its Insole has failed under some command. -/
def sourceUnreadable (s : State) (m : Migration) : Bool := (coreP s m.source).hurt

/-- Steps 4 to 7 of R283. -/
def moveCore (s : State) (d : Nat) (m : Migration) : State :=
  let s := flushStaging s m.source
  let src := coreP s m.source
  let s := setCoreP s m.spare (movedCore src (coreP s m.spare) m.outs)
  let s := setMapByte s m.logical (128 + m.spare)
  let s := setCoreState s m.spare 0
  let s := scrubCore s m.source
  let s := storeCoreMap (setCoreState (if m.after = 0 then fenceStreams s m.source else s) m.source (if m.after = 0 then 2 else 3))
  let (rec_, s) := migrationRecord s m
  let s := endMigration s d .ok rec_
  let s := m.outs.foldl (fun s i => kickStream s m.logical i) s
  if m.after = 0 then s else testPhase s d m

/-- A test whose migration failed ends ABORTED; its end is a step that the device owes (R625). -/
def abortTest (s : State) (d k : Nat) : State :=
  match (die s d).test with
  | some t => if t.req.core = k ∧ t.phase = 2 then owe s (.run (.testEnd (Fin.ofNat 18 k) 0)) else s
  | none => s

/-- A source that cannot be read ends the migration (R284). -/
def failMigration (s : State) (d : Nat) (m : Migration) : State :=
  let s := writeSig s { kind := 8, cls := 1, unit := some (unitMap s m.source none none), action := some 2, core := some m.source,
                        die := some d }
  let s := setCoreState (scrubCore s m.spare) m.spare 1
  let s := modCoreP s m.spare (fun c => { c with power := .retain })
  let s := fenceLogical s m.logical
  abortTest (endMigration s d .fenced []) d m.source

/-- Go on with a die's migration once every stream is OUT and the spare is in RUN. -/
def tryMove (s : State) (d : Nat) : State :=
  match (die s d).migration with
  | none => s
  | some m =>
    let out := (List.range 3).all (fun i => decide ((stream s m.logical i).mode = .out))
    if !m.stopped || !out || decide ((coreP s m.spare).power ≠ .run) then s
    else if sourceUnreadable s m then failMigration s d m else moveCore s d m

/-- Whether a core is at a stage boundary (R264). -/
def atStage (s : State) (c : Nat) : Bool :=
  (List.range 3).all (fun i =>
    let x := stream s c i
    if x.mode = .out ∨ x.mode = .fenced then true
    else match inProgress s c i with
      | some w => syncWait w.wait
      | none => x.queue.isEmpty && x.held.isEmpty)

/-- Step 3 of R283: each stream runs to its resume boundary. -/
def stopStreams (s : State) (d : Nat) (m : Migration) : State :=
  let s := modDie s d (fun x => { x with migration := some { m with stopped := true, atStage := atStage s m.logical } })
  let s := (List.range 3).foldl (fun s i =>
    if (stream s m.logical i).mode = .ready then
      let s := modStream s m.logical i (fun y => { y with mode := .stopping })
      if atResume s m.logical i then migrationOut s m.logical i else s
    else s) s
  tryMove s d

/-- A migration goes on to step 3, under WAIT_STAGE once its core stands at a stage boundary. -/
def boundaryOp (s : State) (c : Nat) : State :=
  let d := dieOfCore c
  match (die s d).migration with
  | some m => if !m.stopped && (!m.waitStage || atStage s m.logical) then stopStreams s d m else s
  | none => s

/-- The boundary of the streams of a core that are stopping: for the switch-out of LAST_STREAM_CTL, or for a migration. -/
def switchOutOp (s : State) (c : Nat) : State :=
  let s := (List.range 3).foldl (fun s i =>
    if !atResume s c i then s
    else if switching s c i then switchOut s c i
    else if (stream s c i).mode = .stopping then migrationOut s c i else s) s
  tryMove s (dieOfCore c)

def execSwitchOutComplete (c : Fin 16) (s : State) : Host.Outcome State Fault Refusal := .next (switchOutOp s c.val)

/-- WAIT_LIMIT passes: the migration proceeds at the streams' resume boundaries; a WAIT_LIMIT of 0 is no limit (R281). -/
def waitLimitOp (s : State) (d : Nat) : State :=
  match (die s d).migration with
  | some m => if m.stopped || !m.waitStage || decide (m.limit = 0) then s else stopStreams s d m
  | none => s

def execWaitLimitExpiry (d : Fin 2) (s : State) : Host.Outcome State Fault Refusal := .next (waitLimitOp s d.val)

/-- Whether a partition is being rebound. -/
def rebinding (s : State) (p : Nat) : Bool := (part s p).busy || decide ((part s p).pstate = .scrubbing)

/-- The partition of a logical core is being rebound. -/
def coreRebinding (s : State) (c : Nat) : Bool :=
  match partOfCore s c with
  | some p => rebinding s p
  | none => false

/-- Begin a migration of a logical core (R283 step 1). -/
def startMigration (s : State) (c spare after : Nat) (wait : Bool) (limit : Nat) : State :=
  let d := dieOfCore c
  let m : Migration := { logical := c, source := physOf s c, spare := spare, after := after, waitStage := wait, limit := limit }
  let s := setMapByte s c (mapByte s c + 64)
  let s := setCoreState (modDie s d (fun x => { x with migration := some m })) spare 3
  wakeCore s spare

/-- CORE_MIGRATE (R281 to R283). -/
def bodyCoreMigrate (p : CoreMigrateP) (s : State) (_c : Cmd) : Res :=
  let c := p.logical.toNat
  let ctl := p.ctl.toNat
  let d := dieOfCore c
  checked s [(decide (15 < c) || decide (7 < ctl) || decide (1 < ctl % 4) || decide (p.rsvdA ≠ 0) || decide (p.rsvdB ≠ 0), .badParam, 2),
      (!inService s c, .fenced, 0), (coreRebinding s c, .partitionResetting, 0), ((die s d).migration.isSome, .contextBusy, 0),
      ((freeSpare s d).isNone, .noResource, 0)] fun _ =>
    { s := owe (startMigration s c ((freeSpare s d).getD 0) (ctl % 4) (bitOf ctl 2) p.waitLimit.toNat) (.boundary c), wait := some (.migrate d) }

def execCoreMigrate (h : Hdr) (p : CoreMigrateP) (s : State) : Host.Outcome State Fault Refusal :=
  command (.coreMigrate h p) { op := 0x0800, n := 16, runs := .f, needPart := false, mgmtOnly := true, rec_ := 32 } h
    (packetBytes 0x0800 h (bytesCoreMigrate p)) (bodyCoreMigrate p) s

end Sys2Proof.Machine
end

