-- ==== Sys2Proof/Machine/Jobs.lean ====
section
/-! DEFINITION. Jobs (R289 to R294, R312 to R316): starting, steering and stopping one, the step counter, the decided mask epochs at its
boundary, the evaluation hook and the health monitors. -/
namespace Sys2Proof.Machine

/-! ### Health monitors (R313) -/

/-- The monitors that count statuses look again: RESIDUE and MISSING. -/
def healthCheck (s : State) (p : Nat) : State :=
  match job s p with
  | none => s
  | some j =>
    checkMonitor (checkMonitor s p 3 j.health.resCore j.health.residue) p 5 none j.health.missing

/-- Invalid and overflow of a logical core's U-stream WELT_FLG (R64). -/
def uFlags (s : State) (c : Nat) : BitVec 4 := BitVec.ofNat 4 (fld (stream s c 2).numFlags.toNat 12 4 / 4 * 4)

/-- NONFINITE at a step end: bits that read 1 and read 0 at the step end before. -/
def stepFlags (s : State) (p : Nat) : State :=
  match job s p with
  | none => s
  | some j =>
    let fresh := (jCores j).filter (fun c => decide (uFlags s c &&& ~~~(tget 0 c j.health.flags) ≠ 0))
    let flags := (jCores j).foldl (fun t c => tput 0 c (uFlags s c) t) j.health.flags
    let s := setJob s p { j with health := { j.health with flags := flags } }
    match fresh with
    | [] => s
    | c :: _ => raiseHealth s p 2 (some c) fresh.length

def execStepTimeExpiry (p : Fin 16) (s : State) : Host.Outcome State Fault Refusal := .next (raiseHealth s p.val 1 none 1)

/-- GATHER_LATE: the copies for the current step that are not complete. -/
def gatherLate (s : State) (p : Nat) : State :=
  match job s p with
  | none => s
  | some j =>
    let late := (List.range j.gathers.length).filter (fun k => !j.copies.any (fun c => decide (c.entry = k) && decide (c.step = j.step.toNat) && c.done))
    if late.isEmpty then s else raiseHealth s p 4 none late.length

def execGatherLateExpiry (p : Fin 16) (s : State) : Host.Outcome State Fault Refusal := .next (gatherLate s p.val)

/-! ### The step counter (R292) -/

/-- Whether a host gate holds the counter. -/
def gateHolds (j : Job) : Bool :=
  let n := j.step.toNat + 1
  decide (jGateEvery j ≠ 0) && decide (n % jGateEvery j = 0) && !j.gates.contains n

/-- Whether an evaluation hook holds the counter. -/
def evalHolds (j : Job) : Bool :=
  match j.eval with
  | some e => e.hold
  | none => false

def evEvery (j : Job) : Nat := at_ j.evalCfg 0 4
/-- Start the evaluation hook after a step (R312), on Awl core 0 of the lowest core of stage 0. -/
def startEval (s : State) (p : Nat) (n : Nat) : State :=
  match job s p with
  | none => s
  | some j =>
    if j.evalCfg.isEmpty || decide (n % evEvery j ≠ 0) || decide (evEvery j = 0) || j.eval.isSome then s
    else
      let c0 := ((List.range 16).find? (fun c => (List.range (jStages j)).any (fun i =>
        decide (at_ j.stages (8 * i) 2 = 0) && bitOf (jStageCores j i) c))).getD 0
      let s := setJob s p { j with eval := some { hold := decide (at_ j.evalCfg 4 1 = 0) } }
      modAwl (breakQuag s p) c0 0 (fun a => { a with entry := at_ j.evalCfg 8 8 })

/-- Contributions that wait for the next step sequence start anew (R328). -/
def wakeBuckets (s : State) (p : Nat) : State :=
  match planOf s p with
  | some x => x.buckets.foldl (fun s e => wakeContribs s p e.1) s
  | none => s

/-- A counter that stands at 2^64 − 1 never advances, since no lace releases past that generation (R366): STEP_SATURATED is sent and the job
pauses when the counter gets there (DEDUCED, entry 49). -/
def saturated (s : State) (p : Nat) : State :=
  match job s p with
  | some j => if j.step.toNat = 2 ^ 64 - 1 then pauseJob (postPart s p 0x0104 0 []) p 4 else s
  | none => s

/-- The advance from s to s + 1. The monitors of step s look once more before their counts begin anew (R313). -/
def advance (s : State) (p : Nat) (j : Job) : State :=
  let n := j.step.toNat
  let s := stepFlags (healthCheck s p) p
  let s := modJob s p (fun j =>
    { j with step := j.step + 1, gates := j.gates.filter (fun g => decide (n + 1 < g)),
             health := { j.health with residue := 0, resCore := none, missing := 0, raised := [] } })
  let s := (List.range (jTokens j)).foldl (fun s _ => deviceSignal s (jEyelet j)) s
  let k := j.ckpt
  let due := ckOn k && (ckStreaming k || k.asked || decide (n % ckEvery k = 0))
  let s := if due then startCkpt (modJob s p (fun j => { j with ckpt := { j.ckpt with asked := false } })) p j.step else s
  let s := startEval s p n
  afterLace (wakeBuckets (gatherAdvance (saturated s p) p) p) p

/-- STEP_ADVANCE: the counter advances when nothing holds it. -/
def tryAdvance (s : State) (p : Nat) : State :=
  match job s p with
  | none => s
  | some j =>
    if j.stopping || j.paused || !laceDone s j || epochHolds s p || gateHolds j || evalHolds j then s
    else advance s p j

def execStepAdvance (p : Fin 16) (s : State) : Host.Outcome State Fault Refusal := .next (tryAdvance s p.val)

/-- A hold may have ended: the advance is a step the device owes. -/
def oweAdvance (s : State) (p : Nat) : State := owe s (.run (.stepAdvance (Fin.ofNat 16 p)))

/-! ### Decided mask epochs at the boundary (R210, R211) -/

/-- The entries of a job that are due, decided one way, and not held by a checkpoint's unread items (R309). -/
def dueEpochs (s : State) (p : Nat) (tag : BitVec 32) (commit : Bool) : List PendEpoch :=
  match job s p with
  | none => []
  | some j =>
    if !laceDone s j then []
    else (part s p).pend.filter (fun e => decide (e.job = tag) && pendDue s p e && decide (e.decision = some commit) && !(commit && ckptHoldsPend s p e))

/-- Act on the due entries: each is done and goes, and older peers learn the masks committed (R215); the multicasts that they held follow, and
the counter is released. -/
def actEpochs (s : State) (p : Nat) (tag : BitVec 32) (commit : Bool) : State :=
  let due := dueEpochs s p tag commit
  if due.isEmpty then s
  else
    let s := due.foldl (fun s e =>
      let staged := e.records.filter (fun x => decide (at_ (partRead s p x.addr 1) 0 1 = 3))
      let s := if commit then staged.foldl (fun s x => sendBitmap s p e x) (commitPend s p e) else abortPend s p e
      modPart s p (fun y => { y with pend := y.pend.filter (fun z => !(decide (z.job = e.job) && decide (z.epoch = e.epoch))) })) s
    oweAdvance (releaseParams s p) p

def execMaskEpochCommit (p : Fin 16) (tag : BitVec 32) (s : State) : Host.Outcome State Fault Refusal := .next (actEpochs s p.val tag true)
def execMaskEpochAbort (p : Fin 16) (tag : BitVec 32) (s : State) : Host.Outcome State Fault Refusal := .next (actEpochs s p.val tag false)

/-! ### JOB_START (R289 to R291) -/

/-- Whether a region can be read. -/
def readable (s : State) (p a n : Nat) : Bool := regionOk s p a n 1 false && !partPoisoned s p a n
/-- A region's bytes; none when it is not mapped. -/
def sub (s : State) (p a n : Nat) : List Byte := if regionOk s p a n 1 false then partRead s p a n else []
/-- An eyelet that the partition may name (R352). -/
def eyeletMust (s : State) (p e : Nat) : Bool := decide (e < 16384) && ownsEyelet s p e
/-- An eyelet that the partition may name, or none. -/
def eyeletOk (s : State) (p e : Nat) : Bool := decide (e = 0xFFFFFFFF) || eyeletMust s p e

/-- The sub-records that a job record names, as they are read (R290). -/
structure JobSubs where
  stages  : List Byte
  data    : List Byte
  gathers : List Byte
  ckpt    : List Byte
  eval    : List Byte
  evalD   : List Byte
  health  : List Byte
deriving DecidableEq, Repr

def jobSubs (s : State) (p : Nat) (b : List Byte) : JobSubs :=
  let opt := fun (o n : Nat) => if at_ b o 8 = 0 then [] else sub s p (at_ b o 8) n
  let ev := opt 64 32
  { stages := sub s p (at_ b 24 8) (8 * at_ b 90 2), data := opt 40 64, gathers := opt 48 (64 * at_ b 92 2), ckpt := opt 56 64,
    eval := ev, evalD := if at_ ev 16 8 = 0 then [] else sub s p (at_ ev 16 8) 64, health := opt 72 (8 * at_ b 94 2) }

/-- The stage entries (R290, R291). -/
def stagesOk (s : State) (p n : Nat) (st : List Byte) : Bool :=
  let num := fun (i : Nat) => at_ st (8 * i) 2
  let cores := fun (i : Nat) => at_ st (8 * i + 2) 2
  (List.range n).all (fun i =>
    decide (num i < n) && decide (cores i ≠ 0) && decide (at_ st (8 * i + 6) 2 = 0) &&
    (decide (at_ st (8 * i + 4) 2 = 0xFFFF) || ownsTally s p (at_ st (8 * i + 4) 2)) &&
    (List.range 16).all (fun c => !bitOf (cores i) c || (holdsCore s p c && inService s c)) &&
    (List.range n).all (fun k => decide (k = i) || (decide (num k ≠ num i) && decide (cores k &&& cores i = 0))))

/-- The BAD_PARAM conditions of R291 on a job record and its sub-records' eyelets. -/
def jobParamsOk (s : State) (p : Nat) (b : List Byte) (x : JobSubs) : Bool :=
  let n := at_ b 90 2
  let data := fun (d : List Byte) => d.isEmpty || (eyeletMust s p (at_ d 32 4) && eyeletMust s p (at_ d 36 4))
  decide (at_ b 0 4 ≠ 0) && decide (1 ≤ at_ b 6 2) && decide (at_ b 4 2 < at_ b 6 2) && decide (1 ≤ n) && decide (n ≤ 64) &&
  decide (at_ b 92 2 ≤ 256) && decide (at_ b 94 2 ≤ 16) && decide (1 ≤ at_ b 100 2) && allZero (slice b 102 2) && allZero (slice b 108 20) &&
  (x.stages.isEmpty || stagesOk s p n x.stages) && decide (at_ b 88 2 < 1024) && ownsLace s p (at_ b 88 2) && eyeletOk s p (at_ b 96 4) &&
  data x.data && data x.evalD && (List.range (x.gathers.length / 64)).all (fun i => eyeletMust s p (at_ x.gathers (64 * i + 32) 4)) &&
  (x.ckpt.isEmpty || eyeletOk s p (at_ x.ckpt 48 4))

/-- The bytes of a sub-record that must be there. -/
def subThere (a n : Nat) (b : List Byte) : Bool := decide (a = 0) || decide (b.length = n)

/-- A data service configuration (R295). -/
def dataOk (s : State) (p cores : Nat) (d : List Byte) : Bool :=
  let n := at_ d 8 2
  let src := at_ d 0 8
  let nd := if at_ d 40 8 = 0 then 0 else at_ d 48 1
  d.isEmpty ||
  (decide (1 ≤ n) && decide (n ≤ 1024) && decide (at_ d 10 1 ≤ 1) && decide (at_ d 11 1 ≤ 1) && decide (1 ≤ at_ d 12 4) && decide (at_ d 12 4 ≤ 65536) &&
   decide (at_ d 24 4 % 4096 = 0) && decide (0 < at_ d 24 4) && decide (2 ≤ at_ d 28 2) && decide (at_ d 28 2 ≤ 256) &&
   regionOk s p (at_ d 16 8) (at_ d 24 4 * at_ d 28 2) 4096 true && spanHbm s p (at_ d 16 8) (at_ d 24 4 * at_ d 28 2) && decide (1 ≤ at_ d 30 2) &&
   decide (at_ d 48 1 ≤ 8) && allZero (slice d 49 1) && allZero (slice d 52 12) && decide (at_ d 50 2 ≠ 0) && decide (at_ d 50 2 &&& cores = at_ d 50 2) &&
   regionOk s p src (32 * n) 1 false && regionOk s p (at_ d 40 8) (16 * nd) 1 false &&
   (List.range n).all (fun i =>
     let e := partRead s p (src + 32 * i) 32
     decide (at_ e 0 1 ≤ 1) && allZero (slice e 1 7) && allZero (slice e 28 4)) &&
   (List.range nd).all (fun i =>
     let e := partRead s p (at_ d 40 8 + 16 * i) 16
     regionOk s p (at_ e 8 8) (at_ e 4 4) 1 false))

/-- A data service in its first state. -/
def dataService (s : State) (p : Nat) (d : List Byte) (epoch pos : Nat) : DataService :=
  if d.isEmpty then {}
  else { cfg := d, sources := partRead s p (at_ d 0 8) (32 * at_ d 8 2),
         dicts := if at_ d 40 8 = 0 then [] else partRead s p (at_ d 40 8) (16 * at_ d 48 1), epoch := epoch, pos := pos }

/-- A descriptor or distribution record that fails its checks makes BAD_DESCRIPTOR, a poisoned one INTEGRITY_FAIL. -/
def subStatus (st : Status) : Status := if st = .integrityFail then .integrityFail else .badDescriptor

/-- One gather entry with what it names (R300). -/
def gatherEntry (s : State) (p : Nat) (e : List Byte) : Except Status GatherCfg :=
  let n := at_ e 40 1
  if !(decide (n = 2) || decide (n = 3)) || !allZero (slice e 41 23) || decide (at_ e 36 2 = 0) || decide (4096 ≤ at_ e 38 2) ||
      (decide (n = 2) && decide (at_ e 24 8 ≠ 0)) then .error .badDescriptor
  else match checkDist s p (at_ e 0 8) with
    | .error (st, _) => .error (subStatus st)
    | .ok x =>
      let bad := (List.range n).findSome? (fun i => match checkDesc s p (at_ e (8 + 8 * i) 8) true with
        | .no st _ => some (subStatus st)
        | .ok d => if d.rank = x.dist.rank ∧ seenExt d = x.dist.ext ∧ !badConv x.dist.elem d.elem then none else some .badDescriptor)
      match bad with
      | some st => .error st
      | none => .ok { entry := e, dist := x.bytes, devs := x.list, local_ := x.lbytes,
                      bufs := (List.range n).map (fun i => partRead s p (at_ e (8 + 8 * i) 8) 192) }

/-- The gather entries in order. -/
def gatherEntries (s : State) (p : Nat) (b : List Byte) : List Nat → Except Status (List GatherCfg)
  | [] => .ok []
  | i :: is =>
    match gatherEntry s p (slice b (64 * i) 64) with
    | .error st => .error st
    | .ok g => (gatherEntries s p b is).map (g :: ·)

/-- A checkpoint configuration (R306). -/
def ckptOk (s : State) (p : Nat) (k : List Byte) : Bool :=
  let n := at_ k 6 2
  let items := at_ k 16 8
  let size := at_ k 40 8
  k.isEmpty ||
  (decide (at_ k 0 1 ≤ 1) && decide (at_ k 1 1 ≤ 2) && decide (1 ≤ n) && decide (n ≤ 4096) && (decide (at_ k 0 1 = 1) || decide (1 ≤ at_ k 8 4)) && decide (at_ k 12 1 ≤ 1) &&
   allZero (slice k 13 3) && allZero (slice k 52 12) && decide (size % 2 ^ 21 = 0) && decide (0 < size) && decide (size < 2 ^ 48) &&
   (List.range 2).all (fun i => regionOk s p (at_ k (24 + 8 * i) 8) size (2 ^ 21) true && spanFar s p (at_ k (24 + 8 * i) 8) size) &&
   regionOk s p items (8 * n) 1 false &&
   (List.range n).all (fun i =>
     let e := at_ (partRead s p (items + 8 * i) 8) 0 8
     let a := fld e 0 48
     decide (fld e 62 2 < 2) && decide (fld e 48 14 = 0) &&
     (if fld e 62 2 = 1 then regionOk s p a 64 64 true && !recordBad (partRead s p a 64) && (shapeExt s p (at_ (partRead s p a 64) 32 8)).isOk
      else match checkDesc s p a false with
        | .ok _ => true
        | .no .. => false)))

/-- Whether an address lies in a loadable segment of an ELF64 image (R290, R312). -/
def imageHolds (s : State) (p a entry : Nat) : Bool :=
  let b := partRead s p a 64
  (List.range (at_ b 56 2)).any (fun i =>
    let h := partRead s p (a + at_ b 32 8 + at_ b 54 2 * i) 56
    decide (at_ h 0 4 = 1) && decide (at_ h 16 8 ≤ entry) && decide (entry < at_ h 16 8 + at_ h 40 8))

/-- An evaluation hook configuration (R312) beside an image. -/
def evalOk (s : State) (p cores image : Nat) (e d : List Byte) : Bool :=
  e.isEmpty || (imageHolds s p image (at_ e 8 8) && decide (at_ e 4 1 ≤ 1) && allZero (slice e 5 3) && subThere (at_ e 16 8) 64 d && dataOk s p cores d && regionOk s p (at_ e 24 8) 64 1 true)

/-- Health monitor entries (R313). -/
def healthOk (h : List Byte) : Bool :=
  (List.range (h.length / 8)).all (fun i => let e := slice h (8 * i) 8
    decide (1 ≤ at_ e 0 1) && decide (at_ e 0 1 ≤ 6) && decide (at_ e 1 1 ≤ 2) && allZero (slice e 2 2))

/-- Whether AWL_IMAGE is an ELF64 executable for RISC-V under R290. -/
def imageOk (s : State) (p a : Nat) : Bool :=
  let b := partRead s p a 64
  readable s p a 64 && decide (at_ b 0 4 = 0x464C457F) && decide (at_ b 4 1 = 2) && decide (at_ b 5 1 = 1) && decide (at_ b 16 2 = 2) && decide (at_ b 18 2 = 243)

/-- The status of RESTORE under R310; none when the restore may go on. -/
def restoreStatus (s : State) (p a : Nat) (k : CkptService) : Option Status :=
  if !readable s p a 64 then some (if regionOk s p a 64 1 false then .integrityFail else .badDescriptor)
  else
    let room := 2 ^ 48 - a
    let (h, entries) := readManifest s p a room
    let n := at_ h 40 2
    if !ckOn k || decide (at_ h 0 2 ≠ 3) || decide (at_ h 2 1 ≠ 1) || decide (n ≠ ckItems k) || !regionOk s p (a + 64) (32 * n) 1 false ||
        !(List.range n).all (fun i => decide (at_ entries (32 * i + 8) 8 = ckItem k i) && decide (at_ entries (32 * i) 1 = fld (ckItem k i) 62 2) &&
          regionOk s p (a + at_ entries (32 * i + 16) 8) (at_ entries (32 * i + 24) 8) 1 false) then some .badDescriptor
    else if partPoisoned s p (a + 64) (32 * n) || !manifestCrc h entries || !manifestItemsOk s p a room entries then some .integrityFail
    else none

/-- Whether a CRC that the device checks on a restore fails: of the manifest or of an item (R310). -/
def restoreCrc (s : State) (p a : Nat) : Bool :=
  let room := 2 ^ 48 - a
  let (h, entries) := readManifest s p a room
  !manifestCrc h entries || !manifestItemsOk s p a room entries

/-- Write every item of a manifest back to its source. -/
def restoreItems (s : State) (p a : Nat) (k : CkptService) : State :=
  let (_, entries) := readManifest s p a (2 ^ 48 - a)
  let data := (List.range (ckItems k)).map (fun i => (ckItem k i, manifestItem s p a entries i))
  data.foldl (fun s x => itemRestore s p x.1 x.2) s

/-- Load the image into the Awl cores of the stage cores and release them from reset (R291). Awl core 3 of the cores of AWL_MASK runs the data
service, which is the firmware's, in place of the job program (R295). -/
def loadAwls (s : State) (cores : List Nat) (entry mask : Nat) : State :=
  cores.foldl (fun s c => (List.range 4).foldl (fun s a =>
    let service := decide (a = 3) && bitOf mask c
    modAwl s c a (fun x => { x with inReset := false, halted := false, service := service, entry := if service then 0 else entry })) s) s

/-- The version that job setup gives a job: that of the oldest generation among the devices that its distribution records name, as each has
given it. One that has given none may be of any generation (R451; entry 48). -/
def setupVersion (s : State) (gs : List GatherCfg) : Nat × State :=
  let vs := (gs.flatMap (fun g => (gaDist g).devs)).map (peerVersion s)
  let known := vs.foldl (fun a v => min a (v.getD 3)) 3
  if vs.all (·.isSome) then (known, s) else let (n, s) := freeNat s; (min known (1 + n % 3), s)

/-- The initial multicast of each owned shard, tagged with the first step (R302). -/
def initialMcasts (s : State) (p : Nat) (gs : List GatherCfg) (step : Nat) : State :=
  gs.foldl (fun s g =>
    match (gaDist g).devs.findIdx? (· == s.fab.addr.toNat) with
    | some grid =>
      if !isOwner (gaDist g) grid then s
      else if paramHolds s p step then
        modJob s p (fun j => { j with mcasts := j.mcasts ++ [{ step := step, dist := at_ g.entry 0 8, mc := gaMcast g }] })
      else (match parseDesc (gaDist g).ldesc g.local_ with
        | some d => hubEnd (mcastShard (hubRun s p) d (gaMcast g) step grid)
        | none => s)
    | none => s) s

/-- After a restore from one of the job's own slots that slot holds the last complete checkpoint (R308). -/
def restoredSlot (k : CkptService) (a step : Nat) : Option (Nat × Nat) :=
  if a = 0 ∨ !ckOn k then none else if a = ckSlot k 0 then some (0, step) else if a = ckSlot k 1 then some (1, step) else none

/-- Start a job that has passed its checks. -/
def startJob (s : State) (p : Nat) (b : List Byte) (x : JobSubs) (gs : List GatherCfg) (k : CkptService) : State :=
  let a := at_ b 80 8
  let (h, _) := readManifest s p a 64
  let s := if a = 0 then s else restoreItems s p a k
  let (seed, s) := if a ≠ 0 then (BitVec.ofNat 64 (at_ h 32 8), s)
    else if at_ b 16 8 ≠ 0 then (BitVec.ofNat 64 (at_ b 16 8), s) else freeEntropy s
  let start := if a = 0 then BitVec.ofNat 64 (at_ b 8 8) else BitVec.ofNat 64 (at_ h 8 8 + 1)
  let (epoch, pos) := if a = 0 then (0, 0) else (at_ h 16 8, at_ h 24 8)
  let entry := at_ (partRead s p (at_ b 32 8) 64) 24 8
  let (v, s) := setupVersion s gs
  let j : Job :=
    { record := b, version := v, stages := x.stages, entry := entry, step := start, start := start, seed := seed, evalCfg := x.eval, gathers := gs,
      data := dataService s p x.data epoch pos, evalData := dataService s p x.evalD 0 0, ckpt := { k with last := restoredSlot k a (at_ h 8 8) }, health := { entries := x.health } }
  let s := loadAwls (setJob s p j) (jCores j) entry (at_ x.data 50 2)
  let s := saturated (initialMcasts s p gs start.toNat) p
  afterLace (postPart s p 0x0100 0 (leBytes 8 seed.toNat)) p

/-- The memory that JOB_START reads beside the job record: the image's header, the sub-records and the lists that they name (R290, R295, R306). -/
def jobRegions (s : State) (p : Nat) (b : List Byte) (x : JobSubs) : List (Nat × Nat) :=
  let dataRegions := fun (d : List Byte) => if d.isEmpty then [] else
    [(at_ d 0 8, 32 * at_ d 8 2)] ++ (if at_ d 40 8 = 0 then [] else [(at_ d 40 8, 16 * at_ d 48 1)])
  let named := fun (o n : Nat) => if at_ b o 8 = 0 then [] else [(at_ b o 8, n)]
  [(at_ b 24 8, 8 * at_ b 90 2), (at_ b 32 8, 64)] ++ named 40 64 ++ named 48 (64 * at_ b 92 2) ++ named 56 64 ++ named 64 32 ++
  named 72 (8 * at_ b 94 2) ++ (if at_ x.eval 16 8 = 0 then [] else [(at_ x.eval 16 8, 64)]) ++ dataRegions x.data ++ dataRegions x.evalD ++
  (if x.ckpt.isEmpty then [] else
    (at_ x.ckpt 16 8, 8 * at_ x.ckpt 6 2) :: (List.range (at_ x.ckpt 6 2)).filterMap (fun i =>
      let e := at_ (partRead s p (at_ x.ckpt 16 8 + 8 * i) 8) 0 8
      if fld e 62 2 = 1 then some (fld e 0 48, 64) else none))

/-- Whether poison meets what JOB_START reads: the poisoned contents are not used (R416), and its own checks on them are not made (DEDUCED,
entry 49). -/
def jobPoisoned (s : State) (p : Nat) (b : List Byte) (x : JobSubs) : Bool :=
  (jobRegions s p b x).any (fun r => regionOk s p r.1 r.2 1 false && partPoisoned s p r.1 r.2)

/-- The checks of R291 on a job record and its sub-records. -/
def jobChecks (s : State) (p : Nat) (b : List Byte) (x : JobSubs) : List (Bool × Status × Nat) :=
  let n := at_ b 90 2
  let cores := (List.range n).foldl (fun m i => m ||| at_ x.stages (8 * i + 2) 2) 0
  [(jobPoisoned s p b x, .integrityFail, 0), (!jobParamsOk s p b x, .badParam, 0),
   (!decide (x.stages.length = 8 * n) || !subThere (at_ b 40 8) 64 x.data || !dataOk s p cores x.data ||
     !subThere (at_ b 48 8) (64 * at_ b 92 2) x.gathers || !subThere (at_ b 56 8) 64 x.ckpt || !ckptOk s p x.ckpt ||
     !subThere (at_ b 64 8) 32 x.eval || !evalOk s p cores (at_ b 32 8) x.eval x.evalD || !subThere (at_ b 72 8) (8 * at_ b 94 2) x.health ||
     !healthOk x.health || !imageOk s p (at_ b 32 8), .badDescriptor, 0)]

/-- The checkpoint service that a job begins with (R306). -/
def ckptServiceOf (s : State) (p : Nat) (x : JobSubs) : CkptService :=
  if x.ckpt.isEmpty then {} else { cfg := x.ckpt, items := partRead s p (at_ x.ckpt 16 8) (8 * at_ x.ckpt 6 2) }

/-- Why a job cannot restore from the manifest that its record names, if it names one (R310). -/
def restoreFails (s : State) (p : Nat) (b : List Byte) (k : CkptService) : Option Status :=
  if at_ b 80 8 = 0 then none else restoreStatus s p (at_ b 80 8) k

def bodyJobStart (q : JobStartP) (s : State) (c : Cmd) : Res :=
  let p := c.part.getD 16
  let a := q.jobRec.toNat
  checked s [((job s p).isSome || draining s, .contextBusy, 0), (!regionOk s p a 128 64 false || decide (q.rsvdA ≠ 0), .badParam, 0),
      (partPoisoned s p a 128, .integrityFail, 0)] fun _ =>
    let b := partRead s p a 128
    let x := jobSubs s p b
    checked s (jobChecks s p b x) fun _ =>
      match gatherEntries s p x.gathers (List.range (x.gathers.length / 64)) with
      | .error st => { s := s, st := st }
      | .ok gs =>
        match restoreFails s p b (ckptServiceOf s p x) with
        | some st => { s := if st = .integrityFail && restoreCrc s p (at_ b 80 8) then fwCrcFails s p else s, st := st }
        | none => { s := startJob s p b x gs (ckptServiceOf s p x) }

def execJobStart (h : Hdr) (p : JobStartP) (s : State) : Host.Outcome State Fault Refusal :=
  command (.jobStart h p) { op := 0x0020, n := 16, runs := .f } h (packetBytes 0x0020 h (bytesJobStart p)) (bodyJobStart p) s

/-! ### JOB_CTL (R293, R294) -/

/-- STATE of the status record: the first that applies. -/
def jobState (s : State) (p : Nat) (j : Job) : Nat :=
  if j.stopping then 4 else if j.paused then 1 else if laceDone s j && gateHolds j then 2
  else if (laceDone s j && epochHolds s p) || evalHolds j then 3 else 0

/-- The status record of R294. -/
def jobRecord (s : State) (p : Nat) (j : Job) : List Byte :=
  leBytes 8 j.step.toNat ++ leBytes 1 (jobState s p j) ++ zeros 7 ++ leBytes 8 j.seed.toNat ++ leBytes 8 j.data.epoch ++ leBytes 8 j.data.pos ++
  leBytes 8 (match j.ckpt.last with
    | some (_, n) => n
    | none => 2 ^ 64 - 1) ++ leBytes 8 j.dropped.toNat ++ zeros 8

/-- STOP: the counter holds for good; ON_STOP writes a checkpoint, or reports that the step's work is incomplete. -/
def stopJob (s : State) (p : Nat) (j : Job) : State :=
  if j.stopping then s
  else
    let s := breakQuag (setJob s p { j with stopping := true }) p
    let s :=
      if !ckOn j.ckpt || !ckOnStop j.ckpt then s
      else if !laceDone s j then postPart s p 0x0122 1 (leBytes 1 (nextSlot j.ckpt))
      else if j.ckpt.run.isSome then modJob s p (fun j => { j with ckpt := { j.ckpt with onStop := true } })
      else startCkpt s p j.step
    owe s (.run (.jobStopAwlReset (Fin.ofNat 16 p)))

/-- The effect of an operation of JOB_CTL. -/
def jobCtl (s : State) (p : Nat) (j : Job) (op step : Nat) : State :=
  if op = 1 then pauseJob s p 1
  else if op = 2 then
    oweAdvance (setJob s p { j with paused := false, data := { j.data with halted := false }, evalData := { j.evalData with halted := false } }) p
  else if op = 3 then stopJob s p j
  else if op = 4 then
    if jGateEvery j ≠ 0 ∧ step % jGateEvery j = 0 ∧ j.step.toNat < step ∧ !j.gates.contains step then
      oweAdvance (setJob s p { j with gates := step :: j.gates }) p
    else s
  else if op = 5 then setJob s p { j with ckpt := { j.ckpt with asked := true } }
  else s

def bodyJobCtl (q : JobCtlP) (s : State) (c : Cmd) : Res :=
  let p := c.part.getD 16
  let op := q.op.toNat
  match job s p with
  | none => { s := s, st := .badParam }
  | some j =>
    checked s [(decide (jTag j ≠ q.job.toNat) || decide (5 < op) || decide (q.rsvdA ≠ 0) || (decide (op = 5) && !ckOn j.ckpt), .badParam, 0)] fun _ =>
      if op = 0 then { s := s, record := jobRecord s p j } else { s := jobCtl s p j op q.step.toNat }

def execJobCtl (h : Hdr) (p : JobCtlP) (s : State) : Host.Outcome State Fault Refusal :=
  command (.jobCtl h p) { op := 0x0021, n := 16, runs := .f, rec_ := if p.op = 0 then 64 else 0 } h (packetBytes 0x0021 h (bytesJobCtl p))
    (bodyJobCtl p) s

/-! ### The end of a job -/

/-- Whether a stream reads IDLE, WAIT or OUT (R263). -/
def streamQuiet (s : State) (x : Stream) : Bool :=
  match x.mode with
  | .out => true
  | .ready => (match x.busy with
    | some id => (match waitById s id with
      | some w => syncWait w
      | none => false)
    | none => x.queue.isEmpty)
  | _ => false

/-- The eyelet and lace waits of a stream end with its job: the command takes nothing and waits anew with a new ticket (R278, R359). -/
def endWaits (s : State) (c i : Nat) : State :=
  match inProgress s c i with
  | none => s
  | some w =>
    if !syncWait w.wait then s
    else
      let (q, s) := abandonInProgress s c i
      kickStream (modStream s c i (fun x => { x with queue := q.toList ++ x.queue })) c i

/-- The job is gone (R293, R315): the waits of its stage cores are abandoned, their Awl cores are in reset, and its plan goes with its
reductions. -/
def dropJob (s : State) (p reason : Nat) : State :=
  match job s p with
  | none => s
  | some j =>
    let s := (jCores j).foldl (fun s c => (List.range 4).foldl (fun s a =>
      modAwl (abandonUnit s (.awl (Fin.ofNat 16 c) (Fin.ofNat 4 a))) c a (fun _ => {}))
        ((List.range 3).foldl (fun s i => endWaits s c i) s)) s
    let s := postPart s p 0x0102 reason []
    endPlan (modPart s p (fun x => { x with job := none })) p

/-- The Awl cores of a stopped job return to reset once every stream of its stage cores is quiet and its last checkpoint is written. -/
def stopAwls (s : State) (p : Nat) : State :=
  match job s p with
  | none => s
  | some j =>
    let quiet := (jCores j).all (fun c => (List.range 3).all (fun i => streamQuiet s (stream s c i)))
    if j.stopping && quiet && j.ckpt.run.isNone && !j.ckpt.onStop then dropJob s p 1 else s

def execJobStopAwlReset (p : Fin 16) (s : State) : Host.Outcome State Fault Refusal := .next (stopAwls s p.val)

/-! ### The evaluation hook (R312) -/

/-- The hook returns: EVAL_RESULT with RESULT bytes 0 to 15; its Awl core goes on with the job program, and a HOLD ends. -/
def evalReturn (s : State) (p : Nat) : State :=
  match job s p with
  | none => s
  | some j =>
    match j.eval with
    | none => s
    | some _ =>
      let c0 := ((jCores j).find? (fun c => decide ((awlOf (core s c) 0).entry = at_ j.evalCfg 8 8))).getD 0
      let s := modAwl (setJob s p { j with eval := none }) c0 0 (fun a => { a with entry := j.entry })
      oweAdvance (postPart s p 0x0130 0 (partRead s p (at_ j.evalCfg 24 8) 16)) p

def execEvalHookReturn (p : Fin 16) (s : State) : Host.Outcome State Fault Refusal := .next (evalReturn s p.val)

end Sys2Proof.Machine
end

