-- ==== Sys2Proof/Machine/Mi.lean ====
section
/-! DEFINITION. The Metering Island: occupancy frames, apportioning, metered sessions, records, commits and its commands
(R553 to R579). -/
namespace Sys2Proof.Machine

/-- The number of set bits below n. -/
def popcount (w n : Nat) : Nat := (bitsSet w n).length

/-! ### Occupancy frames (R559) -/

/-- One partition's entry of a frame; its RUN_US is a free value within R559's bound. -/
def framePart (s : State) (p : Nat) : MiPart × State :=
  let act := bound s p && decide ((part s p).pstate = .active)
  if !act then ({}, s)
  else
    let cores := popcount (bCores s p) 16
    let (r, s) := freeNat s
    ({ active := true, session := (part s p).session, runUs := r % (1000 * cores + 1), cores := cores,
       mire := popcount (bMire s p) 32, hbm := popcount (bHbm s p) 128 }, s)

/-- The entries of all partitions. -/
def frameParts : List Nat → State → Tab MiPart × State
  | [], s => ([], s)
  | p :: ps, s =>
    let (x, s) := framePart s p
    let (t, s) := frameParts ps s
    (tput {} p x t, s)

/-- The frame that the hub forms now: free counts are what no ACTIVE partition holds. -/
def miFrameNow (s : State) : MiFrame × State :=
  let (ps, s) := frameParts (List.range 16) s
  ({ parts := ps, freeCores := 18 - (ps.map (·.2.cores)).sum, freeMire := 32 - (ps.map (·.2.mire)).sum,
     freeHbm := 128 - (ps.map (·.2.hbm)).sum }, s)

/-- The MI receives a frame: RUN_US of the millisecond is summed, and the static fields are the latest (R560). -/
def occupancyFrameOp (s : State) : State :=
  let (f, s) := miFrameNow s
  if !s.mi.powered || s.mi.powerFail then s
  else
    let runs := f.parts.foldl (fun t e => tput 0 e.1 (tget 0 e.1 t + e.2.runUs) t) s.mi.runs
    { s with mi := { s.mi with frame := f, runs := runs, gotFrame := true } }

def execOccupancyFrame (s : State) : Host.Outcome State Fault Refusal := .next (occupancyFrameOp s)

/-! ### Records (R563, R564) -/

/-- Free slots of the record log (R564). -/
def logFree (m : Mi) : Nat := 1488 - m.log.length

/-- MI_ID: bytes 0–7 of the hash of the MI public key. -/
def miPub : List Byte := slice (Config.mldsaPub Config.miSeed) 0 1312
def miId : List Byte := (sha miPub).take 8
/-- The DEVICE_ID paired with the MI. -/
def miDeviceId : List Byte := slice Config.miDevice 0 8

/-- Write a closed record into the log (R564): its bytes are numbered and signed here. -/
def miLog (s : State) (flags part : Nat) (mk : Nat → Nat → List Byte) : State :=
  let m := s.mi
  let full := decide (1488 ≤ m.log.length)
  let lost := m.lost + b2n full
  let no := m.recordNo + 1
  let body := mk no lost
  let rec_ := body ++ sign Config.miSeed (sha body)
  let log := (if full then m.log.tail else m.log) ++ [(no, rec_)]
  let s := { s with mi := { m with recordNo := no, lost := lost, log := log, signed := (max m.signed.1 m.time, m.signed.2) } }
  let s := fireHub s 0x1C0
  let s := postMgmt s 0x0190 flags (leBytes 8 no ++ leBytes 1 part)
  let d := leBytes 4 (logFree s.mi) ++ leBytes 4 lost
  let s := if full then postMgmt (fireHub s 0x1C2) 0x0191 2 d else s
  if logFree s.mi < 149 then postMgmt (fireHub s 0x1C1) 0x0191 1 d else s

/-- The bytes 0 to 255 of a record (R563). -/
def recordBody (s : State) (no lost type flags part session metered openMs closeMs energy input bound runMs est : Nat)
    (binding : List Byte) : List Byte :=
  leBytes 2 8 ++ leBytes 2 1 ++ leBytes 4 2676 ++ leBytes 8 no ++ miId ++ miDeviceId ++ leBytes 1 type ++ leBytes 1 flags ++
  leBytes 1 part ++ zeros 1 ++ leBytes 4 (hdrVersion (runHeader s 3)) ++ leBytes 8 s.mi.events ++ runMeas s 3 ++
  leBytes 8 session ++ leBytes 4 metered ++ leBytes 4 lost ++ leBytes 8 openMs ++ leBytes 8 closeMs ++
  leBytes 8 (closeMs - openMs) ++ leBytes 8 energy ++ leBytes 8 input ++ leBytes 8 bound ++ leBytes 8 runMs ++
  leBytes 4 est ++ zeros 4 ++ slice binding 40 8 ++ slice binding 2 2 ++ zeros 6 ++ slice binding 4 4 ++ zeros 4 ++
  slice binding 8 16 ++ zeros 56

/-- The record of a metered session that closes at an MI time, with the input energy counted by then and extra flags (R561, R563). -/
def miCloseAs (s : State) (p extra time input : Nat) (x : MiSession) : State :=
  let flags := extra + 2 * b2n (decide (0 < x.estMs)) + 8 * b2n x.cond
  miLog s flags p (fun no lost => recordBody s no lost 1 flags p x.session x.metered x.openMs time x.energy (input - x.inputOpen) x.bound
    (x.runUs / 1000) x.estMs x.binding)

/-- Close the open metered session of a partition with extra flags (R561, R563); nothing when none is open. -/
def miClose (s : State) (p extra : Nat) : State :=
  match tget none p s.mi.sessions with
  | none => s
  | some x => miCloseAs { s with mi := { s.mi with sessions := tput none p none s.mi.sessions } } p extra s.mi.time s.mi.input x

/-- Open metered session n of a partition session (R561). -/
def miOpenAs (s : State) (p n : Nat) : State :=
  let session := (part s p).session
  let x : MiSession :=
    { session := session, metered := n, openMs := s.mi.time, inputOpen := s.mi.input, binding := bindRec s p }
  if s.mi.powered && !s.mi.powerFail then
    { s with mi := { s.mi with sessions := tput none p (some x) s.mi.sessions, metered := tput (0, 0) p (session, n) s.mi.metered } }
  else s

/-- Open the next metered session of a partition session (R561). -/
def miOpen (s : State) (p : Nat) : State :=
  let (old, n) := tget (0, 0) p s.mi.metered
  miOpenAs s p (if old = (part s p).session then n + 1 else 1)

/-- Metered session 1 of a new partition session opens (R561); one that a restart has left open closes first (R579). -/
def miOpenFirst (s : State) (p : Nat) : State := miOpenAs (miClose s p 0) p 1

/-- What signed records and checkpoints hold of the totals (R558, R568): the time from every one, the energies from a DEVICE record or a
checkpoint. -/
def miSigned (m : Mi) : Mi := { m with signed := (m.time, m.input, m.dev) }

/-- A DEVICE record (R563, R565). -/
def miDeviceRecord (s : State) (extra : Nat) : State :=
  let m := s.mi
  let flags := extra + 2 * b2n (decide (0 < m.devEst)) + 8 * b2n m.devCond
  let mk := fun (no lost : Nat) => recordBody s no lost 2 flags 0xFF 0 0 m.devOpen m.time m.dev m.input 0 0 m.devEst []
  let s := miLog s flags 0xFF mk
  { s with mi := miSigned { s.mi with devOpen := s.mi.time, devEst := 0, devCond := false } }

def execMiDeviceRecord (s : State) : Host.Outcome State Fault Refusal :=
  .next (if s.mi.powered && !s.mi.powerFail then miDeviceRecord s 0 else s)

/-! ### The millisecond (R560) -/

/-- The weight of a partition. -/
def miWeight (m : Mi) (p : Nat) : Nat :=
  let x := tget {} p m.frame.parts
  if x.active then tget 0 p m.runs + 250 * x.cores + 50 * x.mire + 25 * x.hbm else 0

/-- The total weight, the device's included. -/
def miTotal (m : Mi) : Nat :=
  1000 + 250 * m.frame.freeCores + 50 * m.frame.freeMire + 25 * m.frame.freeHbm + ((List.range 16).map (miWeight m)).sum

/-- The share of partition p of E microjoules, if it is ACTIVE in the frame, has an open metered session, and is not being
scrubbed. -/
def miShare (s : State) (e p : Nat) : Nat :=
  if (tget {} p s.mi.frame.parts).active && (tget none p s.mi.sessions).isSome && decide ((part s p).pstate ≠ .scrubbing) then
    e * miWeight s.mi p / miTotal s.mi
  else 0

/-- One session's account after a millisecond. -/
def miAccount (m : Mi) (p share : Nat) (x : MiSession) : MiSession :=
  let f := tget {} p m.frame.parts
  { x with energy := x.energy + share, bound := x.bound + f.cores, runUs := x.runUs + tget 0 p m.runs, estMs := x.estMs + b2n (!m.gotFrame) }

/-- The Metering Island's millisecond with E microjoules of input energy (R556, R558, R560). -/
def miMillisecondOp (s : State) (e : Nat) : State :=
  let m := s.mi
  if !m.powered || m.powerFail then s
  else
    let shares := (List.range 16).map (fun p => (p, miShare s e p))
    let given := (shares.map (·.2)).sum
    let sessions := shares.foldl (fun t x => match tget none x.1 t with
      | some y => tput none x.1 (some (miAccount m x.1 x.2 y)) t
      | none => t) m.sessions
    let est := !m.gotFrame
    let m' : Mi := { m with
      time := m.time + 1, input := m.input + e, dev := m.dev + (e - given), sessions := sessions, runs := [], gotFrame := false,
      estimate := est, devEst := m.devEst + b2n est, sinceUj := m.sinceUj + e, sinceMs := m.sinceMs + 1, upMs := m.upMs + 1 }
    let s' := { s with mi := m' }
    if est then fireHub s' 0x1C5 else s'

def execMiMillisecond (e : BitVec 32) (s : State) : Host.Outcome State Fault Refusal := .next (miMillisecondOp s e.toNat)

/-! ### Commits (R557, R562) -/

/-- MI_STATUS of the running state (R576). -/
def miStatus (m : Mi) : Nat :=
  b2n m.powerFail * 2 ^ 31 + b2n m.holdup * 2 ^ 30 + b2n m.outCond * 2 ^ 29 + b2n m.changing * 2 ^ 28 + b2n m.estimate * 2 ^ 27 +
  logFree m

/-- MI_STATUS as the registers show it from now on: its state bits are shown when they change, its other bits and every other register at
commits (R566, R567, R570, R575; DESIGN CHOICE, entry 55). -/
def miShow (m : Mi) : Mi := { m with snap := { m.snap with status := miStatus m } }

/-- MI_COMMIT: the running image has been measured by now (R570; DESIGN CHOICE, entry 55); the interval is checked against R557 and the snapshot is taken. The input voltage and whether the module is
within its operating ratings are free values. -/
def miCommitOp (s : State) : State :=
  if !s.mi.powered || s.mi.powerFail then s
  else
    let (v, s) := freeNat s
    let (ok, s) := freeNat s
    let m := s.mi
    let mv := v % 65536
    let mw := if m.sinceMs = 0 then 0 else m.sinceUj / m.sinceMs
    let good := decide (100000 ≤ mw) && decide (mw ≤ 1900000) && decide (40000 ≤ mv) && decide (mv ≤ 60000) &&
      decide (ok % 2 = 0) && decide (60000 ≤ m.upMs)
    let mark := fun (x : MiSession) => { x with cond := x.cond || !good }
    let sessions := m.sessions.map (fun e => (e.1, e.2.map mark))
    let was := m.outCond
    let m := { m with sessions := sessions, devCond := m.devCond || !good, outCond := !good, changing := false, sinceUj := 0, sinceMs := 0 }
    let snap : MiSnap :=
      { time := m.time, input := m.input, dev := m.dev, mw := mw, mv := mv, status := miStatus m, events := m.events, open_ := sessions }
    let s := { s with mi := { m with snap := snap } }
    if !good && !was then postMgmt (fireHub s 0x1C3) 0x0192 2 [] else s

def execMiCommit (s : State) : Host.Outcome State Fault Refusal := .next (miCommitOp s)

/-! ### Hold-up and power (R566 to R569) -/

/-- MI_HOLDUP_TEST (R567). -/
def miHoldupOp (s : State) (ok : Bool) : State :=
  if !s.mi.powered || s.mi.powerFail then s
  else
    let s := { s with mi := miShow { s.mi with holdup := !ok } }
    if ok then s else postMgmt (fireHub s 0x1C3) 0x0192 1 []

def execMiHoldupTest (ok : Bool) (s : State) : Host.Outcome State Fault Refusal := .next (miHoldupOp s ok)

/-- The checkpoint of every open session. -/
def miSave (m : Mi) : Tab (Option (MiSession × Nat × Nat)) :=
  m.sessions.map (fun e => (e.1, e.2.map (fun x => (x, m.time, m.input))))

/-- MI_CHECKPOINT: while the hold-up test fails, every open session is written to retained flash (R567). -/
def miCheckpointOp (s : State) : State :=
  if s.mi.powered && !s.mi.powerFail && s.mi.holdup then { s with mi := miSigned { s.mi with saved := miSave s.mi } } else s

def execMiCheckpoint (s : State) : Host.Outcome State Fault Refusal := .next (miCheckpointOp s)

/-- What is left of a session that a stop without hold-up leaves open: its last checkpoint, or its figures at opening where it has none (R567;
DESIGN CHOICE, entry 55). -/
def miLeft (m : Mi) (p : Nat) (x : MiSession) : MiSession × Nat × Nat :=
  match tget none p m.saved with
  | some (y, t, i) => if y.session = x.session ∧ y.metered = x.metered ∧ y.openMs = x.openMs then (y, t, i) else (x.opened, x.openMs, x.inputOpen)
  | none => (x.opened, x.openMs, x.inputOpen)

/-- MI_POWER_FAIL (R566): integration stops; with hold-up every session and a DEVICE record are closed and written, without
it the sessions end at the power-up that follows. -/
def miPowerFailOp (s : State) : State :=
  if !s.mi.powered || s.mi.powerFail then s
  else
    let s := fireHub { s with mi := miShow { s.mi with powerFail := true } } 0x1C4
    if s.mi.holdup then
      let left := s.mi.sessions.map (fun e => (e.1, e.2.map (miLeft s.mi e.1)))
      { s with mi := { s.mi with unclean := true, saved := left, sessions := [] } }
    else miDeviceRecord ((List.range 16).foldl (fun s p => miClose s p 1) s) 1

def execMiPowerFail (s : State) : Host.Outcome State Fault Refusal := .next (miPowerFailOp s)

/-- The identity window is about to change: the host's copies of its lines are invalidated (R476, R509). -/
def dropIdentity (s : State) : State :=
  s.ivtu.idLines.foldl (fun s e => send s (.snpInv (64 * e.1))) { s with ivtu := { s.ivtu with idLines := [] } }

/-- Whether the image of the other MI slot runs at this power-up: it is staged, it verifies, and it is not below the floor (R569). -/
def miStagedRuns (m : Mi) : Bool :=
  let f := tget {} (1 - m.slot) m.slots
  m.staged && f.valid && decide (m.floor ≤ hdrSvn (fwHeader 3 f))

/-- The other MI slot runs: the floor is raised, and the event counter counts an image that differs (R569, R570). -/
def miRunStaged (s : State) : State :=
  let k := 1 - s.mi.slot
  let f := tget {} k s.mi.slots
  let differs := decide (fwMeas 3 f ≠ runMeas s 3)
  dropIdentity { s with mi := { s.mi with slot := k, staged := false, floor := hdrSvn (fwHeader 3 f), events := s.mi.events + b2n differs } }

/-- The sessions that a stop without hold-up left open are closed INTERRUPTED and UNCLEAN, each as it was left (R567). -/
def miCloseLeft (s : State) : State :=
  let left := s.mi.saved
  (List.range 16).foldl (fun s p => match tget none p left with
    | some (x, t, i) => miCloseAs s p 17 t i x
    | none => s) { s with mi := { s.mi with saved := [], unclean := false } }

/-- The Metering Island with power again: it goes on from its last signed records, measures its image, and has no frame yet (R568, R570). -/
def miResume (m : Mi) : Mi :=
  let m := if m.unclean then { m with time := m.signed.1, input := m.signed.2.1, dev := m.signed.2.2 } else m
  { m with powered := true, powerFail := false, changing := true, upMs := 0, frame := {}, runs := [], gotFrame := false, sessions := [],
           metered := [], sinceUj := 0, sinceMs := 0 }

/-- MI_POWER_UP (R567 to R570): the totals go on, the image to run is chosen, the sessions that a stop without hold-up left open are
closed, and an image that runs for the first time writes a DEVICE record (R565). -/
def miPowerUpOp (s : State) : State :=
  if s.mi.powered && !s.mi.powerFail then s
  else
    let s := { s with mi := miShow (miResume s.mi) }
    let first := miStagedRuns s.mi
    let s := if first then miRunStaged s else s
    let s := if s.mi.unclean then miCloseLeft s else { s with mi := { s.mi with saved := [] } }
    if first then miDeviceRecord s 0 else s

def execMiPowerUp (s : State) : Host.Outcome State Fault Refusal := .next (miPowerUpOp s)

/-! ### Commands (R571 to R574) -/

/-- The record of MI_IDENT (R571). -/
def miIdentRecord (s : State) : List Byte :=
  leBytes 4 (hdrVersion (runHeader s 3)) ++ leBytes 4 (hdrSvn (runHeader s 3)) ++ leBytes 8 s.mi.events ++ runMeas s 3 ++ miId ++
  miDeviceId ++ miPub ++ slice Config.miCert 0 2420

def bodyMiIdent (p : MiIdentP) (s : State) (_c : Cmd) : Res :=
  checked s [(decide (p.rsvdA ≠ 0), .badParam, 0)] fun _ => { s := s, record := miIdentRecord s }

def execMiIdent (h : Hdr) (p : MiIdentP) (s : State) : Host.Outcome State Fault Refusal :=
  command (.miIdent h p) { op := 0x0900, n := 8, runs := .f, needPart := false, rec_ := 3796 } h
    (packetBytes 0x0900 h (bytesMiIdent p)) (bodyMiIdent p) s

/-- One partition's entry of MI_READ (R572). -/
def miReadEntry (m : MiSnap) (p : Nat) : List Byte :=
  match tget none p m.open_ with
  | none => zeros 32
  | some x => leBytes 8 x.session ++ leBytes 4 x.metered ++ zeros 4 ++ leBytes 8 x.energy ++ leBytes 8 (m.time - x.openMs)

/-- The record of MI_READ: the last committed snapshot (R572). -/
def miReadRecord (m : MiSnap) : List Byte :=
  leBytes 8 m.time ++ leBytes 8 m.input ++ leBytes 8 m.dev ++ leBytes 4 m.mw ++ leBytes 4 m.mv ++ leBytes 4 m.status ++ zeros 4 ++
  (List.range 16).flatMap (miReadEntry m)

def bodyMiRead (p : MiReadP) (s : State) (_c : Cmd) : Res :=
  checked s [(decide (p.rsvdA ≠ 0), .badParam, 0)] fun _ => { s := s, record := miReadRecord s.mi.snap }

def execMiRead (h : Hdr) (p : MiReadP) (s : State) : Host.Outcome State Fault Refusal :=
  command (.miRead h p) { op := 0x0901, n := 8, runs := .f, needPart := false, mgmtOnly := true, rec_ := 552 } h
    (packetBytes 0x0901 h (bytesMiRead p)) (bodyMiRead p) s

/-- Whether a partition can have a metered session opened or closed: bound and not being scrubbed (R573). -/
def miBound (s : State) (p : Nat) : Bool := bound s p && decide ((part s p).pstate = .active)

/-- MI_SESSION_OPEN (R561, R573). -/
def bodyMiSessionOpen (p : MiSessionOpenP) (s : State) (_c : Cmd) : Res :=
  let q := p.part.toNat
  checked s [(decide (p.rsvdA ≠ 0) || decide (15 < q), .badParam, 0), (!miBound s q, .contextBusy, 0),
      ((tget none q s.mi.sessions).isSome, .contextBusy, 0)] fun _ => { s := miOpen s q }

def execMiSessionOpen (h : Hdr) (p : MiSessionOpenP) (s : State) : Host.Outcome State Fault Refusal :=
  command (.miSessionOpen h p) { op := 0x0902, n := 8, runs := .f, needPart := false, mgmtOnly := true } h
    (packetBytes 0x0902 h (bytesMiSessionOpen p)) (bodyMiSessionOpen p) s

/-- MI_SESSION_CLOSE, with or without REOPEN (R561, R573). -/
def bodyMiSessionClose (p : MiSessionCloseP) (s : State) (_c : Cmd) : Res :=
  let q := p.part.toNat
  checked s [(decide (p.rsvdA ≠ 0) || decide (15 < q) || decide (1 < p.ctl.toNat), .badParam, 0), (!miBound s q, .contextBusy, 0),
      ((tget none q s.mi.sessions).isNone, .contextBusy, 0)] fun _ =>
    let s := miClose s q 4
    let no := s.mi.recordNo
    let re := bitOf p.ctl.toNat 0
    let s := if re then miOpen s q else s
    { s := s, record := leBytes 8 no ++ leBytes 4 (if re then (tget (0, 0) q s.mi.metered).2 else 0) ++ zeros 4 }

def execMiSessionClose (h : Hdr) (p : MiSessionCloseP) (s : State) : Host.Outcome State Fault Refusal :=
  command (.miSessionClose h p) { op := 0x0903, n := 8, runs := .f, needPart := false, mgmtOnly := true, rec_ := 16 } h
    (packetBytes 0x0903 h (bytesMiSessionClose p)) (bodyMiSessionClose p) s

/-- Whether an issuer may read a record (R574): the management context any; a tenant the SESSION records of its own current
partition session. -/
def mayRead (s : State) (who : Option Nat) (r : List Byte) : Bool :=
  match who with
  | none => true
  | some p => decide (at_ r 32 1 = 1) && decide (at_ r 34 1 = p) && decide (at_ r 80 8 = (part s p).session)

/-- MI_RECORD_GET: GET, ACK and LATEST (R574). -/
def bodyMiRecordGet (p : MiRecordGetP) (s : State) (c : Cmd) : Res :=
  let op := p.op.toNat
  let no := p.recordNo.toNat
  let hit := if op = 2 then (s.mi.log.filter (fun r => mayRead s c.part r.2)).getLast? else s.mi.log.find? (fun r => decide (r.1 = no))
  let allowed := match hit with
    | some r => mayRead s c.part r.2
    | none => true
  checked s [(decide (p.rsvdA ≠ 0) || decide (2 < op), .badParam, 0), (c.part.isSome && decide (op = 1), .denied, 0),
      (!allowed, .denied, 0), (hit.isNone, .badParam, 0)] fun _ =>
    match hit with
    | none => { s := s, st := .badParam }
    | some r =>
      if op = 1 then { s := { s with mi := { s.mi with log := s.mi.log.filter (fun x => decide (x.1 ≠ no)) } } }
      else { s := s, record := r.2 }

def execMiRecordGet (h : Hdr) (p : MiRecordGetP) (s : State) : Host.Outcome State Fault Refusal :=
  command (.miRecordGet h p)
    { op := 0x0904, n := 16, runs := .f, needPart := false, rec_ := if p.op.toNat = 1 then 0 else 2676 } h
    (packetBytes 0x0904 h (bytesMiRecordGet p)) (bodyMiRecordGet p) s

end Sys2Proof.Machine
end

