-- ==== Sys2Proof/Machine/Parts.lean ====
section
/-! DEFINITION. Partitions: binding, unbinding, rebinding and queries (R514 to R526, R547). -/
namespace Sys2Proof.Machine

/-! ### Binding records (R514) -/

/-- The 64 bytes of the record that PART_BIND carries. -/
def bindingBytes (p : PartBindP) : List Byte :=
  leBytes 1 p.part.toNat ++ leBytes 1 p.scratchMib.toNat ++ leBytes 2 p.cores.toNat ++ leBytes 4 p.mire.toNat ++ leBytes 16 p.hbm.toNat ++
  leBytes 4 p.ports.toNat ++ leBytes 1 p.farCount.toNat ++ zeros 3 ++ leBytes 4 p.ctxBase.toNat ++ leBytes 4 p.ctxCount.toNat ++
  leBytes 8 p.tenant.toNat ++ zeros 16

/-- The far-tier entries of a list. -/
def farEntries (n : Nat) (b : List Byte) : List FarEntry :=
  (List.range n).map (fun i => { pbase := at_ b (16 * i) 4, dbase := at_ b (16 * i + 4) 4, pages := at_ b (16 * i + 8) 4 })

/-- Whether two spans of pages overlap. -/
def pagesMeet (a n b m : Nat) : Bool := decide (a < b + m) && decide (b < a + n)

/-- Whether a far entry is valid: its partition pages within the far space, its device pages within one port's DATA_PAGES (R423). -/
def farOk (s : State) (e : FarEntry) : Bool :=
  let port := e.dbase / 2 ^ 21
  let o := e.dbase % 2 ^ 21
  decide (1 ≤ e.pages) && decide (e.pbase + e.pages ≤ 2 ^ 22) && decide (port < 2) && decide (o + e.pages ≤ (tget {} port s.cxl).pages.toNat)

/-- Whether no two entries overlap in partition or device pages. -/
def farApart : List FarEntry → Bool
  | [] => true
  | e :: rest => rest.all (fun x => !pagesMeet e.pbase e.pages x.pbase x.pages && !pagesMeet e.dbase e.pages x.dbase x.pages) && farApart rest

/-- R32: a partition holds a core, and a Mire slice on each die where it holds a core. -/
def granulesOk (cores mire : Nat) : Bool :=
  decide (cores ≠ 0) && (decide (fld cores 0 8 = 0) || decide (fld mire 0 16 ≠ 0)) && (decide (fld cores 8 8 = 0) || decide (fld mire 16 16 ≠ 0))

/-- Check 3 of R515. A slice that a zero check has withdrawn is out of service (R525). -/
def bindFieldsOk (s : State) (p : PartBindP) (far : List FarEntry) (list : List Byte) : Bool :=
  decide (p.part.toNat < 16) && decide (p.scratchMib.toNat ≤ 8) && decide (p.farCount.toNat ≤ 32) && decide (p.rsvdA = 0) && decide (p.rsvdB = 0) &&
  granulesOk p.cores.toNat p.mire.toNat && (bitsSet p.cores.toNat 16).all (inService s) &&
  s.sec.badMire.all (fun j => !bitOf p.mire.toNat j) && s.sec.badHbm.all (fun n => !bitOf p.hbm.toNat n) &&
  decide (p.ctxBase.toNat % 256 = 0) && decide (p.ctxCount.toNat % 256 = 0) && decide (256 ≤ p.ctxCount.toNat) &&
  decide (p.ctxBase.toNat + p.ctxCount.toNat ≤ 0x10000) && (List.range far.length).all (fun i => decide (at_ list (16 * i + 12) 4 = 0)) &&
  far.all (farOk s) && farApart far

/-- Whether a record claims a granule, port, context or far page of a partition. -/
def claims (s : State) (p : PartBindP) (far : List FarEntry) (q : Nat) : Bool :=
  bound s q && (decide (p.cores.toNat &&& bCores s q ≠ 0) || decide (p.mire.toNat &&& bMire s q ≠ 0) || decide (p.hbm.toNat &&& bHbm s q ≠ 0) ||
    decide (p.ports.toNat &&& bPorts s q ≠ 0) || pagesMeet p.ctxBase.toNat p.ctxCount.toNat (bCtxBase s q) (bCtxCount s q) ||
    far.any (fun e => (bFar s q).any (fun x => pagesMeet e.dbase e.pages x.dbase x.pages)))

/-! ### What a partition's pages hold -/

/-- Whether a device address belongs to a partition's HBM slices or far ranges (R399, R514). -/
def ownsDev (s : State) (p a : Nat) : Bool :=
  let page := a / 2 ^ 21
  if a < 0xC000000000 then bitOf (bHbm s p) (16 * (page % 8) + page / 8 / 3072)
  else
    match addrKind a with
    | .far _ => let k := (a - 0x010000000000) / 2 ^ 21
                (bFar s p).any (fun e => decide (e.dbase ≤ k) && decide (k < e.dbase + e.pages))
    | _ => false

/-- Every page of a partition becomes fresh and loses its poison: it reads as zero (R415, R416). -/
def freshPages (s : State) (p : Nat) : State :=
  { s with mem := s.mem.filter (fun e => !ownsDev s p e.1), used := s.used.filter (fun e => !ownsDev s p (e.1 * 2 ^ 21)),
           poison := s.poison.filter (fun e => !ownsDev s p (e.1 * 512)) }

/-- Post PART_STATE and fire the partition-state source (R551). -/
def postPartState (s : State) (p : Nat) : State :=
  let x := part s p
  let st := match x.pstate with
    | .unbound => 0
    | .active => 1
    | .scrubbing => 2
  postMgmt (fireHub s 0x140) 0x0180 st (leBytes 1 p ++ zeros 7 ++ leBytes 8 x.session)

/-- OWNER and DEDICATED of the ports of a mask (R459). -/
def dedicate (s : State) (ports p : Nat) (on : Bool) : State :=
  (bitsSet ports 32).foldl (fun s q => modPort s q (fun x => { x with dedicated := on, owner := BitVec.ofNat 4 (if on then p else 0) })) s

/-- The next session number (R517). -/
def nextSession (s : State) : Nat × State := (s.sec.session + 1, { s with sec := { s.sec with session := s.sec.session + 1 } })

/-! ### PART_BIND (R515, R516) -/

/-- The die on which a named core is being migrated, if any. -/
def movingDie (s : State) (cores : Nat) : Option Nat :=
  ((bitsSet cores 16).find? (migrating s)).map dieOfCore

/-- Bind: session, fresh pages, ports, contexts, control page, Metering Island, PART_STATE. -/
def bindPart (s : State) (p : PartBindP) (far : List FarEntry) : State :=
  let q := p.part.toNat
  let (n, s) := nextSession s
  let b : Binding := { record := bindingBytes p, far := far }
  let s := freshPages (setPart s q { pstate := .active, binding := some b, session := n, keyValid := true }) q
  let s := dedicate s p.ports.toNat q true
  let s := freshPage s q
  postPartState (miOpenFirst s q) q

/-- PART_BIND (R515); during a departure it completes with STALE_LEAD or CONTEXT_BUSY, unspecified which (R612). -/
def bodyPartBind (p : PartBindP) (s : State) (c : Cmd) : Res :=
  let list := mgmtRead s c p.farList.toNat (16 * min 32 p.farCount.toNat)
  let far := farEntries (min 32 p.farCount.toNat) list
  let busy := bound s p.part.toNat || decide ((part s p.part.toNat).pstate ≠ .unbound) || (List.range 16).any (claims s p far)
  let (v, s) := if s.fab.departing then freeNat s else (0, s)
  checked s [(!leadOk s || (s.fab.departing && decide (v % 2 = 0)), .staleLead, 0), (s.fab.departing, .contextBusy, 0),
      (!bindFieldsOk s p far list, .badParam, 3), (busy, .contextBusy, 0)] fun _ =>
    match movingDie s p.cores.toNat with
    | some d => { s := s, wait := some (.bindAfter d) }
    | none => { s := bindPart s p far }

def execPartBind (h : Hdr) (p : PartBindP) (s : State) : Host.Outcome State Fault Refusal :=
  command (.partBind h p) { op := 0x0700, n := 72, runs := .f, needPart := false, mgmtOnly := true } h
    (packetBytes 0x0700 h (bytesPartBind p)) (bodyPartBind p) s

/-! ### The steps of R521 -/

/-- The contexts of a partition forget their queued commands. -/
def clearFwQueues (s : State) (p : Nat) : State :=
  let s := modPart s p (fun x => { x with ctlFwq := [] })
  { s with ctxs := s.ctxs.map (fun x => if ownsCtx s p x.1 then (x.1, { x.2 with fwq := [] }) else x) }

/-- Every command of a partition that has been fetched completes with PARTITION_RESETTING, on the streams of its cores in service and in its
contexts (R512, R522); their waits are abandoned. -/
def endCommands (s : State) (p : Nat) : State :=
  let s := ((List.range 16).filter (fun c => holdsCore s p c && inService s c)).foldl (fun s c => (List.range 3).foldl (fun s i =>
    drainStream s (physOf s c) i (.stream (Fin.ofNat 16 c) (Fin.ofNat 3 i)) .partitionResetting) s) s
  let mine := s.waiting.filter (fun w => decide (w.cmd.part = some p))
  let s := { s with waiting := s.waiting.filter (fun w => decide (w.cmd.part ≠ some p)) }
  let s := mine.foldl (fun s w => complete (abandonUnit s w.unit) w.cmd .partitionResetting 0 w.record) s
  let started := s.work.filterMap (fun w => match w with
    | .start q => if q.cmd.part = some p then some q else none
    | _ => none)
  let fw := (part s p).ctlFwq ++ (s.ctxs.filter (fun x => ownsCtx s p x.1)).flatMap (fun x => x.2.fwq)
  let s := { s with work := s.work.filter (fun w => match w with
    | .start q => decide (q.cmd.part ≠ some p)
    | _ => true) }
  (started ++ fw).foldl (fun s q => complete s q.cmd .partitionResetting 0 []) (clearFwQueues s p)

/-- Step 1: JOB_STOPPED is posted, the commands end, BUSY is set, and the ports change over to R458. -/
def startScrub (s : State) (p : Nat) : State :=
  let s := endCommands (dropJob s p 2) p
  fireHub (modPart (dropWindows s p 0 65536) p (fun x => { x with pstate := .scrubbing, busy := true, step := 1 })) 0x140

/-- Step 2: the keys are destroyed, so external memory reads as zero (R519), and the metered session closes. -/
def destroyKeys (s : State) (p : Nat) : State :=
  let s := miClose s p 0
  freshPages (modPart s p (fun x => { x with keyValid := false, protected_ := false, agreement := none })) p

/-- A port loses the queued packets that the partition originated. -/
def purgePort (s : State) (p : Nat) (x : Port) : Port :=
  let keep := fun (b : List Byte) => !(decide (pkSrc b = s.fab.addr.toNat) && decide (pkSpart b = p))
  let qs := x.queues.map (fun e => (e.1, e.2.filter keep))
  { x with queues := qs.filter (fun e => !e.2.isEmpty) }

/-- Step 3: the partition's work in flight is discarded; its rings are disabled and its pool is gone. -/
def stopUnits (s : State) (p : Nat) : State :=
  let s := { s with work := s.work.filter (fun w => match w with
    | .run (.packetForward none b) => decide (pkSpart b ≠ p)
    | _ => true) }
  let s := (s.fab.ports.map (·.1)).foldl (fun s q => modPort s q (purgePort s p)) s
  let s := freshPage s p
  let s := { s with votes := s.votes.filter (fun v => decide (v.part ≠ p)), ctxs := s.ctxs.filter (fun x => !ownsCtx s p x.1) }
  modPart s p (fun x => { x with plan := none, pend := [], sends := [], ctlSeq := [], ctlFwq := [], job := none })

/-- Scrub a core of a partition: it rests in RETAIN, its Insole reads zero (R523, R589). The physical core of a number out of service was scrubbed
when it left, and is the partition's no more (R287). -/
def scrubPartCore (s : State) (c : Nat) : State :=
  let k := physOf s c
  let s := if !inService s c then s
    else
      let s := modCoreP (scrubCore s k) k (fun x => { x with power := .retain })
      { s with power := { s.power with stagger := s.power.stagger.filter (fun j => decide (j ≠ k)) } }
  scrubBittern (scrubInsole s c) c

/-- Scrub a Mire slice: its scratch, sync objects and tallies (R523). -/
def scrubSlice (s : State) (j : Nat) : State :=
  { s with mem := tclear (0x0E0000000000 + 0x1000000 * j) (0x0E0000000000 + 0x1000000 * (j + 1)) s.mem,
           eyelets := s.eyelets.filter (fun e => decide (e.1 / 512 ≠ j)), laces := s.laces.filter (fun e => decide (e.1 / 32 ≠ j)),
           tallies := s.tallies.filter (fun e => decide (e.1 / 256 ≠ j)) }

/-- Step 4: the on-die state is scrubbed (R523, R524). -/
def scrubUnits (s : State) (p : Nat) : State :=
  let s := (bitsSet (bCores s p) 16).foldl scrubPartCore s
  (bitsSet (bMire s p) 32).foldl scrubSlice s

/-- The granule in which a zero comparator finds a non-zero word (R525): a physical upset of the command that names an address
of one of the partition's Insoles, scratch windows or HBM slices. -/
def badGranule (s : State) (p : Nat) (l : List Upset) : Option Nat :=
  l.findSome? (fun u => match u with
    | .sectorFails a =>
      let a := a.toNat
      (match addrKind a with
       | .insole c => if holdsCore s p c then some (0x100 + c) else none
       | .scratch j => if holdsSlice s p (j / 16) (j % 16) then some (0x200 + j) else none
       | .hbm => if ownsDev s p a then some (0x300 + 16 * (a / 2 ^ 21 % 8) + a / 2 ^ 21 / 8 / 3072) else none
       | _ => none)
    | _ => none)

/-- The binding without a granule. -/
def dropGranule (b : Binding) (g : Nat) : Binding :=
  let cut := fun (o n bit : Nat) => b.record.take o ++ leBytes n (setBit (at_ b.record o n) bit false) ++ b.record.drop (o + n)
  if g < 0x200 then { b with record := cut 2 2 (g - 0x100) }
  else if g < 0x300 then { b with record := cut 4 4 (g - 0x200) }
  else { b with record := cut 8 16 (g - 0x300) }

/-- Step 5 finds a non-zero word: the granule is withdrawn and fenced (R525). -/
def withdraw (s : State) (p g : Nat) : State :=
  let s := modPart s p (fun x => { x with binding := x.binding.map (fun b => dropGranule b g) })
  let core := if g < 0x200 then some (physOf s (g - 0x100)) else none
  let die := if g < 0x200 then dieOfCore (g - 0x100) else if g < 0x300 then (g - 0x200) / 16 else (g - 0x300) / 64
  let s := if g < 0x200 then fenceLogical s (g - 0x100)
    else if g < 0x300 then { s with sec := { s.sec with badMire := s.sec.badMire ++ [g - 0x200] } }
    else { s with sec := { s.sec with badHbm := s.sec.badHbm ++ [g - 0x300] } }
  writeSig (fireHub s 0x141) { kind := 6, cls := 1, unit := some (match core with
                                                                 | some k => unitMap s k none none
                                                                 | none => [(1, some (cborUint die))]), action := some 2, core := core, die := some die }

/-- Step 6: new keys and a new session number (R517). -/
def renewSession (s : State) (p : Nat) : State :=
  let (n, s) := nextSession s
  modPart s p (fun x => { x with session := n, keyValid := true })

/-- Step 8 of a rebind: the partition is active again, with no host ranges and in sync mode QUAG (R370, R394, R503). -/
def reopen (s : State) (p : Nat) : State :=
  let x := part s p
  let s := setPart (freshPage s p) p { pstate := .active, binding := x.binding, session := x.session, keyValid := true }
  postPartState (miOpenFirst s p) p

/-- Step 8 of an unbind: the granules are free (R520). QUAG_PART keeps FIRED and MODE until a binding resets it (R394). -/
def release (s : State) (p : Nat) : State :=
  let s := dedicate s (bPorts s p) p false
  let y := (part s p).sync
  postPartState (setPart (freshPage s p) p { sync := { quag := y.quag, fired := y.fired } }) p

/-- Whether a partition keeps its granules to the end: a rebind whose zero check left R32 met. -/
def keeps (s : State) (p : Nat) (rebind : Bool) : Bool := rebind && granulesOk (bCores s p) (bMire s p)

/-- The step after the one that a partition has ended (R521). `bad` is the granule that the zero check finds. -/
def scrubStep (s : State) (p : Nat) (rebind : Bool) (bad : Option Nat) : State :=
  let next := (part s p).step.toNat + 1
  let s := modPart s p (fun x => { x with step := BitVec.ofNat 4 next })
  match next with
  | 2 => destroyKeys s p
  | 3 => stopUnits s p
  | 4 => scrubUnits s p
  | 5 => (match bad with
      | some g => withdraw s p g
      | none => s)
  | 6 => if keeps s p rebind then renewSession s p else s
  | 7 => freshPages s p
  | _ => if keeps s p rebind then reopen s p else release s p

/-- All the steps of an unbind at once, as FW_ACTIVATE and a removal take them (R536, R653). -/
def unbindNow (s : State) (p : Nat) : State :=
  if !bound s p then s
  else
    let s := if (part s p).pstate = .scrubbing then s else startScrub s p
    (List.range (8 - (part s p).step.toNat)).foldl (fun s _ => scrubStep s p false none) s

/-! ### PART_UNBIND and PART_REBIND (R520) -/

/-- Whether a PART_BIND of a partition has been accepted and waits (R520). -/
def bindWaits (s : State) (p : Nat) : Bool :=
  s.waiting.any (fun w => match w.instr with
    | .partBind _ q => decide (q.part.toNat = p)
    | _ => false)

/-- What unbinding and rebinding share: the checks of R520, the wait for a migration (R282, R644), and step 1. -/
def scrubBody (p : Nat) (fieldsOk : Bool) (rename : State → State) (s : State) : Res :=
  checked s [(!leadOk s, .staleLead, 0), (!fieldsOk, .badParam, 0),
      (decide ((part s p).pstate = .scrubbing) || bindWaits s p, .partitionResetting, 0), (!bound s p, .contextBusy, 0)] fun _ =>
    match movingDie s (bCores s p) with
    | some d =>
      let s := match (die s d).migration with
        | some m => if m.stopped then s else stopStreams s d m
        | none => s
      (match movingDie s (bCores s p) with
       | some d => { s := s, wait := some (.bindAfter d) }
       | none => { s := owe (startScrub (rename s) p) (.scrub p), wait := some (.scrub p) })
    | none => { s := owe (startScrub (rename s) p) (.scrub p), wait := some (.scrub p) }

def bodyPartUnbind (q : PartUnbindP) (s : State) (_c : Cmd) : Res :=
  scrubBody q.part.toNat (decide (q.part.toNat < 16) && decide (q.rsvdA = 0)) id s

def execPartUnbind (h : Hdr) (p : PartUnbindP) (s : State) : Host.Outcome State Fault Refusal :=
  command (.partUnbind h p) { op := 0x0701, n := 8, runs := .f, needPart := false, mgmtOnly := true } h
    (packetBytes 0x0701 h (bytesPartUnbind p)) (bodyPartUnbind p) s

/-- The binding record with another TENANT. -/
def setTenant (s : State) (p : Nat) (t : BitVec 64) : State :=
  modPart s p (fun x => { x with binding := x.binding.map (fun b => { b with record := b.record.take 40 ++ leBytes 8 t.toNat ++ b.record.drop 48 }) })

def bodyPartRebind (q : PartRebindP) (s : State) (_c : Cmd) : Res :=
  scrubBody q.part.toNat (decide (q.part.toNat < 16) && decide (q.rsvdA = 0)) (fun s => setTenant s q.part.toNat q.tenant) s

def execPartRebind (h : Hdr) (p : PartRebindP) (s : State) : Host.Outcome State Fault Refusal :=
  command (.partRebind h p) { op := 0x0702, n := 16, runs := .f, needPart := false, mgmtOnly := true } h
    (packetBytes 0x0702 h (bytesPartRebind p)) (bodyPartRebind p) s

/-- Whether a waiting command is a rebind. -/
def isRebind : Instr → Bool
  | .partRebind _ _ => true
  | _ => false

/-- The device takes the next step of a partition's unbind or rebind; the command completes after step 8, with FENCED and the
granule when the zero check withdrew one. -/
def scrubWork (s : State) (p : Nat) : State :=
  if (part s p).pstate ≠ .scrubbing then s
  else match s.waiting.find? (fun w => decide (w.wait = .scrub p)) with
    | none => s
    | some w =>
      let bad := badGranule s p w.cmd.h.upsets
      let note := (part s p).step = 4
      let s := scrubStep s p (isRebind w.instr) bad
      if (part s p).pstate = .scrubbing then
        let s := match bad with
          | some g => if note then { s with waiting := s.waiting.map (fun x => if x.id = w.id then { x with record := leBytes 4 g } else x) } else s
          | none => s
        owe s (.scrub p)
      else if w.record.isEmpty then endWaiting s w .ok 0 []
      else endWaiting s w .fenced (at_ w.record 0 4) []

/-! ### PART_QUERY (R547) -/

/-- The record of PART_QUERY with its temperature and power. -/
def queryRecord (s : State) (p temp watts : Nat) : List Byte :=
  let x := part s p
  let st := match x.pstate with
    | .unbound => 0
    | .active => 1
    | .scrubbing => 2
  leBytes 1 p ++ leBytes 1 st ++ leBytes 1 (b2n x.protected_) ++ leBytes 1 temp ++ leBytes 4 watts ++ leBytes 8 x.session ++ slice (bindRec s p) 0 64

def bodyPartQuery (q : PartQueryP) (s : State) (c : Cmd) : Res :=
  let n := q.part.toNat
  let own := c.part.getD 16
  let p := if n = 0xFF then own else n
  let foreign := match c.part with
    | some k => decide (n ≠ 0xFF) && decide (n < 16) && decide (n ≠ k)
    | none => false
  checked s [(decide (q.rsvdA ≠ 0) || decide (16 ≤ p), .badParam, 0), (foreign, .denied, 0)] fun _ =>
    if c.part.isSome then { s := s, record := queryRecord s p (part s p).readTemp (part s p).readWatts }
    else
      let (v, s) := freeNat s
      { s := s, record := queryRecord s p (v % 256) (v / 256) }

def execPartQuery (h : Hdr) (p : PartQueryP) (s : State) : Host.Outcome State Fault Refusal :=
  command (.partQuery h p) { op := 0x0703, n := 8, runs := .f, needPart := false, rec_ := 80 } h
    (packetBytes 0x0703 h (bytesPartQuery p)) (bodyPartQuery p) s

/-- The 100 ms reading window of a partition ends: tenants see watts in multiples of 25 and degrees in multiples of 5 (R547). -/
def readingWindow (s : State) (p watts celsius : Nat) : State :=
  if (part s p).pstate = .active then modPart s p (fun x => { x with readWatts := watts / 25 * 25, readTemp := celsius / 5 * 5 }) else s

def execPartitionReadingWindow (p : Fin 16) (watts : BitVec 16) (celsius : BitVec 8) (s : State) : Host.Outcome State Fault Refusal :=
  .next (readingWindow s p.val watts.toNat celsius.toNat)

/-! ### Latched counters (R546) -/

/-- The ten counters of a core in the order of COUNTER_READ (R635). -/
def coreCounters (k : Core) : List Counter :=
  [k.soleRes, k.soleDrop, k.soleBusy, k.fenContrib, k.fenSpill, k.fenChain, k.oob, k.resCnt, k.invCnt, k.ovfCnt]

/-- What tenants see of a counter: COUNT with bits [9:0] cleared, and OVF. -/
def tenantCount (c : Counter) : Counter := { c with count := BitVec.ofNat 48 (c.count.toNat / 1024 * 1024) }

/-- The latch of a die's domain: each core's counters as tenants see them until the next. -/
def latchCounters (s : State) (d : Nat) : State :=
  (List.range 18).foldl (fun s k =>
    if dieOfPhys k = d ∧ (coreP s k).power ≠ .off then
      modCoreP s k (fun c => { c with latched := tputs {} 0 ((coreCounters c).map tenantCount) [] })
    else s) s

def execCounterLatch (d : Fin 2) (s : State) : Host.Outcome State Fault Refusal := .next (latchCounters s d.val)

end Sys2Proof.Machine
end

