-- ==== Sys2Proof/Machine/Field.lean ====
section
/-! DEFINITION. Field tests, pattern packs, the fault log and COUNTER_READ (R619 to R635). -/
namespace Sys2Proof.Machine

/-! ### Requests and their service (R620 to R623) -/

/-- Whether a core has a test request or is in test. -/
def testBusy (s : State) (k : Nat) : Bool :=
  let d := die s (dieOfPhys k)
  d.requests.any (fun r => decide (r.core = k)) || decide (coreState s k = 3) ||
  (match d.test with
   | some t => decide (t.req.core = k)
   | none => false)

def packOf (s : State) (id : Nat) : Option Pack := tget none id s.relia.packs
def packTests (p : Pack) : Nat := at_ p.header 24 2
/-- Field TEST_ID, UNITS and EXPECT of entry i (R628). -/
def testId (p : Pack) (i : Nat) : Nat := at_ p.body (32 * i) 4
def testUnits (p : Pack) (i : Nat) : Nat := at_ p.body (32 * i + 4) 2

/-- TEST_RUN (R622, R623). -/
def bodyTestRun (p : TestRunP) (s : State) (c : Cmd) : Res :=
  let phys := bitOf p.ctl.toNat 0
  let n := p.core.toNat
  let k := if phys then n else physOf s n
  let foreign := match c.part with
    | some q => phys || bitOf p.ctl.toNat 2 || !holdsCore s q n || decide (15 < n)
    | none => false
  let bad := decide (7 < p.ctl.toNat) || decide (p.rsvdA ≠ 0) || decide (p.rsvdB ≠ 0) || decide ((if phys then 17 else 15) < n) ||
    (match packOf s p.packId.toNat with
     | some x => decide (p.testMask.toNat / 2 ^ packTests x ≠ 0)
     | none => true)
  let rebind := match logicalOf s k with
    | some l => coreRebinding s l
    | none => false
  checked s [(foreign, .denied, 0), (bad, .badParam, 2), (!phys && !inService s n, .fenced, 0), (rebind, .partitionResetting, 0),
      (testBusy s k, .contextBusy, 0), ((logicalOf s k).isSome && (freeSpare s (dieOfPhys k)).isNone, .noResource, 0)] fun _ =>
    let r : TestReq := { core := k, packId := p.packId.toNat, mask := p.testMask.toNat, defer := p.defer.toNat, keep := bitOf p.ctl.toNat 2, stop := bitOf p.ctl.toNat 1 }
    { s := modDie s (dieOfPhys k) (fun x => { x with requests := x.requests ++ [r] }), wait := some (.test k) }

def execTestRun (h : Hdr) (p : TestRunP) (s : State) : Host.Outcome State Fault Refusal :=
  command (.testRun h p) { op := 0x0801, n := 24, runs := .f, needPart := false, rec_ := 32 } h (packetBytes 0x0801 h (bytesTestRun p))
    (bodyTestRun p) s

/-- Whether a request must wait: its core is in service and its die has no free spare, or already migrates a core (R282, R620). -/
def requestWaits (s : State) (r : TestReq) : Bool :=
  (logicalOf s r.core).isSome && ((freeSpare s (dieOfPhys r.core)).isNone || (die s (dieOfPhys r.core)).migration.isSome)

/-- Steps 1 to 3 of R621: an in-service core migrates under the deferral limit; any other enters test through the stagger
queue. Requests of a die are served one at a time, in order of arrival, past those that must wait. -/
def serveTest (s : State) (k : Nat) : State :=
  let d := dieOfPhys k
  let x := die s d
  match x.requests.find? (fun r => !requestWaits s r) with
  | none => s
  | some r =>
    match packOf s r.packId with
    | none => s
    | some pk =>
      if r.core ≠ k ∨ x.test.isSome then s
      else
        let s := modDie s d (fun x => { x with requests := x.requests.filter (fun y => decide (y.core ≠ k)) })
        let limit := if r.defer = 0 then fld x.trigCtl.toNat 16 16 else r.defer
        match logicalOf s k with
        | some c =>
          let s := modDie s d (fun x => { x with test := some { req := r, pack := pk } })
          owe (startMigration s c ((freeSpare s d).getD 0) 1 (decide (limit ≠ 0)) limit) (.boundary c)
        | none => wakeCore (scrubCore (setCoreState (modDie s d (fun x => { x with test := some { req := r, pack := pk, phase := 3 } })) k 3) k) k

def execTestRequestServe (k : Fin 18) (s : State) : Host.Outcome State Fault Refusal := .next (serveTest s k.val)

/-! ### The end of a test (R621, R624, R625) -/

/-- The tests that a request selects, in order. -/
def selected (t : TestRun) : List Nat :=
  (List.range (packTests t.pack)).filter (fun i => decide (t.req.mask = 0) || bitOf t.req.mask i)

/-- The tests that ran: STOP_ON_FAIL ends the run with the first that fails. -/
def testsRun (t : TestRun) (failed : Nat) : List Nat :=
  let l := selected t
  if t.req.stop then (match l.findIdx? (fun i => bitOf failed i) with
    | some j => l.take (j + 1)
    | none => l)
  else l

/-- The TEST map of a signature (R631); a failing test's result signature is a free value. -/
def testMap (t : TestRun) (first : Option Nat) (result : List Byte) : List (Nat × Option (List Byte)) :=
  [(1, some (cborUint t.req.packId)), (2, some (cborUint (at_ t.pack.header 8 4))), (3, first.map (fun i => cborUint (testId t.pack i))),
   (4, first.map (fun i => cborBytes (slice t.pack.body (32 * i + 24) 8).reverse)), (5, first.map (fun _ => cborBytes result))]

/-- The engine that a failing test's signature names: one of those that the test covers. -/
def testEngine (s : State) (t : TestRun) (first : Option Nat) : Option Nat × State :=
  match first with
  | none => (none, s)
  | some i =>
    let (v, s) := freeNat s
    let l := bitsSet (testUnits t.pack i) 16
    (l[v % max 1 l.length]?, s)

/-- The core after its test: the free spare, or fenced; the configuration block keeps which, so that a spare survives a start-up
(R285, R589, R625, R626). -/
def settleCore (s : State) (k : Nat) (t : TestRun) (pass : Bool) : State :=
  let s := if pass then modCoreP s k (fun c => { c with suspect := false, engine := 0, resWin := 0, crcWin := 0 }) else s
  storeCoreMap (if pass && !t.req.keep then setCoreState (modCoreP s k (fun c => { c with power := .retain })) k 1
    else setCoreState (modCoreP (fenceStreams s k) k (fun c => { c with power := .off })) k 2)

/-- A test ends: verdict, source 0x382, signature, TEST_DONE and the record (R624, R625). -/
def testEnds (s : State) (d k failed : Nat) (t : TestRun) (aborted : Bool) : State :=
  let run := if aborted then [] else testsRun t failed
  let bad := run.filter (fun i => bitOf failed i)
  let verdict := if aborted then 2 else if bad.isEmpty then 0 else 1
  let s := fireDie (modDie s d (fun x => { x with test := none })) d 0x382
  let (res, s) := freeEntropy s
  let (e, s) := testEngine s t bad.head?
  let sigSeq := s.relia.nextSeq
  let s := writeSig s { kind := 2, cls := if verdict = 0 then 0 else 1, unit := some (unitMap s k e none), test := some (testMap t bad.head? (leBytes 8 res.toNat)), action := some (if verdict = 0 && !t.req.keep then 4 else 3), core := some k, die := some d }
  let s := postMgmt (settleCore s k t (decide (verdict = 0))) 0x01B2 verdict (leBytes 1 k ++ leBytes 8 sigSeq)
  let (waitMs, s) := freeCycles s
  let (testMs, s) := freeCycles s
  let first := match bad.head? with
    | some i => testId t.pack i
    | none => 0xFFFFFFFF
  let record := leBytes 1 k ++ leBytes 1 (t.spare.getD 0xFF) ++ leBytes 1 verdict ++ leBytes 1 (b2n t.atStage) ++ leBytes 2 run.length ++
    leBytes 2 bad.length ++ leBytes 4 first ++ leBytes 4 waitMs ++ leBytes 4 testMs ++ zeros 4 ++ leBytes 8 sigSeq
  (s.waiting.filter (fun w => decide (w.wait = .test k))).foldl (fun s w => endWaiting s w .ok 0 record) s

/-- TEST_END: after its test phase in RUN, or after a migration that failed. -/
def testEndOp (s : State) (k failed : Nat) : State :=
  let d := dieOfPhys k
  match (die s d).test with
  | none => s
  | some t =>
    if t.req.core ≠ k then s
    else if t.phase = 2 then (if (die s d).migration.isNone then testEnds s d k failed t true else s)
    else if (coreP s k).power = .run then testEnds s d k failed t false else s

def execTestEnd (k : Fin 18) (failed : BitVec 64) (s : State) : Host.Outcome State Fault Refusal := .next (testEndOp s k.val failed.toNat)

/-- The trigger window of a core ends: its counts restart at 0 (R619). -/
def execTriggerWindowEnd (k : Fin 18) (s : State) : Host.Outcome State Fault Refusal :=
  .next (modCoreP s k.val (fun c => { c with resWin := 0, crcWin := 0 }))

/-- Fatal-class frames that are not acknowledged are sent again, in SEQ order (R633, R644). -/
def resendFatal (s : State) : State :=
  (s.relia.log.filter (fun f => f.fatal && !f.acked)).foldl (fun s f => sendFrame s f.bytes) s

def execFatalFrameResend (s : State) : Host.Outcome State Fault Refusal := .next (resendFatal s)

/-! ### TEST_PACK_LOAD (R627 to R630) -/

/-- Whether a test in progress or requested uses a pack. -/
def packUsed (s : State) (id : Nat) : Bool :=
  (List.range 2).any (fun d =>
    (die s d).requests.any (fun r => decide (r.packId = id)) ||
    (match (die s d).test with
     | some t => decide (t.req.packId = id)
     | none => false))

/-- Bytes that a pack takes in the store: header, entries and body, signature. -/
def packBytes (p : Pack) : Nat := 64 + at_ p.header 16 8 + 2420

/-- The bytes and the number of the packs other than one. -/
def storeUse (s : State) (id : Nat) : Nat × Nat :=
  let l := s.relia.packs.filterMap (fun e => if e.1 = id then none else e.2)
  ((l.map packBytes).sum, l.length)

/-- Whether a header is well formed and agrees with BYTES and PACK_ID (check 3 of R630). -/
def packHeaderOk (hd : List Byte) (id bytes : Nat) : Bool :=
  let t := at_ hd 24 2
  decide (at_ hd 0 2 = 9) && decide (at_ hd 2 2 = 1) && decide (at_ hd 4 4 = id) && decide (at_ hd 26 6 = 0) && decide (1 ≤ t) && decide (t ≤ 64) &&
  decide (32 * t ≤ at_ hd 16 8) && decide (bytes = 64 + at_ hd 16 8 + 2420)

def bodyTestPackLoad (q : TestPackLoadP) (s : State) (c : Cmd) : Res :=
  let id := q.packId.toNat
  let n := q.bytes.toNat
  let load := decide (q.op = 0)
  let hd := mgmtRead s c q.src.toNat 64
  let body := mgmtRead s c (q.src.toNat + 64) (n - 2484)
  let sig := mgmtRead s c (q.src.toNat + (n - 2420)) 2420
  let meas := runMeas s 2
  let good := Config.mldsaVerify (Config.testKey meas) (sha hd) sig && decide (sha body = slice hd 32 32) && decide (Config.packFloor meas ≤ at_ hd 12 4)
  let newer := match packOf s id with
    | some x => decide (at_ x.header 8 4 < at_ hd 8 4)
    | none => true
  let use := storeUse s id
  checked s [(decide (1 < q.op.toNat) || decide (q.rsvdA ≠ 0), .badParam, 2), (load && !packHeaderOk hd id n, .badDescriptor, 3),
      (load && !good, .denied, 0), (if load then !newer else decide (id = 0) || packUsed s id, .contextBusy, 0),
      (load && (decide (8 ≤ use.2) || decide (2 ^ 23 < use.1 + n)), .noResource, 0)] fun _ =>
    let x : Option Pack := if load then some { header := hd, body := body } else none
    { s := { s with relia := { s.relia with packs := tput none id x s.relia.packs } } }

def execTestPackLoad (h : Hdr) (p : TestPackLoadP) (s : State) : Host.Outcome State Fault Refusal :=
  command (.testPackLoad h p) { op := 0x0802, n := 24, runs := .f, needPart := false, mgmtOnly := true } h
    (packetBytes 0x0802 h (bytesTestPackLoad p)) (bodyTestPackLoad p) s

/-! ### FAULT_READ (R634) -/

def bodyFaultRead (q : FaultReadP) (s : State) (_c : Cmd) : Res :=
  let n := q.seq.toNat
  let hit := if q.op = 0 then s.relia.log.find? (fun f => !f.acked) else s.relia.log.find? (fun f => decide (f.seq = n))
  checked s [(decide (2 < q.op.toNat) || decide (q.rsvdA ≠ 0) || hit.isNone, .badParam, 0)] fun _ =>
    if q.op = 2 then
      { s := { s with relia := { s.relia with log := s.relia.log.map (fun f => if f.seq ≤ n then { f with acked := true } else f) } } }
    else { s := s, record := (hit.map (·.bytes)).getD [] }

def execFaultRead (h : Hdr) (p : FaultReadP) (s : State) : Host.Outcome State Fault Refusal :=
  command (.faultRead h p) { op := 0x0803, n := 16, runs := .f, needPart := false, mgmtOnly := true, rec_ := if p.op.toNat = 2 then 0 else 3452 } h
    (packetBytes 0x0803 h (bytesFaultRead p)) (bodyFaultRead p) s

/-! ### COUNTER_READ (R635) -/

/-- The counters that the command delivers. -/
def counterRecord (s : State) (c : Cmd) (k : Nat) (phys : Bool) : List Byte :=
  let x := coreP s k
  let l := if c.part.isSome then (List.range 10).map (fun i => tget {} i x.latched)
    else if phys && decide (x.power = .off) then List.replicate 10 {} else coreCounters x
  l.flatMap (fun v => leBytes 8 (cntBits v))

def bodyCounterRead (q : CounterReadP) (s : State) (c : Cmd) : Res :=
  let phys := bitOf q.ctl.toNat 0
  let n := q.core.toNat
  let foreign := match c.part with
    | some p => phys || decide (15 < n) || !holdsCore s p n
    | none => false
  checked s [(decide (1 < q.ctl.toNat) || decide (q.rsvdA ≠ 0), .badParam, 0), (foreign, .denied, 0), (decide ((if phys then 17 else 15) < n), .badParam, 0),
      (!phys && !inService s n, .fenced, 0)] fun _ =>
    { s := s, record := counterRecord s c (if phys then n else physOf s n) phys }

def execCounterRead (h : Hdr) (p : CounterReadP) (s : State) : Host.Outcome State Fault Refusal :=
  command (.counterRead h p) { op := 0x0804, n := 8, runs := .f, needPart := false, rec_ := 80 } h (packetBytes 0x0804 h (bytesCounterRead p))
    (bodyCounterRead p) s

end Sys2Proof.Machine
end

