-- ==== Sys2Proof/Machine/Link.lean ====
section
/-! DEFINITION. The fabric links: bring-up and loss (R433, R440, R594), the DATA frame protocol (R430 to R432) and the conflicts
that a HELLO shows (R441, R457). -/
namespace Sys2Proof.Machine

/-! ### Bring-up and loss -/

/-- What the configuration block in use marks a port as (R428): its vendor items say so. -/
def mediaOf (s : State) (q : Nat) : PortMedia := Config.portMedia ((cfgBlock s).vendor.getD Config.shippedVendor).1 q

/-- The rate at which a port's link comes up (R428): the one that auto-negotiation has resolved to, or the one of a pluggable module's entry. -/
def upRate (s : State) (q rate : Nat) : Nat :=
  match mediaOf s q with
  | .pluggable r => r.val + 1
  | _ => rate

/-- A group of four ports starts (R594): each port that the configuration block does not mark unused begins bring-up (R428). -/
def portGroup (s : State) (g : Nat) : State :=
  if !s.ready || draining s then s
  else (List.range 4).foldl (fun s i =>
    let q := 4 * g + i
    if decide (mediaOf s q = .unused) || (portOf s q).ready then s else bringUp (modPort s q (fun x => { x with ready := true })) q) s

def execPortGroupStart (g : Fin 8) (s : State) : Host.Outcome State Fault Refusal := .next (portGroup s g.val)

/-- The HELLO body that a port sends (R440). -/
def helloBody (s : State) (q : Nat) : List Byte :=
  let st := match s.fab.mode with
    | .unassigned => 0
    | .joining => 1
    | .active => 2
    | .draining | .departed => 3
  let ups := ((List.range 32).filter (fun r => decide ((portOf s r).lstate = .up))).length
  [1, 7] ++ leBytes 1 q ++ leBytes 1 st ++ leBytes 2 (if st = 0 then 0 else s.fab.addr.toNat) ++ leBytes 1 ups ++ leBytes 1 (b2n (portOf s q).heard) ++ deviceId

def sendHello (s : State) (q : Nat) : State := sendMaint s q (helloBody s q)

/-- The capability list in CAPS fragments of 1,024 bytes (R440). -/
def sendCaps (s : State) (q : Nat) : State :=
  let l := capList s
  (List.range (ceilDiv l.length 1024)).foldl (fun s i =>
    sendMaint s q ([2] ++ leBytes 1 i ++ leBytes 2 l.length ++ (l.drop (1024 * i)).take 1024)) s

/-- The PCS of a port in TRAINING reports link up at a rate (R428, R440); a pluggable module's port is up at no other rate than its entry's. -/
def pcsUp (s : State) (q rate : Nat) : State :=
  let x := portOf s q
  if x.lstate = .training ∧ rate ≠ 0 then setLink (setPort s q { x with rate := BitVec.ofNat 2 (upRate s q rate) }) q .hello else s

def execLinkPcsUp (q : Fin 32) (rate : BitVec 2) (s : State) : Host.Outcome State Fault Refusal := .next (pcsUp s q.val rate.toNat)

def execPcsLinkFail (q : Fin 32) (s : State) : Host.Outcome State Fault Refusal := .next (linkDown s q.val)

def execLinkSilenceTimeout (q : Fin 32) (s : State) : Host.Outcome State Fault Refusal := .next (linkDown s q.val)

/-- 1 ms after the loss of a link the port restarts bring-up (R433). -/
def restartTimer (s : State) (q : Nat) : State :=
  let x := portOf s q
  if x.ready && x.restart && decide (x.lstate = .down) then bringUp s q else s

def execLinkRestartTimer (q : Fin 32) (s : State) : Host.Outcome State Fault Refusal := .next (restartTimer s q.val)

/-- A port in HELLO sends a HELLO; in CAPS it repeats its HELLO and its list, for a peer that has missed them (R440). -/
def helloTick (s : State) (q : Nat) : State :=
  match (portOf s q).lstate with
  | .hello => sendHello s q
  | .caps => sendCaps (sendHello s q) q
  | _ => s

def execHelloTimer (q : Fin 32) (s : State) : Host.Outcome State Fault Refusal := .next (helloTick s q.val)

/-- The link version: the highest in both VERSIONS fields, 0 for none. -/
def sharedVersion (v : Nat) : Nat := if bitOf v 2 then 3 else if bitOf v 1 then 2 else if bitOf v 0 then 1 else 0

/-- Where routing starts from (R470): the entry of an UP port's peer, when it is not VALID. -/
def autoRoute (s : State) (q : Nat) : State :=
  let a := (portOf s q).peer.toNat
  let e := BitVec.ofNat 64 (2 ^ 63 + 2 ^ q)
  if !(portOf s q).peerValid || bitOf (routeEntry s a) 63 then s
  else if hasAddr s ∧ a / 256 = s.fab.addr.toNat / 256 then { s with fab := { s.fab with mbr := tput 0 (a % 256) e s.fab.mbr } }
  else { s with fab := { s.fab with grp := tput 0 (a / 256) e s.fab.grp } }

/-- A port in CAPS whose peer's list is whole goes UP: LINK_VER, the peer's list, and the start of routing (R440, R470). -/
def tryUp (s : State) (q : Nat) : State :=
  let x := portOf s q
  if x.lstate = .caps ∧ x.capsDone then
    let s := match knownOf s x.peer with
      | some k => if x.peerValid then setKnown s { k with caps := x.capsGot } else s
      | none => s
    autoRoute (setLink (setPort s q { x with ver := BitVec.ofNat 2 (sharedVersion x.versions.toNat) }) q .up) q
  else s

/-- From HELLO to CAPS, once both sides have heard each other and share a version (R440). -/
def tryCaps (s : State) (q : Nat) : State :=
  let x := portOf s q
  if x.lstate = .hello ∧ x.heard ∧ x.seen then
    if sharedVersion x.versions.toNat = 0 then fireHub s (0x010 + q)
    else tryUp (sendCaps (setLink s q .caps) q) q
  else s

/-- Whether a port's PCS is up. -/
def pcsIsUp (x : Port) : Bool := decide (x.lstate = .hello) || decide (x.lstate = .caps) || decide (x.lstate = .up)

/-- What is common to the link frames of one kind: with the PCS up a frame that fails its checks is counted, one of another kind
is left to its own event, and the acknowledgement it carries is taken (R430, R431). -/
def onFrame (s : State) (q kind : Nat) (f : List Byte) (go : State → State) : State :=
  if !pcsIsUp (portOf s q) then s
  else if !frameOk f then countLcrc s
  else if frKind f ≠ kind then s
  else go (carriedAck s q f)

/-- What the address, DEVICE_ID and VERSIONS of a HELLO or DISC_REPLY tell (R451, R455): the last DEVICE_ID given at an address that is not
recorded as departed. -/
def noteHello (s : State) (addr : BitVec 16) (id : BitVec 64) (versions : BitVec 8) : State :=
  if hasAddr s ∧ addr = s.fab.addr then s
  else match knownOf s addr with
  | none => setKnown s { addr := addr, deviceId := id, versions := versions }
  | some k =>
    if k.departed then s
    else setKnown s { k with deviceId := id, present := k.present && decide (k.deviceId = id), versions := versions }

/-- A HELLO (R440, R441, R457). -/
def helloArrives (s : State) (q : Nat) (f : List Byte) : State :=
  onFrame s q kMaint f fun s =>
    let b := frBody f
    let x := portOf s q
    let id := BitVec.ofNat 64 (at_ b 8 8)
    let st := at_ b 3 1
    let addr := BitVec.ofNat 16 (at_ b 4 2)
    if b.length < 16 || decide (at_ b 0 1 ≠ 1) then s
    else if (decide (x.lstate = .caps) || decide (x.lstate = .up)) && decide (x.peerId ≠ id) then linkDown s q
    else
      let s := setPort s q { x with versions := BitVec.ofNat 8 (at_ b 1 1), heard := true, seen := x.seen || bitOf (at_ b 7 1) 0, peerId := id,
                                    peer := if st = 0 then 0 else addr, peerValid := decide (st ≠ 0) }
      let s := if st = 0 then s else checkConflict (noteHello s addr id (BitVec.ofNat 8 (at_ b 1 1))) addr.toNat id.toNat st
      tryCaps s q

def execHello (q : Fin 32) (f : List Byte) (s : State) : Host.Outcome State Fault Refusal := .next (helloArrives s q.val f)

/-- A capability fragment (R440): fragments count from 0 and are taken in order. -/
def capsArrives (s : State) (q : Nat) (f : List Byte) : State :=
  onFrame s q kMaint f fun s =>
    let b := frBody f
    let x := portOf s q
    let i := at_ b 1 1
    let total := at_ b 2 2
    let got := if i = 0 then [] else x.capsGot
    if decide (at_ b 0 1 ≠ 2) || decide (4080 < total) || decide (x.lstate = .up) || decide (got.length ≠ 1024 * i) ||
        decide (total < got.length + (b.length - 4)) then s
    else
      let got := got ++ b.drop 4
      tryUp (setPort s q { x with capsGot := got, capsDone := decide (got.length = total) }) q

def execCaps (q : Fin 32) (f : List Byte) (s : State) : Host.Outcome State Fault Refusal := .next (capsArrives s q.val f)

/-! ### DATA frames (R431, R432) -/

/-- Refuse a DATA frame: one NAK until an in-order frame arrives. -/
def refuseData (s : State) (q : Nat) : State :=
  if (portOf s q).nakSent then s else linkSend (modPort s q (fun x => { x with nakSent := true })) q kNak 0 []

/-- A DATA frame: accepted in order, when its packet goes to the router, or answered by a NAK. -/
def dataArrives (s : State) (q : Fin 32) (f : List Byte) : State :=
  let x := portOf s q.val
  if x.lstate ≠ .up then s
  else if !frameOk f then refuseData (countLcrc s) q.val
  else if frKind f ≠ kData then s
  else
    let s := carriedAck s q.val f
    let next := match x.rxLast with
      | some l => (l + 1) % 4096
      | none => 0
    if frLseq f ≠ next then refuseData s q.val
    else
      owe (modPort s q.val (fun x => { x with rxLast := some next, nakSent := false, ackDue := true })) (.run (.packetForward (some q) (frBody f)))

def execDataFrame (q : Fin 32) (f : List Byte) (s : State) : Host.Outcome State Fault Refusal := .next (dataArrives s q f)

def execAckFrame (q : Fin 32) (f : List Byte) (s : State) : Host.Outcome State Fault Refusal := .next (onFrame s q.val kAck f id)

/-- Send every unacknowledged frame again, or give the link up when one has been sent 8 times (R431, R433). A dedicated port whose partition is
being scrubbed sends no DATA frame (R458). -/
def resendAll (s : State) (q : Nat) : State :=
  let x := portOf s q
  if !carriesData s x || x.replay.isEmpty then s
  else if x.replay.any (fun f => decide (8 ≤ f.sends)) then linkDown s q
  else
    let s := setPort s q { x with replay := x.replay.map (fun f => { f with sends := f.sends + 1 }) }
    x.replay.foldl (fun s f => linkSend (countFab s 1 (·.replayCnt) (fun f c => { f with replayCnt := c })) q kData f.lseq f.packet) s

def execNakFrame (q : Fin 32) (f : List Byte) (s : State) : Host.Outcome State Fault Refusal :=
  .next (onFrame s q.val kNak f (fun s => resendAll s q.val))

/-- A CREDIT frame gives the cumulative counts of the four classes (R430, R432). -/
def creditArrives (s : State) (q : Nat) (f : List Byte) : State :=
  onFrame s q kCredit f fun s =>
    let b := frBody f
    let put := fun (t : Tab Nat) (c : Nat) => tput (initCredit c) c (at_ b (4 * c) 4) t
    if (portOf s q).lstate = .up then pump (modPort s q (fun x => { x with credit := (List.range 4).foldl put x.credit })) q else s

def execCreditFrame (q : Fin 32) (f : List Byte) (s : State) : Host.Outcome State Fault Refusal := .next (creditArrives s q.val f)

/-- An ACK is due (R431). -/
def ackTick (s : State) (q : Nat) : State :=
  let x := portOf s q
  if x.lstate = .up ∧ x.ackDue then linkSend s q kAck 0 [] else s

def execAckTimer (q : Fin 32) (s : State) : Host.Outcome State Fault Refusal := .next (ackTick s q.val)

/-- The CREDIT frame of an UP port (R432). -/
def creditTick (s : State) (q : Nat) : State :=
  let x := portOf s q
  if x.lstate = .up then linkSend s q kCredit 0 ((List.range 4).flatMap (fun c => leBytes 4 (initCredit c + tget 0 c x.granted))) else s

def execCreditTimer (q : Fin 32) (s : State) : Host.Outcome State Fault Refusal := .next (creditTick s q.val)

def execReplayTimeout (q : Fin 32) (s : State) : Host.Outcome State Fault Refusal := .next (resendAll s q.val)

end Sys2Proof.Machine
end

