-- ==== Sys2Proof/Machine/Router.lean ====
section
/-! DEFINITION. The router and the delivery of packets (R434, R435, R444, R445, R458), and the commands and replies that cross
the fabric (R493, R494). -/
namespace Sys2Proof.Machine

/-- The reply that an arriving CMD for a partition being scrubbed receives (R458). -/
def refuseScrubbing (s : State) (b : List Byte) : State :=
  let c := pkPayload b
  let reply := slice c 8 4 ++ leBytes 2 (statusCode .partitionResetting) ++ slice c 0 2 ++ slice c 4 4 ++ leBytes 4 0xFFFFFFFF ++ zeros 16
  originate s 0x02 0 false (pkSpart b) (pkDpart b) (pkSrc b) 0 0 [] reply

/-- The event that a packet of a TYPE is at its destination; none for a reserved TYPE. -/
def packetEvent (port : Option (Fin 32)) (p : Nat) (b : List Byte) : Option Instr :=
  match pkType b with
  | 0x01 => some (.cmd (Fin.ofNat 16 p) b)
  | 0x02 => some (.reply b)
  | 0x03 => some (.tack b)
  | 0x10 => some (.gradSeg port b)
  | 0x11 => some (.param (Fin.ofNat 16 p) b)
  | 0x20 => some (.tensor b)
  | 0x30 => some (.ckptData b)
  | 0x31 => some (.ckptEnd b)
  | 0x32 => some (.ckptDone b)
  | 0x33 => some (.ckptFetchPacket b)
  | 0x40 => some (.discQuery b)
  | 0x41 => some (.discReply b)
  | 0x42 => some (.probe b)
  | 0x43 => some (.probeReply b)
  | 0x44 => some (.announce none b)
  | _ => none

/-- A packet's credit goes back to its port once the router has moved it on. -/
def drainPacket (s : State) (port : Option (Fin 32)) (b : List Byte) : State := drainPort s port (pkClass b) (frameBlocks b)

/-- Deliver a packet to a partition of this device. For one that is being scrubbed only a DISC_QUERY is answered as ever, and an announcement by
multicast is for the device itself (R442, R455, R458). A GRAD_SEG keeps its port's buffer until its unit has admitted it (R331). -/
def deliverTo (s : State) (port : Option (Fin 32)) (p : Nat) (b : List Byte) : State :=
  let type := pkType b
  if !pkGood b then countEcrc (drainPacket s port b)
  else if pkVersion b = 0 ∨ 3 < pkVersion b then countDrop (drainPacket s port b)
  else if (part s p).pstate = .scrubbing ∧ type ≠ 0x40 ∧ !(pkMc b && decide (type = 0x44)) then
    let s := drainPacket s port b
    if pkMc b then s else if type = 0x01 then refuseScrubbing s b else countScrub s
  else
    match packetEvent port p b with
    | some i => breakQuag (owe (if type = 0x10 then s else drainPacket s port b) (.run i)) p
    | none => countDrop (drainPacket s port b)

/-- Whether a packet has arrived on a dedicated port (R459). -/
def onDedicated (s : State) : Option (Fin 32) → Bool
  | some q => (portOf s q.val).dedicated
  | none => false

/-- A multicast packet (R445): on every port of its group but the one it came on (none for one that came on a dedicated port, R459), and to each partition of LOCAL_PARTS that is not
being scrubbed; an announcement is for the device itself. -/
def multicast (s : State) (port : Option (Fin 32)) (b : List Byte) : State :=
  let e := if pkDst b < 4096 then (tget 0 (pkDst b) s.fab.mc).toNat else 0
  let parts := bitsSet (fld e 32 16) 16
  let s := drainPacket s port b
  if !bitOf e 63 then s
  else
    let outs := if onDedicated s port then [] else
      (upPorts s (fld e 0 32) b port.isNone).filter (fun q => decide (port.map (·.val) ≠ some q))
    let s := outs.foldl (fun s q => enqueue s q b) s
    if pkType b = 0x44 then (if parts.isEmpty then s else deliverTo s none 0 b)
    else (parts.filter (fun p => decide ((part s p).pstate ≠ .scrubbing))).foldl (fun s p => deliverTo s none p b) s

/-- Whether a TYPE permits MC = 1 (R435). -/
def mayMulticast (type : Nat) : Bool := decide (type = 0x01) || decide (type = 0x11) || decide (type = 0x44)

/-- The router (R434, R435, R444): a packet that arrives with HOPS 31 is dropped, a packet for this device is delivered, and any
other is forwarded with HOPS one higher; a dedicated port brings no transit packets (R459). -/
def forward (s : State) (port : Option (Fin 32)) (b : List Byte) : State :=
  let local_ := !pkMc b && hasAddr s && decide (pkDst b = s.fab.addr.toNat)
  if b.length < 36 then countDrop (drainPacket s port b)
  else if port.isSome && decide (pkHops b = 31) then countDrop (drainPacket s port b)
  else if pkMc b && !mayMulticast (pkType b) then countDrop (drainPacket s port b)
  else if local_ then deliverTo s port (pkDpart b) b
  else
    let out := if port.isSome then withHops b (pkHops b + 1) else b
    if pkMc b then multicast s port out
    else if onDedicated s port then routeMiss (drainPacket s port b)
    else routeOn (drainPacket s port b) out port.isNone

def execPacketForward (port : Option (Fin 32)) (b : List Byte) (s : State) : Host.Outcome State Fault Refusal := .next (forward s port b)

/-! ### Commands and replies (R493, R494) -/

/-- A CMD packet reaches the interpreter of partition p. -/
def cmdArrives (s : State) (p : Nat) (b : List Byte) : State :=
  let pay := pkPayload b
  if !pkGood b then countEcrc s
  else takePacket s (.fabric (BitVec.ofNat 16 (pkSrc b)) (BitVec.ofNat 4 (pkSpart b)) (BitVec.ofNat 4 p)) (pay ++ zeros (256 - pay.length))

def execCmd (p : Fin 16) (b : List Byte) (s : State) : Host.Outcome State Fault Refusal :=
  .next (if s.ready then cmdArrives s p.val b else s)

/-- The status of a code; a reserved code reads as INTERNAL. -/
def statusOf (n : Nat) : Status :=
  ([.ok, .pending, .deferred, .badOpcode, .badParam, .badDescriptor, .aliasWrite, .groupOverfull, .indexRange, .noResource, .contextBusy,
    .staleClaim, .staleLead, .staleGeneration, .missingContribution, .integrityFail, .residueFail, .partitionResetting, .attestDeferred,
    .denied, .fenced].find? (fun x => decide (statusCode x = n))).getD .internal

/-- The forwarded command that a REPLY answers: its REMOTE context's peer endpoint sent it, for that context and SEQ. -/
def remoteOf (s : State) (b : List Byte) : Option Waiting :=
  let pay := pkPayload b
  s.waiting.find? (fun w => match w.wait with
    | .remote n seq =>
      let x := ctx s n
      decide (w.cmd.part = some (pkDpart b)) && decide (seq = at_ pay 0 4) && decide (x.peer.toNat = pkSrc b) &&
        decide (x.peerPart.toNat % 16 = pkSpart b) && decide (x.peerCtx.toNat = at_ pay 8 4)
    | _ => false)

/-- A REPLY completes the command that it answers; any other is ignored. -/
def replyArrives (s : State) (b : List Byte) : State :=
  if !pkGood b then countEcrc s
  else match remoteOf s b with
    | some w => endWaiting s w (statusOf (at_ (pkPayload b) 4 2)) (at_ (pkPayload b) 20 4) []
    | none => s

def execReply (b : List Byte) (s : State) : Host.Outcome State Fault Refusal := .next (replyArrives s b)

/-- No reply within TIMEOUT: the outcome is unknown. -/
def remoteTimeout (s : State) (n seq : Nat) : State :=
  match s.waiting.find? (fun w => decide (w.wait = .remote n seq)) with
  | some w => endWaiting s w .deferred 1 []
  | none => s

def execRemoteReplyTimeout (c : BitVec 16) (seq : BitVec 32) (s : State) : Host.Outcome State Fault Refusal :=
  .next (remoteTimeout s c.toNat seq.toNat)

end Sys2Proof.Machine
end

