-- ==== Sys2Proof/Machine/Peers.lean ====
section
/-! DEFINITION. The fabric commands (R443), discovery (R442), addresses (R441), probes and announcements (R454 to R456), and the
planned removal up to its announcement (R453). -/
namespace Sys2Proof.Machine

/-! ### FABRIC_ROUTE -/

/-- The register form of an entry with its reserved bits 0 (R465, R466). -/
def routeForm (mc : Bool) (v : Nat) : BitVec 64 := BitVec.ofNat 64 (b2n (bitOf v 63) * 2 ^ 63 + fld v 0 (if mc then 48 else 32))

/-- Write consecutive entries of a table. -/
def putRoutes (mc : Bool) (first : Nat) (l : List Byte) (n : Nat) (t : Tab (BitVec 64)) : Tab (BitVec 64) :=
  (List.range n).foldl (fun t i => tput 0 (first + i) (routeForm mc (at_ l (8 * i) 8)) t) t

def bodyFabricRoute (p : FabricRouteP) (s : State) (c : Cmd) : Res :=
  let first := p.first.toNat
  let n := p.count.toNat
  let size := if p.table = 2 then 4096 else 256
  checked s [(decide (2 < p.table.toNat) || decide (p.rsvdA ≠ 0) || decide (p.rsvdB ≠ 0) || decide (n = 0) || decide (4096 < n) ||
      decide (size < first + n), .badParam, 0)] fun _ =>
    let l := mgmtRead s c p.list.toNat (8 * n)
    { s := { s with fab :=
        if p.table = 0 then { s.fab with grp := putRoutes false first l n s.fab.grp }
        else if p.table = 1 then { s.fab with mbr := putRoutes false first l n s.fab.mbr }
        else { s.fab with mc := putRoutes true first l n s.fab.mc } } }

def execFabricRoute (h : Hdr) (p : FabricRouteP) (s : State) : Host.Outcome State Fault Refusal :=
  command (.fabricRoute h p) { op := 0x0030, n := 16, runs := .f, needPart := false, mgmtOnly := true } h
    (packetBytes 0x0030 h (bytesFabricRoute p)) (bodyFabricRoute p) s

/-! ### Addresses -/

/-- Take an address and enter JOINING (R441). -/
def joinAt (s : State) (a : BitVec 16) : State := { s with fab := { s.fab with mode := .joining, addr := a } }

def bodyFabricAddr (p : FabricAddrP) (s : State) (_c : Cmd) : Res :=
  checked s [(decide (1 < p.ctl.toNat) || decide (p.rsvdA ≠ 0), .badParam, 0), (hasAddr s, .contextBusy, 0)] fun _ =>
    let s := if p.ctl = 1 then cfgStore s idFabAddr (leBytes 2 p.addr.toNat) else s
    { s := joinAt s p.addr }

def execFabricAddr (h : Hdr) (p : FabricAddrP) (s : State) : Host.Outcome State Fault Refusal :=
  command (.fabricAddr h p) { op := 0x0031, n := 8, runs := .f, needPart := false, mgmtOnly := true } h
    (packetBytes 0x0031 h (bytesFabricAddr p)) (bodyFabricAddr p) s

/-- 2 ms without a conflict: ACTIVE, and JOINED is announced (R441, R452). -/
def joined (s : State) : State :=
  if s.fab.mode = .joining then announceAll { s with fab := { s.fab with mode := .active } } 1 s.fab.addr deviceNum else s

def execJoiningTimeout (s : State) : Host.Outcome State Fault Refusal := .next (joined s)

/-! ### Planned removal (R453) -/

/-- The device becomes DRAINING with a limit in milliseconds, 0 for none; a removal already under way goes on unchanged. -/
def startDrain (s : State) (limit : Nat) : State :=
  if draining s then s else { s with fab := { s.fab with mode := .draining, drain := if limit = 0 then none else some limit } }

def bodyFabricDepart (p : FabricDepartP) (s : State) (_c : Cmd) : Res :=
  checked s [(!leadOk s, .staleLead, 0), (decide (p.rsvdA ≠ 0), .badParam, 0)] fun _ => { s := startDrain s p.drainLimit.toNat }

def execFabricDepart (h : Hdr) (p : FabricDepartP) (s : State) : Host.Outcome State Fault Refusal :=
  command (.fabricDepart h p) { op := 0x0032, n := 8, runs := .f, needPart := false, mgmtOnly := true } h
    (packetBytes 0x0032 h (bytesFabricDepart p)) (bodyFabricDepart p) s

/-- Partitions that run a job. -/
def jobParts (s : State) : List Nat := (List.range 16).filter (fun p => (part s p).job.isSome)

/-! ### Discovery (R442, R443) -/

/-- The payload of a DISC_REPLY for partition p. -/
def discPayload (s : State) (p : Nat) (mgmt : Bool) : List Byte :=
  let st := match s.fab.mode with
    | .unassigned => 0
    | .joining => 1
    | .active => 2
    | .draining | .departed => 3
  let ps := match (part s p).pstate with
    | .unbound => 0
    | .active => 1
    | .scrubbing => 2
  let l := capList s
  deviceId ++ leBytes 1 st ++ leBytes 1 (if mgmt then ps else 0xFF) ++ [7, 0] ++ leBytes 2 l.length ++ [0, 0] ++ l

/-- A query is answered; FLOW 0x1_0000 marks one of the querier's management context. -/
def queryArrives (s : State) (b : List Byte) : State :=
  if !pkGood b then countEcrc s
  else originate s 0x41 0 false (pkSpart b) (pkDpart b) (pkSrc b) 0 0 [] (discPayload s (pkDpart b) (decide (pkFlow b = 0x10000)))

def execDiscQuery (b : List Byte) (s : State) : Host.Outcome State Fault Refusal := .next (queryArrives s b)

def bodyFabricDiscover (p : FabricDiscoverP) (s : State) (c : Cmd) : Res :=
  checked s [(decide (15 < p.part.toNat) || decide (p.rsvdA ≠ 0), .badParam, 0), (departed s p.addr, .deferred, 2)] fun _ =>
    let flow := if c.part.isNone then 0x10000 else 0
    { s := originate s 0x40 0 false p.part.toNat (c.part.getD (devSpart s)) p.addr.toNat 0 flow [] [], wait := some (.discover p.addr.toNat) }

def execFabricDiscover (h : Hdr) (p : FabricDiscoverP) (s : State) : Host.Outcome State Fault Refusal :=
  command (.fabricDiscover h p) { op := 0x0033, n := 8, runs := .f, needPart := false, rec_ := 4096 } h
    (packetBytes 0x0033 h (bytesFabricDiscover p)) (bodyFabricDiscover p) s

/-- The endpoint partition of a waiting FABRIC_DISCOVER. -/
def discoverPart : Instr → Option Nat
  | .fabricDiscover _ p => some p.part.toNat
  | _ => none

/-- The oldest FABRIC_DISCOVER that waits for an endpoint. -/
def discoverOf (s : State) (addr : Nat) (p : Option Nat) : Option Waiting :=
  s.waiting.find? (fun w => decide (w.wait = .discover addr) && (p.isNone || decide (discoverPart w.instr = p)))

/-- A DISC_REPLY: it may show a conflict, it gives the peer's capability list, and it completes the command that asked (R441, R443). -/
def discReplyArrives (s : State) (b : List Byte) : State :=
  if !pkGood b then countEcrc s
  else
    let pay := pkPayload b
    let addr := BitVec.ofNat 16 (pkSrc b)
    let id := BitVec.ofNat 64 (at_ pay 0 8)
    let s := noteHello s addr id (BitVec.ofNat 8 (at_ pay 10 1))
    let s := match knownOf s addr with
      | some k => setKnown s { k with caps := slice pay 16 (at_ pay 12 2) }
      | none => s
    let s := checkConflict s addr.toNat id.toNat (at_ pay 8 1)
    match discoverOf s addr.toNat (some (pkSpart b)) with
    | some w => endWaiting s w .ok 0 pay
    | none => s

def execDiscReply (b : List Byte) (s : State) : Host.Outcome State Fault Refusal := .next (discReplyArrives s b)

/-- No reply within 1 ms: STATE 0xFF and nothing more. -/
def discoverTimeout (s : State) (addr : Nat) : State :=
  match discoverOf s addr none with
  | some w => endWaiting s w .ok 0 (zeros 8 ++ [0xFF] ++ zeros 7)
  | none => s

def execDiscoverTimeout (addr : BitVec 16) (s : State) : Host.Outcome State Fault Refusal := .next (discoverTimeout s addr.toNat)

/-! ### Probes and announcements (R454, R455) -/

def probeArrives (s : State) (b : List Byte) : State :=
  if !pkGood b then countEcrc s else originate s 0x43 0 false (pkSpart b) (pkDpart b) (pkSrc b) 0 0 [] []

def execProbe (b : List Byte) (s : State) : Host.Outcome State Fault Refusal := .next (probeArrives s b)

/-- The probed device is reachable. -/
def probeAnswered (s : State) (b : List Byte) : State :=
  if !pkGood b then countEcrc s
  else { s with fab := { s.fab with probing := s.fab.probing.filter (fun x => !(decide (x.addr.toNat = pkSrc b) && x.sent)) } }

def execProbeReply (b : List Byte) (s : State) : Host.Outcome State Fault Refusal := .next (probeAnswered s b)

/-- 100 µs after the loss of a neighbour's link the PROBE is sent. -/
def probeDelay (s : State) (a : BitVec 16) : State :=
  if s.fab.probing.any (fun x => decide (x.addr = a) && !x.sent) then
    let mark := fun (x : Probing) => if x.addr = a then { x with sent := true } else x
    originate { s with fab := { s.fab with probing := s.fab.probing.map mark } } 0x42 0 false 0 (devSpart s) a.toNat 0 0 [] []
  else s

def execProbeDelay (a : BitVec 16) (s : State) : Host.Outcome State Fault Refusal := .next (probeDelay s a)

/-- 1 ms without a PROBE_REPLY: the neighbour is announced as lost. -/
def probeTimeout (s : State) (a : BitVec 16) : State :=
  match s.fab.probing.find? (fun x => decide (x.addr = a) && x.sent) with
  | some x => announceLost { s with fab := { s.fab with probing := s.fab.probing.filter (fun y => decide (y.addr ≠ a)) } } a x.id.toNat
  | none => s

def execProbeTimeout (a : BitVec 16) (s : State) : Host.Outcome State Fault Refusal := .next (probeTimeout s a)

/-- An announcement: a packet, or the MAINT frame of a direct neighbour, which is not forwarded. -/
def announceArrives (s : State) (port : Option (Fin 32)) (b : List Byte) : State :=
  match port with
  | none => if pkGood b then learn s (pkArg b) else countEcrc s
  | some q => onFrame s q.val kMaint b (fun s => if at_ (frBody b) 0 1 = 3 ∧ 15 ≤ frLen b then learn s (slice (frBody b) 1 14) else s)

def execAnnounce (port : Option (Fin 32)) (b : List Byte) (s : State) : Host.Outcome State Fault Refusal := .next (announceArrives s port b)

end Sys2Proof.Machine
end

