-- ==== Sys2Proof/Machine/Power.lean ====
section
/-! DEFINITION. Clocks, power states, the lead token, departure and start-up, and the sideband pins of the connectors (R453,
R580 to R612, R652 to R659). -/
namespace Sys2Proof.Machine

def modPower (s : State) (f : Power → Power) : State := { s with power := f s.power }
def modLead (s : State) (f : Lead → Lead) : State := modPower s (fun p => { p with lead := f p.lead })

/-! ### The lead token (R597 to R599) -/

/-- The hub offers the token to a die at the next generation: source 0x183 and LEAD_CHANGE (R597, R611). -/
def offerLead (s : State) (d : Nat) : State :=
  let g := s.power.lead.gen + 1
  let s := modLead s (fun l => { l with gen := g, held := false, offered := true, die := d })
  postMgmt (fireHub s 0x183) 0x01A1 d (leBytes 8 g.toNat)

/-- Whether a die that presents a generation makes equal claims: one that does not hold the token presents the current
generation, or any higher one. The offered die's presenting the offered generation is no claim. -/
def equalClaim (s : State) (d gen : Nat) : Bool :=
  let l := s.power.lead
  (l.held || l.offered) && ((decide (d ≠ l.die) && decide (l.gen.toNat ≤ gen)) || (!l.held && decide (l.gen.toNat < gen)))

/-- Equal claims: shared control freezes, 0x184, LEAD_CONFLICT and its signature, CONFLICTS, and an offer to die W (R599, R632). -/
def leadConflict (s : State) (d gen : Nat) : State :=
  let n := min 0xFFFF (s.power.lead.conflicts.toNat + 1)
  let s := modLead s (fun l => { l with frozen := true, conflicts := BitVec.ofNat 16 n })
  let s := postMgmt (fireHub s 0x184) 0x01A2 0 (leBytes 1 d ++ leBytes 8 gen ++ leBytes 2 n)
  offerLead (writeSig s { kind := 5, cls := 2, action := some 6 }) 0

/-- A write of PWR_LEAD_ACK (R597): the offered die takes the token, and a freeze ends; the holder's keep-alive. -/
def leadAck (s : State) (d gen : Nat) : State :=
  let l := s.power.lead
  if equalClaim s d gen then leadConflict s d gen
  else if l.offered ∧ l.die = d ∧ l.gen.toNat = gen then
    modLead s (fun l => { l with offered := false, held := true, frozen := false })
  else s

def execPwrLeadAck (d : Fin 2) (gen : BitVec 64) (s : State) : Host.Outcome State Fault Refusal := .next (leadAck s d.val gen.toNat)

/-- A write of PWR_LEAD_RELEASE (R597). -/
def leadRelease (s : State) (d gen : Nat) : State :=
  let l := s.power.lead
  if l.held ∧ l.die = d ∧ l.gen.toNat = gen then offerLead s (1 - d) else s

def execPwrLeadRelease (d : Fin 2) (gen : BitVec 64) (s : State) : Host.Outcome State Fault Refusal :=
  .next (leadRelease s d.val gen.toNat)

def execLeadOfferTimeout (s : State) : Host.Outcome State Fault Refusal :=
  .next (if s.power.lead.offered then offerLead s (1 - s.power.lead.die) else s)

def execLeadKeepaliveTimeout (s : State) : Host.Outcome State Fault Refusal :=
  .next (if s.power.lead.held then offerLead s (1 - s.power.lead.die) else s)

/-- A shared action that a die presents with a generation (R598, R599): whether the hub accepts it. -/
def sharedAction (s : State) (d gen : Nat) : Bool × State :=
  let l := s.power.lead
  if equalClaim s d gen then (false, leadConflict s d gen)
  else (l.held && !l.frozen && decide (l.die = d) && decide (l.gen.toNat = gen), s)

/-! ### Pins (R652) -/

/-- Drive MOD_READY. -/
def setReady (s : State) (v : Bool) : State :=
  if s.pins.modReady = v then s else send { s with pins := { s.pins with modReady := v } } (.pin "MOD_READY" v)
/-- Drive MOD_PG. -/
def setPg (s : State) (v : Bool) : State :=
  if s.pins.modPg = v then s else send { s with pins := { s.pins with modPg := v } } (.pin "MOD_PG" v)
/-- Drive THERM_ALERT_N. -/
def setTherm (s : State) (v : Bool) : State :=
  if s.pins.therm = v then s else send { s with pins := { s.pins with therm := v } } (.pin "THERM_ALERT_N" v)

/-! ### Divisors, the estimator and the limiter (R584 to R587) -/

/-- The main divisor that the latest request asks for. -/
def divTarget (p : Power) : Nat := p.later.getD (p.next.getD p.div)

/-- Ask for a main divisor: a switch begins, or the request waits for the end of the one in progress (R584, R612). -/
def requestDiv (s : State) (d : Nat) : State :=
  if divTarget s.power = d then s
  else modPower s (fun p => if p.next.isSome then { p with later := some d } else { p with next := some d, later := none })

/-- Count an event in a counter of the clock or power blocks (R607). -/
def countPower (s : State) (get : Power → Counter) (set : Power → Counter → Power) : State :=
  let c := get s.power
  fireIfEnabled (modPower s (fun p => set p (cntAdd c 1))) (cntWraps c 1) 0 0x186

/-- The domain restarts at its new divisor (R584). -/
def switchRestart (s : State) (control : Bool) : State :=
  if control then
    match s.power.ctlNext with
    | none => s
    | some v => countPower (modPower s (fun p => { p with ctlSel := v, ctlNext := p.ctlLater, ctlLater := none })) (·.switchCnt)
        (fun p c => { p with switchCnt := c })
  else
    match s.power.next with
    | none => s
    | some d => countPower (modPower s (fun p => { p with div := d, next := p.later, later := none })) (·.switchCnt)
        (fun p c => { p with switchCnt := c })

def execClockSwitchRestart (control : Bool) (s : State) : Host.Outcome State Fault Refusal := .next (switchRestart s control)

/-- The order 4, 5, 6, 8. -/
def slower (d : Nat) : Nat := if d = 4 then 5 else if d = 5 then 6 else 8
def faster (d : Nat) : Nat := if d = 8 then 6 else if d = 6 then 5 else 4

/-- POWER_LIMIT (R611). -/
def postLimit (s : State) (reason : Nat) : State :=
  postMgmt s 0x01A0 reason (leBytes 2 s.power.estW.toNat ++ leBytes 1 s.power.div)

/-- The estimator changes the divisor by one step. -/
def estStep (s : State) (d : Nat) : State :=
  let from4 := decide (divTarget s.power = 4)
  let s := countPower (requestDiv (modPower s (fun p => { p with since := 0 })) d) (·.stepCnt) (fun p c => { p with stepCnt := c })
  if from4 then postLimit (fireHub s 0x180) 1 else s

/-- The estimator's sample (R587, R604). -/
def estSample (s : State) (watts celsius : Nat) (valid : Bool) : State :=
  let p := s.power
  if p.bootStep.toNat < 6 ∨ p.device = .off ∨ p.device = .standby then s
  else if !valid then modPower s (fun p => { p with valid := 0, calm := 0, since := p.since + 1 })
  else
    let lim := p.limitW.toNat
    let t := p.tLimit.toNat
    let hot := decide (lim < watts) || decide (t ≤ celsius)
    let cool := decide (100 * watts < 95 * lim) && decide (celsius + 5 < t)
    let n := min 1000 (p.valid + 1)
    let calm := if cool then min 100 (p.calm + 1) else 0
    let cold := p.cold && decide (n < 1000)
    let s := modPower s (fun p => { p with valid := n, calm := calm, since := p.since + 1, cold := cold, estW := BitVec.ofNat 16 watts })
    let s := setTherm s (decide (celsius + 5 < t))
    let d := divTarget p
    if p.limiting || decide (p.since + 1 < 10) then s
    else if hot then (if d = 8 then s else estStep s (slower d))
    else if decide (calm = 100) && decide (d ≠ 4) && (!cold || decide (d = 8)) then estStep s (faster d) else s

def execEstimatorSample (watts : BitVec 16) (celsius : BitVec 8) (valid : Bool) (s : State) : Host.Outcome State Fault Refusal :=
  .next (estSample s watts.toNat celsius.toNat valid)

/-- The limiter engages: ÷8 (R586, R612). -/
def limitEngage (s : State) : State :=
  if !s.power.good then s
  else
    let s := requestDiv (modPower s (fun p => { p with limiting := true })) 8
    postLimit (fireHub (countPower s (·.limitCnt) (fun p c => { p with limitCnt := c })) 0x181) 2

def execCurrentLimitEngage (s : State) : Host.Outcome State Fault Refusal := .next (limitEngage s)
def execLimiterHoldExpiry (s : State) : Host.Outcome State Fault Refusal := .next (modPower s (fun p => { p with limiting := false }))

/-! ### Core and device power states (R589 to R594) -/

/-- DEVICE_STATE (R611). -/
def postDevice (s : State) (st : DevState) : State :=
  postMgmt s 0x01A3 (match st with
    | .active => 0
    | .idle => 1
    | .standby => 2
    | .off => 3) []

/-- The device is ACTIVE again. -/
def goActive (s : State) : State :=
  if s.power.device = .idle then postDevice (modPower s (fun p => { p with device := .active })) .active else s

/-- Whether a stream stands IDLE or OUT with an empty queue (R590). -/
def streamRests (x : Stream) : Bool := x.queue.isEmpty && x.held.isEmpty && x.busy.isNone && (decide (x.mode = .ready) || decide (x.mode = .out))

/-- Whether an Awl core may be in reset or in WFI: it is halted, or stands in no window wait (R362, R369, R590). -/
def awlRests (s : State) (l a : Nat) : Bool :=
  (awlOf (core s l) a).inReset || (awlOf (core s l) a).halted ||
  !unitWaits s ((partOfCore s l).getD 16) (.awl (Fin.ofNat 16 l) (Fin.ofNat 4 a))

/-- A core of a bound partition enters RETAIN (R590). -/
def retainEntry (s : State) (k : Nat) : State :=
  let c := coreP s k
  let inPart : Bool := match logicalOf s k with
    | some l => (partOfCore s l).isSome && (List.range 4).all (awlRests s l)
    | none => false
  if c.power = .run ∧ inPart ∧ s.power.retainAfter ≠ 0 ∧ (List.range 3).all (fun i => streamRests (streamOf c i)) then
    modCoreP s k (fun x => { x with power := .retain })
  else s

def execCoreRetainEntry (k : Fin 18) (s : State) : Host.Outcome State Fault Refusal := .next (retainEntry s k.val)

/-- Whether every core is in RETAIN or OFF. -/
def coresRest (s : State) : Bool :=
  (List.range 18).all (fun k => decide ((coreP s k).power = .retain) || decide ((coreP s k).power = .off))

/-- The device enters IDLE: the mesh and Mire gated, HBM in self-refresh (R592). -/
def idleEntry (s : State) : State :=
  if s.power.device = .active ∧ coresRest s ∧ s.power.retainAfter ≠ 0 ∧ s.ready then
    postDevice (modPower s (fun p => { p with device := .idle, refresh := true })) .idle
  else s

def execDeviceIdleEntry (s : State) : Host.Outcome State Fault Refusal := .next (idleEntry s)

def execHbmSelfRefreshExit (s : State) : Host.Outcome State Fault Refusal :=
  .next (if s.power.refresh then goActive (modPower s (fun p => { p with refresh := false })) else s)

/-- The sequencer starts the core at the head of its queue (R594). -/
def staggerStart (s : State) : State :=
  match s.power.stagger with
  | [] => s
  | _ :: rest => goActive (modPower s (fun p => { p with stagger := rest }))

def execStaggerStart (s : State) : Host.Outcome State Fault Refusal := .next (staggerStart s)

/-- A started core reaches RUN: what waited at its mesh stop goes on (R591), and a migration that waited for it (R283). -/
def runReady (s : State) (k : Nat) : State :=
  if (coreP s k).power ≠ .waking ∨ k ∈ s.power.stagger then s
  else
    let s := modCoreP s k (fun c => { c with power := .run })
    let s := match logicalOf s k with
      | some c => (List.range 3).foldl (fun s i => kickStream s c i) s
      | none => s
    tryMove s (dieOfPhys k)

def execCoreRunReady (k : Fin 18) (s : State) : Host.Outcome State Fault Refusal := .next (runReady s k.val)

/-! ### What restarts keep -/

/-- The state after a reset of everything but the always-on domain, the flash, the pack store and fault log, and the Metering
Island (R595, R605, R629, R634). Host memory is the host's. -/
def cleared (s : State) : State :=
  { pending := s.pending, sent := s.sent, freeIx := s.freeIx, nextId := s.nextId, hostMem := s.hostMem, mi := s.mi, pins := s.pins,
    relia := s.relia, mgmtCount := s.mgmtCount, sec := { s.sec with rooted := false, akReady := false, badMire := [], badHbm := [] },
    power := { s.power with limiting := false, next := none, later := none, ctlNext := none, ctlLater := none, stagger := [],
                            refresh := false, cold := true, valid := 0, calm := 0, since := 0,
                            lead := { s.power.lead with held := false, offered := false, frozen := false } } }

/-- The state after power-on reset: beside the Metering Island only what flash holds is kept (R530, R533, R552, R645). -/
def powerOn (s : State) : State :=
  let c := cleared s
  { c with relia := {}, power := {}, mgmtCount := [], pins := { c.pins with removing := false }, sec := { c.sec with session := 0, changing := false } }

/-! ### Start-up (R595, R596) -/

/-- Start-up stops at a step (R527, R596, R632). -/
def stopAt (s : State) (n : Nat) : State :=
  writeSig (modPower s (fun p => { p with bootStep := BitVec.ofNat 4 n })) { kind := 4, cls := 2, step := some n, action := some 5 }

/-- The slot that runs: the preferred one when it verifies and is not below the floor, or else the other (R536). -/
def bootSlot (image floor pref : Nat) (slots : Tab FwSlot) : Option Nat :=
  let ok := fun (k : Nat) => (tget {} k slots).valid && decide (floor ≤ hdrSvn (fwHeader image (tget {} k slots)))
  if ok pref then some pref else if ok (1 - pref) then some (1 - pref) else none

/-- The configuration block to use: of the blocks not below the floor, the one with the higher SEQ (R532). -/
def cfgPick (x : Sec) : Option Nat :=
  let ok := fun (k : Nat) => match tget none k x.cfgs with
    | some b => if x.cfgFloor ≤ b.seq then some b.seq else none
    | none => none
  match ok 0, ok 1 with
  | some a, some b => some (if a < b then 1 else 0)
  | some _, none => some 0
  | none, some _ => some 1
  | none, none => none

/-- A number in a configuration item, or its shipped value. -/
def cfgNum (s : State) (id shipped : Nat) : Nat := match cfgItem s id with
  | some b => leNat b
  | none => shipped

def idPwrLimit : Nat := 0x0205
def idRetain : Nat := 0x0206

/-- The item that holds the Bittern defaults of a controller. -/
def idBtn (ctrl : Nat) : Nat := 0x0210 + ctrl

/-- The CFG fields of a controller's BTN_SRC and BTN_GRP registers, from its operator item or as shipped (R390, R392, R531, R664). The item holds
4 bytes for each source, as its BTN_SRC reads, and then the 2 bytes of HOLDOFF of each group (DESIGN CHOICE, entry 42). -/
def loadBittern (s : State) (ctrl : Nat) : State :=
  match cfgItem s (idBtn ctrl) with
  | none => s
  | some b =>
    let n := if ctrl = 0 then 512 else 1024
    modBtn s ctrl (fun x =>
      let x := (List.range (min n (b.length / 4))).foldl (fun x i => srcWrite x ctrl i (at_ b (4 * i) 4)) x
      (List.range 64).foldl (fun x g => { x with grps := tmod {} g (fun y => { y with holdoff := BitVec.ofNat 16 (at_ b (4 * n + 2 * g) 2) }) x.grps }) x)

/-- The shipped core map of a die: logical core c on physical core c; and its shipped core states (R249, R250). -/
def shippedMap (d : Nat) : Nat := leNat ((List.range 8).map (fun i => BitVec.ofNat 8 (128 + 8 * d + i)))
def shippedStates : Nat := 0x10000

/-- A stored core state: a core that was in test is fenced (R644). -/
def storedStates (v : Nat) : Nat :=
  ((List.range 9).map (fun j => (if fld v (2 * j) 2 = 3 then 2 else fld v (2 * j) 2) * 4 ^ j)).sum

/-- A stored core map, with no migration in progress. -/
def storedMap (v : Nat) : Nat := ((List.range 8).map (fun i => setBit (fld v (8 * i) 8) 6 false * 256 ^ i)).sum

/-- Load the core map, the core states and the other CFG registers of a die. -/
def loadDie (s : State) (d : Nat) : State :=
  let map := match cfgItem s idCoreMap with
    | some b => storedMap (at_ b (8 * d) 8)
    | none => shippedMap d
  let cst := match cfgItem s idCoreState with
    | some b => storedStates (at_ b (4 * d) 4)
    | none => shippedStates
  setDie s d { map := BitVec.ofNat 64 map, cst := BitVec.ofNat 32 cst, meshArb := BitVec.ofNat 32 (cfgNum s idMeshArb 0x00080602),
               trigCtl := BitVec.ofNat 64 (cfgNum s idTrigCtl 0x00000204753003E8) }

/-- Each logical number out of service takes its die's free spare, lowest first (R626). -/
def giveSpares (s : State) : State :=
  let t := (List.range 16).foldl (fun s c =>
    if inService s c then s
    else match freeSpare s (dieOfCore c) with
      | some k => setCoreState (setMapByte s c (128 + k)) k 0
      | none => s) s
  if t = s then s else storeCoreMap t

/-- In-service cores and spares rest in RETAIN with their Insoles scrubbed; the others stay OFF (R288, R589, R595). -/
def startCores (s : State) : State :=
  (List.range 18).foldl (fun s k =>
    if coreState s k ≤ 1 then modCoreP (scrubCore s k) k (fun c => { c with power := .retain }) else s) s

/-- A CXL port after its enumeration (R403, R423): at most eight devices, and no data pages without a device. -/
def cxlStarted (p : Nat) : CxlPort :=
  if Config.cxlLink p then
    let n := min 8 (Config.cxlDevices p).toNat
    { linkUp := true, devices := BitVec.ofNat 4 n, pages := if n = 0 then 0 else Config.cxlPages p }
  else {}

/-- The CXL ports enumerate (R403). -/
def startCxl (s : State) : State :=
  (List.range 2).foldl (fun s p =>
    let x := cxlStarted p
    { s with cxl := tput {} p x s.cxl }) s

/-- Pack 0 of the Ivtuhus image is loaded, unless a pack 0 of a higher version stayed in the store (R629). -/
def loadPackZero (s : State) : State :=
  let z := Config.packZero (runMeas s 2)
  let x : Pack := { header := slice z.1 0 64, body := z.2 }
  let keep := match tget none 0 s.relia.packs with
    | some p => decide (at_ x.header 8 4 < at_ p.header 8 4)
    | none => false
  if keep then s else { s with relia := { s.relia with packs := tput none 0 (some x) s.relia.packs } }

/-- Steps 5 and 6: memory is fresh, the Ivtuhus image and the CFG registers are loaded, the cores rest, and die W is offered the
token and acknowledges it. Step 7 then waits for the Ivtu link. -/
def bootSix (s : State) : State :=
  match bootSlot 2 s.sec.ctlFloor s.sec.ctlNext s.sec.ctl with
  | none => stopAt s 6
  | some k =>
    let s := { s with sec := { s.sec with ctlSlot := k } }
    let s := (List.range 3).foldl loadBittern (loadDie (loadDie s 0) 1)
    let lim := cfgNum s idPwrLimit 0x00640640
    let s := { s with fab := { s.fab with arb := BitVec.ofNat 32 (cfgNum s idFabArb 0x00080602) } }
    let s := modPower s (fun p => { p with limitW := BitVec.ofNat 16 lim, tLimit := BitVec.ofNat 8 (fld lim 16 8), device := .active,
                                           retainAfter := BitVec.ofNat 24 (cfgNum s idRetain 25000), div := 6, cold := true, bootStep := 7 })
    let s := loadPackZero (startCxl (startCores (giveSpares s)))
    let s := offerLead s 0
    leadAck s 0 s.power.lead.gen.toNat

/-- Steps 3 and 4 with a preferred supervisor slot, and the steps after them. -/
def bootThree (s : State) (pref : Nat) : State :=
  let s := modPower s (fun p => { p with bootStep := 3, device := .active, rootLock := true, refOk := true, ctlSel := 0 })
  match bootSlot 1 s.sec.supFloor pref s.sec.sup with
  | none => stopAt s 3
  | some k =>
    let s := { s with sec := { s.sec with supSlot := k } }
    if !Config.rootChecks then stopAt s 4
    else match cfgPick s.sec with
      | none => stopAt { s with sec := { s.sec with rooted := true } } 4
      | some b => bootSix { s with sec := { s.sec with rooted := true, cfgUse := b, cfgNow := (tget none b s.sec.cfgs).getD {} } }

/-- Power good rises: power-on reset, and start-up up to step 7. -/
def powerGood (s : State) : State :=
  if s.power.good then s
  else
    let s := setPg (powerOn s) true
    bootThree (modPower s (fun p => { p with good := true })) s.sec.supNext

def execPowerGoodRise (s : State) : Host.Outcome State Fault Refusal := .next (powerGood s)

/-- Restart from step 3 of the start-up order with a preferred supervisor slot. -/
def restartThree (s : State) (pref : Nat) : State := bootThree (cleared s) pref

/-- Start-up has not reached step 9 in time: the other supervisor slot (R536, R596). -/
def startupTimeout (s : State) : State :=
  if s.power.good && !s.ready && decide (s.power.device ≠ .standby) then restartThree s (1 - s.sec.supSlot) else s

def execStartupTimeout (s : State) : Host.Outcome State Fault Refusal := .next (startupTimeout s)

/-- The restart that FW_ACTIVATE asks for: every partition is unbound, and the device restarts from step 3 (R536). -/
def fwRestart (s : State) : State :=
  let s := (List.range 16).foldl unbindNow s
  let s := linkDownOp s
  restartThree s s.sec.supNext

/-- A raised floor (R533, R536). -/
def raiseFloors (s : State) : State :=
  let a := max s.sec.supFloor (hdrSvn (runHeader s 1))
  let b := max s.sec.ctlFloor (hdrSvn (runHeader s 2))
  let n := if a = s.sec.supFloor ∧ b = s.sec.ctlFloor then s.sec.rpCount else s.sec.rpCount + 1
  { s with sec := { s.sec with supFloor := a, ctlFloor := b, rpCount := n, changing := false } }

/-- Steps 8 and 9: the AK certificate and the capability list; then host-visible ready with the fabric address of the
configuration block (R441, R529, R595). A removal that was requested before takes effect (R653). -/
def becomeReady (s : State) : State :=
  let s := raiseFloors { s with ready := true, sec := { s.sec with akReady := true } }
  let s := modPower s (fun p => { p with bootStep := 9 })
  let s := setReady (modPage s 16 (fun q => { q with pool := some { base := 0, count := 256 } })) true
  let s := match cfgItem s idFabAddr with
    | some b => joinAt s (BitVec.ofNat 16 (leNat b))
    | none => s
  if s.pins.removing then startDrain { s with pins := { s.pins with removing := false } } 30000 else s

/-- The Ivtu link comes up, once step 7 has begun and while IVT_RST_N is high (R471, R595, R652). -/
def ivtuUp (s : State) (x16 gt64 : Bool) : State :=
  if !s.power.good || !s.pins.ivtRst || decide (s.power.bootStep.toNat < 7) || decide (s.power.device = .standby) then s
  else
    let s := linkUpOp s x16 gt64
    if s.ready || decide (s.power.bootStep.toNat ≠ 7) then s else becomeReady s

def execIvtuLinkUp (x16 gt64 : Bool) (s : State) : Host.Outcome State Fault Refusal := .next (ivtuUp s x16 gt64)

/-! ### Power loss (R600 to R602, R611, R659) -/

/-- Power failure: source 0x182, and everything that power keeps is lost. -/
def powerLost (s : State) : State :=
  if !s.power.good then s
  else
    let s := fireHub s 0x182
    let btn := bittern s 0
    let s := setTherm (setPg (setReady (powerOn s) false) false) true
    { s with btn := tput {} 0 btn s.btn, power := { s.power with bootStep := 1 } }

def execPowerFail (s : State) : Host.Outcome State Fault Refusal := .next (powerLost s)
def execThermalTrip (s : State) : Host.Outcome State Fault Refusal := .next (powerLost s)

/-- The root PLL loses lock: the fast domains stop, and the device restarts from step 3, where every partition is unbound: its metered
session closes (R579, R611). -/
def pllLost (s : State) : State :=
  if !s.power.good || decide (s.power.device = .standby) then s
  else
    let s := (List.range 16).foldl unbindNow s
    let s := linkDownOp s
    fireHub (restartThree s s.sec.supNext) 0x185

def execPllLockLoss (s : State) : Host.Outcome State Fault Refusal := .next (pllLost s)

def execPwrEnRise (s : State) : Host.Outcome State Fault Refusal := .next { s with pins := { s.pins with pwrEn := true } }

/-- PWR_EN falls: the inrush switch opens, and the module and the Metering Island see loss of input (R566, R600, R652). -/
def execPwrEnFall (s : State) : Host.Outcome State Fault Refusal :=
  .next (owe (owe { s with pins := { s.pins with pwrEn := false } } (.run .powerFail)) (.run .miPowerFail))

def execPresenceChange (a b : Bool) (s : State) : Host.Outcome State Fault Refusal :=
  .next { s with pins := { s.pins with prsnt1 := a, prsnt2 := b } }

/-- IVT_RST_N: low holds the Ivtu link down and resets the control pages (R473, R480, R652). -/
def ivtRst (s : State) (level : Bool) : State :=
  let s := { s with pins := { s.pins with ivtRst := level } }
  if level then s else resetPages (linkDownOp s)

def execIvtRstN (level : Bool) (s : State) : Host.Outcome State Fault Refusal := .next (ivtRst s level)

/-! ### Departure, removal and STANDBY (R453, R593, R653) -/

/-- Step 3 of R453: ANNOUNCE DEPART. -/
def announceDepart (s : State) : State :=
  let s := announceAll s 2 s.fab.addr deviceNum
  { s with fab := { s.fab with departing := true } }

/-- The drain ends: no job is left, or DRAIN_LIMIT has passed and the jobs left are stopped (R453). -/
def drainEnd (s : State) : State :=
  if s.fab.mode ≠ .draining ∨ s.fab.departing then s
  else
    let left := jobParts s
    if left.isEmpty then announceDepart s
    else if s.fab.drain.isSome then announceDepart (left.foldl (fun s p => dropJob s p 1) s) else s

def execDrainEnd (s : State) : Host.Outcome State Fault Refusal := .next (drainEnd s)

/-- STANDBY: the compute dies, HBM and the hub's fast units lose power; the token has no holder and keeps its generation; the
control domain goes to ÷64 (R592, R593). -/
def enterStandby (s : State) : State :=
  let s := allLinksDown (postDevice s .standby)
  let s := setTherm (setReady (linkDownOp s) false) true
  let btn := bittern s 0
  let c := cleared s
  { c with btn := tput {} 0 btn [], fab := { mode := .departed, addr := s.fab.addr }, mgmtSeq := s.mgmtSeq, mgmtSess := s.mgmtSess,
           sec := { s.sec with badMire := [], badHbm := [] },
           power := { c.power with device := .standby, ctlNext := some 3, bootStep := 9 } }

/-- Step 4 of R453: every partition is unbound, every link goes down, and the device powers down (R653). -/
def departTimeout (s : State) : State :=
  if !s.fab.departing then s else enterStandby ((List.range 16).foldl unbindNow s)

def execDepartTimeout (s : State) : Host.Outcome State Fault Refusal := .next (departTimeout s)

/-- A STANDBY request that a die's control firmware carries out (R593, R598): refused while a partition is bound. -/
def standbyRequest (s : State) (d gen : Nat) : State :=
  if !s.ready then s
  else
    let (ok, s) := sharedAction s d gen
    if !ok then s
    else if (List.range 16).any (bound s) || !coresRest s || draining s || s.fab.departing then modPower s (fun p => { p with refused := true })
    else announceDepart s

def execStandbyRequest (d : Fin 2) (gen : BitVec 64) (s : State) : Host.Outcome State Fault Refusal :=
  .next (standbyRequest s d.val gen.toNat)

/-- WAKE_N falls: STANDBY is left through steps 5 to 9; at any other time it is ignored (R593, R652). -/
def standbyWake (s : State) : State :=
  if s.power.device ≠ .standby then s
  else
    let c := cleared s
    bootSix { c with btn := s.btn, mgmtSeq := s.mgmtSeq, mgmtSess := s.mgmtSess, sec := { s.sec with akReady := false },
                     power := { c.power with bootStep := 5, ctlNext := some 0 } }

def execStandbyWake (s : State) : Host.Outcome State Fault Refusal := .next (standbyWake s)

/-- REMOVE_REQ_N: a falling edge requests a removal with a DRAIN_LIMIT of 30,000 ms; before host-visible ready it waits (R653). -/
def removeReq (s : State) (asserted : Bool) : State :=
  let falls := asserted && s.pins.removeReq
  let s := { s with pins := { s.pins with removeReq := !asserted } }
  if !falls then s
  else if s.ready then startDrain s 30000
  else { s with pins := { s.pins with removing := true } }

def execRemoveReq (asserted : Bool) (s : State) : Host.Outcome State Fault Refusal := .next (removeReq s asserted)

end Sys2Proof.Machine
end

