-- ==== Sys2Proof/Machine/RegRead.lean ====
section
/-! DEFINITION. What every register reads: the width and the value of the register at an address of the register space (R13 to
R17, R248, R386, R420, R460, R549, R575, R605, R636) and of a control page (R480). -/
namespace Sys2Proof.Machine

/-- A register: its width in bytes and the value that it reads. -/
abbrev RegVal := Nat × Nat

def r32 (v : Nat) : Option RegVal := some (4, v % 2 ^ 32)
def r64 (v : Nat) : Option RegVal := some (8, v % 2 ^ 64)

/-! ### Core windows (R248) -/

/-- STATE and DEPTH of a stream (R263). -/
def streamCode (s : State) (x : Stream) : Nat :=
  let st := match x.mode with
    | .out => 4
    | .fenced => 5
    | .stopping => 3
    | .ready => (match x.busy with
      | some id => (match waitById s id with
        | some w => if syncWait w then 2 else 1
        | none => 1)
      | none => if x.queue.isEmpty then 0 else 1)
  st * 128 + min 64 x.queue.length

/-- Whether a stream of a physical core is IDLE, WAIT, OUT or FENCED. -/
def streamAtEase (s : State) (x : Stream) : Bool :=
  let st := streamCode s x / 128
  decide (st = 0) || decide (st = 2) || decide (st = 4) || decide (st = 5)

/-- LAST_STREAM_STATUS (R263). -/
def streamStatus (s : State) (k : Core) : Nat :=
  b2n ((List.range 3).all (fun i => streamAtEase s (streamOf k i))) * 2 ^ 31 + b2n k.pushErr * 2 ^ 30 +
  streamCode s (streamOf k 2) * 2 ^ 20 + streamCode s (streamOf k 1) * 2 ^ 10 + streamCode s (streamOf k 0)

/-- A register of the LAST_ block (R64, R65, R233, R234, R263, R266 to R268, R280, R636 to R639). -/
def lastReg (s : State) (k : Core) (o : Nat) : Option RegVal :=
  match o with
  | 0x008 => r32 (streamStatus s k)
  | 0x010 => r64 k.arb.toNat
  | 0x018 => r64 (b2n k.ctlBusy * 2 ^ 63 + b2n k.ctlErr * 2 ^ 62 + b2n k.ctlDone * 2 ^ 61 + k.ctlStream.toNat * 2 ^ 50 + k.ctlAddr.toNat)
  | 0x028 | 0x030 | 0x038 | 0x040 => r32 0
  | 0x400 => r32 (streamOf k 0).numFlags.toNat
  | 0x408 => r32 (streamOf k 1).numFlags.toNat
  | 0x410 => r32 (streamOf k 2).numFlags.toNat
  | 0x418 => r32 k.flagIe.toNat
  | 0x420 => r32 ((List.range 3).map (fun i => b2n (streamOf k i).idxFlag * 2 ^ i + b2n (streamOf k i).idxIe * 2 ^ (8 + i))).sum
  | 0x428 => r64 (cntBits k.oob)
  | 0x430 => r32 k.reliaCtl.toNat
  | 0x438 => r32 (b2n k.suspect * 2 ^ 31 + k.engine.toNat * 2 ^ 27 + min 255 k.resWin * 2 ^ 8 + min 255 k.crcWin)
  | 0x440 => r64 (cntBits k.resCnt)
  | 0x448 => r64 (cntBits k.invCnt)
  | 0x450 => r64 (cntBits k.ovfCnt)
  | _ => none

/-- Whether a stream of a physical core has a command with passes outstanding (R105). -/
def passActive (s : State) (p i : Nat) : Bool :=
  match logicalOf s p with
  | some c => (pausedAt s c i).any (fun w => decide (unitOfOp w.cmd.op = some .sole))
  | none => false

/-- SOLE_STATUS (R105): between commands' passes the array has an owner while some stream has passes outstanding, and then the shadow registers
hold the tile of the next owner's pass (R76); otherwise its clock is gated. -/
def soleStatus (s : State) (p : Nat) : Nat :=
  let k := coreP s p
  let act := (List.range 3).filter (passActive s p)
  let some_ := !act.isEmpty
  (act.map (fun i => 2 ^ (16 + i))).sum +
  (match (if some_ then k.soleArb.owner else none) with
   | some i => (i + 1) * 2 ^ 12
   | none => 0) +
  ((List.range 3).map (fun i => b2n (streamOf k i).region.paired * 2 ^ (9 + i))).sum +
  b2n (some_ && k.soleArb.next.isSome) * 2 ^ 8 + b2n (!some_)

/-- A register of the SOLE_ block (R104 to R108). -/
def soleReg (s : State) (p : Nat) (o : Nat) : Option RegVal :=
  let k := coreP s p
  match o with
  | 0x00 => r32 0x03200140
  | 0x08 => r32 (soleStatus s p)
  | 0x10 => r64 k.accAddr.toNat
  | 0x18 => r32 (b2n k.accBusy * 2 ^ 31 + b2n k.accErr * 2 ^ 30 + b2n k.accDone * 2 ^ 29 + k.accStream.toNat * 2 ^ 16)
  | 0x40 => r64 (cntBits k.soleRes)
  | 0x48 => r64 (cntBits k.soleDrop)
  | 0x50 => r64 (cntBits k.soleBusy)
  | _ => none

/-- A register of the WELT_ block (R67, R68). -/
def weltReg (k : Core) (o : Nat) : Option RegVal :=
  match o with
  | 0x300 | 0x308 | 0x310 => r64 0
  | 0x318 => r32 ((List.range 3).map (fun i => b2n (streamOf k i).seedSoft * 2 ^ (8 + i))).sum
  | _ => none

/-- A register of the FEN_ block (R184 to R186). A pool is neither evicting nor merging between commands. -/
def fenReg (k : Core) (o : Nat) : Option RegVal :=
  match o with
  | 0x00 => r32 (k.fen.entries.filter (fun e => e.2.isSome)).length
  | 0x08 => r32 ((List.range 16).map (fun t => b2n (tget {} t k.fen.tables).desc.isSome * 2 ^ t +
      b2n (tget {} t k.fen.tables).overflow * 2 ^ (16 + t))).sum
  | 0x40 => r64 (cntBits k.fenContrib)
  | 0x48 => r64 (cntBits k.fenSpill)
  | 0x50 => r64 (cntBits k.fenChain)
  | _ => none

/-- A register of a core window. -/
def coreReg (s : State) (p o : Nat) : Option RegVal :=
  let k := coreP s p
  if o < 0x4000 then lastReg s k o
  else if o < 0x5000 then soleReg s p (o - 0x4000)
  else if o < 0x6000 then weltReg k (o - 0x5000)
  else if o < 0x7000 then fenReg k (o - 0x6000)
  else none

/-! ### Blocks of the compute dies -/

/-- A register of the DIE_ block (R249, R250, R257). -/
def dieReg (s : State) (d o : Nat) : Option RegVal :=
  match o with
  | 0x100 => r64 (die s d).map.toNat
  | 0x108 => r32 (die s d).cst.toNat
  | 0x110 => r32 (die s d).meshArb.toNat
  | _ => none

/-- Bit j of BTN_PEND_i or BTN_ACTIVE_i. -/
def btnBits (b : Bittern) (ctrl i : Nat) (f : BtnSrc → Bool) : Nat :=
  ((List.range 64).map (fun j => b2n (f (btnSrc b ctrl (64 * i + j))) * 2 ^ j)).sum

/-- A register of a BTN_ block (R387 to R392); a read of CLAIM acts and is not read here. -/
def btnReg (s : State) (ctrl o : Nat) : Option RegVal :=
  let b := bittern s ctrl
  let n := btnSources ctrl
  if o = 0 then r32 (0x01400000 + n)
  else if o = 8 then r32 0
  else if 0x100 ≤ o ∧ o < 0x100 + n / 8 ∧ o % 8 = 0 then r64 (btnBits b ctrl ((o - 0x100) / 8) (·.pend))
  else if 0x200 ≤ o ∧ o < 0x200 + n / 8 ∧ o % 8 = 0 then r64 (btnBits b ctrl ((o - 0x200) / 8) (·.active))
  else if 0x400 ≤ o ∧ o < 0x600 ∧ o % 8 = 0 then
    let g := btnGrp b ((o - 0x400) / 8)
    r32 (b2n g.running * 2 ^ 16 + g.holdoff.toNat)
  else if 0x800 ≤ o ∧ o < 0x1000 ∧ o % 8 = 0 then
    let t := (o - 0x800) / 32
    let x := btnTgt b t
    match o % 32 with
    | 0x10 => r32 x.threshold.toNat
    | 0x18 => r32 (b2n x.orderErr * 2 ^ 31 + x.orderSrc.toNat * 2 ^ 16 + (topPrio b t).getD 0 * 2 ^ 8 + x.stack.length)
    | _ => r32 0
  else if 0x2000 ≤ o ∧ o < 0x2000 + 8 * n ∧ o % 8 = 0 then
    let x := btnSrc b ctrl ((o - 0x2000) / 8)
    r32 (b2n x.pend * 2 ^ 31 + b2n x.active * 2 ^ 30 + x.target.toNat * 2 ^ 16 + x.group.toNat * 2 ^ 8 + b2n x.en * 2 ^ 4 + x.prio.toNat)
  else none

/-- A register of the MIRE_ block (R421, R422). -/
def mireReg (s : State) (d o : Nat) : Option RegVal :=
  match o with
  | 0x00 => r32 (0x2000 + b2n (die s d).mergeEn)
  | 0x40 => r64 (cntBits (die s d).mergeCnt)
  | 0x48 => r64 (cntBits (die s d).atomCnt)
  | _ => none

/-- A register of an HBM_ block (R422). -/
def hbmReg (s : State) (k o : Nat) : Option RegVal :=
  let x : HbmStack := tget {} k s.hbm
  match o with
  | 0x40 => r64 (cntBits x.ce)
  | 0x48 => r64 (cntBits x.integ)
  | 0x50 => r64 (cntBits x.crcRetry)
  | _ => none

/-- TST_STATUS of a die (R641). -/
def tstStatus (s : State) (d : Nat) : Nat :=
  let x := die s d
  let ph := match x.test, x.requests with
    | some t, _ => (t.phase, t.req.core)
    | none, r :: _ => (1, r.core)
    | none, [] => (0, 0)
  ph.1 * 2 ^ 30 + ph.2 * 2 ^ 16 + ((List.range 18).map (fun k =>
    if dieOfPhys k = d ∧ x.requests.any (fun r => decide (r.core = k)) then 2 ^ stateIndex k else 0)).sum

/-- A register of a die's TST_ block (R640, R641). -/
def tstReg (s : State) (d o : Nat) : Option RegVal :=
  match o with
  | 0x00 => r64 (die s d).trigCtl.toNat
  | 0x08 => r32 (tstStatus s d)
  | _ => none

/-- EYE_FAULT and LACE_FAULT (R393). -/
def faultReg (s : State) (d o : Nat) : Option RegVal :=
  match o with
  | 0x000 => r32 (die s d).eyeFault.toNat
  | 0x100 => r32 (die s d).laceFault.toNat
  | _ => none

/-! ### Blocks of the hub -/

/-- QUAG_PART_p (R394) without ELAPSED, which is time but for its saturation. -/
def quagReg (s : State) (o : Nat) : Option RegVal :=
  if o < 128 ∧ o % 8 = 0 then
    let p := o / 8
    let x := (part s p).sync
    r32 (b2n x.fired * 2 ^ 31 + b2n (looksDead s p (stepHeld s p)) * 2 ^ 30 + b2n x.quag * 2 ^ 29)
  else none

/-- CXL_PORT_STATUS and CXL_INTEG_CNT (R422, R423). -/
def cxlReg (s : State) (p o : Nat) : Option RegVal :=
  let x : CxlPort := tget {} p s.cxl
  match o with
  | 0x00 => r64 (b2n x.linkUp * 2 ^ 63 + b2n x.failed * 2 ^ 62 + x.devices.toNat * 2 ^ 52 + x.pages.toNat * 2 ^ 21)
  | 0x48 => r64 (cntBits x.integ)
  | _ => none

/-- STATE of FAB_ADDR (R462). -/
def fabCode : FabMode → Nat
  | .unassigned => 0 | .joining => 1 | .active => 2 | .draining => 3 | .departed => 4

/-- FAB_PORT_p (R464). -/
def portBits (x : Port) : Nat :=
  let ver := if x.lstate = .up then x.ver.toNat else 0
  lstateCode x.lstate * 2 ^ 61 + x.rate.toNat * 2 ^ 59 + ver * 2 ^ 57 + b2n x.peerValid * 2 ^ 56 + b2n x.dedicated * 2 ^ 55 +
  x.owner.toNat * 2 ^ 48 + x.peer.toNat * 2 ^ 32 + x.downCnt.toNat

/-- A register of the FAB_ block (R349, R350, R461 to R467). -/
def fabReg (s : State) (o : Nat) : Option RegVal :=
  let f := s.fab
  if o % 8 ≠ 0 then none
  else if 0x100 ≤ o ∧ o < 0x200 then r64 (portBits (portOf s ((o - 0x100) / 8)))
  else if 0x800 ≤ o ∧ o < 0x1000 then r64 (tget 0 ((o - 0x800) / 8) f.grp).toNat
  else if 0x1000 ≤ o ∧ o < 0x1800 then r64 (tget 0 ((o - 0x1000) / 8) f.mbr).toNat
  else if 0x8000 ≤ o ∧ o < 0x10000 then r64 (tget 0 ((o - 0x8000) / 8) f.mc).toNat
  else match o with
    | 0x0000 => r32 0x03200700
    | 0x0008 => r32 (fabCode f.mode * 2 ^ 29 + f.addr.toNat)
    | 0x0010 => r32 f.arb.toNat
    | 0x2000 => r32 (reservedSlots s * 2 ^ 16 + busySlots s)
    | 0x2040 => r64 (cntBits f.redCnt)
    | 0x2100 => r64 (cntBits f.lcrcCnt)
    | 0x2108 => r64 (cntBits f.replayCnt)
    | 0x2110 => r64 (cntBits f.ecrcCnt)
    | 0x2118 => r64 (cntBits f.dropCnt)
    | 0x2120 => r64 (cntBits f.scrubCnt)
    | _ => none

/-- A register of the SEC_ block (R549, R550). -/
def secReg (s : State) (o : Nat) : Option RegVal :=
  if o < 128 ∧ o % 8 = 0 then
    let x := part s (o / 8)
    let st := match x.pstate with
      | .unbound => 0
      | .active => 1
      | .scrubbing => 2
    r64 (st * 2 ^ 62 + b2n x.keyValid * 2 ^ 61 + b2n x.protected_ * 2 ^ 60 + x.step.toNat * 2 ^ 56 + x.session % 2 ^ 48)
  else if o = 0x100 then
    r32 (b2n (s.sec.changing || s.mi.changing) * 2 ^ 31 + b2n s.sec.akReady * 2 ^ 30 + s.sec.supSlot * 2 ^ 29 + s.sec.ctlSlot * 2 ^ 28 +
      s.sec.supNext * 2 ^ 27 + s.sec.ctlNext * 2 ^ 26)
  else none

/-- A register of the MI_ block: the last committed snapshot (R575 to R577). -/
def miReg (s : State) (o : Nat) : Option RegVal :=
  let x := s.mi.snap
  match o with
  | 0x00 => r32 x.status
  | 0x08 => r64 x.input
  | 0x10 => r64 x.time
  | 0x18 => r64 x.events
  | 0x20 => r32 x.mw
  | _ => none

/-- A register of the CLK_ block (R606, R607). -/
def clkReg (s : State) (o : Nat) : Option RegVal :=
  let p := s.power
  match o with
  | 0x00 => r32 (b2n p.rootLock * 2 ^ 31 + b2n p.refOk * 2 ^ 30 + p.ctlSel.toNat * 2 ^ 8 + p.div * 2 ^ 4 +
      b2n (p.next.isSome || p.ctlNext.isSome))
  | 0x40 => r64 (cntBits p.switchCnt)
  | _ => none

/-- Whether a core in RUN has work: a command, or an Awl core out of reset (R583, R589). -/
def coreBusy (k : Core) : Bool :=
  (List.range 3).any (fun i => !(streamOf k i).queue.isEmpty || (streamOf k i).busy.isSome) || (List.range 4).any (fun a => !(awlOf k a).inReset)

/-- ST of a physical core in PWR_CORE_STATE (R609): 0 RUN, 1 GATED, 2 RETAIN, 3 OFF. -/
def powerCode (k : Core) : Nat :=
  match k.power with
  | .run => if coreBusy k then 0 else 1
  | .retain | .waking => 2
  | .off => 3

/-- STATE of PWR_DEV_STATE (R608). -/
def devCode : DevState → Nat
  | .active => 0 | .idle => 1 | .standby => 2 | .off => 0

/-- A register of the PWR_ block (R607 to R610). -/
def pwrReg (s : State) (o : Nat) : Option RegVal :=
  let p := s.power
  let l := p.lead
  match o with
  | 0x000 => r32 (devCode p.device * 2 ^ 30 + b2n p.limiting * 2 ^ 29 + b2n p.cold * 2 ^ 28 + p.bootStep.toNat * 2 ^ 24 + b2n p.refused * 2 ^ 23 +
      p.estW.toNat)
  | 0x008 => r32 0
  | 0x010 => r32 (p.tLimit.toNat * 2 ^ 16 + p.limitW.toNat)
  | 0x018 => r32 p.retainAfter.toNat
  | 0x020 => r64 ((List.range 18).map (fun k => powerCode (coreP s k) * 4 ^ k)).sum
  | 0x040 => r64 (cntBits p.limitCnt)
  | 0x048 => r64 (cntBits p.stepCnt)
  | 0x100 => r64 l.gen.toNat
  | 0x108 => r32 (b2n l.frozen * 2 ^ 31 + b2n l.held * 2 ^ 30 + b2n l.offered * 2 ^ 29 + l.die * 2 ^ 28 + l.conflicts.toNat)
  | 0x110 | 0x118 => r64 0
  | _ => none

/-- TST_FAULT_STATUS (R642). -/
def tstHubReg (s : State) (o : Nat) : Option RegVal :=
  if o = 0 then r64 (s.relia.lost * 2 ^ 48 + (s.relia.log.filter (fun f => !f.acked)).length * 2 ^ 32 + s.relia.nextSeq % 2 ^ 32) else none

/-! ### The register space -/

/-- A block of the register space: the offset within it of an address. -/
inductive RegBlock where
  | btn (ctrl : Nat) | quag | cxl (port : Nat) | fab | sec | mi | clk | pwr | tstHub | die (d : Nat) | fault (d : Nat) | mire (d : Nat)
  | hbm (stack : Nat) | tst (d : Nat) | logical (core : Nat) | physical (core : Nat) | none
deriving DecidableEq, Repr

/-- The block and offset of an address (R248, R386, R420, R460, R549, R575, R605, R636). -/
def blockOf (a : Nat) : RegBlock × Nat :=
  let o := a - 0x0F0000000000
  if a < 0x0F0000000000 then (.none, 0)
  else if 0x20000 ≤ o ∧ o < 0x24000 then (.btn 0, o - 0x20000)
  else if 0x28000 ≤ o ∧ o < 0x29000 then (.quag, o - 0x28000)
  else if 0x30000 ≤ o ∧ o < 0x32000 then (.cxl ((o - 0x30000) / 0x1000), o % 0x1000)
  else if 0x40000 ≤ o ∧ o < 0x50000 then (.fab, o - 0x40000)
  else if 0x50000 ≤ o ∧ o < 0x51000 then (.sec, o - 0x50000)
  else if 0x60000 ≤ o ∧ o < 0x61000 then (.mi, o - 0x60000)
  else if 0x70000 ≤ o ∧ o < 0x71000 then (.clk, o - 0x70000)
  else if 0x71000 ≤ o ∧ o < 0x72000 then (.pwr, o - 0x71000)
  else if 0x80000 ≤ o ∧ o < 0x81000 then (.tstHub, o - 0x80000)
  else if 0x8000000 ≤ o ∧ o < 0x8020000 then (.die ((o - 0x8000000) / 0x10000), o % 0x10000)
  else if 0x8020000 ≤ o ∧ o < 0x8040000 then
    let d := (o - 0x8020000) / 0x10000
    let x := o % 0x10000
    if x < 0x4000 then (.btn (d + 1), x) else if 0x8000 ≤ x ∧ x < 0x9000 then (.fault d, x - 0x8000) else (.none, 0)
  else if 0x8040000 ≤ o ∧ o < 0x8060000 ∧ o % 0x10000 < 0x4000 then (.mire ((o - 0x8040000) / 0x10000), o % 0x10000)
  else if 0x8060000 ≤ o ∧ o < 0x8068000 then (.hbm ((o - 0x8060000) / 0x1000), o % 0x1000)
  else if 0x8070000 ≤ o ∧ o < 0x8072000 then (.tst ((o - 0x8070000) / 0x1000), o % 0x1000)
  else if 0x10000000 ≤ o ∧ o < 0x10100000 then (.logical ((o - 0x10000000) / 0x10000), o % 0x10000)
  else if 0x20000000 ≤ o ∧ o < 0x20120000 then (.physical ((o - 0x20000000) / 0x10000), o % 0x10000)
  else (.none, 0)

/-- The register at an offset of a block, if there is one. -/
def regAt (s : State) (b : RegBlock) (o : Nat) : Option RegVal :=
  match b with
  | .btn c => btnReg s c o
  | .quag => quagReg s o
  | .cxl p => cxlReg s p o
  | .fab => fabReg s o
  | .sec => secReg s o
  | .mi => miReg s o
  | .clk => clkReg s o
  | .pwr => pwrReg s o
  | .tstHub => tstHubReg s o
  | .die d => dieReg s d o
  | .fault d => faultReg s d o
  | .mire d => mireReg s d o
  | .hbm k => hbmReg s k o
  | .tst d => tstReg s d o
  | .logical c => coreReg s (physOf s c) o
  | .physical k => coreReg s k o
  | .none => none

/-- The width of the register at an offset, with the offset of the register itself (R17). -/
def regWidth (s : State) (b : RegBlock) (o : Nat) : Option Nat := (regAt s b (o / 8 * 8)).map (·.1)

/-- Whether an access has another width or alignment than its register's (R17). -/
def wrongAccess (s : State) (b : RegBlock) (o bytes : Nat) : Bool :=
  match regWidth s b o with
  | some w => decide (o % 8 ≠ 0) || decide (bytes ≠ w)
  | none => false

/-- What the host's management mapping reads at a register address, and the state after the read (R17, R248, R381, R478): a wrong
access, or one through the logical window of a core out of service, reads 0 and is an error; the physical windows are not
the host's; a read of CLAIM claims. -/
def hostRegRead (s : State) (a bytes : Nat) : Nat × State :=
  let (b, o) := blockOf a
  let plain := ((regAt s b o).map (·.2)).getD 0
  match b with
  | .logical c =>
    if !inService s c then (0, regError s)
    else
      let s := wakeCore s (physOf s c)
      if wrongAccess s b o bytes then (0, regError s) else (plain, s)
  | .physical _ => (0, s)
  | .btn ctrl =>
    if wrongAccess s b o bytes then (0, regError s)
    else if 0x800 ≤ o ∧ o < 0x1000 ∧ o % 32 = 0 then btnClaim s ctrl ((o - 0x800) / 32)
    else (plain, s)
  | .quag =>
    if wrongAccess s b o bytes then (0, regError s)
    else if !bitOf plain 30 then (plain, s)
    else if (part s (o / 8)).sync.spent then (plain + 2 ^ 20, s)
    else let (n, s) := freeNat s; (plain + n % (2 ^ 20 + 1), s)
  | _ => if wrongAccess s b o bytes then (0, regError s) else (plain, s)

/-! ### Control pages (R480) -/

/-- IVT_CP_STATUS. -/
def pageStatus (s : State) (q : Nat) : Nat :=
  if q = 16 then 5
  else b2n ((part s q).busy || decide ((part s q).pstate = .scrubbing)) * 2 + b2n (bound s q)

/-- A register of a control page. -/
def pageReg (s : State) (q o : Nat) : Option RegVal :=
  if 0x100 ≤ o ∧ o < 0x500 then
    let x := ring s q ((o - 0x100) / 0x40)
    match o % 0x40 with
    | 0x00 => r64 x.sqBase.toNat
    | 0x08 => r64 x.cqBase.toNat
    | 0x10 => r32 (b2n x.enable * 2 ^ 31 + b2n x.err * 2 ^ 30 + b2n x.snoop * 2 ^ 29 + x.log2.toNat * 2 ^ 16 + x.weight.toNat)
    | 0x18 | 0x20 => r32 0
    | 0x28 => r32 (x.sqHead.toNat * 2 ^ 16 + x.cqTail.toNat)
    | _ => none
  else
    let e := (page s q).ev
    match o with
    | 0x0000 => r32 (pageStatus s q)
    | 0x0800 => r64 e.base.toNat
    | 0x0808 => r32 (b2n e.enable * 2 ^ 31 + b2n e.notify * 2 ^ 30 + e.log2.toNat * 2 ^ 16)
    | 0x0810 | 0x3000 => r32 0
    | 0x3008 => r32 ((List.range 16).map (fun i => b2n (slot s q i).busy * 2 ^ i)).sum
    | 0x3010 => r64 0
    | _ => none

/-- Whether an access to a control page has another width or alignment than its register's. -/
def wrongPage (s : State) (q o bytes : Nat) : Bool :=
  match (pageReg s q (o / 8 * 8)).map (·.1) with
  | some w => decide (o % 8 ≠ 0) || decide (bytes ≠ w)
  | none => false

end Sys2Proof.Machine
end

