-- ==== Sys2Proof/Machine/Tallies.lean ====
section
/-! DEFINITION. Tally counters: their commands and the tally window of Awl cores (R270 to R277). -/
namespace Sys2Proof.Machine

/-- A claim word (R272): DONE, EXHAUSTED, EPOCH and VALUE. -/
def claimWord (done exhausted : Bool) (epoch value : Nat) : Nat := b2n done * 2 ^ 63 + b2n exhausted * 2 ^ 62 + epoch * 2 ^ 32 + value

/-- Bytes of a done bitmap (R270). -/
def doneBytes (limit : Nat) : Nat := roundUp limit 64 / 8

/-- Address of the byte that holds the done bit of a value. -/
def doneAddr (x : Tally) (v : Nat) : Nat := x.doneBase + v / 8

/-- The done bit of a value (R270, R143). -/
def doneBit (s : State) (p : Nat) (x : Tally) (v : Nat) : Bool := bitOf (at_ (partRead s p (doneAddr x v) 1) 0 1) (v % 8)

/-- A claim of n values (R272). -/
def tallyClaim (s : State) (p t n : Nat) : Nat × State :=
  let x := tally s t
  let v := x.value.toNat
  let limit := x.limit.toNat
  if limit ≤ v then (claimWord false true x.epoch.toNat v, s)
  else (claimWord (doneBit s p x v) false x.epoch.toNat v, setTally s t { x with value := BitVec.ofNat 32 (min (v + n) limit) })

/-- The epoch after an epoch (R275). -/
def nextEpoch (e : BitVec 30) : BitVec 30 := if e.toNat = 2 ^ 30 - 1 then 1 else e + 1

/-- The checks that every tally command begins with (R274). -/
def tallyChecks (s : State) (p t : Nat) (bad : Bool) : List (Bool × Status × Nat) :=
  [(bad || decide (8192 ≤ t), .badParam, 0), (!ownsTally s p t, .denied, 0)]

/-- TALLY_INIT (R275). -/
def bodyTallyInit (q : TallyInitP) (s : State) (c : Cmd) : Res :=
  let p := c.part.getD 16
  let t := q.tally.toNat
  let limit := q.limit.toNat
  let a := q.doneBase.toNat
  let n := doneBytes limit
  let bad := decide (limit = 0) || decide (2 ^ 24 < limit) || !regionOk s p a n 8 true
  checked s (tallyChecks s p t bad ++ [(!spanHbm s p a n, .badDescriptor, 0)]) fun _ =>
    let x := tally s t
    if !x.pending.isEmpty then { s := s, wait := some (.tallyInit t) }
    else
      let y : Tally := { value := 0, limit := q.limit, epoch := nextEpoch x.epoch, doneBase := a, pending := [] }
      { s := partWrite (setTally s t y) p a (zeros n) }

def execTallyInit (h : Hdr) (p : TallyInitP) (s : State) : Host.Outcome State Fault Refusal :=
  command (.tallyInit h p) { op := 0x0620, n := 16, runs := .sf } h (packetBytes 0x0620 h (bytesTallyInit p)) (bodyTallyInit p) s

/-- TALLY_CLAIM delivers the claim word; a done bit in a poisoned sector is not used (R272, R275, R416). -/
def bodyTallyClaim (q : TallyClaimP) (s : State) (c : Cmd) : Res :=
  let p := c.part.getD 16
  let t := q.tally.toNat
  let n := q.count.toNat
  checked s (tallyChecks s p t (decide (n = 0) || decide (256 < n) || decide (q.rsvdA ≠ 0))) fun _ =>
    let x := tally s t
    let hurt := decide (x.value.toNat < x.limit.toNat) && partPoisoned s p (doneAddr x x.value.toNat) 1
    let (w, s) := tallyClaim s p t n
    if hurt then { s := noteRead s p (doneAddr x x.value.toNat) 1, st := .integrityFail } else { s := s, record := leBytes 8 w }

def execTallyClaim (h : Hdr) (p : TallyClaimP) (s : State) : Host.Outcome State Fault Refusal :=
  command (.tallyClaim h p) { op := 0x0621, n := 8, runs := .sf, rec_ := 8 } h (packetBytes 0x0621 h (bytesTallyClaim p))
    (bodyTallyClaim p) s

/-- Pending commits at the tallies of a die (R276). -/
def pendingCommits (s : State) (d : Nat) : Nat :=
  ((s.tallies.filter (fun t => decide ((tallyHome t.1).1 = d))).map (fun t => t.2.pending.length)).sum

/-- The home slice sets a done bit (R270, R276). -/
def setDone (s : State) (p : Nat) (x : Tally) (v : Nat) : State :=
  let a := doneAddr x v
  let b := at_ (partRead s p a 1) 0 1
  let s := match xlate s p a with
    | some d => countAtomic s p d 1
    | none => s
  partWrite s p a (leBytes 1 (setBit b (v % 8) true))

/-- Step 1 of R276 on a commit whose descriptors pass: a stale epoch or value, a done bit in a poisoned sector, which cannot be used
(R416), a done bit that is set. -/
def commitCheck (s : State) (p t v epoch : Nat) : Option Res :=
  let x := tally s t
  if epoch ≠ x.epoch.toNat ∨ x.limit.toNat ≤ v then some { s := s, st := .staleClaim }
  else if partPoisoned s p (doneAddr x v) 1 then some { s := noteRead s p (doneAddr x v) 1, st := .integrityFail }
  else if doneBit s p x v then some { s := s, st := .staleClaim }
  else if x.pending.contains v || decide (64 ≤ pendingCommits s (tallyHome t).1) then some { s := s, wait := some (.tallyCommit t v) }
  else none

/-- Step 2 of R276: the slice records a pending commit. -/
def addCommit (s : State) (t v : Nat) : State :=
  let x := tally s t
  setTally s t { x with pending := x.pending ++ [v] }

/-- Steps 3 and 4 of R276: the copy, in the movement unit's resume units; at its end the done bit, when it ended with OK. A commit in
progress is marked in its command. -/
def commitCopy (s : State) (c : Cmd) (t v : Nat) (src d : Desc) : Res :=
  let r := onUnit .move (fun s c => copyRun s c src d) s c
  match r.wait with
  | some _ => { r with cmd := r.cmd.map (fun x => { x with tally := [1] }) }
  | none => { r with s := if r.st = .ok then setDone r.s (c.part.getD 16) (tally r.s t) v else r.s }

/-- TALLY_COMMIT up to its release. -/
def commitBody (q : TallyCommitP) (s : State) (c : Cmd) : Res :=
  let p := c.part.getD 16
  let t := q.tally.toNat
  let v := q.claim.toNat % 2 ^ 32
  checked s (tallyChecks s p t (decide (q.rsvdA ≠ 0))) fun _ =>
    withDescs s c [(q.srcDesc.toNat, false), (q.dstDesc.toNat, true)] fun ds =>
      match ds with
      | [src, d] =>
        checked s [(!copyOk src d, .badDescriptor, 0)] fun _ =>
          if commitBegun c then commitCopy s c t v src d
          else match commitCheck s p t v (fld q.claim.toNat 32 30) with
            | some r => r
            | none =>
              let r := commitCopy (addCommit s t v) c t v src d
              if r.wait.isNone then { r with s := releaseCommit r.s t v } else r
      | _ => { s := s }

/-- TALLY_COMMIT (R276): a commit that was pending when this segment began is released when the command ends. -/
def bodyTallyCommit (q : TallyCommitP) (s : State) (c : Cmd) : Res :=
  let r := commitBody q s c
  if commitBegun c && r.wait.isNone then { r with s := releaseCommit r.s q.tally.toNat (q.claim.toNat % 2 ^ 32) } else r

def execTallyCommit (h : Hdr) (p : TallyCommitP) (s : State) : Host.Outcome State Fault Refusal :=
  command (.tallyCommit h p) { op := 0x0622, n := 32, runs := .s } h (packetBytes 0x0622 h (bytesTallyCommit p))
    (bodyTallyCommit p) s

/-- TALLY_RESET (R277): the new claim word returns value 0 in the new epoch, with DONE the done bit of value 0 (R272; DEDUCED, entry 14); a
done bit in a poisoned sector is not used (R416). -/
def bodyTallyReset (q : TallyResetP) (s : State) (c : Cmd) : Res :=
  let p := c.part.getD 16
  let t := q.tally.toNat
  let x := tally s t
  checked s (tallyChecks s p t (decide (2 ^ 30 ≤ q.expect.toNat)) ++
      [(decide (q.expect ≠ 0) && decide (q.expect.toNat ≠ x.epoch.toNat), .staleClaim, 0),
       (decide (x.epoch.toNat = 2 ^ 30 - 1), .noResource, 0)]) fun _ =>
    let y : Tally := { x with value := 0, epoch := x.epoch + 1 }
    let s := setTally s t y
    if y.limit = 0 then { s := s, record := leBytes 8 (claimWord false true y.epoch.toNat 0) }
    else if partPoisoned s p (doneAddr y 0) 1 then { s := noteRead s p (doneAddr y 0) 1, st := .integrityFail }
    else { s := s, record := leBytes 8 (claimWord (doneBit s p y 0) false y.epoch.toNat 0) }

def execTallyReset (h : Hdr) (p : TallyResetP) (s : State) : Host.Outcome State Fault Refusal :=
  command (.tallyReset h p) { op := 0x0623, n := 8, runs := .sf, rec_ := 8 } h (packetBytes 0x0623 h (bytesTallyReset p))
    (bodyTallyReset p) s

/-- amoadd.d at offset 0x08 of a tally slot (R270, R273). -/
def tallyWindowOp (s : State) (c a t n : Nat) : State :=
  let s := abandonUnit s (.awl (Fin.ofNat 16 c) (Fin.ofNat 4 a))
  match (partOfCore s c).filter (fun p => ownsTally s p t) with
  | none => retAwl (fireDie s (dieOfCore c) 0x180) c a 0
  | some p =>
    if n = 0 ∨ 256 < n then retAwl (fireDie s (dieOfCore c) 0x180) c a 0
    else let (w, s) := tallyClaim s p t n; retAwl s c a w

def execTallyWindowClaim (c : Fin 16) (a : Fin 4) (t : BitVec 13) (n : BitVec 64) (s : State) : Host.Outcome State Fault Refusal :=
  .next (ifServing s c.val (tallyWindowOp s c.val a.val t.toNat n.toNat))

/-- Whether an Awl core's partition holds a tally. -/
def tallyReach (s : State) (c t : Nat) : Bool := ((partOfCore s c).filter (fun p => ownsTally s p t)).isSome

/-- What a load at offset 0x00 of a tally slot returns: the claim word of the current state with DONE 0 (R273). -/
def tallyLoad (s : State) (c t : Nat) : Nat :=
  let x := tally s t
  if tallyReach s c t then claimWord false (decide (x.limit.toNat ≤ x.value.toNat)) x.epoch.toNat x.value.toNat else 0

end Sys2Proof.Machine
end

