-- ==== Sys2Proof/Machine/RegWrite.lean ====
section
/-! DEFINITION. What a write of every register does, under its access codes, the width and alignment rule and who may write it
(R13 to R17, R248, R385); and the registers of a control page (R480). -/
namespace Sys2Proof.Machine

/-- A counter after a write of its register: OVF is W1C (R108). -/
def ackOvf (c : Counter) (v : Nat) : Counter := if bitOf v 63 then { c with ovf := false } else c

/-- Whether an agent is control or supervisor firmware. -/
def isFirm : Agent → Bool
  | .ctl .. => true
  | .sup => true
  | _ => false
def isSup : Agent → Bool
  | .sup => true
  | _ => false
/-- Whether an agent is firmware or the host's management mapping (R248, R478). -/
def isMgmtAgent : Agent → Bool
  | .hostMgmt => true
  | w => isFirm w

/-! ### Core windows -/

/-- The flag bits that a W1C write leaves. -/
def leaveFlags (f : BitVec 16) (v : Nat) : BitVec 16 := f &&& ~~~(BitVec.ofNat 16 v)

/-- LAST_IDX_RANGE: IDX_FLG is W1C, IDX_IE is stored (R233). -/
def idxWrite (k : Core) (v : Nat) : Core :=
  (List.range 3).foldl (fun k i =>
    let x := streamOf k i
    setStreamOf k i { x with idxFlag := x.idxFlag && !bitOf v i, idxIe := bitOf v (8 + i) }) k

/-- LAST_ARB: a unit whose three weights would all be 0 keeps its weights (R266). -/
def arbValue (old v : Nat) : Nat :=
  ((List.range 3).map (fun u => (if fld v (12 * u) 12 = 0 then fld old (12 * u) 12 else fld v (12 * u) 12) * 2 ^ (12 * u))).sum

/-- LAST_STREAM_CTL (R280). -/
def streamCtlWrite (s : State) (k : Nat) (lc : Option Nat) (v : Nat) : State :=
  let s := modCoreP s k (fun c => { c with ctlErr := c.ctlErr && !bitOf v 62, ctlDone := c.ctlDone && !bitOf v 61 })
  let st := fld v 50 2
  let a := fld v 6 42 * 64
  let plain := fun (s : State) => modCoreP s k (fun c =>
    { c with ctlStream := if st = 3 then c.ctlStream else BitVec.ofNat 2 st, ctlAddr := BitVec.ofNat 48 a })
  match lc, fld v 48 2 with
  | some c, 1 => streamSwitchOutOp s c st a
  | some c, 2 => streamSwitchInOp s c st a
  | _, _ => plain s

/-- SOLE_ACC_CMD (R107). -/
def accCmdWrite (s : State) (k v : Nat) : State :=
  let op := fld v 0 2
  let st := fld v 16 2
  if (coreP s k).accBusy ∧ op ≠ 0 then modCoreP s k (fun c => { c with accErr := true })
  else
    let s := modCoreP s k (fun c => { c with accErr := c.accErr && !bitOf v 30, accDone := c.accDone && !bitOf v 29 })
    if st = 3 then modCoreP s k (fun c => { c with accErr := true })
    else
      let s := modCoreP s k (fun c => { c with accStream := BitVec.ofNat 2 st })
      let a := (coreP s k).accAddr.toNat
      match op with
      | 1 => accStart s k st (some false) a
      | 2 => accStart s k st (some true) a
      | 3 => accStart s k st none 0
      | _ => s

/-- Whether an agent may write LAST_RELIA_CTL of a core: control firmware, the host's management mapping (R478) and the core's own Awl cores (R637). -/
def mayRelia (who : Agent) (lc : Option Nat) : Bool :=
  match who with
  | .awl c _ => decide (lc = some c.val)
  | w => isMgmtAgent w

/-- LAST_SQ_PUSH acts for an Awl core of the core itself (R267, R268). -/
def pushWrite (s : State) (who : Agent) (lc : Option Nat) (v : Nat) : State :=
  match who with
  | .awl c a => if lc = some c.val then sqPush s c a (fld v 0 2) else s
  | _ => s

/-- A write within a core window. -/
def coreWrite (s : State) (who : Agent) (k : Nat) (lc : Option Nat) (o v : Nat) : State :=
  let m := modCoreP s k
  let seed := fun (s : State) (i : Nat) => match lc with
    | some c => seedStream s c i (.soft (BitVec.ofNat 64 v))
    | none => s
  match o with
  | 0x008 => if bitOf v 30 then m (fun c => { c with pushErr := false }) else s
  | 0x010 => m (fun c => { c with arb := BitVec.ofNat 64 (arbValue c.arb.toNat v) })
  | 0x018 => if isMgmtAgent who then streamCtlWrite s k lc v else s
  | 0x040 => pushWrite s who lc v
  | 0x400 => m (fun c => setStreamOf c 0 { streamOf c 0 with numFlags := leaveFlags (streamOf c 0).numFlags v })
  | 0x408 => m (fun c => setStreamOf c 1 { streamOf c 1 with numFlags := leaveFlags (streamOf c 1).numFlags v })
  | 0x410 => m (fun c => setStreamOf c 2 { streamOf c 2 with numFlags := leaveFlags (streamOf c 2).numFlags v })
  | 0x418 => m (fun c => { c with flagIe := BitVec.ofNat 16 v })
  | 0x420 => m (fun c => idxWrite c v)
  | 0x428 => m (fun c => { c with oob := ackOvf c.oob v })
  | 0x430 => if mayRelia who lc then m (fun c => { c with reliaCtl := BitVec.ofNat 32 (v % 2) }) else s
  | 0x440 => m (fun c => { c with resCnt := ackOvf c.resCnt v })
  | 0x448 => m (fun c => { c with invCnt := ackOvf c.invCnt v })
  | 0x450 => m (fun c => { c with ovfCnt := ackOvf c.ovfCnt v })
  | 0x4010 => m (fun c => { c with accAddr := BitVec.ofNat 64 (fld v 6 42 * 64) })
  | 0x4018 => accCmdWrite s k v
  | 0x4040 => m (fun c => { c with soleRes := ackOvf c.soleRes v })
  | 0x4048 => m (fun c => { c with soleDrop := ackOvf c.soleDrop v })
  | 0x4050 => m (fun c => { c with soleBusy := ackOvf c.soleBusy v })
  | 0x5300 => seed s 0
  | 0x5308 => seed s 1
  | 0x5310 => seed s 2
  | 0x5318 => (match lc with
    | some c => reseed s c (fld v 0 3)
    | none => s)
  | 0x6040 => m (fun c => { c with fenContrib := ackOvf c.fenContrib v })
  | 0x6048 => m (fun c => { c with fenSpill := ackOvf c.fenSpill v })
  | 0x6050 => m (fun c => { c with fenChain := ackOvf c.fenChain v })
  | _ => s

/-- A write of an Awl core's packet window: its own only; any other is dropped and is an error (R267). -/
def packetWrite (s : State) (who : Agent) (lc : Option Nat) (o bytes v : Nat) : State :=
  match who with
  | .awl c a =>
    if lc = some c.val ∧ o / 256 % 4 = a.val then
      modAwl s c.val a.val (fun w => { w with windows := tputs 0 (256 * ((o - 0x1000) / 1024) + o % 256) (leBytes (min bytes (256 - o % 256)) v) w.windows })
    else regError s
  | _ => regError s

/-- A write to a core window of a physical core, at an offset with an access width (R248, R591). -/
def windowWrite (s : State) (who : Agent) (k : Nat) (lc : Option Nat) (b : RegBlock) (o bytes v : Nat) : State :=
  let s := wakeCore s k
  if 0x1000 ≤ o ∧ o < 0x1C00 then packetWrite s who lc o bytes v
  else if wrongAccess s b o bytes then regError s
  else coreWrite s who k lc o v

/-! ### The Bittern controllers (R385 to R392) -/

/-- The Awl core's own target (R377). -/
def ownTarget (who : Agent) (ctrl t : Nat) : Bool :=
  match who with
  | .awl c a => decide (targetAwl ctrl t = some (c.val, a.val))
  | _ => false

def isAwlAgent : Agent → Bool
  | .awl .. => true
  | _ => false

/-- A write of a BTN_ block by an agent that may reach it. -/
def btnWrite (s : State) (who : Agent) (ctrl o v : Nat) : State :=
  if o = 8 then btnSwpendOp s who ctrl (fld v 0 10)
  else if 0x800 ≤ o ∧ o < 0x1000 then
    let t := (o - 0x800) / 32
    let mine := ownTarget who ctrl t
    match o % 32 with
    | 0x08 => if isAwlAgent who && !mine then regError s else btnCompleteOp s ctrl t (fld v 0 10)
    | 0x10 =>
      if isFirm who || mine then
        modBtn s ctrl (fun b => { b with tgts := tmod {} t (fun y => { y with threshold := BitVec.ofNat 4 v }) b.tgts })
      else if isAwlAgent who then regError s else s
    | 0x18 =>
      if isAwlAgent who then regError s
      else if bitOf v 31 then modBtn s ctrl (fun b => { b with tgts := tmod {} t (fun y => { y with orderErr := false }) b.tgts }) else s
    | _ => if isAwlAgent who && !mine then regError s else s
  else if isAwlAgent who then regError s
  else if !isFirm who then s
  else if 0x400 ≤ o ∧ o < 0x600 then
    modBtn s ctrl (fun b => { b with grps := tmod {} ((o - 0x400) / 8) (fun g => { g with holdoff := BitVec.ofNat 16 v }) b.grps })
  else if 0x2000 ≤ o then modBtn s ctrl (fun b => srcWrite b ctrl ((o - 0x2000) / 8) v)
  else s

/-! ### The other blocks -/

/-- Weights of the three classes: a W_C1 or W_C2 of 0 leaves its field unchanged (R257, R463). -/
def weights (old v : Nat) : Nat :=
  let keep := fun (lo : Nat) => if fld v lo 8 = 0 then fld old lo 8 else fld v lo 8
  keep 16 * 2 ^ 16 + keep 8 * 2 ^ 8 + fld v 0 8

/-- A write of a DIE_ block: DIE_MESH_ARB, by the control firmware of its die (R257). -/
def dieWrite (s : State) (who : Agent) (d o v : Nat) : State :=
  match who with
  | .ctl x _ =>
    if o = 0x110 ∧ x.val = d then modDie s d (fun y => { y with meshArb := BitVec.ofNat 32 (weights y.meshArb.toNat v) }) else s
  | _ => s

/-- EYE_FAULT and LACE_FAULT: bits 31 and 30 are W1C (R393). -/
def clearTop (f : BitVec 32) (v : Nat) : BitVec 32 := f &&& ~~~(BitVec.ofNat 32 (fld v 30 2 * 2 ^ 30))
def faultWrite (s : State) (d o v : Nat) : State :=
  match o with
  | 0x000 => modDie s d (fun y => { y with eyeFault := clearTop y.eyeFault v })
  | 0x100 => modDie s d (fun y => { y with laceFault := clearTop y.laceFault v })
  | _ => s

/-- A write of a MIRE_ block: MERGE_CTL by control firmware, and the counters (R421, R422). -/
def mireWrite (s : State) (who : Agent) (d o v : Nat) : State :=
  match o with
  | 0x00 => (match who with
    | .ctl .. => modDie s d (fun y => { y with mergeEn := bitOf v 0 })
    | _ => s)
  | 0x40 => modDie s d (fun y => { y with mergeCnt := ackOvf y.mergeCnt v })
  | 0x48 => modDie s d (fun y => { y with atomCnt := ackOvf y.atomCnt v })
  | _ => s

def hbmWrite (s : State) (k o v : Nat) : State :=
  let m := fun (f : HbmStack → HbmStack) => { s with hbm := tmod {} k f s.hbm }
  match o with
  | 0x40 => m (fun x => { x with ce := ackOvf x.ce v })
  | 0x48 => m (fun x => { x with integ := ackOvf x.integ v })
  | 0x50 => m (fun x => { x with crcRetry := ackOvf x.crcRetry v })
  | _ => s

/-- TST_TRIG_CTL: a WINDOW_MS of 0 is reserved (R636, R640). -/
def tstWrite (s : State) (who : Agent) (d o v : Nat) : State :=
  if o = 0 ∧ isFirm who then
    modDie s d (fun y => { y with trigCtl := BitVec.ofNat 64 (if fld v 0 16 = 0 then v / 2 ^ 16 * 2 ^ 16 + fld y.trigCtl.toNat 0 16 else v) })
  else s

/-- CXL_PORT_STATUS FAILED by supervisor firmware, and the counter (R422, R423). -/
def cxlWrite (s : State) (who : Agent) (p o v : Nat) : State :=
  let m := fun (f : CxlPort → CxlPort) => { s with cxl := tmod {} p f s.cxl }
  match o with
  | 0x00 => if isSup who then m (fun x => { x with failed := bitOf v 62 }) else s
  | 0x48 => m (fun x => { x with integ := ackOvf x.integ v })
  | _ => s

/-- A write of the FAB_ block: RW fields by supervisor firmware only (R460 to R467). -/
def fabWrite (s : State) (who : Agent) (o v : Nat) : State :=
  let m := fun (f : Fabric → Fabric) => { s with fab := f s.fab }
  match o with
  | 0x2040 => m (fun f => { f with redCnt := ackOvf f.redCnt v })
  | 0x2100 => m (fun f => { f with lcrcCnt := ackOvf f.lcrcCnt v })
  | 0x2108 => m (fun f => { f with replayCnt := ackOvf f.replayCnt v })
  | 0x2110 => m (fun f => { f with ecrcCnt := ackOvf f.ecrcCnt v })
  | 0x2118 => m (fun f => { f with dropCnt := ackOvf f.dropCnt v })
  | 0x2120 => m (fun f => { f with scrubCnt := ackOvf f.scrubCnt v })
  | _ =>
    if !isSup who then s
    else if o = 0x10 then m (fun f => { f with arb := BitVec.ofNat 32 (weights f.arb.toNat v) })
    else if 0x100 ≤ o ∧ o < 0x200 then
      modPort s ((o - 0x100) / 8) (fun x => { x with dedicated := bitOf v 55, owner := BitVec.ofNat 4 (fld v 48 4) })
    else if 0x800 ≤ o ∧ o < 0x1000 then m (fun f => { f with grp := tput 0 ((o - 0x800) / 8) (routeForm false v) f.grp })
    else if 0x1000 ≤ o ∧ o < 0x1800 then m (fun f => { f with mbr := tput 0 ((o - 0x1000) / 8) (routeForm false v) f.mbr })
    else if 0x8000 ≤ o then m (fun f => { f with mc := tput 0 ((o - 0x8000) / 8) (routeForm true v) f.mc })
    else s

/-- Whether an agent is supervisor firmware or the lead die's control firmware (R605). -/
def isLead (s : State) (who : Agent) : Bool :=
  match who with
  | .sup => true
  | .ctl d _ => s.power.lead.held && decide (s.power.lead.die = d.val)
  | _ => false

/-- PWR_DEV_CTL: the hub passes a STANDBY request to the lead die's control firmware (R608). -/
def devCtlWrite (s : State) (v : Nat) : State :=
  if fld v 0 2 = 1 ∧ leadOk s then standbyRequest s s.power.lead.die s.power.lead.gen.toNat else s

/-- A write of the PWR_ block (R607 to R610); PWR_LIMIT is a shared action, and its reserved encodings leave their fields. -/
def pwrWrite (s : State) (who : Agent) (o v : Nat) : State :=
  match o with
  | 0x000 => if bitOf v 23 then modPower s (fun p => { p with refused := false }) else s
  | 0x008 => (match who with
    | .hostMgmt => devCtlWrite s v
    | w => if isLead s w then devCtlWrite s v else s)
  | 0x010 =>
    if isLead s who && leadOk s then
      modPower s (fun p => { p with
        limitW := if 800 ≤ fld v 0 16 ∧ fld v 0 16 ≤ 1600 then BitVec.ofNat 16 v else p.limitW
        tLimit := if 85 ≤ fld v 16 8 ∧ fld v 16 8 ≤ 110 then BitVec.ofNat 8 (fld v 16 8) else p.tLimit })
    else s
  | 0x018 => if isLead s who then modPower s (fun p => { p with retainAfter := BitVec.ofNat 24 v }) else s
  | 0x040 => modPower s (fun p => { p with limitCnt := ackOvf p.limitCnt v })
  | 0x048 => modPower s (fun p => { p with stepCnt := ackOvf p.stepCnt v })
  | 0x110 => (match who with
    | .ctl d _ => leadAck s d.val v
    | _ => s)
  | 0x118 => (match who with
    | .ctl d _ => leadRelease s d.val v
    | _ => s)
  | _ => s

/-- A write of a block other than a core window. -/
def blockWrite (s : State) (who : Agent) (b : RegBlock) (o v : Nat) : State :=
  match b with
  | .btn c => btnWrite s who c o v
  | .quag => if bitOf v 31 then modPart s (o / 8) (fun x => { x with sync := { x.sync with fired := false } }) else s
  | .cxl p => cxlWrite s who p o v
  | .fab => fabWrite s who o v
  | .clk => if o = 0x40 then modPower s (fun p => { p with switchCnt := ackOvf p.switchCnt v }) else s
  | .pwr => pwrWrite s who o v
  | .die d => dieWrite s who d o v
  | .fault d => faultWrite s d o v
  | .mire d => mireWrite s who d o v
  | .hbm k => hbmWrite s k o v
  | .tst d => tstWrite s who d o v
  | .sec | .mi | .tstHub | .logical _ | .physical _ | .none => s

/-- Whether an agent's accesses reach a block: firmware and the host's management mapping reach every block but the physical
windows, which are firmware's; an Awl core reaches the Bittern controllers and its partition's core windows (R248, R385, R397). -/
def reaches (s : State) (who : Agent) (b : RegBlock) : Bool :=
  match who with
  | .sup | .ctl .. => true
  | .hostMgmt => (match b with
    | .physical _ => false
    | _ => true)
  | .hostPage _ => false
  | .awl c _ => (match b with
    | .logical l => (partOfCore s c.val).isSome && decide (partOfCore s l = partOfCore s c.val)
    | .btn _ => true
    | _ => false)

/-- The user of the direct windows that an agent is, if any (R362). -/
def winUser : Agent → Option WinUser
  | .awl c a => some (.awl c a)
  | .ctl d k => some (.ctl d k)
  | _ => none

/-- A write of the register space, or of a slot of the direct windows (R13, R17, R248, R362). An Awl core's write where a Bittern controller has
no register is an error (R385). -/
def regWrite (s : State) (who : Agent) (a bytes v : Nat) : State :=
  let (b, o) := blockOf a
  if silenced s who then s
  else if (objectAt a).isSome then (match winUser who with
    | some u => windowStore s u a
    | none => s)
  else if !reaches s who b then s
  else
    match b with
    | .logical c => if inService s c then windowWrite s who (physOf s c) (some c) b o bytes v else regError s
    | .physical k => if (coreP s k).power = .off then s else windowWrite s who k (logicalOf s k) b o bytes v
    | _ => if wrongAccess s b o bytes then regError s else if (regAt s b o).isNone then (if isAwlAgent who then regError s else s) else blockWrite s who b o v

/-- What a read of the register space returns to an agent, and the state after it (R17, R248, R267, R381, R385, R397). The table has no row for
the reads of firmware and of Awl cores that act on nothing: this is their view (entry 46). Of a controller's registers an Awl core reads
CLAIM, COMPLETE and THRESHOLD of its own target. -/
def regRead (s : State) (who : Agent) (a bytes : Nat) : Nat × State :=
  let (b, o) := blockOf a
  if silenced s who || !reaches s who b then (0, s)
  else match who, b with
    | .awl _ _, .btn ctrl =>
      if 0x800 ≤ o ∧ o < 0x1000 ∧ o % 32 < 0x18 ∧ ownTarget who ctrl ((o - 0x800) / 32) then hostRegRead s a bytes else (0, regError s)
    | .awl c w, .logical l =>
      if l = c.val ∧ (o = 0x28 ∨ o = 0x30 ∨ o = 0x38) ∧ bytes = 4 then sqResv s c.val w.val ((o - 0x28) / 8) else hostRegRead s a bytes
    | _, .physical k =>
      if (coreP s k).power = .off then (0, s)
      else
        let s := wakeCore s k
        if wrongAccess s b o bytes then (0, regError s) else (((regAt s b o).map (·.2)).getD 0, s)
    | _, _ => hostRegRead s a bytes

/-- What a load of a slot of the direct windows returns at an offset: offset 0x00 is an ld, and any other load returns 0 and is an access
error of the object (R273, R362, R369). An Awl core of a core out of service gets nothing (R287). -/
def windowRead (s : State) (u : WinUser) (a bytes : Nat) : Nat × State :=
  let plain := decide (a % 64 = 0) && decide (bytes = 8)
  if userSilent s u then (0, s)
  else match objectAt a with
  | some (.eyelet e) => if plain && userEyelet s u e then (eyeletLoad s u e, s) else (0, refuseEyelet s u e)
  | some (.lace l) => if plain && (userLacePart s u l).isSome then (laceLoad s u l, s) else (0, laceFault (fireDie s (userDie u) 0x183) (userDie u) 30 l)
  | some (.tally t) => (match u with
    | .awl c _ => if plain && tallyReach s c.val t then (tallyLoad s c.val t, s) else (0, fireDie s (userDie u) 0x180)
    | .ctl _ _ => (0, fireDie s (userDie u) 0x180))
  | none => (0, s)

/-! ### Control pages (R480) -/

/-- A BASE field holds bits [51:12]; while ENABLE is 1 the write is dropped. -/
def baseValue (enabled : Bool) (old : BitVec 64) (v : Nat) : BitVec 64 :=
  if enabled then old else BitVec.ofNat 64 (fld v 12 40 * 4096)

/-- A write of a ring's register. -/
def ringWrite (s : State) (q r o v : Nat) : State :=
  match o with
  | 0x00 => modRing s q r (fun x => { x with sqBase := baseValue x.enable x.sqBase v })
  | 0x08 => modRing s q r (fun x => { x with cqBase := baseValue x.enable x.cqBase v })
  | 0x10 => ringCfgOp s q r v
  | 0x18 => ivtSqDbOp s q r (fld v 0 16)
  | 0x20 => ivtCqDbOp s q r (fld v 0 16)
  | _ => s

/-- A write of a register of control page q. -/
def pageWrite (s : State) (q o bytes v : Nat) : State :=
  if wrongPage s q o bytes then regError s
  else if 0x100 ≤ o ∧ o < 0x500 then ringWrite s q ((o - 0x100) / 0x40) (o % 0x40) v
  else match o with
    | 0x0800 => modPage s q (fun p => { p with ev := { p.ev with base := baseValue p.ev.enable p.ev.base v } })
    | 0x0808 => evCfgOp s q v
    | 0x0810 => evHeadOp s q (fld v 0 16)
    | 0x3000 => cwinDbOp s q (fld v 0 4)
    | 0x3010 => rwAckOp s q (fld v 0 16) (v / 2 ^ 32)
    | _ => s

/-- REGISTER_WRITE: a host page's agent writes its own control page, at an offset within it; any other agent writes the
register space. -/
def registerWriteOp (s : State) (who : Agent) (a bytes v : Nat) : State :=
  match who with
  | .hostPage q => pageWrite s q.val a bytes v
  | w => regWrite s w a bytes v

def execRegisterWrite (who : Agent) (a : BitVec 48) (bytes : BitVec 8) (v : BitVec 64) (s : State) : Host.Outcome State Fault Refusal :=
  .next (registerWriteOp s who a.toNat bytes.toNat v.toNat)

end Sys2Proof.Machine
end

