-- ==== Sys2Proof/Machine/HostLines.lean ====
section
/-! DEFINITION. The aperture that the host sees (R478), and the coherence messages by which the host reads, caches and writes
device lines (R474 to R477, R484, R498, R509). -/
namespace Sys2Proof.Machine

/-! ### What the aperture holds -/

/-- The identity window from its first byte: the header of R509 and, at offset 0x100, the capability list. -/
def identityBytes (s : State) : List Byte :=
  let l := if s.sec.akReady then capList s else []
  [0x03] ++ leBytes 1 Config.revision.toNat ++ leBytes 2 (b2n s.sec.akReady) ++ slice (ascii "BL3-SK16") 0 12 ++ deviceId ++
  leBytes 4 (hdrVersion (runHeader s 1)) ++ leBytes 4 (hdrVersion (runHeader s 2)) ++ leBytes 4 (hdrVersion (runHeader s 3)) ++
  leBytes 2 0x100 ++ leBytes 2 l.length ++ zeros 24 ++ zeros 192 ++ l

/-- A region of the aperture with the offset within it (R478): the identity window, a control page's command windows or its
registers, window h of a pool, the register space, or an offset that holds nothing. -/
inductive Region where
  | identity (o : Nat) | slots (q o : Nat) | page (q o : Nat) | pool (q h o : Nat) | regs (a : Nat) | nothing
deriving DecidableEq, Repr

def apertureOf (a : Nat) : Region :=
  if a < 0x10000 then .identity a
  else if a < 0x120000 then
    let q := (a - 0x10000) / 0x10000
    let o := a % 0x10000
    if 0x1000 ≤ o ∧ o < 0x3000 then .slots q (o - 0x1000) else .page q o
  else if 0x100000000 ≤ a ∧ a < 0x100000000 + 0x40000000 * 17 then
    let q := (a - 0x100000000) / 0x40000000
    let o := (a - 0x100000000) % 0x40000000
    if o < 0x20000000 then .pool q (o / 8192) (o % 8192) else .nothing
  else if 0x1000000000 ≤ a ∧ a < 0x1000000000 + 0x10000000000 then .regs (a - 0x1000000000 + 0x0F0000000000)
  else .nothing

/-- What window h of pool q reads as from its first byte (R498): the header as stored, and the record while it is READY. A pool
reads zeros while its partition is scrubbed (R521). -/
def windowView (s : State) (q h : Nat) : List Byte :=
  match (page s q).pool with
  | none => []
  | some k =>
    let w := poolWindow k h
    if k.count ≤ h ∨ (q < 16 ∧ (part s q).pstate = .scrubbing) then []
    else windowBytes w ++ (if w.state = .ready then w.record else [])

/-- What `n` bytes at an aperture offset read as, and the state after the read. A register reads by its own width alone (R17). -/
def apertureRead (s : State) (a n : Nat) : List Byte × State :=
  match apertureOf a with
  | .identity o => (slice (identityBytes s) o n, s)
  | .slots q o => (tgets 0 n (o % 512) (slot s q (o / 512)).bytes, s)
  | .page q o =>
    if wrongPage s q o n then (zeros n, regError s) else (leBytes n (((pageReg s q o).map (·.2)).getD 0), s)
  | .pool q h o => (slice (windowView s q h) o n, s)
  | .regs r =>
    let (v, s) := hostRegRead s r n
    (leBytes n v, s)
  | .nothing => (zeros n, s)

/-! ### Channels (R475) -/

/-- The four channels of the Ivtu messages. -/
inductive Channel where
  | req | snp | rsp | msg
deriving DecidableEq, Repr

/-- The channel on which the device sends a message; none for what it does not send over Ivtu. The device holds lines in S alone (R474), so that
it never sends InvData, ShrData, RdM or WbM. -/
def channelOf : Out → Option Channel
  | .rdS _ | .rdCur .. | .wrCur .. => some .req
  | .snpInv _ => some .snp
  | .dataS .. | .dataM .. | .cmp .. | .invAck _ => some .rsp
  | .notify _ | .intr _ => some .msg
  | .frame .. | .ret .. | .retCtl .. | .read _ | .mgmt .. | .report _ | .pin .. => none

/-! ### Lines that the host holds -/

def lineOf (a : Nat) : Nat := a / 64 * 64

/-- The page, slot and packet line of a line address, if it is one (R484). -/
def heldSlot (s : State) (a : Nat) : Bool :=
  match slotLine a with
  | some (q, i, l) => tget false l (slot s q i).heldS || tget false l (slot s q i).heldM
  | none => false

/-- Whether the host holds the line of an aperture offset, as the device records it (R475). -/
def hostHolds (s : State) (a : Nat) : Bool :=
  match apertureOf (lineOf a) with
  | .identity o => tget false (o / 64) s.ivtu.idLines
  | .slots _ _ => heldSlot s (lineOf a)
  | .pool q h o => tget false ((q * 65536 + h) * 128 + o / 64) s.ivtu.poolLines
  | _ => false

/-- Record that the host holds a line in S, of the identity window or of a pool (R474). -/
def holdShared (s : State) (a : Nat) : State :=
  match apertureOf a with
  | .identity o => { s with ivtu := { s.ivtu with idLines := tput false (o / 64) true s.ivtu.idLines } }
  | .pool q h o => { s with ivtu := { s.ivtu with poolLines := tput false ((q * 65536 + h) * 128 + o / 64) true s.ivtu.poolLines } }
  | _ => s

/-- RdS: the line in S. Lines that are not cacheable are read, and not recorded as held (R474, R478). -/
def rdSOp (s : State) (a : Nat) : State :=
  if !s.ivtu.up then s
  else match slotLine a with
    | some (q, i, l) => askLine s q i l false
    | none =>
      let (d, s) := apertureRead s a 64
      send (holdShared s a) (.dataS a d)

def execRds (a : BitVec 52) (s : State) : Host.Outcome State Fault Refusal := .next (rdSOp s (lineOf a.toNat))

/-- Refuse a request: Cmp with ERR, and the hub's Ivtu protocol-error source (R477). -/
def refuseLine (s : State) (a : Nat) : State := send (fireHub s 0x101) (.cmp a true [])

/-- RdM: a command-window packet line in M; any other line is refused (R477). -/
def rdMOp (s : State) (a : Nat) : State :=
  if !s.ivtu.up then s
  else
    match slotLine a with
    | some (q, i, l) => askLine s q i l true
    | none => refuseLine s a

def execRdm (a : BitVec 52) (s : State) : Host.Outcome State Fault Refusal := .next (rdMOp s (lineOf a.toNat))

/-- WbM: the host returns a line that it holds in M; for a line that it does not hold in M the data is not taken. -/
def wbMOp (s : State) (a : Nat) (data : List Byte) : State :=
  if !s.ivtu.up then s
  else
    match slotLine a with
    | some (q, i, l) => if tget false l (slot s q i).heldM then send (slotData s q i l data) (.cmp a false []) else send s (.cmp a true [])
    | none => send s (.cmp a true [])

def execWbm (a : BitVec 52) (data : List Byte) (s : State) : Host.Outcome State Fault Refusal := .next (wbMOp s (lineOf a.toNat) data)

/-- RdCur: up to 64 bytes, uncached. -/
def execRdcur (a : BitVec 52) (len : BitVec 7) (s : State) : Host.Outcome State Fault Refusal :=
  if !s.ivtu.up then .next s
  else
    let (d, s) := apertureRead s a.toNat (min 64 len.toNat)
    .next (send s (.cmp a.toNat false d))

/-! ### WrCur -/

/-- The offsets of the bytes that a mask selects. -/
def selectedBytes (mask : Nat) : List Nat := (List.range 64).filter (fun i => bitOf mask i)

/-- Write one byte of a command-window slot: only packet bytes are the host's to write (R484). -/
def slotByteWrite (s : State) (a : Nat) (b : Byte) : State :=
  match slotLine a with
  | some (q, i, l) => modSlot s q i (fun x => { x with bytes := tput 0 (64 * l + a % 64) b x.bytes })
  | none => s

/-- The width of a register access: the selected bytes when they are consecutive; otherwise no register has it. -/
def runWidth (l : List Nat) : Nat :=
  match l.head?, l.getLast? with
  | some lo, some hi => if hi + 1 - lo = l.length then l.length else 0
  | _, _ => 0

/-- WrCur of the selected bytes, the first of them at offset `lo` from the address. -/
def wrCurOp (s : State) (a mask : Nat) (data : List Byte) : State :=
  let sel := selectedBytes mask
  let lo := sel.head?.getD 0
  let n := runWidth sel
  let v := leNat (slice data lo n)
  match apertureOf (a + lo) with
  | .slots _ _ => sel.foldl (fun s i => slotByteWrite s (a + i) (data.getD i 0)) s
  | .page q o => pageWrite s q o n v
  | .regs r => regWrite s .hostMgmt r n v
  | _ => s

/-- WrCur (R475): refused where the host itself holds a line that it writes (R477). -/
def hostWriteCur (s : State) (a mask : Nat) (data : List Byte) : State :=
  if !s.ivtu.up then s
  else if (selectedBytes mask).isEmpty then send s (.cmp a false [])
  else if (selectedBytes mask).any (fun i => hostHolds s (a + i)) then refuseLine s a
  else send (wrCurOp s a mask data) (.cmp a false [])

def execWrcur (a : BitVec 52) (mask : BitVec 64) (data : List Byte) (s : State) : Host.Outcome State Fault Refusal :=
  .next (hostWriteCur s a.toNat mask.toNat data)

end Sys2Proof.Machine
end

