-- ==== Sys2Proof/Machine/MemEvents.lean ====
section
/-! DEFINITION. The memory system's own events: the end of a merge window (R408) and the loss of a CXL link (R404). -/
namespace Sys2Proof.Machine

/-- A merge entry of a bank ends, and MIRE_MERGE_CNT counts the reads that joined it: which reads meet within its 32 main cycles, and
which write closed it sooner, is timing, so their number is a free value (R408, R422). With EN 0 no read has joined (R421). -/
def mergeEnds (s : State) (bank : Nat) : State :=
  let d := bank / 32
  let (v, s) := freeNat s
  let n := if (die s d).mergeEn then v else 0
  let c := (die s d).mergeCnt
  fireIfEnabled (modDie s d (fun x => { x with mergeCnt := cntAdd c n })) (cntWraps c n) (d + 1) 0x30A

def execMergeWindowExpiry (bank : Fin 64) (_line : BitVec 42) (s : State) : Host.Outcome State Fault Refusal := .next (mergeEnds s bank.val)

/-- The link of a CXL port goes down: FAILED, and source 0x120 + p; every later far access through the port fails (R404, R423). -/
def cxlDown (s : State) (p : Nat) : State :=
  let x : CxlPort := tget {} p s.cxl
  if !x.linkUp then s
  else fireHub { s with cxl := tput {} p { x with linkUp := false, down := true, failed := true } s.cxl } (0x120 + p)

def execCxlLinkDown (p : Fin 2) (s : State) : Host.Outcome State Fault Refusal := .next (cxlDown s p.val)

end Sys2Proof.Machine
end

