-- ==== Sys2Proof/Machine/Optim.lean ====
section
/-! DEFINITION. OPT_UPDATE (R303 to R305): arithmetic in FP32 or A48, the two update rules, and the results' stores. -/
namespace Sys2Proof.Machine

/-! ### Arithmetic in the ARITH format (R304) -/

/-- The FP32 format. -/
def fp32 : LinFmt := ⟨8, 23, 127, true, 0x7FC00000⟩

/-- The value of a code of the ARITH format: A48, or FP32. -/
def arDec (a48 : Bool) (c : Nat) : Val := if a48 then a48Dec c else linDec fp32 c

/-- Round a value to the ARITH format, to nearest even. -/
def arEnc (a48 : Bool) (x : Val × Flags) : Nat × Flags :=
  let (c, f) := if a48 then toA48 none x.1 else linEnc fp32 false none x.1
  (c, f ||| x.2)

/-- The exact quotient of two values with a sticky last bit; x / 0 is ±∞, and 0 / 0 and ∞ / ∞ have no numeric result. -/
def valDiv (a b : Val) : Val × Flags :=
  match a, b with
  | .nan _, _ => (.nan false, 0)
  | _, .nan _ => (.nan false, 0)
  | .inf _, .inf _ => (.nan false, fInvalid)
  | .inf x, v => (.inf (xor x (valNeg v)), 0)
  | v, .inf y => (.zero (xor (valNeg v) y), 0)
  | .zero _, .zero _ => (.nan false, fInvalid)
  | .zero x, v => (.zero (xor x (valNeg v)), 0)
  | v, .zero y => (.inf (xor (valNeg v) y), 0)
  | .fin n m e, .fin n' m' e' =>
    let k := 66 + Nat.log2 m'
    let q := (m <<< k) / m'
    (.fin (xor n n') (2 * q + b2n (decide (q * m' ≠ m <<< k))) (e - e' - k - 1), 0)
  | .log n t, _ => (.log n t, 0)
  | v, .log _ _ => (v, 0)

/-- The square root with a sticky last bit; a negative value has no numeric result. -/
def valSqrt (a : Val) : Val × Flags :=
  match a with
  | .nan _ => (.nan false, 0)
  | .zero n => (.zero n, 0)
  | .inf n => if n then (.nan false, fInvalid) else (.inf false, 0)
  | .fin n m e =>
    if n then (.nan false, fInvalid)
    else
      let (m, e) := if e % 2 = 0 then (m, e) else (2 * m, e - 1)
      let x := m <<< 128
      let q := Nat.sqrt x
      (.fin false (2 * q + b2n (decide (q * q ≠ x))) (e / 2 - 64 - 1), 0)
  | .log n t => (.log n t, 0)

/-- The exact power of a value by t ≥ 1. -/
def valPow (a : Val) (t : Nat) : Val :=
  match a with
  | .zero n => .zero (n && t % 2 == 1)
  | .inf n => .inf (n && t % 2 == 1)
  | .fin n m e => .fin (n && t % 2 == 1) (m ^ t) (e * (t : Int))
  | v => v

def valOpp : Val → Val
  | .zero n => .zero (!n)
  | .inf n => .inf (!n)
  | .fin n m e => .fin (!n) m e
  | v => v

/-- An operand or result of the update: its code, with the flags raised on the way to it. -/
abbrev Ar := Nat × Flags

def arAdd (k : Bool) (a b : Ar) : Ar := let (c, f) := arEnc k (valAdd (arDec k a.1) (arDec k b.1)); (c, f ||| a.2 ||| b.2)
def arSub (k : Bool) (a b : Ar) : Ar := let (c, f) := arEnc k (valAdd (arDec k a.1) (valOpp (arDec k b.1))); (c, f ||| a.2 ||| b.2)
def arMul (k : Bool) (a b : Ar) : Ar := let (c, f) := arEnc k (valMul (arDec k a.1) (arDec k b.1)); (c, f ||| a.2 ||| b.2)
def arDiv (k : Bool) (a b : Ar) : Ar := let (c, f) := arEnc k (valDiv (arDec k a.1) (arDec k b.1)); (c, f ||| a.2 ||| b.2)
def arSqrt (k : Bool) (a : Ar) : Ar := let (c, f) := arEnc k (valSqrt (arDec k a.1)); (c, f ||| a.2)
def arPow (k : Bool) (a : Ar) (t : Nat) : Ar := let (c, f) := arEnc k (valPow (arDec k a.1) t, 0); (c, f ||| a.2)
/-- A value brought into the ARITH format. -/
def arOf (k : Bool) (v : Val) : Ar := arEnc k (v, 0)
/-- 1 in the ARITH format. -/
def arOne (k : Bool) : Ar := arOf k (.fin false 1 0)

/-! ### The update of one position (R304) -/

/-- The command's scalars in the ARITH format. -/
structure OptK where
  a48   : Bool
  adam  : Bool
  nest  : Bool
  hasM  : Bool
  t     : Nat
  scale : Ar
  lr    : Ar
  b1    : Ar
  b2    : Ar
  eps   : Ar
  wd    : Ar

/-- w, m and v of a position from its gradient and old values. -/
def optStep (k : OptK) (g w m v : Ar) : Ar × Ar × Ar :=
  let (add, sub, mul, div) := (arAdd k.a48, arSub k.a48, arMul k.a48, arDiv k.a48)
  let one := arOne k.a48
  let g := mul g k.scale
  if !k.adam then
    let m := if k.hasM then add (mul k.b1 m) g else g
    let d := if k.nest then add g (mul k.b1 m) else m
    (sub w (mul k.lr (add d (mul k.wd w))), m, (0, 0))
  else
    let m := add (mul k.b1 m) (mul (sub one k.b1) g)
    let v := add (mul k.b2 v) (mul (mul (sub one k.b2) g) g)
    let mh := div m (sub one (arPow k.a48 k.b1 k.t))
    let vh := arSqrt k.a48 (div v (sub one (arPow k.a48 k.b2 k.t)))
    (sub w (mul k.lr (add (div mh (add vh k.eps)) (mul k.wd w))), m, v)

/-- The results of the positions by seen index: w, m and v, +0 where a mask excludes a position; with the flags raised. -/
def optSteps (k : OptK) (gs ws ms vs : List Val) (mask : List Bool) : List (Nat × Nat × Nat) × Flags :=
  let l := (List.range gs.length).map (fun i =>
    if !mask.getD i true then ((0, 0, 0), (0 : Flags))
    else
      let x := fun (l : List Val) => arOf k.a48 (l.getD i (.zero false))
      let (w, m, v) := optStep k (x gs) (x ws) (x ms) (x vs)
      ((w.1, m.1, v.1), w.2 ||| m.2 ||| v.2))
  (l.map (·.1), l.foldl (fun f x => f ||| x.2) 0)

/-! ### The command (R303) -/

/-- Store results into one tensor, block by block or tile by tile: its status. -/
def optStore (r : Run) (a48 : Bool) (d : Desc) (f : List Nat → Nat) : Status × Run :=
  let se : Elem := if a48 then .a48 else .fp32
  let g := fun (ix : List Nat) => some ({ code := f (seenIx d ix) } : SrcEl)
  if isDense d then
    let (ws, r) := denseWrs r se d g
    (.ok, doWrs r (joinWrs ws))
  else storeTiles r se (loadRec r.s r.p d) d g (List.range (tileCount d.elem d.ext))

/-- Store into the written tensors one after another until one does not fit. -/
def optStores (r : Run) (a48 : Bool) : List (Desc × (List Nat → Nat)) → Status × Run
  | [] => (.ok, r)
  | (d, f) :: rest =>
    match optStore r a48 d f with
    | (.ok, r) => optStores r a48 rest
    | x => x

/-- R229 for the pairs of a tensor that is read and another that is written. -/
def optAlias (s : State) (p : Nat) (rs ws : List Desc) : Bool :=
  rs.any (fun r => ws.any (fun w => decide (r.addr ≠ w.addr) && !w.alias_ && overlap s p r w))

/-- The multicast that follows an update (R304): the gather entry whose LOCAL_DESC and group match names the distribution record;
it is sent now, or held for a mask decision (R302). A working copy that no gather entry names goes with a grid number that is not
stated. -/
def optMcast (r : Run) (d : Desc) (mc step : Nat) : Run :=
  let gs := match job r.s r.p with
    | some j => j.gathers
    | none => []
  match gs.find? (fun g => decide (gaMcast g = mc) && decide ((gaDist g).ldesc = d.addr)) with
  | some g =>
    let a := at_ g.entry 0 8
    if paramHolds r.s r.p step then
      { r with s := modJob r.s r.p (fun j => { j with mcasts := j.mcasts ++ [{ step := step, dist := a, mc := mc }] }) }
    else
      match (gaDist g).devs.findIdx? (· == r.s.fab.addr.toNat) with
      | some grid => mcastShard r d mc step grid
      | none => r
  | none =>
    let (v, r) := rChoice r
    if paramHolds r.s r.p step then
      let m : HeldMcast := { step := step, dist := 0, mc := mc, desc := d.addr, grid := v % 65536 }
      { r with s := modJob r.s r.p (fun j => { j with mcasts := j.mcasts ++ [m] }) }
    else mcastShard r d mc step (v % 65536)

/-- Whether this device may multicast a working copy: it owns the shard wherever a gather entry names it (R344). -/
def optOwner (s : State) (p : Nat) (d : Desc) (mc : Nat) : Bool :=
  match job s p with
  | none => true
  | some j => match j.gathers.find? (fun g => decide (gaMcast g = mc) && decide ((gaDist g).ldesc = d.addr)) with
    | some g => (match (gaDist g).devs.findIdx? (· == s.fab.addr.toNat) with
      | some grid => isOwner (gaDist g) grid
      | none => false)
    | none => true

/-- The update of tensors that have passed their checks. -/
def optRun (s : State) (c : Cmd) (q : OptUpdateP) (gd wd_ : Desc) (md vd od : Option Desc) : Res :=
  let p := c.part.getD 16
  let a48 := bitOf q.ctl.toNat 1
  let ws := [some wd_, md, vd, od].filterMap id
  let hot := ws.find? (fun w => w.alias_ && ([some gd, some wd_, md, vd].filterMap id).any (fun r => decide (r.addr ≠ w.addr) && overlap s p r w))
  let r := withHot (newRun s c ([3] ++ if ws.all isDense && isDense gd then [] else [4])) hot
  let load := fun (r : Run) (d : Option Desc) => match d with
    | some d => let (vs, r) := loadEls r d; (vs.map (srcVal d.elem), r)
    | none => ([], r)
  let (gs, r) := load r (some gd)
  let (w0, r) := load r (some wd_)
  let (m0, r) := load r md
  let (v0, r) := load r vd
  let n := maskBytes (seenExt gd)
  let ma := q.maskAddr.toNat
  let (mb, r) := if ma = 0 then ([], r) else rRead r r.s ma n
  let (sb, r) := if q.scaleAddr = 0 then (leBytes 4 0x3F800000, r) else rRead r r.s q.scaleAddr.toNat 4
  let r := { r with hot := none }
  let k := fun (x : BitVec 32) => arOf a48 (linDec fp32 x.toNat)
  let z : OptK := { a48 := a48, adam := decide (q.algo = 1), nest := bitOf q.ctl.toNat 0, hasM := md.isSome, t := q.t.toNat,
                    scale := arOf a48 (linDec fp32 (leNat sb)), lr := k q.lr, b1 := k q.betaOne, b2 := k q.betaTwo, eps := k q.eps, wd := k q.wd }
  let (r, residue) := runResidues r
  if r.bad || r.stop || residue.isSome || gs.isEmpty then finishRun r residue .ok 0 []
  else
    let (res, fl) := optSteps z gs w0 m0 v0 (if ma = 0 then [] else maskBits mb (seenExt gd))
    let r := { r with wl := r.wl ||| fl, unit := r.unit ||| fl }
    let out := fun (f : Nat × Nat × Nat → Nat) (ix : List Nat) => f (res.getD (flatIx (seenExt gd) ix) (0, 0, 0))
    let jobs : List (Desc × (List Nat → Nat)) :=
      [some (wd_, out (·.1)), md.map (·, out (·.2.1)), vd.map (·, out (·.2.2)), od.map (·, out (·.1))].filterMap id
    let step := (stepOf s p + 1) % 2 ^ 64
    let (st, r) := optStores r a48 jobs
    let r := match od with
      | some d => if bitOf q.ctl.toNat 2 && decide (st = .ok) then optMcast r d q.mcast.toNat step else r
      | none => r
    let x := finishRun r none st 0 []
    if x.st = .ok then { x with s := streamItems x.s p ws } else x

/-- The formats and shapes of R303. -/
def optShape (gd wd_ : Desc) (md vd od : Option Desc) : Bool :=
  let same := fun (d : Desc) => decide (d.rank = gd.rank) && decide (seenExt d = seenExt gd)
  let ok := fun (d : Option Desc) (f : Elem → Bool) => match d with
    | some d => same d && f d.elem
    | none => true
  let wide := fun (e : Elem) => decide (e = .a48) || decide (e = .fp32)
  let single := fun (e : Elem) => decide (e = .fp32)
  wide gd.elem && ok (some wd_) wide && ok md single && ok vd single && ok od (fun e => decide (e ≠ .a48) && !elemInt e)

/-- Which of the optional tensors an OPT_UPDATE names. -/
def optHasM (q : OptUpdateP) : Bool := decide (q.mDesc ≠ 0)
def optHasV (q : OptUpdateP) : Bool := decide (q.algo = 1) && decide (q.vDesc ≠ 0)
def optHasO (q : OptUpdateP) : Bool := decide (q.outDesc ≠ 0)

/-- The descriptors of an OPT_UPDATE, and whether it writes each. -/
def optList (q : OptUpdateP) : List (Nat × Bool) :=
  [(q.gradDesc.toNat, false), (q.masterDesc.toNat, true)] ++ (if optHasM q then [(q.mDesc.toNat, true)] else []) ++
  (if optHasV q then [(q.vDesc.toNat, true)] else []) ++ (if optHasO q then [(q.outDesc.toNat, true)] else [])

/-- The checks of an OPT_UPDATE before those of R225 (R663). -/
def optFirst (s : State) (p : Nat) (q : OptUpdateP) : List (Bool × Status × Nat) :=
  [(decide (q.maskAddr.toNat ≠ 0) && !regionOk s p q.maskAddr.toNat 1 1 false, .badParam, 0),
   (decide (q.scaleAddr.toNat ≠ 0) && !regionOk s p q.scaleAddr.toNat 4 4 false, .badParam, 0)]

/-- The checks of an OPT_UPDATE after those of R225 (R303). -/
def optChecks (s : State) (p : Nat) (q : OptUpdateP) (gd wd_ : Desc) (md vd od : Option Desc) : List (Bool × Status × Nat) :=
  let ctl := q.ctl.toNat
  let ma := q.maskAddr.toNat
  [(optAlias s p ([some gd, some wd_, md, vd].filterMap id) ([some wd_, md, vd, od].filterMap id), .aliasWrite, 9),
   (decide (1 < q.algo.toNat) || decide (7 < ctl) || decide (q.rsvdA ≠ 0) ||
     (decide (q.algo = 1) && (!optHasM q || !optHasV q || decide (q.t = 0))) ||
     (bitOf ctl 2 && (!optHasO q || decide (4096 ≤ q.mcast.toNat))), .badParam, 0),
   (!optShape gd wd_ md vd od, .badDescriptor, 0),
   (decide (ma ≠ 0) && !regionOk s p ma (maskBytes (seenExt gd)) 1 false, .badParam, 0),
   (bitOf ctl 2 && !(match od with
     | some d => optOwner s p d q.mcast.toNat
     | none => true), .denied, 0)]

def bodyOptUpdate (q : OptUpdateP) (s : State) (c : Cmd) : Res :=
  let p := c.part.getD 16
  checked s (optFirst s p q) fun _ =>
    match checkAll s p (optList q) [] with
    | .error (st, n) => { s := s, st := st, detail := n }
    | .ok (gd :: wd_ :: rest) =>
      let md := if optHasM q then rest[0]? else none
      let vd := if optHasV q then rest[b2n (optHasM q)]? else none
      let od := if optHasO q then rest[b2n (optHasM q) + b2n (optHasV q)]? else none
      let ws := [some wd_, md, vd, od].filterMap id
      checked s (optChecks s p q gd wd_ md vd od) fun _ =>
        if ckptHoldsDescs s p ws then { s := s, wait := some (.ckptHeld p) } else optRun s c q gd wd_ md vd od
    | .ok _ => { s := s }

def execOptUpdate (h : Hdr) (p : OptUpdateP) (s : State) : Host.Outcome State Fault Refusal :=
  command (.optUpdate h p) { op := 0x0306, n := 96, runs := .s } h (packetBytes 0x0306 h (bytesOptUpdate p)) (bodyOptUpdate p) s

end Sys2Proof.Machine
end

