-- ==== Sys2Proof/Machine/Secure.lean ====
section
/-! DEFINITION. Attestation, session agreement, firmware staging and activation, and configuration writes (R535 to R545). -/
namespace Sys2Proof.Machine

/-! ### ATTEST (R538 to R541) -/

/-- Bytes 0 to 383 of a report; `part` is 0xFF for the device alone (R539). -/
def reportBody (s : State) (part_ : Nat) (nonce : List Byte) : List Byte :=
  let p := if part_ = 0xFF then 16 else part_
  let x := part s p
  let svn := fun (i : Nat) => leBytes 4 (hdrSvn (runHeader s i))
  leBytes 2 5 ++ leBytes 2 1 ++ leBytes 4 6540 ++ deviceId ++ nonce ++ leBytes 1 part_ ++ leBytes 1 (b2n (bound s p)) ++
  leBytes 1 (b2n x.protected_) ++ zeros 5 ++ leBytes 8 (if bound s p then x.session else 0) ++ runMeas s 1 ++ runMeas s 2 ++ runMeas s 3 ++
  sha (cfgBytes (cfgBlock s)) ++ (match x.agreement with
                                   | some a => slice a.transcript 0 32
                                   | none => zeros 32) ++ svn 1 ++ svn 2 ++ svn 3 ++ zeros 4 ++ zeros 80 ++ slice (bindRec s p) 0 64

/-- The report with its signature, the AK public key and its certificate. -/
def report (s : State) (part_ : Nat) (nonce : List Byte) : List Byte :=
  let body := reportBody s part_ nonce
  body ++ sign (akSeed s) (sha body) ++ zeros 4 ++ akPub s ++ akCert s

/-- The IDENTITY record (R540). -/
def identityRecord : List Byte := dikPub ++ slice Config.vendorCert 0 2420

/-- Whether the device defers reports: its measured set is changing (R541). -/
def measChanging (s : State) : Bool := s.sec.changing || s.mi.changing

def bodyAttest (q : AttestP) (s : State) (c : Cmd) : Res :=
  let n := q.part.toNat
  let foreign := match c.part with
    | some k => decide (n ≠ k)
    | none => false
  checked s [(decide (1 < q.op.toNat) || decide (q.rsvdA ≠ 0) || (decide (16 ≤ n) && decide (n ≠ 0xFF)), .badParam, 0), (foreign, .denied, 0)] fun _ =>
    if q.op = 1 then { s := s, record := identityRecord }
    else if n < 16 ∧ ((part s n).busy ∨ bindWaits s n) then { s := s, st := .partitionResetting }
    else if measChanging s then
      let (v, s) := freeNat s
      { s := s, st := .attestDeferred, detail := 1 + v % (2 ^ 32 - 1) }
    else { s := s, record := report s n (leBytes 32 q.nonce.toNat) }

def execAttest (h : Hdr) (p : AttestP) (s : State) : Host.Outcome State Fault Refusal :=
  command (.attest h p) { op := 0x0704, n := 40, runs := .f, needPart := false, rec_ := 6540 } h
    (packetBytes 0x0704 h (bytesAttest p)) (bodyAttest p) s

/-! ### SESSION_AGREE (R542, R545) -/

/-- The agreement and the record that an encapsulation key gives: CT, SESSION, TRANSCRIPT, SIG. -/
def agree (s : State) (part_ session : Nat) (nonce ek : List Byte) : Agreement × List Byte × State :=
  let (ct, ss) := Config.mlkemEncaps ek s.freeIx
  let s := { s with freeIx := s.freeIx + 1 }
  let ct := slice ct 0 1088
  let t := sha (deviceId ++ leBytes 1 part_ ++ leBytes 8 session ++ nonce ++ ek ++ ct)
  let a : Agreement := { transcript := t, secret := Config.kmac (slice ss 0 32) t (ascii "SESSION") 32, active := true }
  (a, ct ++ leBytes 8 session ++ t ++ sign (akSeed s) t, s)

/-- The operator's signature on a management interface: the last 2,420 bytes of the frame's objects, by the operator key. -/
def operatorSigned (s : State) (h : Hdr) (ek nonce : List Byte) : Bool :=
  match cfgItem s idOperatorKey with
  | some k => Config.mldsaVerify (slice k 0 1312) (sha (ek ++ nonce ++ deviceId)) (h.objs.drop (h.objs.length - 2420))
  | none => false

/-- The management form: a session on the interface that carried the command. -/
def agreeMgmt (q : SessionAgreeP) (s : State) (c : Cmd) (k : Nat) : Res :=
  let nonce := leBytes 32 q.nonce.toNat
  let ek := mgmtRead s c q.ekAddr.toNat 1184
  if !operatorSigned s c.h ek nonce then { s := fireHub s 0x146, st := .denied }
  else if !Config.mlkemCheck ek then { s := s, st := .badParam }
  else
    let n := tget 0 k s.mgmtCount + 1
    let (a, r, s) := agree s 0xFF n nonce ek
    { s := { s with mgmtSess := tput none k (some a) s.mgmtSess, mgmtCount := tput 0 k n s.mgmtCount }, record := r }

/-- The tenant's form: its partition is PROTECTED from the next command on. -/
def agreePart (q : SessionAgreeP) (s : State) (p : Nat) : Res :=
  let nonce := leBytes 32 q.nonce.toNat
  let a := q.ekAddr.toNat
  let ek := partRead s p a 1184
  checked s [(!regionOk s p a 1184 1 false, .badParam, 0), ((part s p).agreement.isSome, .contextBusy, 0),
      (partPoisoned s p a 1184, .integrityFail, 0), (!Config.mlkemCheck ek, .badParam, 0)] fun _ =>
    let (g, r, s) := agree s p (part s p).session nonce ek
    { s := modPart s p (fun x => { x with agreement := some g, protected_ := true }), record := r }

def bodySessionAgree (q : SessionAgreeP) (s : State) (c : Cmd) : Res :=
  match c.h.via, c.part with
  | .mgmt m, none => agreeMgmt q s c (if m = .i3c then 0 else 1)
  | .ring _ _ _, some p => if hdrCtx c.h = 0x10001 then agreePart q s p else { s := s, st := .denied }
  | .slot _ _ _, some p => if hdrCtx c.h = 0x10001 then agreePart q s p else { s := s, st := .denied }
  | _, _ => { s := s, st := .denied }

def execSessionAgree (h : Hdr) (p : SessionAgreeP) (s : State) : Host.Outcome State Fault Refusal :=
  command (.sessionAgree h p) { op := 0x0705, n := 40, runs := .f, needPart := false, rec_ := 3548 } h
    (packetBytes 0x0705 h (bytesSessionAgree p)) (bodySessionAgree p) s

/-! ### FW_STAGE and FW_ACTIVATE (R533 to R536, R569) -/

/-- Whether a header is that of image i, of a length that BYTES gives (R534). -/
def imageHeaderOk (h : List Byte) (i bytes : Nat) : Bool :=
  decide (at_ h 0 2 = 7) && decide (at_ h 2 1 = i) && decide (at_ h 3 1 = 0) && decide (at_ h 12 4 = 0) && decide (at_ h 56 8 = 0) &&
  decide (bytes = 64 + at_ h 16 8 + 2420)

/-- Bytes of an image's slot (R530). -/
def slotSize (i : Nat) : Nat := if i = 1 then 16 * 2 ^ 20 else if i = 2 then 32 * 2 ^ 20 else 8 * 2 ^ 20
/-- The floor of an image (R533, R569). -/
def floorOf (s : State) (i : Nat) : Nat := if i = 1 then s.sec.supFloor else if i = 2 then s.sec.ctlFloor else s.mi.floor
/-- The slot that FW_STAGE writes: the one that SUP_NEXT or CTL_NEXT does not name, or the one that the MI does not run. -/
def stageSlot (s : State) (i : Nat) : Nat := if i = 1 then 1 - s.sec.supNext else if i = 2 then 1 - s.sec.ctlNext else 1 - s.mi.slot

/-- Write an image's slot and note whether a verified image is staged there. -/
def putSlot (s : State) (i : Nat) (x : FwSlot) : State :=
  let k := stageSlot s i
  if i = 1 then { s with sec := { s.sec with sup := tput {} k x s.sec.sup, supStaged := x.valid } }
  else if i = 2 then { s with sec := { s.sec with ctl := tput {} k x s.sec.ctl, ctlStaged := x.valid } }
  else { s with mi := { s.mi with slots := tput {} k x s.mi.slots, staged := x.valid } }

/-- Whether the slot to write holds the running image, as between FW_ACTIVATE and the start-up that follows. -/
def slotRuns (s : State) (i : Nat) : Bool :=
  (decide (i = 1) && decide (stageSlot s 1 = s.sec.supSlot)) || (decide (i = 2) && decide (stageSlot s 2 = s.sec.ctlSlot))

/-- FW_STAGE ends: source 0x143 and FW_STAGED. -/
def staged (s : State) (i version : Nat) (st : Status) : Res :=
  { s := postMgmt (fireHub s 0x143) 0x0181 (statusCode st) (leBytes 1 i ++ zeros 3 ++ leBytes 4 version), st := st }

def bodyFwStage (q : FwStageP) (s : State) (c : Cmd) : Res :=
  let i := q.image.toNat
  let n := q.bytes.toNat
  let h := mgmtRead s c q.src.toNat 64
  let v := hdrVersion h
  checked s [(decide (i = 0) || decide (3 < i) || decide (q.rsvdA ≠ 0), .badParam, 0)] fun _ =>
    if !imageHeaderOk h i n then staged s i v .badDescriptor
    else if slotRuns s i then staged s i v .contextBusy
    else
      let key := if i = 3 then Config.miKey else Config.vendorKey
      let sig := mgmtRead s c (q.src.toNat + n - 2420) 2420
      if !Config.mldsaVerify key (sha h) sig || decide (hdrSvn h < floorOf s i) then staged (putSlot s i {}) i v .denied
      else if slotSize i < n then staged s i v .noResource
      else
        let body := mgmtRead s c (q.src.toNat + 64) (n - 2484)
        if sha body ≠ slice h 24 32 then staged (putSlot s i {}) i v .denied
        else
          let x : FwSlot := { valid := true, header := some h, meas := some (sha (h ++ body)) }
          staged (putSlot s i x) i v .ok

def execFwStage (h : Hdr) (p : FwStageP) (s : State) : Host.Outcome State Fault Refusal :=
  command (.fwStage h p) { op := 0x0706, n := 24, runs := .f, needPart := false, mgmtOnly := true } h
    (packetBytes 0x0706 h (bytesFwStage p)) (bodyFwStage p) s

/-- Select the staged slots (R533, R536). -/
def selectStaged (s : State) (images : Nat) : State :=
  let s := if bitOf images 0 then { s with sec := { s.sec with supNext := 1 - s.sec.supNext, supStaged := false, rpCount := s.sec.rpCount + 1 } } else s
  if bitOf images 1 then { s with sec := { s.sec with ctlNext := 1 - s.sec.ctlNext, ctlStaged := false, rpCount := s.sec.rpCount + 1 } } else s

/-- Under WHEN = 1 the restart is the device's next step; until then reports are deferred. -/
def bodyFwActivate (q : FwActivateP) (s : State) (_c : Cmd) : Res :=
  let m := q.images.toNat
  checked s [(decide (3 < m) || decide (1 < q.when.toNat) || decide (q.rsvdA ≠ 0) || (bitOf m 0 && !s.sec.supStaged) ||
      (bitOf m 1 && !s.sec.ctlStaged), .badParam, 0)] fun _ =>
    let s := fireHub (selectStaged s m) 0x143
    if q.when = 1 then { s := owe { s with sec := { s.sec with changing := true } } .restart } else { s := s }

def execFwActivate (h : Hdr) (p : FwActivateP) (s : State) : Host.Outcome State Fault Refusal :=
  command (.fwActivate h p) { op := 0x0707, n := 8, runs := .f, needPart := false, mgmtOnly := true } h
    (packetBytes 0x0707 h (bytesFwActivate p)) (bodyFwActivate p) s

/-! ### CONFIG_WRITE (R531, R532, R537) -/

/-- The items in a list of bytes; none when they do not fill it exactly. -/
def parseItems : Nat → List Byte → Option (List (Nat × List Byte))
  | 0, b => if b.isEmpty then some [] else none
  | fuel + 1, b =>
    if b.isEmpty then some []
    else if b.length < 4 then none
    else
      let n := at_ b 2 2
      if b.length < 4 + roundUp n 8 then none
      else (parseItems fuel (b.drop (4 + roundUp n 8))).map ((at_ b 0 2, slice b 4 n) :: ·)

/-- The write ends: source 0x144 and CONFIG_WRITTEN with the new SEQ. -/
def configWritten (s : State) : Res := { s := postMgmt (fireHub s 0x144) 0x0182 0 (leBytes 8 (cfgLast s).seq) }

def bodyConfigWrite (q : ConfigWriteP) (s : State) (c : Cmd) : Res :=
  let n := q.bytes.toNat
  checked s [(decide (1 < q.op.toNat) || decide (q.rsvdA ≠ 0), .badParam, 0), (decide (2 ^ 18 < n), .noResource, 0)] fun _ =>
    let b := mgmtRead s c q.src.toNat n
    if q.op = 0 then
      match parseItems n b with
      | none => { s := s, st := .badDescriptor }
      | some l =>
        if l.any (fun e => decide (e.1 < 0x0200) || decide (0x02FF < e.1)) then { s := s, st := .denied }
        else configWritten (cfgWrite s (fun k => { k with items := l.foldl (fun t e => tput none e.1 (some e.2) t) k.items }))
    else
      let items := b.take (n - 2420)
      let sig := b.drop (n - 2420)
      match parseItems n items with
      | none => { s := s, st := .badDescriptor }
      | some l =>
        if decide (n < 2420) || l.any (fun e => decide (e.1 = 0) || decide (0x00FF < e.1)) || !Config.mldsaVerify Config.vendorKey (sha (deviceId ++ items)) sig then
          { s := s, st := .denied }
        else configWritten (cfgWrite s (fun k => { k with vendor := some (items, sig) }))

def execConfigWrite (h : Hdr) (p : ConfigWriteP) (s : State) : Host.Outcome State Fault Refusal :=
  command (.configWrite h p) { op := 0x0708, n := 16, runs := .f, needPart := false, mgmtOnly := true } h
    (packetBytes 0x0708 h (bytesConfigWrite p)) (bodyConfigWrite p) s

end Sys2Proof.Machine
end

