-- ==== Sys2Proof/Machine/Dispatch.lean ====
section
/-! DEFINITION. The dispatch: one arm per command of the opcode table, each a direct call of its meaning. -/
namespace Sys2Proof.Machine

def exec (i : Instr) (s : State) : Host.Outcome State Fault Refusal :=
  match i with
  | .nop h => Sys2Proof.Machine.execNop h s
  | .ctxOpen h p => Sys2Proof.Machine.execCtxOpen h p s
  | .ctxClose h p => Sys2Proof.Machine.execCtxClose h p s
  | .resultPool h p => Sys2Proof.Machine.execResultPool h p s
  | .jobStart h p => Sys2Proof.Machine.execJobStart h p s
  | .jobCtl h p => Sys2Proof.Machine.execJobCtl h p s
  | .ckptFetch h p => Sys2Proof.Machine.execCkptFetch h p s
  | .fabricRoute h p => Sys2Proof.Machine.execFabricRoute h p s
  | .fabricAddr h p => Sys2Proof.Machine.execFabricAddr h p s
  | .fabricDepart h p => Sys2Proof.Machine.execFabricDepart h p s
  | .fabricDiscover h p => Sys2Proof.Machine.execFabricDiscover h p s
  | .memFill h p => Sys2Proof.Machine.execMemFill h p s
  | .memAtomic h p => Sys2Proof.Machine.execMemAtomic h p s
  | .hostCopy h p => Sys2Proof.Machine.execHostCopy h p s
  | .hostRange h p => Sys2Proof.Machine.execHostRange h p s
  | .copy h p => Sys2Proof.Machine.execCopy h p s
  | .gather h p => Sys2Proof.Machine.execGather h p s
  | .scatter h p => Sys2Proof.Machine.execScatter h p s
  | .descCheck h p => Sys2Proof.Machine.execDescCheck h p s
  | .flowSend h p => Sys2Proof.Machine.execFlowSend h p s
  | .gemm h p => Sys2Proof.Machine.execGemm h p s
  | .spmm h p => Sys2Proof.Machine.execSpmm h p s
  | .spmmT h p => Sys2Proof.Machine.execSpmmT h p s
  | .sounding h p => Sys2Proof.Machine.execSounding h p s
  | .fenMerge h p => Sys2Proof.Machine.execFenMerge h p s
  | .topk h p => Sys2Proof.Machine.execTopk h p s
  | .optUpdate h p => Sys2Proof.Machine.execOptUpdate h p s
  | .fenScatter h p => Sys2Proof.Machine.execFenScatter h p s
  | .compress h p => Sys2Proof.Machine.execCompress h p s
  | .prune h p => Sys2Proof.Machine.execPrune h p s
  | .regrow h p => Sys2Proof.Machine.execRegrow h p s
  | .remask h p => Sys2Proof.Machine.execRemask h p s
  | .maskVote h p => Sys2Proof.Machine.execMaskVote h p s
  | .maskDecide h p => Sys2Proof.Machine.execMaskDecide h p s
  | .reduceSetup h p => Sys2Proof.Machine.execReduceSetup h p s
  | .reduceTarget h p => Sys2Proof.Machine.execReduceTarget h p s
  | .reduceContrib h p => Sys2Proof.Machine.execReduceContrib h p s
  | .reduceWait h p => Sys2Proof.Machine.execReduceWait h p s
  | .reduceRelease h p => Sys2Proof.Machine.execReduceRelease h p s
  | .reduceExclude h p => Sys2Proof.Machine.execReduceExclude h p s
  | .paramMcast h p => Sys2Proof.Machine.execParamMcast h p s
  | .eyeletInit h p => Sys2Proof.Machine.execEyeletInit h p s
  | .eyeletWait h p => Sys2Proof.Machine.execEyeletWait h p s
  | .eyeletSignal h p => Sys2Proof.Machine.execEyeletSignal h p s
  | .eyeletRead h p => Sys2Proof.Machine.execEyeletRead h p s
  | .laceInit h p => Sys2Proof.Machine.execLaceInit h p s
  | .laceArrive h p => Sys2Proof.Machine.execLaceArrive h p s
  | .laceWait h p => Sys2Proof.Machine.execLaceWait h p s
  | .laceRead h p => Sys2Proof.Machine.execLaceRead h p s
  | .laceRemoteArrive h p => Sys2Proof.Machine.execLaceRemoteArrive h p s
  | .laceRelease h p => Sys2Proof.Machine.execLaceRelease h p s
  | .tallyInit h p => Sys2Proof.Machine.execTallyInit h p s
  | .tallyClaim h p => Sys2Proof.Machine.execTallyClaim h p s
  | .tallyCommit h p => Sys2Proof.Machine.execTallyCommit h p s
  | .tallyReset h p => Sys2Proof.Machine.execTallyReset h p s
  | .syncConfig h p => Sys2Proof.Machine.execSyncConfig h p s
  | .syncDump h p => Sys2Proof.Machine.execSyncDump h p s
  | .partBind h p => Sys2Proof.Machine.execPartBind h p s
  | .partUnbind h p => Sys2Proof.Machine.execPartUnbind h p s
  | .partRebind h p => Sys2Proof.Machine.execPartRebind h p s
  | .partQuery h p => Sys2Proof.Machine.execPartQuery h p s
  | .attest h p => Sys2Proof.Machine.execAttest h p s
  | .sessionAgree h p => Sys2Proof.Machine.execSessionAgree h p s
  | .fwStage h p => Sys2Proof.Machine.execFwStage h p s
  | .fwActivate h p => Sys2Proof.Machine.execFwActivate h p s
  | .configWrite h p => Sys2Proof.Machine.execConfigWrite h p s
  | .coreMigrate h p => Sys2Proof.Machine.execCoreMigrate h p s
  | .testRun h p => Sys2Proof.Machine.execTestRun h p s
  | .testPackLoad h p => Sys2Proof.Machine.execTestPackLoad h p s
  | .faultRead h p => Sys2Proof.Machine.execFaultRead h p s
  | .counterRead h p => Sys2Proof.Machine.execCounterRead h p s
  | .miIdent h p => Sys2Proof.Machine.execMiIdent h p s
  | .miRead h p => Sys2Proof.Machine.execMiRead h p s
  | .miSessionOpen h p => Sys2Proof.Machine.execMiSessionOpen h p s
  | .miSessionClose h p => Sys2Proof.Machine.execMiSessionClose h p s
  | .miRecordGet h p => Sys2Proof.Machine.execMiRecordGet h p s
  | .jobStopAwlReset part => Sys2Proof.Machine.execJobStopAwlReset part s
  | .maskEpochCommit part job => Sys2Proof.Machine.execMaskEpochCommit part job s
  | .maskEpochAbort part job => Sys2Proof.Machine.execMaskEpochAbort part job s
  | .maskEpochUndecided part job => Sys2Proof.Machine.execMaskEpochUndecided part job s
  | .epochVoteTimeout job newEpoch => Sys2Proof.Machine.execEpochVoteTimeout job newEpoch s
  | .reductionRootTimeout part bucket => Sys2Proof.Machine.execReductionRootTimeout part bucket s
  | .eyeletRetry eyelet unit => Sys2Proof.Machine.execEyeletRetry eyelet unit s
  | .dumpTimeout part unit => Sys2Proof.Machine.execDumpTimeout part unit s
  | .quagFire part => Sys2Proof.Machine.execQuagFire part s
  | .soleAccSave core stream addr => Sys2Proof.Machine.execSoleAccSave core stream addr s
  | .soleAccRestore core stream addr => Sys2Proof.Machine.execSoleAccRestore core stream addr s
  | .soleAccClear core stream => Sys2Proof.Machine.execSoleAccClear core stream s
  | .soleAccDone core => Sys2Proof.Machine.execSoleAccDone core s
  | .weltSrSeed core stream value => Sys2Proof.Machine.execWeltSrSeed core stream value s
  | .weltSrReseed core streams => Sys2Proof.Machine.execWeltSrReseed core streams s
  | .streamSwitchOut core stream addr => Sys2Proof.Machine.execStreamSwitchOut core stream addr s
  | .switchOutComplete core => Sys2Proof.Machine.execSwitchOutComplete core s
  | .streamSwitchIn core stream addr => Sys2Proof.Machine.execStreamSwitchIn core stream addr s
  | .lastSqResv core awl stream => Sys2Proof.Machine.execLastSqResv core awl stream s
  | .lastSqPush core awl stream => Sys2Proof.Machine.execLastSqPush core awl stream s
  | .btnTgtClaim who tgt => Sys2Proof.Machine.execBtnTgtClaim who tgt s
  | .btnTgtComplete who tgt src => Sys2Proof.Machine.execBtnTgtComplete who tgt src s
  | .btnSwpend who ctrl src => Sys2Proof.Machine.execBtnSwpend who ctrl src s
  | .btnHoldoffExpiry ctrl group => Sys2Proof.Machine.execBtnHoldoffExpiry ctrl group s
  | .standbyRequest die gen => Sys2Proof.Machine.execStandbyRequest die gen s
  | .pwrLeadAck die gen => Sys2Proof.Machine.execPwrLeadAck die gen s
  | .pwrLeadRelease die gen => Sys2Proof.Machine.execPwrLeadRelease die gen s
  | .leadOfferTimeout => Sys2Proof.Machine.execLeadOfferTimeout s
  | .leadKeepaliveTimeout => Sys2Proof.Machine.execLeadKeepaliveTimeout s
  | .ivtSqDb page ring tail => Sys2Proof.Machine.execIvtSqDb page ring tail s
  | .ivtCqDb page ring head => Sys2Proof.Machine.execIvtCqDb page ring head s
  | .ivtRingEnable page ring value => Sys2Proof.Machine.execIvtRingEnable page ring value s
  | .ivtEvEnable page value => Sys2Proof.Machine.execIvtEvEnable page value s
  | .ivtEvHead page head => Sys2Proof.Machine.execIvtEvHead page head s
  | .ivtCwinDb page slot => Sys2Proof.Machine.execIvtCwinDb page slot s
  | .ivtRwAck page handle gen => Sys2Proof.Machine.execIvtRwAck page handle gen s
  | .registerWrite who addr bytes value => Sys2Proof.Machine.execRegisterWrite who addr bytes value s
  | .tallyWindowClaim core awl tally n => Sys2Proof.Machine.execTallyWindowClaim core awl tally n s
  | .eyeletWindowSignal users number eyelet k => Sys2Proof.Machine.execEyeletWindowSignal users number eyelet k s
  | .eyeletWindowWait users number eyelet n => Sys2Proof.Machine.execEyeletWindowWait users number eyelet n s
  | .eyeletWindowTry users number eyelet n => Sys2Proof.Machine.execEyeletWindowTry users number eyelet n s
  | .eyeletWindowClear users number eyelet => Sys2Proof.Machine.execEyeletWindowClear users number eyelet s
  | .laceWindowArrive users number lace gen => Sys2Proof.Machine.execLaceWindowArrive users number lace gen s
  | .laceWindowArriveWait users number lace gen => Sys2Proof.Machine.execLaceWindowArriveWait users number lace gen s
  | .laceWindowWait users number lace gen => Sys2Proof.Machine.execLaceWindowWait users number lace gen s
  | .mergeWindowExpiry bank line => Sys2Proof.Machine.execMergeWindowExpiry bank line s
  | .cxlLinkDown port => Sys2Proof.Machine.execCxlLinkDown port s
  | .testRequestServe core => Sys2Proof.Machine.execTestRequestServe core s
  | .testEnd core failed => Sys2Proof.Machine.execTestEnd core failed s
  | .triggerWindowEnd core => Sys2Proof.Machine.execTriggerWindowEnd core s
  | .fatalFrameResend => Sys2Proof.Machine.execFatalFrameResend s
  | .stepAdvance part => Sys2Proof.Machine.execStepAdvance part s
  | .evalHookReturn part => Sys2Proof.Machine.execEvalHookReturn part s
  | .dataSlotFill part eval => Sys2Proof.Machine.execDataSlotFill part eval s
  | .stepTimeExpiry part => Sys2Proof.Machine.execStepTimeExpiry part s
  | .gatherLateExpiry part => Sys2Proof.Machine.execGatherLateExpiry part s
  | .checkpointComplete part => Sys2Proof.Machine.execCheckpointComplete part s
  | .linkPcsUp port rate => Sys2Proof.Machine.execLinkPcsUp port rate s
  | .pcsLinkFail port => Sys2Proof.Machine.execPcsLinkFail port s
  | .linkSilenceTimeout port => Sys2Proof.Machine.execLinkSilenceTimeout port s
  | .linkRestartTimer port => Sys2Proof.Machine.execLinkRestartTimer port s
  | .helloTimer port => Sys2Proof.Machine.execHelloTimer port s
  | .hello port frame => Sys2Proof.Machine.execHello port frame s
  | .caps port frame => Sys2Proof.Machine.execCaps port frame s
  | .dataFrame port frame => Sys2Proof.Machine.execDataFrame port frame s
  | .ackFrame port frame => Sys2Proof.Machine.execAckFrame port frame s
  | .nakFrame port frame => Sys2Proof.Machine.execNakFrame port frame s
  | .creditFrame port frame => Sys2Proof.Machine.execCreditFrame port frame s
  | .ackTimer port => Sys2Proof.Machine.execAckTimer port s
  | .creditTimer port => Sys2Proof.Machine.execCreditTimer port s
  | .replayTimeout port => Sys2Proof.Machine.execReplayTimeout port s
  | .packetForward port packet => Sys2Proof.Machine.execPacketForward port packet s
  | .cmd part packet => Sys2Proof.Machine.execCmd part packet s
  | .reply packet => Sys2Proof.Machine.execReply packet s
  | .tack packet => Sys2Proof.Machine.execTack packet s
  | .gradSeg port packet => Sys2Proof.Machine.execGradSeg port packet s
  | .param part packet => Sys2Proof.Machine.execParam part packet s
  | .tensor packet => Sys2Proof.Machine.execTensor packet s
  | .ckptData packet => Sys2Proof.Machine.execCkptData packet s
  | .ckptEnd packet => Sys2Proof.Machine.execCkptEnd packet s
  | .ckptDone packet => Sys2Proof.Machine.execCkptDone packet s
  | .ckptFetchPacket packet => Sys2Proof.Machine.execCkptFetchPacket packet s
  | .discQuery packet => Sys2Proof.Machine.execDiscQuery packet s
  | .discReply packet => Sys2Proof.Machine.execDiscReply packet s
  | .probe packet => Sys2Proof.Machine.execProbe packet s
  | .probeReply packet => Sys2Proof.Machine.execProbeReply packet s
  | .announce port bytes => Sys2Proof.Machine.execAnnounce port bytes s
  | .flowTackTimer context => Sys2Proof.Machine.execFlowTackTimer context s
  | .flowResendTimeout part context => Sys2Proof.Machine.execFlowResendTimeout part context s
  | .joiningTimeout => Sys2Proof.Machine.execJoiningTimeout s
  | .drainEnd => Sys2Proof.Machine.execDrainEnd s
  | .departTimeout => Sys2Proof.Machine.execDepartTimeout s
  | .probeDelay addr => Sys2Proof.Machine.execProbeDelay addr s
  | .probeTimeout addr => Sys2Proof.Machine.execProbeTimeout addr s
  | .ckptDoneTimeout part => Sys2Proof.Machine.execCkptDoneTimeout part s
  | .ckptFetchTimeout part => Sys2Proof.Machine.execCkptFetchTimeout part s
  | .remoteReplyTimeout context seq => Sys2Proof.Machine.execRemoteReplyTimeout context seq s
  | .discoverTimeout addr => Sys2Proof.Machine.execDiscoverTimeout addr s
  | .portGroupStart group => Sys2Proof.Machine.execPortGroupStart group s
  | .ivtuLinkUp x16 gt64 => Sys2Proof.Machine.execIvtuLinkUp x16 gt64 s
  | .ivtuLinkDown => Sys2Proof.Machine.execIvtuLinkDown s
  | .rds addr => Sys2Proof.Machine.execRds addr s
  | .rdm addr => Sys2Proof.Machine.execRdm addr s
  | .wbm addr data => Sys2Proof.Machine.execWbm addr data s
  | .rdcur addr len => Sys2Proof.Machine.execRdcur addr len s
  | .wrcur addr mask data => Sys2Proof.Machine.execWrcur addr mask data s
  | .snpinv addr => Sys2Proof.Machine.execSnpinv addr s
  | .invdata addr data => Sys2Proof.Machine.execInvdata addr data s
  | .powerGoodRise => Sys2Proof.Machine.execPowerGoodRise s
  | .startupTimeout => Sys2Proof.Machine.execStartupTimeout s
  | .powerFail => Sys2Proof.Machine.execPowerFail s
  | .thermalTrip => Sys2Proof.Machine.execThermalTrip s
  | .pllLockLoss => Sys2Proof.Machine.execPllLockLoss s
  | .pwrEnRise => Sys2Proof.Machine.execPwrEnRise s
  | .pwrEnFall => Sys2Proof.Machine.execPwrEnFall s
  | .presenceChange prsnt1 prsnt2 => Sys2Proof.Machine.execPresenceChange prsnt1 prsnt2 s
  | .ivtRstN level => Sys2Proof.Machine.execIvtRstN level s
  | .removeReq asserted => Sys2Proof.Machine.execRemoveReq asserted s
  | .standbyWake => Sys2Proof.Machine.execStandbyWake s
  | .estimatorSample watts celsius valid => Sys2Proof.Machine.execEstimatorSample watts celsius valid s
  | .currentLimitEngage => Sys2Proof.Machine.execCurrentLimitEngage s
  | .limiterHoldExpiry => Sys2Proof.Machine.execLimiterHoldExpiry s
  | .clockSwitchRestart control => Sys2Proof.Machine.execClockSwitchRestart control s
  | .coreRetainEntry core => Sys2Proof.Machine.execCoreRetainEntry core s
  | .deviceIdleEntry => Sys2Proof.Machine.execDeviceIdleEntry s
  | .staggerStart => Sys2Proof.Machine.execStaggerStart s
  | .coreRunReady core => Sys2Proof.Machine.execCoreRunReady core s
  | .counterLatch die => Sys2Proof.Machine.execCounterLatch die s
  | .partitionReadingWindow part watts celsius => Sys2Proof.Machine.execPartitionReadingWindow part watts celsius s
  | .occupancyFrame => Sys2Proof.Machine.execOccupancyFrame s
  | .miMillisecond uJ => Sys2Proof.Machine.execMiMillisecond uJ s
  | .miCommit => Sys2Proof.Machine.execMiCommit s
  | .miDeviceRecord => Sys2Proof.Machine.execMiDeviceRecord s
  | .miHoldupTest ok => Sys2Proof.Machine.execMiHoldupTest ok s
  | .miCheckpoint => Sys2Proof.Machine.execMiCheckpoint s
  | .miPowerFail => Sys2Proof.Machine.execMiPowerFail s
  | .miPowerUp => Sys2Proof.Machine.execMiPowerUp s
  | .waitLimitExpiry die => Sys2Proof.Machine.execWaitLimitExpiry die s
  | .ckptItemsRead part => Sys2Proof.Machine.execCkptItemsRead part s
  | .hbmSelfRefreshExit => Sys2Proof.Machine.execHbmSelfRefreshExit s

end Sys2Proof.Machine
end

