-- ==== Sys2Proof/Machine/Step.lean ====
section
/-! DEFINITION. One step of the block: the command at the front of the queue; with no command waiting, the next step that
the device itself owes; with neither, the block idles. -/
namespace Sys2Proof.Machine

/-- Take the step at the front of the device's own list: a stream's next queued command, a context's waiting command, or an
event of the block itself (R1, R263, R490). -/
def workStep (s : State) (w : Work) : Host.Outcome State Fault Refusal :=
  match w with
  | .stream c i =>
    (match (stream s c i).queue with
     | [] => .next s
     | q :: rest =>
       if (stream s c i).mode = .ready ∧ (stream s c i).busy = none ∧ coreRuns s c then
         exec q.instr { modStream s c i (fun x => { x with queue := rest }) with starting := some q }
       else .next s)
  | .start q => exec q.instr { s with starting := some q }
  | .run i => exec i s
  | .boundary c => .next (boundaryOp s c)
  | .resume c u =>
    (match arbiterPick s c u with
     | some (q, s) => exec q.instr { s with starting := some q }
     | none => .next s)
  | .fetch => .next (fetchTurn s)
  | .health p => .next (healthCheck s p)
  | .scrub p => .next (scrubWork s p)
  | .restart => .next (fwRestart s)
  | .sig c => .next (sigCommand s c)

/-- One step (R1): commands are taken first in, first out. -/
def step (s : State) : Host.Outcome State Fault Refusal :=
  match s.pending with
  | c :: rest => exec c { s with pending := rest }
  | [] =>
    match s.work with
    | w :: rest => workStep { s with work := rest } w
    | [] => .next s

/-- The state with the command that a word spells put at the front of the queue: the table gives no row bits, so no word
spells one. -/
def State.withFetchWord (s : State) (nbits w : Nat) : State :=
  match decodeTableWord nbits w with
  | some c => { s with pending := c :: s.pending }
  | none => s

end Sys2Proof.Machine
end

