-- ==== Sys2Proof/Safety.lean ====
section
/-! DEFINITION. The terms in which the statements speak: how a command of a queue starts and ends, what its completion may write,
the canonical form of the memories, and when an eyelet's waiters have been served. -/
namespace Sys2Proof.Machine

/-- The state in which the device takes the command `q` from its unit's queue (R1, R263, R490). -/
def startOf (s : State) (q : QEntry) : State := { s with starting := some q }

/-- The state in which the own meaning of the command runs once it has started: it has met the memory errors that its header names. -/
def atStart (s : State) (q : QEntry) : State := meetUpsets (beginCmd s q.cmd) q.cmd

/-- A command of partition `p` is ready to start: nothing else is being started, and the eyelet that its SIGNAL_EYELET names, if
any, is one that it may signal (R352). -/
abbrev Startable (s : State) (q : QEntry) (p : Nat) : Prop :=
  s.starting = none ∧ q.cmd.part = some p ∧ sigCheck (atStart s q) q.cmd.h = none

/-- The same for a command of the management context, which belongs to no partition (R545). -/
abbrev MgmtStartable (s : State) (q : QEntry) : Prop :=
  s.starting = none ∧ q.cmd.part = none ∧ sigCheck (atStart s q) q.cmd.h = none

/-- The state that the command `i`, started as `q` on `s`, leads to when its own meaning ends as `r`: its record and reply are
delivered, its eyelet is signalled and its unit goes on (R485, R488), or it waits and holds its unit. -/
def endsAs (s : State) (q : QEntry) (i : Instr) (r : Res) : State := endCmd (unitOf s q.cmd.h) i q.cmd r

/-- Both memories, and the marks of their pages and sectors, stand in their canonical form. -/
abbrev MemoryCanonical (s : State) : Prop :=
  twf (0 : Byte) s.mem = true ∧ twf (0 : Byte) s.hostMem = true ∧ twf false s.used = true ∧ twf false s.poison = true

/-- The lace that LACE_INIT writes: nothing arrived, GEN and ROOT_GEN at START_GEN (R363, R367). -/
def freshLace (p : LaceInitP) : Lace :=
  { fabric := decide (p.scope.toNat = 1), expected := p.expected, gen := p.start, root := p.root, mcast := p.mcast,
    devices := p.devices.toNat, rgen := p.start, rootMap := p.rootMap.toNat }

/-- The tally that TALLY_INIT writes over one of a given epoch: VALUE 0, the next epoch, no commit pending (R275). -/
def freshTally (p : TallyInitP) (old : BitVec 30) : Tally :=
  { value := 0, limit := p.limit, epoch := nextEpoch old, doneBase := p.doneBase.toNat, pending := [] }

/-- What a scan leaves no sleeper short of: no sleeping waiter of a semaphore needs as little as COUNT less what the woken waiters
need, and a set event has no sleeper (R355, R357). -/
def eyeletServed (x : Eyelet) : Prop :=
  ∀ w ∈ x.waiters, w.woken = false →
    if x.event then x.count = 0 else x.count.toNat - wokenSum x.waiters < w.n

/-- The eyelets stand in canonical form and every one has been served. -/
def EyeletsServed (s : State) : Prop := twf ({} : Eyelet) s.eyelets = true ∧ ∀ e, eyeletServed (eyelet s e)

/-- A page that has a poisoned sector is not fresh (R415, R416). -/
def PoisonInUse (s : State) : Prop := ∀ a, tget false a s.poison = true → tget false (a / 4096) s.used = true

/-- The tables of the Bittern controllers stand in canonical form. -/
def BitternsCanonical (s : State) : Prop :=
  twf ({} : Bittern) s.btn = true ∧ ∀ c, twf none (bittern s c).srcs = true ∧ twf ({} : BtnGrp) (bittern s c).grps = true ∧
    twf ({} : BtnTgt) (bittern s c).tgts = true

/-- A window's user is in service: an Awl core when its core is, a control core always (R287). -/
def userServes (s : State) (u : WinUser) : Prop := ∀ c a, u = .awl c a → inService s c.val = true

/-- A TALLY_COMMIT that copies: its commit is pending while the copy runs, and is released when the copy ends (R276). -/
def commitEnds (s : State) (c : Cmd) (t v : Nat) (src d : Desc) : Res :=
  let r := commitCopy (addCommit s t v) c t v src d
  if r.wait.isNone then { r with s := releaseCommit r.s t v } else r

/-- A command of a stream has its unit to itself: no other stream of the core is paused on the unit, and the unit holds no save (R97, R265). -/
def unitFree (s : State) (u : CoreUnit) (c : Cmd) : Prop :=
  ∀ k i, streamOfHdr s c.h = some (k, i) → pausedOn s k u = [] ∧ saveHolds s k i u = false

/-- A save or restore of physical core `k`, which serves logical core `lc`, has ended for stream `i`: BUSY ends, DONE is set and fires the
core's Sole source, and a command that the save held may go on (R97, R107). -/
def accEnds (s : State) (k : Nat) (lc : Option Nat) (i : Nat) : State :=
  let s := fireCore (modCoreP s k (fun x => { x with accBusy := false, accOp := none, accDone := true })) k 2
  match lc with
  | some c => if (pausedAt s c i).isEmpty then s else owe s (.resume c .sole)
  | none => s

/-- A switch-in of stream `i` ends: DONE is set and fires the core's stream source, and the stream goes on where it is ready (R280). -/
def switchInEnds (s : State) (c i : Nat) : State :=
  kickStream (fireCore (modCore s c (fun k => { k with ctlDone := true })) (physOf s c) 3) c i

/-- What R501 says of each command packet: opcode, parameter bytes, where it runs, whether it needs a partition or the management
context, and the bytes of the record it delivers; none for an event. -/
def commandSpec : Instr → Option Spec
  | .nop _ => some { op := 0x0000, n := 0, runs := .sf, needPart := false }
  | .ctxOpen _ _ => some { op := 0x0001, n := 40, runs := .f }
  | .ctxClose _ _ => some { op := 0x0002, n := 8, runs := .f, rec_ := 16 }
  | .resultPool _ _ => some { op := 0x0003, n := 16, runs := .f }
  | .jobStart _ _ => some { op := 0x0020, n := 16, runs := .f }
  | .jobCtl _ p => some { op := 0x0021, n := 16, runs := .f, rec_ := if p.op = 0 then 64 else 0 }
  | .ckptFetch _ _ => some { op := 0x0022, n := 40, runs := .f, rec_ := 24 }
  | .fabricRoute _ _ => some { op := 0x0030, n := 16, runs := .f, needPart := false, mgmtOnly := true }
  | .fabricAddr _ _ => some { op := 0x0031, n := 8, runs := .f, needPart := false, mgmtOnly := true }
  | .fabricDepart _ _ => some { op := 0x0032, n := 8, runs := .f, needPart := false, mgmtOnly := true }
  | .fabricDiscover _ _ => some { op := 0x0033, n := 8, runs := .f, needPart := false, rec_ := 4096 }
  | .memFill _ _ => some { op := 0x0100, n := 8, runs := .s }
  | .memAtomic _ _ => some { op := 0x0101, n := 32, runs := .sf, rec_ := 8 }
  | .hostCopy _ _ => some { op := 0x0102, n := 24, runs := .s }
  | .hostRange _ _ => some { op := 0x0103, n := 24, runs := .m, needPart := false }
  | .copy _ _ => some { op := 0x0200, n := 24, runs := .s }
  | .gather _ _ => some { op := 0x0201, n := 32, runs := .s }
  | .scatter _ _ => some { op := 0x0202, n := 32, runs := .s }
  | .descCheck _ _ => some { op := 0x0203, n := 16, runs := .sf, rec_ := 48 }
  | .flowSend _ _ => some { op := 0x0204, n := 24, runs := .s }
  | .gemm _ _ => some { op := 0x0300, n := 32, runs := .s }
  | .spmm _ _ => some { op := 0x0301, n := 48, runs := .s }
  | .spmmT _ _ => some { op := 0x0302, n := 48, runs := .s }
  | .sounding _ _ => some { op := 0x0303, n := 48, runs := .s, rec_ := 32 }
  | .fenMerge _ _ => some { op := 0x0304, n := 24, runs := .s, rec_ := 48 }
  | .topk _ _ => some { op := 0x0305, n := 40, runs := .s, rec_ := 16 }
  | .optUpdate _ _ => some { op := 0x0306, n := 96, runs := .s }
  | .fenScatter _ _ => some { op := 0x0307, n := 32, runs := .s }
  | .compress _ _ => some { op := 0x0400, n := 24, runs := .s, rec_ := 64 }
  | .prune _ _ => some { op := 0x0401, n := 32, runs := .s, rec_ := 24 }
  | .regrow _ _ => some { op := 0x0402, n := 40, runs := .s, rec_ := 24 }
  | .remask _ _ => some { op := 0x0403, n := 48, runs := .s }
  | .maskVote _ _ => some { op := 0x0404, n := 32, runs := .p }
  | .maskDecide _ _ => some { op := 0x0405, n := 24, runs := .fp }
  | .reduceSetup _ _ => some { op := 0x0500, n := 16, runs := .f }
  | .reduceTarget _ _ => some { op := 0x0501, n := 24, runs := .s }
  | .reduceContrib _ _ => some { op := 0x0502, n := 24, runs := .s }
  | .reduceWait _ _ => some { op := 0x0503, n := 16, runs := .sf, rec_ := 144 }
  | .reduceRelease _ _ => some { op := 0x0504, n := 8, runs := .sf }
  | .reduceExclude _ _ => some { op := 0x0505, n := 16, runs := .f, rec_ := 16 }
  | .paramMcast _ _ => some { op := 0x0506, n := 32, runs := .s }
  | .eyeletInit _ _ => some { op := 0x0600, n := 12, runs := .sf }
  | .eyeletWait _ p => some { op := 0x0601, n := 8, runs := .sf, rec_ := if bitOf p.ctl.toNat 0 then 8 else 0 }
  | .eyeletSignal _ _ => some { op := 0x0602, n := 12, runs := .sf }
  | .eyeletRead _ _ => some { op := 0x0603, n := 8, runs := .sf, rec_ := 16 }
  | .laceInit _ _ => some { op := 0x0610, n := 32, runs := .sf }
  | .laceArrive _ _ => some { op := 0x0611, n := 16, runs := .sf }
  | .laceWait _ _ => some { op := 0x0612, n := 16, runs := .sf }
  | .laceRead _ _ => some { op := 0x0613, n := 8, runs := .sf, rec_ := 24 }
  | .laceRemoteArrive _ _ => some { op := 0x0614, n := 16, runs := .p }
  | .laceRelease _ _ => some { op := 0x0615, n := 16, runs := .p }
  | .tallyInit _ _ => some { op := 0x0620, n := 16, runs := .sf }
  | .tallyClaim _ _ => some { op := 0x0621, n := 8, runs := .sf, rec_ := 8 }
  | .tallyCommit _ _ => some { op := 0x0622, n := 32, runs := .s }
  | .tallyReset _ _ => some { op := 0x0623, n := 8, runs := .sf, rec_ := 8 }
  | .syncConfig _ _ => some { op := 0x0630, n := 32, runs := .f }
  | .syncDump _ _ => some { op := 0x0631, n := 8, runs := .f }
  | .partBind _ _ => some { op := 0x0700, n := 72, runs := .f, needPart := false, mgmtOnly := true }
  | .partUnbind _ _ => some { op := 0x0701, n := 8, runs := .f, needPart := false, mgmtOnly := true }
  | .partRebind _ _ => some { op := 0x0702, n := 16, runs := .f, needPart := false, mgmtOnly := true }
  | .partQuery _ _ => some { op := 0x0703, n := 8, runs := .f, needPart := false, rec_ := 80 }
  | .attest _ _ => some { op := 0x0704, n := 40, runs := .f, needPart := false, rec_ := 6540 }
  | .sessionAgree _ _ => some { op := 0x0705, n := 40, runs := .f, needPart := false, rec_ := 3548 }
  | .fwStage _ _ => some { op := 0x0706, n := 24, runs := .f, needPart := false, mgmtOnly := true }
  | .fwActivate _ _ => some { op := 0x0707, n := 8, runs := .f, needPart := false, mgmtOnly := true }
  | .configWrite _ _ => some { op := 0x0708, n := 16, runs := .f, needPart := false, mgmtOnly := true }
  | .coreMigrate _ _ => some { op := 0x0800, n := 16, runs := .f, needPart := false, mgmtOnly := true, rec_ := 32 }
  | .testRun _ _ => some { op := 0x0801, n := 24, runs := .f, needPart := false, rec_ := 32 }
  | .testPackLoad _ _ => some { op := 0x0802, n := 24, runs := .f, needPart := false, mgmtOnly := true }
  | .faultRead _ p => some { op := 0x0803, n := 16, runs := .f, needPart := false, mgmtOnly := true, rec_ := if p.op.toNat = 2 then 0 else 3452 }
  | .counterRead _ _ => some { op := 0x0804, n := 8, runs := .f, needPart := false, rec_ := 80 }
  | .miIdent _ _ => some { op := 0x0900, n := 8, runs := .f, needPart := false, rec_ := 3796 }
  | .miRead _ _ => some { op := 0x0901, n := 8, runs := .f, needPart := false, mgmtOnly := true, rec_ := 552 }
  | .miSessionOpen _ _ => some { op := 0x0902, n := 8, runs := .f, needPart := false, mgmtOnly := true }
  | .miSessionClose _ _ => some { op := 0x0903, n := 8, runs := .f, needPart := false, mgmtOnly := true, rec_ := 16 }
  | .miRecordGet _ p => some { op := 0x0904, n := 16, runs := .f, needPart := false, rec_ := if p.op.toNat = 1 then 0 else 2676 }
  | .jobStopAwlReset _ => none
  | .maskEpochCommit _ _ => none
  | .maskEpochAbort _ _ => none
  | .maskEpochUndecided _ _ => none
  | .epochVoteTimeout _ _ => none
  | .reductionRootTimeout _ _ => none
  | .eyeletRetry _ _ => none
  | .dumpTimeout _ _ => none
  | .quagFire _ => none
  | .soleAccSave _ _ _ => none
  | .soleAccRestore _ _ _ => none
  | .soleAccClear _ _ => none
  | .soleAccDone _ => none
  | .weltSrSeed _ _ _ => none
  | .weltSrReseed _ _ => none
  | .streamSwitchOut _ _ _ => none
  | .switchOutComplete _ => none
  | .streamSwitchIn _ _ _ => none
  | .lastSqResv _ _ _ => none
  | .lastSqPush _ _ _ => none
  | .btnTgtClaim _ _ => none
  | .btnTgtComplete _ _ _ => none
  | .btnSwpend _ _ _ => none
  | .btnHoldoffExpiry _ _ => none
  | .standbyRequest _ _ => none
  | .pwrLeadAck _ _ => none
  | .pwrLeadRelease _ _ => none
  | .leadOfferTimeout => none
  | .leadKeepaliveTimeout => none
  | .ivtSqDb _ _ _ => none
  | .ivtCqDb _ _ _ => none
  | .ivtRingEnable _ _ _ => none
  | .ivtEvEnable _ _ => none
  | .ivtEvHead _ _ => none
  | .ivtCwinDb _ _ => none
  | .ivtRwAck _ _ _ => none
  | .registerWrite _ _ _ _ => none
  | .tallyWindowClaim _ _ _ _ => none
  | .eyeletWindowSignal _ _ _ _ => none
  | .eyeletWindowWait _ _ _ _ => none
  | .eyeletWindowTry _ _ _ _ => none
  | .eyeletWindowClear _ _ _ => none
  | .laceWindowArrive _ _ _ _ => none
  | .laceWindowArriveWait _ _ _ _ => none
  | .laceWindowWait _ _ _ _ => none
  | .mergeWindowExpiry _ _ => none
  | .cxlLinkDown _ => none
  | .testRequestServe _ => none
  | .testEnd _ _ => none
  | .triggerWindowEnd _ => none
  | .fatalFrameResend => none
  | .stepAdvance _ => none
  | .evalHookReturn _ => none
  | .dataSlotFill _ _ => none
  | .stepTimeExpiry _ => none
  | .gatherLateExpiry _ => none
  | .checkpointComplete _ => none
  | .linkPcsUp _ _ => none
  | .pcsLinkFail _ => none
  | .linkSilenceTimeout _ => none
  | .linkRestartTimer _ => none
  | .helloTimer _ => none
  | .hello _ _ => none
  | .caps _ _ => none
  | .dataFrame _ _ => none
  | .ackFrame _ _ => none
  | .nakFrame _ _ => none
  | .creditFrame _ _ => none
  | .ackTimer _ => none
  | .creditTimer _ => none
  | .replayTimeout _ => none
  | .packetForward _ _ => none
  | .cmd _ _ => none
  | .reply _ => none
  | .tack _ => none
  | .gradSeg _ _ => none
  | .param _ _ => none
  | .tensor _ => none
  | .ckptData _ => none
  | .ckptEnd _ => none
  | .ckptDone _ => none
  | .ckptFetchPacket _ => none
  | .discQuery _ => none
  | .discReply _ => none
  | .probe _ => none
  | .probeReply _ => none
  | .announce _ _ => none
  | .flowTackTimer _ => none
  | .flowResendTimeout _ _ => none
  | .joiningTimeout => none
  | .drainEnd => none
  | .departTimeout => none
  | .probeDelay _ => none
  | .probeTimeout _ => none
  | .ckptDoneTimeout _ => none
  | .ckptFetchTimeout _ => none
  | .remoteReplyTimeout _ _ => none
  | .discoverTimeout _ => none
  | .portGroupStart _ => none
  | .ivtuLinkUp _ _ => none
  | .ivtuLinkDown => none
  | .rds _ => none
  | .rdm _ => none
  | .wbm _ _ => none
  | .rdcur _ _ => none
  | .wrcur _ _ _ => none
  | .snpinv _ => none
  | .invdata _ _ => none
  | .powerGoodRise => none
  | .startupTimeout => none
  | .powerFail => none
  | .thermalTrip => none
  | .pllLockLoss => none
  | .pwrEnRise => none
  | .pwrEnFall => none
  | .presenceChange _ _ => none
  | .ivtRstN _ => none
  | .removeReq _ => none
  | .standbyWake => none
  | .estimatorSample _ _ _ => none
  | .currentLimitEngage => none
  | .limiterHoldExpiry => none
  | .clockSwitchRestart _ => none
  | .coreRetainEntry _ => none
  | .deviceIdleEntry => none
  | .staggerStart => none
  | .coreRunReady _ => none
  | .counterLatch _ => none
  | .partitionReadingWindow _ _ _ => none
  | .occupancyFrame => none
  | .miMillisecond _ => none
  | .miCommit => none
  | .miDeviceRecord => none
  | .miHoldupTest _ => none
  | .miCheckpoint => none
  | .miPowerFail => none
  | .miPowerUp => none
  | .waitLimitExpiry _ => none
  | .ckptItemsRead _ => none
  | .hbmSelfRefreshExit => none

end Sys2Proof.Machine
end

