-- ==== Sys2Proof/WellFormed.lean ====
section
/-! DEFINITION. Which commands are well formed: the lengths of the byte strings that they carry, the alignment of a line's
address, and the widths of a register access. Every other operand is bounded by its type. A command that is not well formed
cannot arrive at the block: a packet is 256 bytes and objects follow it in a management frame only (R485, R545), a line is 64
aligned bytes (R475), a register access is 1, 2, 4 or 8 bytes wide (R13). -/
namespace Sys2Proof

/-- A packet of a command with `n` parameter bytes of its own: 192 parameter bytes in all, and objects on the management
interfaces only (R485, R545). -/
def Hdr.wf (h : Hdr) (n : Nat) : Bool :=
  decide (h.tail.length + n = 192) &&
  (h.objs.isEmpty || (match h.via with
    | .mgmt _ => true
    | _ => false))

/-- The address of a 64-byte line. -/
def lineAligned (addr : BitVec 52) : Bool := decide (addr.toNat % 64 = 0)

/-- The access of a register: its width in bytes, and a value of that width (R13). -/
def accessOk (bytes value : Nat) : Bool := [1, 2, 4, 8].contains bytes && decide (value < 256 ^ bytes)

/-- Whether a command is well formed. -/
def wellFormed : Instr → Bool
  | .nop h => h.wf 0
  | .ctxOpen h _ => h.wf 40
  | .ctxClose h _ => h.wf 8
  | .resultPool h _ => h.wf 16
  | .jobStart h _ => h.wf 16
  | .jobCtl h _ => h.wf 16
  | .jobStopAwlReset _ => true
  | .ckptFetch h _ => h.wf 40
  | .fabricRoute h _ => h.wf 16
  | .fabricAddr h _ => h.wf 8
  | .fabricDepart h _ => h.wf 8
  | .fabricDiscover h _ => h.wf 8
  | .memFill h _ => h.wf 8
  | .memAtomic h _ => h.wf 32
  | .hostCopy h _ => h.wf 24
  | .hostRange h _ => h.wf 24
  | .copy h _ => h.wf 24
  | .gather h _ => h.wf 32
  | .scatter h _ => h.wf 32
  | .descCheck h _ => h.wf 16
  | .flowSend h _ => h.wf 24
  | .gemm h _ => h.wf 32
  | .spmm h _ => h.wf 48
  | .spmmT h _ => h.wf 48
  | .sounding h _ => h.wf 48
  | .fenMerge h _ => h.wf 24
  | .topk h _ => h.wf 40
  | .optUpdate h _ => h.wf 96
  | .fenScatter h _ => h.wf 32
  | .compress h _ => h.wf 24
  | .prune h _ => h.wf 32
  | .regrow h _ => h.wf 40
  | .remask h _ => h.wf 48
  | .maskVote h _ => h.wf 32
  | .maskDecide h _ => h.wf 24
  | .maskEpochCommit _ _ => true
  | .maskEpochAbort _ _ => true
  | .maskEpochUndecided _ _ => true
  | .epochVoteTimeout _ _ => true
  | .reduceSetup h _ => h.wf 16
  | .reduceTarget h _ => h.wf 24
  | .reduceContrib h _ => h.wf 24
  | .reduceWait h _ => h.wf 16
  | .reduceRelease h _ => h.wf 8
  | .reduceExclude h _ => h.wf 16
  | .reductionRootTimeout _ _ => true
  | .paramMcast h _ => h.wf 32
  | .eyeletInit h _ => h.wf 12
  | .eyeletWait h _ => h.wf 8
  | .eyeletSignal h _ => h.wf 12
  | .eyeletRead h _ => h.wf 8
  | .eyeletRetry _ _ => true
  | .laceInit h _ => h.wf 32
  | .laceArrive h _ => h.wf 16
  | .laceWait h _ => h.wf 16
  | .laceRead h _ => h.wf 8
  | .laceRemoteArrive h _ => h.wf 16
  | .laceRelease h _ => h.wf 16
  | .tallyInit h _ => h.wf 16
  | .tallyClaim h _ => h.wf 8
  | .tallyCommit h _ => h.wf 32
  | .tallyReset h _ => h.wf 8
  | .syncConfig h _ => h.wf 32
  | .syncDump h _ => h.wf 8
  | .dumpTimeout _ _ => true
  | .quagFire _ => true
  | .partBind h _ => h.wf 72
  | .partUnbind h _ => h.wf 8
  | .partRebind h _ => h.wf 16
  | .partQuery h _ => h.wf 8
  | .attest h _ => h.wf 40
  | .sessionAgree h _ => h.wf 40
  | .fwStage h _ => h.wf 24
  | .fwActivate h _ => h.wf 8
  | .configWrite h _ => h.wf 16
  | .coreMigrate h _ => h.wf 16
  | .testRun h _ => h.wf 24
  | .testPackLoad h _ => h.wf 24
  | .faultRead h _ => h.wf 16
  | .counterRead h _ => h.wf 8
  | .miIdent h _ => h.wf 8
  | .miRead h _ => h.wf 8
  | .miSessionOpen h _ => h.wf 8
  | .miSessionClose h _ => h.wf 8
  | .miRecordGet h _ => h.wf 16
  | .soleAccSave _ _ _ => true
  | .soleAccRestore _ _ _ => true
  | .soleAccClear _ _ => true
  | .soleAccDone _ => true
  | .weltSrSeed _ _ _ => true
  | .weltSrReseed _ _ => true
  | .streamSwitchOut _ _ _ => true
  | .switchOutComplete _ => true
  | .streamSwitchIn _ _ _ => true
  | .lastSqResv _ _ _ => true
  | .lastSqPush _ _ _ => true
  | .btnTgtClaim _ _ => true
  | .btnTgtComplete _ _ _ => true
  | .btnSwpend _ _ _ => true
  | .btnHoldoffExpiry _ _ => true
  | .standbyRequest _ _ => true
  | .pwrLeadAck _ _ => true
  | .pwrLeadRelease _ _ => true
  | .leadOfferTimeout => true
  | .leadKeepaliveTimeout => true
  | .ivtSqDb _ _ _ => true
  | .ivtCqDb _ _ _ => true
  | .ivtRingEnable _ _ _ => true
  | .ivtEvEnable _ _ => true
  | .ivtEvHead _ _ => true
  | .ivtCwinDb _ _ => true
  | .ivtRwAck _ _ _ => true
  | .registerWrite _ _ bytes value => accessOk bytes.toNat value.toNat
  | .tallyWindowClaim _ _ _ _ => true
  | .eyeletWindowSignal _ _ _ _ => true
  | .eyeletWindowWait _ _ _ _ => true
  | .eyeletWindowTry _ _ _ _ => true
  | .eyeletWindowClear _ _ _ => true
  | .laceWindowArrive _ _ _ _ => true
  | .laceWindowArriveWait _ _ _ _ => true
  | .laceWindowWait _ _ _ _ => true
  | .mergeWindowExpiry _ _ => true
  | .cxlLinkDown _ => true
  | .testRequestServe _ => true
  | .testEnd _ _ => true
  | .triggerWindowEnd _ => true
  | .fatalFrameResend => true
  | .stepAdvance _ => true
  | .evalHookReturn _ => true
  | .dataSlotFill _ _ => true
  | .stepTimeExpiry _ => true
  | .gatherLateExpiry _ => true
  | .checkpointComplete _ => true
  | .linkPcsUp _ _ => true
  | .pcsLinkFail _ => true
  | .linkSilenceTimeout _ => true
  | .linkRestartTimer _ => true
  | .helloTimer _ => true
  | .hello _ _ => true
  | .caps _ _ => true
  | .dataFrame _ _ => true
  | .ackFrame _ _ => true
  | .nakFrame _ _ => true
  | .creditFrame _ _ => true
  | .ackTimer _ => true
  | .creditTimer _ => true
  | .replayTimeout _ => true
  | .packetForward _ _ => true
  | .cmd _ _ => true
  | .reply _ => true
  | .tack _ => true
  | .gradSeg _ _ => true
  | .param _ _ => true
  | .tensor _ => true
  | .ckptData _ => true
  | .ckptEnd _ => true
  | .ckptDone _ => true
  | .ckptFetchPacket _ => true
  | .discQuery _ => true
  | .discReply _ => true
  | .probe _ => true
  | .probeReply _ => true
  | .announce _ _ => true
  | .flowTackTimer _ => true
  | .flowResendTimeout _ _ => true
  | .joiningTimeout => true
  | .drainEnd => true
  | .departTimeout => true
  | .probeDelay _ => true
  | .probeTimeout _ => true
  | .ckptDoneTimeout _ => true
  | .ckptFetchTimeout _ => true
  | .remoteReplyTimeout _ _ => true
  | .discoverTimeout _ => true
  | .portGroupStart _ => true
  | .ivtuLinkUp _ _ => true
  | .ivtuLinkDown => true
  | .rds addr => lineAligned addr
  | .rdm addr => lineAligned addr
  | .wbm addr data => lineAligned addr && decide (data.length = 64)
  | .rdcur _ len => decide (1 ≤ len.toNat) && decide (len.toNat ≤ 64)
  | .wrcur addr _ data => lineAligned addr && decide (data.length = 64)
  | .snpinv addr => lineAligned addr
  | .invdata addr data => lineAligned addr && decide (data.length = 64)
  | .powerGoodRise => true
  | .startupTimeout => true
  | .powerFail => true
  | .thermalTrip => true
  | .pllLockLoss => true
  | .pwrEnRise => true
  | .pwrEnFall => true
  | .presenceChange _ _ => true
  | .ivtRstN _ => true
  | .removeReq _ => true
  | .standbyWake => true
  | .estimatorSample _ _ _ => true
  | .currentLimitEngage => true
  | .limiterHoldExpiry => true
  | .clockSwitchRestart _ => true
  | .coreRetainEntry _ => true
  | .deviceIdleEntry => true
  | .staggerStart => true
  | .coreRunReady _ => true
  | .counterLatch _ => true
  | .partitionReadingWindow _ _ _ => true
  | .occupancyFrame => true
  | .miMillisecond _ => true
  | .miCommit => true
  | .miDeviceRecord => true
  | .miHoldupTest _ => true
  | .miCheckpoint => true
  | .miPowerFail => true
  | .miPowerUp => true
  | .waitLimitExpiry _ => true
  | .ckptItemsRead _ => true
  | .hbmSelfRefreshExit => true

end Sys2Proof
end

