-- ==== Sys2Proof/Certificates/Slice0/Obligations.lean ====
section
/-! DEFINITION. The statements about the block, from the numbered rules of spec/. A command packet is stated at the moment its unit
starts it (`startOf`), with `atStart` the state in which its own meaning runs; `endsAs` then delivers record, reply and signal. How
an arriving packet comes to start is a statement of its own. Where a statement names a value that the model chose, its docstring
names the entry of the assumption log. -/
open Sys2Proof Sys2Proof.Machine

/-! ### The block as a whole (R1, R485 to R500, R595) -/

/-- A step takes the command at the front of the queue and runs it on the queue's rest. -/
def Obligations.StepRunsFront : Prop :=
  ∀ (s : State) (c : Instr) (rest : List Instr), s.pending = c :: rest → step s = exec c { s with pending := rest }

/-- With no command waiting, a step takes the first step that the device itself owes; with neither, the block idles (the model's
choice, note 6 of the assumption log). -/
def Obligations.StepTakesOwedWork : Prop :=
  (∀ (s : State) (w : Work) (rest : List Work), s.pending = [] → s.work = w :: rest → step s = workStep { s with work := rest } w) ∧
  (∀ s : State, s.pending = [] → s.work = [] → step s = .next s) ∧
  (∀ (s : State) (q : QEntry), workStep s (.start q) = exec q.instr (startOf s q)) ∧
  (∀ (s : State) (c i : Nat) (q : QEntry) (rest : List QEntry), (stream s c i).queue = q :: rest → (stream s c i).mode = .ready →
    (stream s c i).busy = none → coreRuns s c = true →
    workStep s (.stream c i) = exec q.instr (startOf (modStream s c i (fun x => { x with queue := rest })) q))

/-- No command and no step of the device stops the block: every step answers a next state. A command that may not run completes with
a status (R500), and an event that finds nothing to act on changes nothing. -/
def Obligations.EveryStepAnswers : Prop := ∀ s : State, ∃ t, step s = .next t

/-- A packet that arrives (R487 to R490, R493, R595): before host-visible ready it is ignored, and so is a management frame that no session opens
(the model's choice, note 54 of the assumption log); one that fails a header check is answered with that check's status and has no other
effect; one of a REMOTE context is forwarded; one whose unit is free starts; one whose stream is busy joins its queue. The commands
that need a result window allocate it first and are not part of the last two clauses. -/
def Obligations.ArrivingPacketsStartOrReply : Prop :=
  ∀ (i : Instr) (sp : Spec) (op : Nat) (h : Hdr) (b : List Byte) (s t : State) (c : Cmd), commandSpec i = some sp →
    packetParts i = some (op, h, b) → s.starting = none → t = setSeq s h → c = mkCmd s sp h →
    (s.ready = false ∨ unopened s h sp = true → exec i s = .next s) ∧ (s.ready = true → unopened s h sp = false →
    (∀ st d, headerCheck s h sp = some (st, d) → exec i s = .next (deliver s (dropBadReply s c) st d 0xFFFFFFFF 0 [])) ∧
    (headerCheck s h sp = none → ctxKind t h = 2 → exec i s = .next (forwardRemote t i c (packetBytes op h b))) ∧
    (headerCheck s h sp = none → ctxKind t h ≠ 2 → needsWindow sp h = false →
      (streamOfHdr t h = none → fwQueue t c.part (hdrCtx h) = [] → (fwRunning t c.part (hdrCtx h)).length < 8 →
        (bitOf h.flags.toNat 3 = true → fwRunning t c.part (hdrCtx h) = []) →
        (maySleep i = true → hdrCtx h ≠ 0x1FFFF → ∀ w ∈ fwRunning t c.part (hdrCtx h), syncWait w.wait = false) →
        exec i s = exec i (startOf t { instr := i, cmd := c })) ∧
      (∀ k j, streamOfHdr t h = some (k, j) → coreRuns t k = true → (stream t k j).held = [] →
        ((stream t k j).mode = .ready → (stream t k j).busy = none → (stream t k j).queue = [] →
          exec i s = exec i (startOf t { instr := i, cmd := c })) ∧
        ((stream t k j).mode ≠ .out → (stream t k j).busy ≠ none → 0 < queueRoom t k j →
          exec i s = .next (modStream t k j (fun y => { y with queue := y.queue ++ [{ instr := i, cmd := c }] }))))))

/-- Decoding inverts encoding: the bytes of a well-formed command packet, from whatever path, read back as the same command with every
operand at every value (R485, R501). The physical upsets of a command are no part of its packet. -/
def Obligations.PacketsDecodeAsEncoded : Prop :=
  ∀ (i : Instr) (op : Nat) (h : Hdr) (b : List Byte), packetParts i = some (op, h, b) → wellFormed i = true → h.upsets = [] →
    parsePacket h.via (packetBytes op h b) = some i

/-- The frames of starting and ending. Before its own meaning runs, a command that meets no memory error changes nothing but the Quag watch of its
partition and a seed of its stream that was pending (R67, R373). A command that comes from no peer, names no RESULT_ADDR, REPLY_ADDR and
SIGNAL_EYELET and holds no window leaves, when
its meaning has ended or waits, all of device memory, the sync objects, the controllers, the dies, the stacks, the flash, the Metering
Island, the fault log, power, pins and fabric as its own meaning left them. -/
def Obligations.StartingAndEndingLeaveTheRest : Prop :=
  (∀ (s t : State) (q : QEntry), upsetsNow q.cmd = [] → t = atStart s q →
    t.mem = s.mem ∧ t.used = s.used ∧ t.poison = s.poison ∧ t.hostMem = s.hostMem ∧ t.eyelets = s.eyelets ∧ t.laces = s.laces ∧
    t.tallies = s.tallies ∧ t.btn = s.btn ∧ t.dies = s.dies ∧ t.pages = s.pages ∧ t.ctxs = s.ctxs ∧ t.fab = s.fab ∧ t.sec = s.sec ∧
    t.mi = s.mi ∧ t.relia = s.relia ∧ t.power = s.power ∧ t.waiting = s.waiting ∧ t.sent = s.sent ∧ t.work = s.work) ∧
  (∀ (s t : State) (q : QEntry) (i : Instr) (r : Res), isFabric q.cmd.h.via = false → q.cmd.win = none → q.cmd.h.resultAddr = 0 → q.cmd.h.replyAddr = 0 →
    q.cmd.h.signal.toNat = 0xFFFFFFFF → t = endsAs s q i r →
    t.mem = r.s.mem ∧ t.used = r.s.used ∧ t.poison = r.s.poison ∧ t.eyelets = r.s.eyelets ∧ t.laces = r.s.laces ∧
    t.tallies = r.s.tallies ∧ t.btn = r.s.btn ∧ t.dies = r.s.dies ∧ t.hbm = r.s.hbm ∧ t.cxl = r.s.cxl ∧ t.sec = r.s.sec ∧
    t.mi = r.s.mi ∧ t.relia = r.s.relia ∧ t.power = r.s.power ∧ t.pins = r.s.pins ∧ t.fab = r.s.fab ∧ t.votes = r.s.votes ∧
    t.ready = r.s.ready)

/-- R499: with RESULT_ADDR not 0 a command allocates no window, and its record is written there; a command that delivers no record
ignores RESULT_ADDR. The record is written before the reply is delivered. One for host memory is discarded when the link has gone down since
the fetch (R473). -/
def Obligations.RecordGoesToResultAddress : Prop :=
  (∀ (sp : Spec) (h : Hdr), h.resultAddr ≠ 0 → needsWindow sp h = false) ∧
  (∀ (s : State) (c : Cmd) (st : Status) (rec_ : List Byte) (p : Nat), c.win = none → c.part = some p → c.h.resultAddr ≠ 0 →
    deliverRecord s c st rec_ = (if rec_ = [] then s else partWrite s p c.h.resultAddr.toNat rec_)) ∧
  (∀ (s : State) (c : Cmd) (st : Status) (rec_ : List Byte), c.win = none → c.part = none → c.h.resultAddr ≠ 0 →
    deliverRecord s c st rec_ = (if rec_ = [] ∨ linkLost s c.h.via = true then s else hostWrite s c.h.resultAddr.toNat rec_)) ∧
  (∀ (s : State) (c : Cmd) (st : Status) (d : Nat) (rec_ : List Byte), c.win = none → sigEyelet c.h = none →
    complete s c st d rec_ = deliver (deliverRecord (noteHealth s c st) c st rec_) c st d 0xFFFFFFFF 0 rec_)

/-- The values that the power-on reset leaves (R288, R395, R425, R513, R552, R645): sync objects clear, LACEs uninitialised, no source
pending, LAST_ARB as printed, Awl cores held in reset, no partition bound, no context open, no memory written, and no fault logged. -/
def Obligations.ResetValues : Prop :=
  (∀ e, (eyelet State.reset e).event = false ∧ (eyelet State.reset e).count = 0 ∧ (eyelet State.reset e).sat = false ∧
    (eyelet State.reset e).nextTicket = 0 ∧ (eyelet State.reset e).waiters = []) ∧
  (∀ l, (lace State.reset l).expected = 0 ∧ (lace State.reset l).waiters = []) ∧
  (∀ t, (tally State.reset t).value = 0 ∧ (tally State.reset t).limit = 0 ∧ (tally State.reset t).epoch = 0 ∧
    (tally State.reset t).pending = []) ∧
  (∀ c k, (btnSrc (bittern State.reset c) c k).pend = false ∧ (btnSrc (bittern State.reset c) c k).active = false) ∧
  (∀ c t, (btnTgt (bittern State.reset c) t).stack = []) ∧ (∀ c g, (btnGrp (bittern State.reset c) g).running = false) ∧
  (∀ k, (coreP State.reset k).arb = 0x284284284 ∧ ∀ a, (awlOf (coreP State.reset k) a).inReset = true) ∧
  (∀ c i, (stream State.reset c i).queue = [] ∧ (stream State.reset c i).busy = none) ∧
  (∀ p, bound State.reset p = false ∧ (part State.reset p).agreement = none) ∧ (∀ n, (ctx State.reset n).isOpen = false) ∧
  (∀ a, devByte State.reset a = 0) ∧ State.reset.sec.session = 0 ∧ State.reset.relia.log = [] ∧ State.reset.relia.nextSeq = 1 ∧
  State.reset.pending = [] ∧ State.reset.ready = false

/-- Device memory (R415, R416): bytes written to HBM of sectors that are not poisoned read back, and every other byte of device memory
reads as before; a partial write of a poisoned sector is dropped. -/
def Obligations.DeviceMemoryReadsBack : Prop :=
  (∀ (s : State) (a : Nat) (bs : List Byte), MemoryCanonical s → PoisonInUse s → a + bs.length ≤ 0xC000000000 →
    (∀ i, i < bs.length → tget false ((a + i) / 512) s.poison = false) →
    devRead (devWrite s a bs) a bs.length = bs ∧
    ∀ b, b < a ∨ a + bs.length ≤ b → devByte (devWrite s a bs) b = devByte s b) ∧
  (∀ (s : State) (a : Nat) (bs : List Byte), a < 0xC000000000 → tget false (a / 512) s.poison = true → bs.length < 512 →
    (devWriteSector s a bs).mem = s.mem ∧ (devWriteSector s a bs).poison = s.poison ∧ (devWriteSector s a bs).used = s.used)

/-! ### Contexts, pools, host ranges, NOP and sync configuration (R370, R371, R490 to R503) -/

/-- The context and configuration commands complete: NOP changes nothing; CTX_OPEN opens the context with the parameters given;
CTX_CLOSE closes it and delivers PACKETS and OVERRUNS; RESULT_POOL sets the pool, after the host's copies of the old pool's lines are
invalidated; HOST_RANGE sets or removes a range; SYNC_CONFIG sets
the mode, the dump region and the timeout; SYNC_DUMP writes a dump. -/
def Obligations.ContextCommandsComplete : Prop :=
  (∀ (s : State) (q : QEntry) (h : Hdr), s.starting = none → sigCheck (atStart s q) q.cmd.h = none →
    exec (.nop h) (startOf s q) = .next (endsAs s q (.nop h) { s := atStart s q })) ∧
  (∀ (s : State) (q : QEntry) (h : Hdr) (p : CtxOpenP) (pt : Nat), Startable s q pt → p.context.toNat < 0x10000 →
    ownsCtx (atStart s q) pt p.context.toNat = true → (ctx (atStart s q) p.context.toNat).isOpen = false →
    ctxOpenValid (atStart s q) pt p = true → (p.kind.toNat < 3 ∨ draining (atStart s q) = false) →
    (p.kind.toNat = 4 → p.eyelet.toNat < 16384 → ownsEyelet (atStart s q) pt p.eyelet.toNat = true) →
    exec (.ctxOpen h p) (startOf s q) = .next (endsAs s q (.ctxOpen h p)
      { s := setCtx (atStart s q) p.context.toNat (openedCtx p) })) ∧
  (∀ (s : State) (q : QEntry) (h : Hdr) (p : CtxCloseP) (pt : Nat) (x : Ctx), Startable s q pt → p.rsvdA = 0 →
    p.context.toNat < 0x10000 → ownsCtx (atStart s q) pt p.context.toNat = true → x = ctx (atStart s q) p.context.toNat →
    x.isOpen = true → ctxBusy (atStart s q) p.context.toNat = false →
    exec (.ctxClose h p) (startOf s q) = .next (endsAs s q (.ctxClose h p)
      { s := setCtx (atStart s q) p.context.toNat {}, record := leBytes 8 x.packets.toNat ++ leBytes 8 x.overruns.toNat })) ∧
  (∀ (s : State) (q : QEntry) (h : Hdr) (p : ResultPoolP) (pt : Nat), Startable s q pt → p.rsvdA = 0 → p.base.toNat % 2 ^ 21 = 0 →
    p.count.toNat % 256 = 0 → 256 ≤ p.count.toNat → p.count.toNat ≤ 65536 →
    spanOk (atStart s q) pt p.base.toNat (p.base.toNat + 8192 * p.count.toNat - 1) false = true →
    spanHbm (atStart s q) pt p.base.toNat (8192 * p.count.toNat) = true → poolBusy (page (atStart s q) pt).pool = false →
    exec (.resultPool h p) (startOf s q) = .next (endsAs s q (.resultPool h p)
      { s := modPage (dropWindows (atStart s q) pt 0 65536) pt (fun x => { x with pool := some { base := p.base.toNat, count := p.count.toNat } }) })) ∧
  (∀ (s : State) (q : QEntry) (h : Hdr) (p : HostRangeP), MgmtStartable s q → p.rsvdA = 0 → p.part.toNat < 16 → p.index.toNat < 16 →
    p.flags.toNat ≤ 1 → p.base.toNat % 4096 = 0 → p.bytes.toNat % 4096 = 0 →
    exec (.hostRange h p) (startOf s q) = .next (endsAs s q (.hostRange h p)
      { s := modPart (atStart s q) p.part.toNat (fun x => { x with hosts := tput {} p.index.toNat (if p.bytes = 0 then {} else { base := p.base.toNat, bytes := p.bytes.toNat, write := bitOf p.flags.toNat 0 }) x.hosts }) })) ∧
  (∀ (s : State) (q : QEntry) (h : Hdr) (p : SyncConfigP) (pt : Nat), Startable s q pt → p.rsvdA = 0 → p.rsvdB = 0 →
    p.mode.toNat ≤ 1 → p.dumpBase.toNat % 4096 = 0 → p.dumpBytes.toNat % 4096 = 0 →
    (p.dumpBase.toNat = 0 ∧ p.dumpBytes.toNat = 0 ∨ p.dumpBase.toNat ≠ 0 ∧ p.dumpBytes.toNat ≠ 0 ∧
      spanOk (atStart s q) pt p.dumpBase.toNat (p.dumpBase.toNat + p.dumpBytes.toNat - 1) true = true ∧
      spanHbm (atStart s q) pt p.dumpBase.toNat p.dumpBytes.toNat = true) →
    exec (.syncConfig h p) (startOf s q) = .next (endsAs s q (.syncConfig h p)
      { s := modPart (atStart s q) pt (fun x => { x with sync := { x.sync with quag := decide (p.mode.toNat = 1), dumpBase := p.dumpBase.toNat, dumpSize := p.dumpBytes.toNat, timeout := p.dumpTimeout.toNat, spent := false } }) })) ∧
  (∀ (s : State) (q : QEntry) (h : Hdr) (p : SyncDumpP) (pt : Nat), Startable s q pt → p.rsvdA = 0 →
    (hasDump (atStart s q) pt = true →
      exec (.syncDump h p) (startOf s q) = .next (endsAs s q (.syncDump h p) { s := writeDump (atStart s q) pt 1 0 })) ∧
    (hasDump (atStart s q) pt = false →
      exec (.syncDump h p) (startOf s q) = .next (endsAs s q (.syncDump h p) { s := atStart s q, st := .noResource })))

/-! ### The Bittern controllers and the Quag watch (R372, R373, R376 to R385) -/

/-- R381, R385. A read of BTN_TGT_CLAIM by an agent that may use the target returns 0 when the target has no eligible source; otherwise VALID with
the winner's number, and it clears the winner's PEND, sets its ACTIVE, pushes it with its priority on the target's stack and starts its group's
hold-off timer. A write of the source on top of the stack to BTN_TGT_COMPLETE pops it and clears its ACTIVE; any other write leaves the stack,
sets ORDER_ERR and ORDER_SRC, and fires the claim-order source. An agent that may not use the target makes a register access error, and its
read gives 0. An Awl core that claims has taken its interrupt, which ends its window wait first (R359), whence u; an Awl core of a core out of service does
nothing (R287). -/
def Obligations.BitternClaimsAndCompletes : Prop :=
  (∀ (a : Agent) (c : Fin 3) (t : BitVec 6) (s u : State), silenced s a = false → mayTarget a c.val t.toNat = true →
    (∀ x y, a = .awl x y → u = userLeave s (.awl x y)) → ((∀ x y, a ≠ .awl x y) → u = s) →
    (winner (bittern u c.val) c.val t.toNat = none → exec (.btnTgtClaim a ⟨c, t⟩) s = .next (retAgent u a 0)) ∧
    (∀ k, winner (bittern u c.val) c.val t.toNat = some k → ∃ v, exec (.btnTgtClaim a ⟨c, t⟩) s = .next (retAgent v a (2 ^ 31 + k)) ∧
      btnSrc (bittern v c.val) c.val k = { btnSrc (bittern u c.val) c.val k with pend := false, active := true } ∧
      (btnTgt (bittern v c.val) t.toNat).stack =
        (BitVec.ofNat 10 k, (btnSrc (bittern u c.val) c.val k).prio) :: (btnTgt (bittern u c.val) t.toNat).stack ∧
      ((btnGrp (bittern u c.val) (btnSrc (bittern u c.val) c.val k).group.toNat).holdoff ≠ 0 →
        (btnGrp (bittern v c.val) (btnSrc (bittern u c.val) c.val k).group.toNat).running = true) ∧
      v.mem = u.mem ∧ v.eyelets = u.eyelets ∧ v.cores = u.cores)) ∧
  (∀ (a : Agent) (c : Fin 3) (t : BitVec 6) (src : BitVec 10) (s : State), silenced s a = false → mayTarget a c.val t.toNat = true →
    BitternsCanonical s →
    (∀ top rest, (btnTgt (bittern s c.val) t.toNat).stack = top :: rest → top.1.toNat = src.toNat →
      ∃ v, exec (.btnTgtComplete a ⟨c, t⟩ src) s = .next v ∧ (btnTgt (bittern v c.val) t.toNat).stack = rest ∧
        (btnSrc (bittern v c.val) c.val src.toNat).active = false ∧ v.mem = s.mem ∧ v.cores = s.cores) ∧
    ((∀ top ∈ (btnTgt (bittern s c.val) t.toNat).stack.head?, top.1 ≠ src) →
      ∃ v, exec (.btnTgtComplete a ⟨c, t⟩ src) s = .next v ∧
        (btnTgt (bittern v c.val) t.toNat).stack = (btnTgt (bittern s c.val) t.toNat).stack ∧
        (btnTgt (bittern v c.val) t.toNat).orderErr = true ∧ (btnTgt (bittern v c.val) t.toNat).orderSrc = src ∧
        (btnSrc (bittern v c.val) c.val (claimOrderSource c.val)).pend = true ∧ v.mem = s.mem ∧ v.cores = s.cores)) ∧
  (∀ (a : Agent) (c : Fin 3) (t : BitVec 6) (src : BitVec 10) (s : State),
    (silenced s a = false → mayTarget a c.val t.toNat = false →
      exec (.btnTgtClaim a ⟨c, t⟩) s = .next (retAgent (regError s) a 0) ∧ exec (.btnTgtComplete a ⟨c, t⟩ src) s = .next (regError s)) ∧
    (silenced s a = true → exec (.btnTgtClaim a ⟨c, t⟩) s = .next s ∧ exec (.btnTgtComplete a ⟨c, t⟩ src) s = .next s))

/-- R382, R385: a write of BTN_SWPEND by an agent that may write it sets PEND as a firing does; by any other it is a register access
error; by an Awl core of a core out of service it is nothing (R287). R383: the end of a hold-off timer lets its group be delivered again. -/
def Obligations.BitternPendsAndHoldoff : Prop :=
  (∀ (a : Agent) (c : Fin 3) (k : BitVec 10) (s : State), k.toNat < btnSources c.val →
    (silenced s a = true → exec (.btnSwpend a c k) s = .next s) ∧
    (silenced s a = false → mayPend s a c.val k.toNat = true → exec (.btnSwpend a c k) s = .next (fire s c.val k.toNat)) ∧
    (silenced s a = false → mayPend s a c.val k.toNat = false → exec (.btnSwpend a c k) s = .next (regError s))) ∧
  (∀ (s : State) (c k : Nat), (btnSrc (bittern (fire s c k) c) c k).pend = true ∧ (fire s c k).mem = s.mem ∧
    (fire s c k).eyelets = s.eyelets ∧ (fire s c k).cores = s.cores) ∧
  (∀ (c : Fin 3) (g : BitVec 6) (s : State), BitternsCanonical s → ∃ t, exec (.btnHoldoffExpiry c g) s = .next t ∧
    (btnGrp (bittern t c.val) g.toNat).running = false ∧ t.mem = s.mem ∧ t.cores = s.cores)

/-- The Bittern commands keep every controller's tables in canonical form, from every state in which they stand so. -/
def Obligations.BitternsStayCanonical : Prop :=
  ∀ (s t : State) (i : Instr), BitternsCanonical s →
    ((∃ a x, i = .btnTgtClaim a x) ∨ (∃ a x k, i = .btnTgtComplete a x k) ∨ (∃ a c k, i = .btnSwpend a c k) ∨
      (∃ c g, i = .btnHoldoffExpiry c g)) → exec i s = .next t → BitternsCanonical t

/-- The Quag watch fires (R373): FIRED, the dump where the partition has a region for one, QUAG_SUSPECT and the hub's source, once for each
run of blockage; a partition that is not in QUAG mode, has fired already or does not look deadlocked is left alone. -/
def Obligations.QuagWatchFires : Prop :=
  ∀ (p : Fin 16) (s u : State) (n : Nat),
    u = modPart s p.val (fun x => { x with sync := { x.sync with fired := true, spent := true } }) →
    n = ((stands s p.val).filter (· == .blocked)).length →
    ((part s p.val).sync.quag = true → (part s p.val).sync.spent = false → looksDead s p.val (stepHeld s p.val) = true →
      (hasDump u p.val = false →
        exec (.quagFire p) s = .next (fireHub (postPart u p.val 0x0161 0 (leBytes 4 n ++ leBytes 4 0xFFFFFFFF)) 0x002)) ∧
      (hasDump u p.val = true → ∀ v, v = writeDump u p.val 3 0 →
        exec (.quagFire p) s = .next (fireHub (postPart v p.val 0x0161 0 (leBytes 4 n ++ leBytes 4 (part v p.val).sync.dumpSeq)) 0x002))) ∧
    ((part s p.val).sync.quag = false ∨ (part s p.val).sync.spent = true ∨ looksDead s p.val (stepHeld s p.val) = false →
      exec (.quagFire p) s = .next s)

/-- R47: a NaL operand makes a product NaN, even when the other is zero; otherwise a zero operand makes it zero; a product of two operands
that are neither is never zero. The operands of a processing element are log values (R80). -/
def Obligations.ProductsFollowTheirOperands : Prop :=
  (∀ (v : Val) (l : Bool), (peProduct (.nan l) v).1 = .nan false ∧ (peProduct v (.nan l)).1 = .nan false) ∧
  (∀ (x y : Bool) (t : Int), (peProduct (.zero x) (.log y t)).1 = .zero (xor x y) ∧ (peProduct (.log y t) (.zero x)).1 = .zero (xor y x) ∧
    (peProduct (.zero x) (.zero y)).1 = .zero (xor x y)) ∧
  (∀ (x y : Bool) (t u : Int), ∃ m e, (peProduct (.log x t) (.log y u)).1 = .fin (xor x y) m e ∧ 0 < m)

/-! ### Eyelets, laces and tallies (R270 to R277, R352 to R369) -/

/-- The four eyelet commands complete (R355, R357, R361): EYELET_INIT sets MODE and COUNT, clears SAT and keeps NEXT_TICKET;
EYELET_SIGNAL signals 1 or K and clears an event; EYELET_WAIT that can take does so at once, and with TRY delivers TAKEN;
EYELET_READ delivers its record. Nothing else changes until the completion. -/
def Obligations.EyeletCommandsComplete : Prop :=
  (∀ (s : State) (q : QEntry) (h : Hdr) (p : EyeletInitP) (pt : Nat), Startable s q pt → p.rsvdA = 0 → p.eyelet.toNat < 16384 →
    p.mode.toNat ≤ 1 → (p.mode.toNat = 1 → p.count.toNat ≤ 1) → ownsEyelet (atStart s q) pt p.eyelet.toNat = true →
    (eyelet (atStart s q) p.eyelet.toNat).waiters = [] →
    exec (.eyeletInit h p) (startOf s q) = .next (endsAs s q (.eyeletInit h p)
      { s := setEyelet (atStart s q) p.eyelet.toNat { eyelet (atStart s q) p.eyelet.toNat with
          event := decide (p.mode.toNat = 1), count := p.count, sat := false } })) ∧
  (∀ (s : State) (q : QEntry) (h : Hdr) (p : EyeletSignalP) (pt : Nat), Startable s q pt → p.rsvdA = 0 → p.eyelet.toNat < 16384 →
    ownsEyelet (atStart s q) pt p.eyelet.toNat = true →
    (p.op.toNat = 0 ∧ p.k.toNat = 0 ∨ p.op.toNat = 1 ∧ p.k.toNat ≠ 0 →
      exec (.eyeletSignal h p) (startOf s q) = .next (endsAs s q (.eyeletSignal h p)
        { s := (signalEyelet (atStart s q) p.eyelet.toNat (if p.op.toNat = 0 then 1 else p.k.toNat)).1,
          st := if (signalEyelet (atStart s q) p.eyelet.toNat (if p.op.toNat = 0 then 1 else p.k.toNat)).2 then .noResource
                else .ok })) ∧
    (p.op.toNat = 2 → p.k.toNat = 0 → (eyelet (atStart s q) p.eyelet.toNat).event = true →
      exec (.eyeletSignal h p) (startOf s q) = .next (endsAs s q (.eyeletSignal h p)
        { s := setEyelet (atStart s q) p.eyelet.toNat { eyelet (atStart s q) p.eyelet.toNat with count := 0 } }))) ∧
  (∀ (s : State) (q : QEntry) (h : Hdr) (p : EyeletWaitP) (pt : Nat) (x : Eyelet), Startable s q pt → p.rsvdA = 0 →
    p.ctl.toNat ≤ 1 → p.eyelet.toNat < 16384 → ownsEyelet (atStart s q) pt p.eyelet.toNat = true →
    ((eyelet (atStart s q) p.eyelet.toNat).event = true ∨ p.n.toNat ≠ 0) →
    takeEyelet (eyelet (atStart s q) p.eyelet.toNat) p.n.toNat = some x →
    exec (.eyeletWait h p) (startOf s q) = .next (endsAs s q (.eyeletWait h p)
      { s := setEyelet (atStart s q) p.eyelet.toNat x, record := if p.ctl.toNat = 1 then 1 :: zeros 7 else [] })) ∧
  (∀ (s : State) (q : QEntry) (h : Hdr) (p : EyeletReadP) (pt : Nat), Startable s q pt → p.rsvdA = 0 → p.eyelet.toNat < 16384 →
    ownsEyelet (atStart s q) pt p.eyelet.toNat = true →
    exec (.eyeletRead h p) (startOf s q) = .next (endsAs s q (.eyeletRead h p)
      { s := atStart s q, record := eyeletRecord (eyelet (atStart s q) p.eyelet.toNat) }))

/-- Where an eyelet wait cannot take: with TRY it completes at once and delivers 0; without, it takes the next ticket, joins the
waiters and waits (R355, R361). Where the checks fail, the command completes with the status that its table names and changes
nothing. -/
def Obligations.EyeletWaitSleepsOrFails : Prop :=
  (∀ (s : State) (q : QEntry) (h : Hdr) (p : EyeletWaitP) (pt : Nat), Startable s q pt → p.rsvdA = 0 → p.ctl.toNat ≤ 1 →
    p.eyelet.toNat < 16384 → ownsEyelet (atStart s q) pt p.eyelet.toNat = true →
    ((eyelet (atStart s q) p.eyelet.toNat).event = true ∨ p.n.toNat ≠ 0) →
    takeEyelet (eyelet (atStart s q) p.eyelet.toNat) p.n.toNat = none →
    exec (.eyeletWait h p) (startOf s q) = .next (endsAs s q (.eyeletWait h p)
      (if p.ctl.toNat = 1 then { s := atStart s q, record := zeros 8 }
       else { s := sleepOn (atStart s q) p.eyelet.toNat p.n.toNat (unitOf (atStart s q) q.cmd.h),
              wait := some (.eyelet p.eyelet.toNat p.n.toNat) }))) ∧
  (∀ (s : State) (q : QEntry) (h : Hdr) (p : EyeletInitP) (pt : Nat), Startable s q pt → p.rsvdA = 0 → p.eyelet.toNat < 16384 →
    p.mode.toNat = 0 →
    (ownsEyelet (atStart s q) pt p.eyelet.toNat = false →
      exec (.eyeletInit h p) (startOf s q) = .next (endsAs s q (.eyeletInit h p) { s := atStart s q, st := .denied })) ∧
    (ownsEyelet (atStart s q) pt p.eyelet.toNat = true → (eyelet (atStart s q) p.eyelet.toNat).waiters ≠ [] →
      exec (.eyeletInit h p) (startOf s q) = .next (endsAs s q (.eyeletInit h p) { s := atStart s q, st := .contextBusy }))) ∧
  (∀ (s : State) (q : QEntry) (h : Hdr) (p : EyeletSignalP) (pt : Nat), Startable s q pt → p.rsvdA = 0 → p.eyelet.toNat < 16384 →
    ownsEyelet (atStart s q) pt p.eyelet.toNat = true → p.op.toNat = 2 → p.k.toNat = 0 →
    (eyelet (atStart s q) p.eyelet.toNat).event = false →
    exec (.eyeletSignal h p) (startOf s q) = .next (endsAs s q (.eyeletSignal h p) { s := atStart s q, st := .badParam }))

/-- take(n) by the mode of the eyelet (R355, R357): of a semaphore it takes exactly when COUNT is at least n, and then COUNT falls by n;
a wait on an event proceeds when COUNT is 1 and does not change COUNT, whatever n. -/
def Obligations.TakesFollowTheMode : Prop :=
  (∀ (x : Eyelet) (n : Nat), x.event = false →
    (n ≤ x.count.toNat → ∃ y, takeEyelet x n = some y ∧ y.count.toNat = x.count.toNat - n ∧ y = { x with count := y.count }) ∧
    (x.count.toNat < n → takeEyelet x n = none)) ∧
  (∀ (x : Eyelet) (n : Nat), x.event = true → x.count.toNat ≤ 1 →
    (x.count = 1 → takeEyelet x n = some x) ∧ (x.count = 0 → takeEyelet x n = none))

/-- R358: a signal that saturates sets COUNT to 0xFFFF_FFFF and sets SAT; R355: any other signal adds k. No other eyelet
changes. -/
def Obligations.SignalAddsOrSaturates : Prop :=
  ∀ (s : State) (e k : Nat), twf ({} : Eyelet) s.eyelets = true → (eyelet s e).event = false →
    (2 ^ 32 ≤ (eyelet s e).count.toNat + k →
      (eyelet (signalEyelet s e k).1 e).count.toNat = 0xFFFFFFFF ∧ (eyelet (signalEyelet s e k).1 e).sat = true ∧
      (signalEyelet s e k).2 = true) ∧
    ((eyelet s e).count.toNat + k < 2 ^ 32 →
      (eyelet (signalEyelet s e k).1 e).count.toNat = (eyelet s e).count.toNat + k ∧
      (eyelet (signalEyelet s e k).1 e).sat = (eyelet s e).sat ∧ (signalEyelet s e k).2 = false) ∧
    ∀ f, f ≠ e → eyelet (signalEyelet s e k).1 f = eyelet s f

/-- The scan of R355 serves: after a signal to an eyelet, no sleeping waiter needs as little as the budget that is left, whatever
the waiters were before. -/
def Obligations.SignalServesEverySleeper : Prop :=
  ∀ (s : State) (e k : Nat), twf ({} : Eyelet) s.eyelets = true →
    eyeletServed (eyelet (signalEyelet s e k).1 e)

/-- The invariant of the eyelets (R355 to R357, R359): when every eyelet has been served, it still has after any eyelet-window
access and lace-window wait of an Awl core or a control core and after a tally-window claim, whatever the operands. Tokens therefore never lie unused
beside a sleeper that they would satisfy. -/
def Obligations.WindowStepsKeepEyeletsServed : Prop :=
  ∀ (s s' : State) (i : Instr), EyeletsServed s →
    ((∃ g a e k, i = .eyeletWindowSignal g a e k) ∨ (∃ g a e n, i = .eyeletWindowWait g a e n) ∨
     (∃ g a e n, i = .eyeletWindowTry g a e n) ∨ (∃ g a e, i = .eyeletWindowClear g a e) ∨
     (∃ g a l n, i = .laceWindowWait g a l n) ∨ (∃ c a t n, i = .tallyWindowClaim c a t n)) →
    step { s with pending := i :: s.pending } = .next s' → EyeletsServed s'

/-- Reset leaves every eyelet served and every memory empty, so in canonical form. -/
def Obligations.ResetMeetsInvariants : Prop := EyeletsServed State.reset ∧ MemoryCanonical State.reset

/-- The lace commands that complete at once (R363, R364, R367, R368): LACE_INIT writes the lace anew (a DEVICE lace, and a FABRIC
lace away from its root); LACE_ARRIVE counts an arrival for the current generation, or an early one for the next, and LACE_WAIT
for a released generation proceeds; LACE_READ delivers the record. -/
def Obligations.LaceCommandsComplete : Prop :=
  (∀ (s : State) (q : QEntry) (h : Hdr) (p : LaceInitP) (pt : Nat), Startable s q pt → p.rsvdA = 0 → p.rsvdB = 0 →
    p.lace.toNat < 1024 → p.scope.toNat ≤ 1 → p.expected ≠ 0 → p.start.toNat ≠ 2 ^ 64 - 1 →
    ¬ (p.scope.toNat = 1 ∧ p.root = (atStart s q).fab.addr) → p.devices = 0 → p.rootMap = 0 →
    ownsLace (atStart s q) pt p.lace.toNat = true → (lace (atStart s q) p.lace.toNat).waiters = [] →
    (lace (atStart s q) p.lace.toNat).arrived = 0 → (lace (atStart s q) p.lace.toNat).early = 0 →
    (lace (atStart s q) p.lace.toNat).devArr = 0 →
    exec (.laceInit h p) (startOf s q) = .next (endsAs s q (.laceInit h p)
      { s := setLace (atStart s q) p.lace.toNat (freshLace p) })) ∧
  (∀ (s : State) (q : QEntry) (h : Hdr) (p : LaceArriveP) (pt : Nat) (x : Lace), Startable s q pt → p.rsvdA = 0 → p.ctl = 0 →
    p.lace.toNat < 1024 → ownsLace (atStart s q) pt p.lace.toNat = true → x = lace (atStart s q) p.lace.toNat → x.expected ≠ 0 →
    (p.gen = x.gen → x.gen.toNat ≠ 2 ^ 64 - 1 →
      exec (.laceArrive h p) (startOf s q) = .next (endsAs s q (.laceArrive h p)
        { s := laceComplete (setLace (atStart s q) p.lace.toNat { x with arrived := x.arrived + 1 }) pt p.lace.toNat })) ∧
    (p.gen.toNat = x.gen.toNat + 1 →
      exec (.laceArrive h p) (startOf s q) = .next (endsAs s q (.laceArrive h p)
        { s := setLace (atStart s q) p.lace.toNat { x with early := x.early + 1 } }))) ∧
  (∀ (s : State) (q : QEntry) (h : Hdr) (p : LaceWaitP) (pt : Nat), Startable s q pt → p.rsvdA = 0 → p.lace.toNat < 1024 →
    ownsLace (atStart s q) pt p.lace.toNat = true → (lace (atStart s q) p.lace.toNat).expected ≠ 0 →
    exec (.laceWait h p) (startOf s q) = .next (endsAs s q (.laceWait h p)
      (if p.gen.toNat < (lace (atStart s q) p.lace.toNat).gen.toNat then { s := atStart s q }
       else { s := laceSleep (atStart s q) p.lace.toNat p.gen.toNat (unitOf (atStart s q) q.cmd.h),
              wait := some (.lace p.lace.toNat p.gen.toNat false) }))) ∧
  (∀ (s : State) (q : QEntry) (h : Hdr) (p : LaceReadP) (pt : Nat), Startable s q pt → p.rsvdA = 0 → p.lace.toNat < 1024 →
    ownsLace (atStart s q) pt p.lace.toNat = true →
    exec (.laceRead h p) (startOf s q) = .next (endsAs s q (.laceRead h p)
      { s := atStart s q, record := laceRecord (lace (atStart s q) p.lace.toNat) }))

/-- The lace commands of the fabric (R365): LACE_REMOTE_ARRIVE counts the sender's device at the root; LACE_RELEASE of the
generation that a FABRIC lace is in releases it and completes what EARLY arrivals have made complete, and one that names any other
generation sets DROP in LACE_FAULT. -/
def Obligations.RemoteLaceCommandsComplete : Prop :=
  (∀ (s : State) (q : QEntry) (h : Hdr) (p : LaceRemoteArriveP) (pt : Nat), Startable s q pt → p.rsvdA = 0 → p.lace.toNat < 1024 →
    ownsLace (atStart s q) pt p.lace.toNat = true →
    exec (.laceRemoteArrive h p) (startOf s q) = .next (endsAs s q (.laceRemoteArrive h p)
      { s := rootArrive (atStart s q) pt p.lace.toNat (cmdSource (atStart s q) q.cmd) p.gen.toNat })) ∧
  (∀ (s : State) (q : QEntry) (h : Hdr) (p : LaceReleaseP) (pt : Nat) (x : Lace), Startable s q pt → p.rsvdA = 0 →
    p.lace.toNat < 1024 → ownsLace (atStart s q) pt p.lace.toNat = true → x = lace (atStart s q) p.lace.toNat →
    (x.expected ≠ 0 → x.fabric = true → x.gen = p.gen → x.gen.toNat ≠ 2 ^ 64 - 1 →
      exec (.laceRelease h p) (startOf s q) = .next (endsAs s q (.laceRelease h p)
        { s := laceComplete (releaseOnce (atStart s q) p.lace.toNat) pt p.lace.toNat })) ∧
    (x.gen ≠ p.gen →
      exec (.laceRelease h p) (startOf s q) = .next (endsAs s q (.laceRelease h p)
        { s := laceDrop (atStart s q) p.lace.toNat })))

/-- R364: a lace's release moves GEN on by one and turns its early arrivals into arrivals; no unit that waited for the released
generation or an earlier one still waits, and every other does. -/
def Obligations.ReleaseMovesGeneration : Prop :=
  ∀ (s : State) (l : Nat), twf ({} : Lace) s.laces = true →
    (lace (releaseOnce s l) l).gen = (lace s l).gen + 1 ∧ (lace (releaseOnce s l) l).arrived = (lace s l).early ∧
    (lace (releaseOnce s l) l).early = 0 ∧
    ∀ w, w ∈ (lace (releaseOnce s l) l).waiters ↔ w ∈ (lace s l).waiters ∧ (lace s l).gen.toNat < w.gen.toNat

/-- The window accesses of Awl cores and control cores complete (R273, R362, R369): each returns a value to the core, or the core joins
the waiters; what it returns and what it leaves is as the rule of its offset says, for a core in service that may reach the object and
that has left what it waited on. A core out of service accepts nothing from its Awl cores (R287). -/
def Obligations.WindowAccessesComplete : Prop :=
  (∀ (c : Fin 16) (a : Fin 4) (t : BitVec 13) (n : BitVec 64) (s l : State) (p : Nat), inService s c.val = true →
    l = abandonUnit s (.awl c a) → partOfCore l c.val = some p → ownsTally l p t.toNat = true → 1 ≤ n.toNat → n.toNat ≤ 256 →
    exec (.tallyWindowClaim c a t n) s = .next (retAwl (tallyClaim l p t.toNat n.toNat).2 c.val a.val
      (tallyClaim l p t.toNat n.toNat).1)) ∧
  (∀ (u : WinUser) (e : BitVec 14) (k : BitVec 64) (s l : State), userServes s u → l = userLeave s u → userEyelet l u e.toNat = true →
    1 ≤ k.toNat → k.toNat ≤ 0xFFFFFFFF →
    exec (.eyeletWindowSignal u.cluster u.number e k) s =
      .next (retUser (signalEyelet l e.toNat k.toNat).1 u (eyelet l e.toNat).count.toNat)) ∧
  (∀ (u : WinUser) (e : BitVec 14) (n : BitVec 64) (s l : State) (x : Eyelet), userServes s u → l = userLeave s u →
    userEyelet l u e.toNat = true → 1 ≤ n.toNat → n.toNat ≤ 65535 →
    (takeEyelet (eyelet l e.toNat) n.toNat = some x →
      exec (.eyeletWindowWait u.cluster u.number e n) s = .next (retUser (setEyelet l e.toNat x) u x.count.toNat) ∧
      exec (.eyeletWindowTry u.cluster u.number e n) s = .next (retUser (setEyelet l e.toNat x) u 1)) ∧
    (takeEyelet (eyelet l e.toNat) n.toNat = none →
      exec (.eyeletWindowWait u.cluster u.number e n) s = .next (sleepOn l e.toNat n.toNat (userUnit u)) ∧
      exec (.eyeletWindowTry u.cluster u.number e n) s = .next (retUser l u 0))) ∧
  (∀ (u : WinUser) (e : BitVec 14) (s l : State), userServes s u → l = userLeave s u → userEyelet l u e.toNat = true →
    (eyelet l e.toNat).event = true →
    exec (.eyeletWindowClear u.cluster u.number e) s = .next (setEyelet l e.toNat { eyelet l e.toNat with count := 0 })) ∧
  (∀ (u : WinUser) (l : BitVec 10) (g : BitVec 64) (s t v : State) (p : Nat), userServes s u →
    t = setArrival (userLeave s u) u none → userLacePart t u l.toNat = some p → laceArrive t p l.toNat g.toNat = (v, none) →
    exec (.laceWindowArrive u.cluster u.number l g) s = .next (retUser v u (lace t l.toNat).gen.toNat)) ∧
  (∀ (u : WinUser) (l : BitVec 10) (g : BitVec 64) (s t v : State) (p : Nat), userServes s u →
    userArrival (userLeave s u) u ≠ some (l.toNat, g.toNat) → t = setArrival (userLeave s u) u none →
    userLacePart (userLeave s u) u l.toNat = some p → laceArrive t p l.toNat g.toNat = (v, none) →
    exec (.laceWindowArriveWait u.cluster u.number l g) s = .next (if g.toNat < (lace v l.toNat).gen.toNat
      then retUser v u (lace v l.toNat).gen.toNat
      else laceSleep (setArrival v u (some (l.toNat, g.toNat))) l.toNat g.toNat (userUnit u))) ∧
  (∀ (u : WinUser) (l : BitVec 10) (g : BitVec 64) (s t : State) (p : Nat), userServes s u →
    t = setArrival (userLeave s u) u none → userLacePart t u l.toNat = some p → (lace t l.toNat).expected ≠ 0 →
    exec (.laceWindowWait u.cluster u.number l g) s = .next (if g.toNat < (lace t l.toNat).gen.toNat
      then retUser t u (lace t l.toNat).gen.toNat else laceSleep t l.toNat g.toNat (userUnit u))) ∧
  (∀ (c : Fin 16) (a : Fin 4) (s : State), inService s c.val = false →
    (∀ t n, exec (.tallyWindowClaim c a t n) s = .next s) ∧ (∀ e k, exec (.eyeletWindowSignal (.awl c) a e k) s = .next s) ∧
    (∀ e n, exec (.eyeletWindowWait (.awl c) a e n) s = .next s) ∧ (∀ e n, exec (.eyeletWindowTry (.awl c) a e n) s = .next s) ∧
    (∀ e, exec (.eyeletWindowClear (.awl c) a e) s = .next s) ∧ (∀ l g, exec (.laceWindowArrive (.awl c) a l g) s = .next s) ∧
    (∀ l g, exec (.laceWindowArriveWait (.awl c) a l g) s = .next s) ∧ (∀ l g, exec (.laceWindowWait (.awl c) a l g) s = .next s))

/-- A woken waiter's retry (R355, R356): it takes, leaves the waiters and its unit proceeds, or it sleeps again with its old ticket and
a scan runs; a retry of a unit that no longer waits is dropped (R359). A wait that has caused a timeout dump causes no second one
(R370), and outside DUMP mode with a timeout none at all. -/
def Obligations.EyeletRetryAndDumpTimeout : Prop :=
  (∀ (e : BitVec 14) (u : UnitId) (s : State) (w : Waiter),
    (eyelet s e.toNat).waiters.find? (fun w => decide (w.unit = u) && w.woken) = some w →
    (∀ x, takeEyelet (eyelet s e.toNat) w.n = some x →
      exec (.eyeletRetry e u) s = .next (resumeUnit (setEyelet s e.toNat
        { x with waiters := x.waiters.filter (fun v => decide (v.unit ≠ u)) }) u
        (fun k => match k with
          | .eyelet f _ => decide (f = e.toNat)
          | _ => false) x.count.toNat)) ∧
    (takeEyelet (eyelet s e.toNat) w.n = none →
      exec (.eyeletRetry e u) s = .next (scan (setEyelet s e.toNat { eyelet s e.toNat with
        waiters := (eyelet s e.toNat).waiters.map (fun v => if v.unit = u then { v with woken := false } else v) }) e.toNat))) ∧
  (∀ (e : BitVec 14) (u : UnitId) (s : State),
    (eyelet s e.toNat).waiters.find? (fun w => decide (w.unit = u) && w.woken) = none → exec (.eyeletRetry e u) s = .next s) ∧
  (∀ (p : Fin 16) (u : UnitId) (s t : State), (part s p.val).sync.quag = false → (part s p.val).sync.timeout ≠ 0 →
    bound s p.val = true → markTimed s p.val u = some t → hasDump t p.val = true →
    exec (.dumpTimeout p u) s = .next (writeDump t p.val 2 (unitWord u))) ∧
  (∀ (p : Fin 16) (u : UnitId) (s : State),
    (part s p.val).sync.quag = true ∨ (part s p.val).sync.timeout = 0 ∨ markTimed s p.val u = none →
    exec (.dumpTimeout p u) s = .next s)

/-- The tally commands complete (R272, R275 to R277): TALLY_INIT starts a new epoch with VALUE 0 and a cleared bitmap; TALLY_CLAIM
delivers the claim word of R272 and moves VALUE on; TALLY_COMMIT copies the tensor, sets the done bit and releases its commit;
TALLY_RESET starts a new epoch and delivers its claim word, whose DONE bit is the model's reading (DEDUCED, entry 14), and TALLY_CLAIM's end
at the limit is R275's. -/
def Obligations.TallyCommandsComplete : Prop :=
  (∀ (s : State) (q : QEntry) (h : Hdr) (p : TallyInitP) (pt : Nat), Startable s q pt → p.tally.toNat < 8192 →
    1 ≤ p.limit.toNat → p.limit.toNat ≤ 2 ^ 24 →
    regionOk (atStart s q) pt p.doneBase.toNat (doneBytes p.limit.toNat) 8 true = true →
    ownsTally (atStart s q) pt p.tally.toNat = true →
    spanHbm (atStart s q) pt p.doneBase.toNat (doneBytes p.limit.toNat) = true →
    (tally (atStart s q) p.tally.toNat).pending = [] →
    exec (.tallyInit h p) (startOf s q) = .next (endsAs s q (.tallyInit h p)
      { s := partWrite (setTally (atStart s q) p.tally.toNat (freshTally p (tally (atStart s q) p.tally.toNat).epoch))
          pt p.doneBase.toNat (zeros (doneBytes p.limit.toNat)) })) ∧
  (∀ (s : State) (q : QEntry) (h : Hdr) (p : TallyClaimP) (pt : Nat) (x : Tally), Startable s q pt → p.rsvdA = 0 →
    p.tally.toNat < 8192 → 1 ≤ p.count.toNat → p.count.toNat ≤ 256 → ownsTally (atStart s q) pt p.tally.toNat = true →
    x = tally (atStart s q) p.tally.toNat →
    (x.limit.toNat ≤ x.value.toNat →
      exec (.tallyClaim h p) (startOf s q) = .next (endsAs s q (.tallyClaim h p)
        { s := atStart s q, record := leBytes 8 (2 ^ 62 + x.epoch.toNat * 2 ^ 32 + x.value.toNat) })) ∧
    (x.value.toNat < x.limit.toNat → partPoisoned (atStart s q) pt (doneAddr x x.value.toNat) 1 = false →
      exec (.tallyClaim h p) (startOf s q) = .next (endsAs s q (.tallyClaim h p)
        { s := setTally (atStart s q) p.tally.toNat
            { x with value := BitVec.ofNat 32 (min (x.value.toNat + p.count.toNat) x.limit.toNat) },
          record := leBytes 8 (claimWord (doneBit (atStart s q) pt x x.value.toNat) false x.epoch.toNat x.value.toNat) }))) ∧
  (∀ (s : State) (q : QEntry) (h : Hdr) (p : TallyCommitP) (pt : Nat) (src d : Desc) (x : Tally), Startable s q pt → p.rsvdA = 0 →
    p.tally.toNat < 8192 → ownsTally (atStart s q) pt p.tally.toNat = true →
    checkDescs (atStart s q) pt [(p.srcDesc.toNat, false), (p.dstDesc.toNat, true)] = .ok [src, d] →
    copyOk src d = true → x = tally (atStart s q) p.tally.toNat → fld p.claim.toNat 32 30 = x.epoch.toNat →
    p.claim.toNat % 2 ^ 32 < x.limit.toNat → doneBit (atStart s q) pt x (p.claim.toNat % 2 ^ 32) = false →
    partPoisoned (atStart s q) pt (doneAddr x (p.claim.toNat % 2 ^ 32)) 1 = false →
    x.pending.contains (p.claim.toNat % 2 ^ 32) = false → pendingCommits (atStart s q) (tallyHome p.tally.toNat).1 < 64 →
    commitBegun q.cmd = false →
    exec (.tallyCommit h p) (startOf s q) = .next (endsAs s q (.tallyCommit h p)
      (commitEnds (atStart s q) q.cmd p.tally.toNat (p.claim.toNat % 2 ^ 32) src d))) ∧
  (∀ (s : State) (q : QEntry) (h : Hdr) (p : TallyResetP) (pt : Nat) (x : Tally), Startable s q pt → p.tally.toNat < 8192 →
    p.expect.toNat < 2 ^ 30 → ownsTally (atStart s q) pt p.tally.toNat = true → x = tally (atStart s q) p.tally.toNat →
    (p.expect.toNat = 0 ∨ p.expect.toNat = x.epoch.toNat) → x.epoch.toNat ≠ 2 ^ 30 - 1 →
    (x.limit = 0 →
      exec (.tallyReset h p) (startOf s q) = .next (endsAs s q (.tallyReset h p)
        { s := setTally (atStart s q) p.tally.toNat { x with value := 0, epoch := x.epoch + 1 },
          record := leBytes 8 (claimWord false true (x.epoch + 1).toNat 0) })) ∧
    (x.limit ≠ 0 → partPoisoned (atStart s q) pt (doneAddr x 0) 1 = false →
      exec (.tallyReset h p) (startOf s q) = .next (endsAs s q (.tallyReset h p)
        { s := setTally (atStart s q) p.tally.toNat { x with value := 0, epoch := x.epoch + 1 },
          record := leBytes 8 (claimWord (doneBit (atStart s q) pt x 0) false (x.epoch + 1).toNat 0) })))

/-- R272: the claim word gives DONE in bit 63, EXHAUSTED in bit 62, EPOCH in bits 61 to 32 and VALUE in bits 31 to 0. With VALUE at
LIMIT or above a claim returns EXHAUSTED, EPOCH and VALUE and changes nothing; else it returns VALUE with its done bit and moves VALUE on by
n, never beyond LIMIT. The next claim of the tally, whoever makes it, returns a value past all of those that the first holds. -/
def Obligations.ClaimNeverPassesLimit : Prop :=
  ∀ (s u : State) (p t n w : Nat) (x : Tally), twf ({} : Tally) s.tallies = true → x = tally s t →
    w = (tallyClaim s p t n).1 → u = (tallyClaim s p t n).2 →
    w % 2 ^ 32 = x.value.toNat ∧ w / 2 ^ 32 % 2 ^ 30 = x.epoch.toNat ∧ w < 2 ^ 64 ∧
    (x.limit.toNat ≤ x.value.toNat → bitOf w 62 = true ∧ bitOf w 63 = false ∧ u = s) ∧
    (x.value.toNat < x.limit.toNat → bitOf w 62 = false ∧ bitOf w 63 = doneBit s p x x.value.toNat ∧
      (tally u t).value.toNat = min (x.value.toNat + n) x.limit.toNat ∧
      tally u t = { x with value := (tally u t).value } ∧
      (∀ r, r ≠ t → tally u r = tally s r) ∧ u.mem = s.mem ∧ u.eyelets = s.eyelets ∧ u.cores = s.cores ∧
      ∀ q m, (tallyClaim u q t m).1 % 2 ^ 32 = min (x.value.toNat + n) x.limit.toNat)

/-! ### Memory, movement and the matrix engines (R100 to R103, R155 to R190, R225 to R239, R502 to R505) -/

/-- The movement commands complete (R236 to R239, R502, R504, R505): with the descriptors that the checks of R225 have read and with
the command's own checks passed, each runs the copy, gather, scatter, fill, host copy, flow or conversion of its rule. DESC_CHECK
delivers its record and changes nothing. -/
def Obligations.MovementCommandsComplete : Prop :=
  (∀ (s : State) (q : QEntry) (h : Hdr) (p : CopyP) (pt : Nat) (src d : Desc), Startable s q pt → unitFree (atStart s q) .move q.cmd →
    checkDescs (atStart s q) pt [(p.srcDesc.toNat, false), (p.dstDesc.toNat, true)] = .ok [src, d] → p.ctl.toNat ≤ 1 → p.rsvdA = 0 →
    copyOk src d = true →
    exec (.copy h p) (startOf s q) = .next (endsAs s q (.copy h p) (copyRun (atStart s q) q.cmd src d))) ∧
  (∀ (s : State) (q : QEntry) (h : Hdr) (p : GatherP) (pt : Nat) (src idx d : Desc), Startable s q pt → unitFree (atStart s q) .move q.cmd →
    checkAll (atStart s q) pt [(p.srcDesc.toNat, false), (p.idxDesc.toNat, false), (p.dstDesc.toNat, true)] [] = .ok [src, idx, d] →
    firstFail (indexedChecks (atStart s q) pt p.axis.toNat p.ctl.toNat (decide (p.rsvdA ≠ 0)) false src idx d) = none →
    exec (.gather h p) (startOf s q) = .next (endsAs s q (.gather h p) (indexedRun (atStart s q) q.cmd (dim (seenExt src) p.axis.toNat)
      src idx d (gatherRun p.axis.toNat (bitOf p.ctl.toNat 1))))) ∧
  (∀ (s : State) (q : QEntry) (h : Hdr) (p : ScatterP) (pt : Nat) (src idx d : Desc), Startable s q pt → unitFree (atStart s q) .move q.cmd →
    checkAll (atStart s q) pt [(p.srcDesc.toNat, false), (p.idxDesc.toNat, false), (p.dstDesc.toNat, true)] [] = .ok [src, idx, d] →
    firstFail (indexedChecks (atStart s q) pt p.axis.toNat p.ctl.toNat (decide (p.rsvdA ≠ 0)) true src idx d) = none →
    exec (.scatter h p) (startOf s q) = .next (endsAs s q (.scatter h p) (indexedRun (atStart s q) q.cmd (dim (seenExt d) p.axis.toNat)
      src idx d (scatterRun p.axis.toNat (bitOf p.ctl.toNat 1))))) ∧
  (∀ (s : State) (q : QEntry) (h : Hdr) (p : MemFillP) (pt : Nat) (d : Desc), Startable s q pt →
    checkDescs (atStart s q) pt [(p.dstDesc.toNat, true)] = .ok [d] → isDense d = true →
    exec (.memFill h p) (startOf s q) = .next (endsAs s q (.memFill h p) (fillRun (atStart s q) q.cmd d))) ∧
  (∀ (s : State) (q : QEntry) (h : Hdr) (p : HostCopyP) (pt : Nat) (d : Desc), Startable s q pt →
    checkDescs (atStart s q) pt [(p.desc.toNat, decide (p.dir.toNat ≠ 1))] = .ok [d] → p.dir.toNat ≤ 1 → p.rsvdA = 0 → isDense d = true →
    hostSpanOk (atStart s q) pt p.hostAddr.toNat (tensorLen d) (decide (p.dir.toNat = 1)) = true →
    exec (.hostCopy h p) (startOf s q) = .next (endsAs s q (.hostCopy h p)
      (hostCopyRun (atStart s q) q.cmd (decide (p.dir.toNat = 1)) p.hostAddr.toNat d))) ∧
  (∀ (s : State) (q : QEntry) (h : Hdr) (p : FlowSendP) (pt : Nat) (d : Desc), Startable s q pt →
    checkDescs (atStart s q) pt [(p.srcDesc.toNat, false)] = .ok [d] → p.rsvdA = 0 → p.context.toNat < 0x10000 →
    ownsCtx (atStart s q) pt p.context.toNat = true → (ctx (atStart s q) p.context.toNat).isOpen = true →
    (ctx (atStart s q) p.context.toNat).kind = 3 → isDense d = true → (ctx (atStart s q) p.context.toNat).tx.lost = false →
    departed (atStart s q) (ctx (atStart s q) p.context.toNat).peer = false →
    exec (.flowSend h p) (startOf s q) = .next (endsAs s q (.flowSend h p)
      (flowRun (atStart s q) q.cmd p.context.toNat p.offset.toNat d))) ∧
  (∀ (s : State) (q : QEntry) (h : Hdr) (p : CompressP) (pt : Nat) (src d : Desc), Startable s q pt → unitFree (atStart s q) .move q.cmd →
    checkDescs (atStart s q) pt [(p.srcDesc.toNat, false), (p.dstDesc.toNat, true)] = .ok [src, d] → p.mode.toNat ≤ 7 →
    fld p.mode.toNat 0 2 ≤ 1 → p.rsvdA = 0 → isDense d = false → src.rank = d.rank → seenExt src = seenExt d →
    badConv src.elem d.elem = false →
    exec (.compress h p) (startOf s q) = .next (endsAs s q (.compress h p) (compressRun (atStart s q) q.cmd p.mode.toNat src d))) ∧
  (∀ (s : State) (q : QEntry) (h : Hdr) (p : DescCheckP) (pt : Nat), Startable s q pt → p.role.toNat ≤ 1 → p.rsvdA = 0 →
    checkDesc (atStart s q) pt p.desc.toNat (decide (p.role.toNat = 1)) ≠ .no .integrityFail 0 →
    exec (.descCheck h p) (startOf s q) = .next (endsAs s q (.descCheck h p)
      { s := atStart s q, record := descCheckRecord (atStart s q) pt p.desc.toNat (decide (p.role.toNat = 1)) }))

/-- MEM_ATOMIC completes (R410, R502): for an aligned, writable, unpoisoned word it stores what the operation of OP gives and delivers
the old value, zero-extended. What each operation stores of a word of w bytes: add, compare-swap, swap, AND, OR, XOR, and the unsigned
and signed minimum and maximum; the result always fits the word. -/
def Obligations.MemAtomicCompletes : Prop :=
  (∀ (s : State) (q : QEntry) (h : Hdr) (p : MemAtomicP) (pt a w old : Nat), Startable s q pt → p.rsvdA = 0 → p.op.toNat ≤ 9 →
    (w = 4 ∨ w = 8) → p.width.toNat = w → a = p.addr.toNat → a % w = 0 → pageOk (atStart s q) pt a true = true →
    partPoisoned (atStart s q) pt a w = false → old = leNat (partRead (atStart s q) pt a w) →
    exec (.memAtomic h p) (startOf s q) = .next (endsAs s q (.memAtomic h p)
      { s := partWrite (countAtomic (atStart s q) pt ((xlate (atStart s q) pt a).getD 0) 1) pt a
          (leBytes w (atomicOp p.op.toNat w old p.operand.toNat p.compare.toNat)),
        record := leBytes 8 old })) ∧
  (∀ (w old operand compare : Nat), (w = 4 ∨ w = 8) → old < 2 ^ (8 * w) →
    atomicOp 0 w old operand compare = (old + operand) % 2 ^ (8 * w) ∧
    (old = compare % 2 ^ (8 * w) → atomicOp 1 w old operand compare = operand % 2 ^ (8 * w)) ∧
    (old ≠ compare % 2 ^ (8 * w) → atomicOp 1 w old operand compare = old) ∧
    atomicOp 2 w old operand compare = operand % 2 ^ (8 * w) ∧
    (∀ j, (atomicOp 3 w old operand compare).testBit j = (old.testBit j && (operand % 2 ^ (8 * w)).testBit j)) ∧
    (∀ j, (atomicOp 4 w old operand compare).testBit j = (old.testBit j || (operand % 2 ^ (8 * w)).testBit j)) ∧
    (∀ j, (atomicOp 5 w old operand compare).testBit j = (old.testBit j != (operand % 2 ^ (8 * w)).testBit j)) ∧
    atomicOp 6 w old operand compare = min old (operand % 2 ^ (8 * w)) ∧
    atomicOp 7 w old operand compare = max old (operand % 2 ^ (8 * w)) ∧
    sext (8 * w) (atomicOp 8 w old operand compare) = min (sext (8 * w) old) (sext (8 * w) (operand % 2 ^ (8 * w))) ∧
    sext (8 * w) (atomicOp 9 w old operand compare) = max (sext (8 * w) old) (sext (8 * w) (operand % 2 ^ (8 * w))) ∧
    ∀ op, op ≤ 9 → atomicOp op w old operand compare < 2 ^ (8 * w))

/-- The commands of the matrix engine complete (R100 to R103, R155, R159, R188): with the descriptors read and the checks passed, GEMM,
SPMM and SPMM_T run their product, for a stream whose delivery target, where ACC_OUT directs results to the Welt, takes them;
SOUNDING runs its estimate, and TOPK its selection. A command of a core's unit that finds another stream's command standing at a
resume boundary on the unit, or a save of its own region outstanding, waits before its first resume unit with nothing done (R265, R278). -/
def Obligations.MatrixCommandsComplete : Prop :=
  (∀ (s : State) (q : QEntry) (h : Hdr) (p : GemmP) (pt core i : Nat) (a b : Desc) (rest : List Desc), Startable s q pt → unitFree (atStart s q) .sole q.cmd →
    streamOfHdr (atStart s q) q.cmd.h = some (core, i) → checkDescs (atStart s q) pt (gemmList p) = .ok (a :: b :: rest) →
    firstFail (gemmChecks (atStart s q) (physOf (atStart s q) core) i p a b rest.head?) = none →
    (accOut p.ctl.toNat ≠ 2 →
      exec (.gemm h p) (startOf s q) = .next (endsAs s q (.gemm h p)
        (gemmRun (atStart s q) q.cmd core a b rest.head? (gemmGeo a b p.ctl.toNat p.accRow.toNat)))) ∧
    (∀ t, accOut p.ctl.toNat = 2 → deliverReady (atStart s q) pt core i = .go t →
      exec (.gemm h p) (startOf s q) = .next (endsAs s q (.gemm h p)
        (gemmRun (atStart s q) q.cmd core a b rest.head? { gemmGeo a b p.ctl.toNat p.accRow.toNat with target := t })))) ∧
  (∀ (s : State) (q : QEntry) (h : Hdr) (p : SpmmP) (pt core i : Nat) (a x : Desc) (rest : List Desc), Startable s q pt → unitFree (atStart s q) .sole q.cmd →
    streamOfHdr (atStart s q) q.cmd.h = some (core, i) → firstFail (sparseFirst (atStart s q) pt (spmmOf p)) = none →
    checkDescs (atStart s q) pt (sparseList (spmmOf p)) = .ok (a :: x :: rest) →
    firstFail (sparseChecks false (atStart s q) pt (physOf (atStart s q) core) i (spmmOf p) a x rest.head?) = none →
    accOut p.ctl.toNat ≠ 2 →
    exec (.spmm h p) (startOf s q) = .next (endsAs s q (.spmm h p) (sparseRun (atStart s q) q.cmd core false a x rest.head?
      (sparseGeo false a x p.ctl.toNat p.accRow.toNat) p.selAddr.toNat p.fenDesc.toNat))) ∧
  (∀ (s : State) (q : QEntry) (h : Hdr) (p : SpmmTP) (pt core i : Nat) (a x : Desc) (rest : List Desc), Startable s q pt → unitFree (atStart s q) .sole q.cmd →
    streamOfHdr (atStart s q) q.cmd.h = some (core, i) → firstFail (sparseFirst (atStart s q) pt (spmmTOf p)) = none →
    checkDescs (atStart s q) pt (sparseList (spmmTOf p)) = .ok (a :: x :: rest) →
    firstFail (sparseChecks true (atStart s q) pt (physOf (atStart s q) core) i (spmmTOf p) a x rest.head?) = none →
    accOut p.ctl.toNat ≠ 2 →
    exec (.spmmT h p) (startOf s q) = .next (endsAs s q (.spmmT h p) (sparseRun (atStart s q) q.cmd core true a x rest.head?
      (sparseGeo true a x p.ctl.toNat p.accRow.toNat) p.selAddr.toNat p.fenDesc.toNat))) ∧
  (∀ (s : State) (q : QEntry) (h : Hdr) (p : SoundingP) (pt : Nat) (a b : Desc) (rest : List Desc), Startable s q pt → unitFree (atStart s q) .sole q.cmd →
    regionOk (atStart s q) pt p.bitmap.toNat 1 1 true = true → checkDescs (atStart s q) pt (soundList p) = .ok (a :: b :: rest) →
    firstFail (soundChecks (atStart s q) pt p a b rest.head?) = none →
    exec (.sounding h p) (startOf s q) = .next (endsAs s q (.sounding h p) (soundRun (atStart s q) q.cmd a b rest.head?
      (bitOf p.ctl.toNat 7) (soundCtl p) p.slot.toNat p.bitmap.toNat (bitOf p.ctl.toNat 8)))) ∧
  (∀ (s : State) (q : QEntry) (h : Hdr) (p : TopkP) (pt : Nat) (src vd pd : Desc), Startable s q pt → unitFree (atStart s q) .welt q.cmd →
    (topkMasked p = true → regionOk (atStart s q) pt p.maskAddr.toNat 1 1 false = true) →
    checkDescs (atStart s q) pt [(p.srcDesc.toNat, false), (p.valDesc.toNat, true), (p.posDesc.toNat, true)] = .ok [src, vd, pd] →
    firstFail (topkChecks (atStart s q) pt p src vd pd) = none →
    exec (.topk h p) (startOf s q) = .next (endsAs s q (.topk h p)
      (topkRun (atStart s q) q.cmd src vd pd p.k.toNat p.ctl.toNat p.maskAddr.toNat))) ∧
  (∀ (s : State) (q : QEntry) (h : Hdr) (pt k i : Nat), Startable s q pt → streamOfHdr (atStart s q) q.cmd.h = some (k, i) →
    q.cmd.grant = none →
    (pausedOn (atStart s q) k .sole ≠ [] ∨ saveHolds (atStart s q) k i .sole = true →
      (∀ p, exec (.gemm h p) (startOf s q) = .next (endsAs s q (.gemm h p) (holdAt (atStart s q) q.cmd))) ∧
      (∀ p, exec (.spmm h p) (startOf s q) = .next (endsAs s q (.spmm h p) (holdAt (atStart s q) q.cmd))) ∧
      (∀ p, exec (.spmmT h p) (startOf s q) = .next (endsAs s q (.spmmT h p) (holdAt (atStart s q) q.cmd))) ∧
      (∀ p, exec (.sounding h p) (startOf s q) = .next (endsAs s q (.sounding h p) (holdAt (atStart s q) q.cmd)))) ∧
    (pausedOn (atStart s q) k .welt ≠ [] →
      (∀ p, exec (.topk h p) (startOf s q) = .next (endsAs s q (.topk h p) (holdAt (atStart s q) q.cmd))) ∧
      (∀ p, exec (.prune h p) (startOf s q) = .next (endsAs s q (.prune h p) (holdAt (atStart s q) q.cmd))) ∧
      (∀ p, exec (.regrow h p) (startOf s q) = .next (endsAs s q (.regrow h p) (holdAt (atStart s q) q.cmd)))) ∧
    (pausedOn (atStart s q) k .move ≠ [] →
      (∀ p, exec (.copy h p) (startOf s q) = .next (endsAs s q (.copy h p) (holdAt (atStart s q) q.cmd))) ∧
      (∀ p, exec (.gather h p) (startOf s q) = .next (endsAs s q (.gather h p) (holdAt (atStart s q) q.cmd))) ∧
      (∀ p, exec (.scatter h p) (startOf s q) = .next (endsAs s q (.scatter h p) (holdAt (atStart s q) q.cmd))) ∧
      (∀ p, exec (.compress h p) (startOf s q) = .next (endsAs s q (.compress h p) (holdAt (atStart s q) q.cmd)))))

/-- The Fen commands and the optimizer complete (R176, R181 to R183, R303): a FEN_MERGE or FEN_SCATTER whose table descriptor and
tensors pass their checks runs, and an OPT_UPDATE whose items no checkpoint holds updates its tensors. -/
def Obligations.FenAndOptimizerComplete : Prop :=
  (∀ (s : State) (q : QEntry) (h : Hdr) (p : FenMergeP) (pt core i : Nat) (ds : List Desc), Startable s q pt →
    streamOfHdr (atStart s q) q.cmd.h = some (core, i) → fenAddrOk (atStart s q) pt p.tableDesc.toNat = true →
    fenDescHurt (atStart s q) pt p.tableDesc.toNat = false →
    fenDescOk (atStart s q) pt p.tableDesc.toNat = true → p.mode.toNat < 8 → fld p.mode.toNat 0 2 ≠ 3 → p.rsvdA = 0 →
    (fld p.mode.toNat 0 2 = 1 ↔ p.dstDesc ≠ 0) →
    checkDescs (atStart s q) pt (if fld p.mode.toNat 0 2 = 1 then [(p.dstDesc.toNat, true)] else []) = .ok ds →
    (∀ d ∈ ds, isDense d = true ∧ (d.elem = .a48 ∨ d.elem = .fp32 ∨ d.elem = .l16)) →
    fenConflict (atStart s q) pt (physOf (atStart s q) core) p.tableDesc.toNat = false →
    exec (.fenMerge h p) (startOf s q) = .next (endsAs s q (.fenMerge h p)
      (fenMergeRun (atStart s q) q.cmd (physOf (atStart s q) core) p.tableDesc.toNat p.mode.toNat ds.head?))) ∧
  (∀ (s : State) (q : QEntry) (h : Hdr) (p : FenScatterP) (pt core i : Nat) (kd vd : Desc), Startable s q pt →
    streamOfHdr (atStart s q) q.cmd.h = some (core, i) → fenAddrOk (atStart s q) pt p.fenDesc.toNat = true →
    fenDescHurt (atStart s q) pt p.fenDesc.toNat = false →
    fenDescOk (atStart s q) pt p.fenDesc.toNat = true →
    checkDescs (atStart s q) pt [(p.keyDesc.toNat, false), (p.valDesc.toNat, false)] = .ok [kd, vd] → p.ctl.toNat ≤ 1 → p.rsvdA = 0 →
    fenConflict (atStart s q) pt (physOf (atStart s q) core) p.fenDesc.toNat = false → isDense kd = true →
    (kd.elem = .u32 ∨ kd.elem = .s32 ∨ kd.elem = .u64) → isDense vd = true → elemInt vd.elem = false → seenExt kd = seenExt vd →
    exec (.fenScatter h p) (startOf s q) = .next (endsAs s q (.fenScatter h p)
      (fenScatterRun (atStart s q) q.cmd (physOf (atStart s q) core) p.fenDesc.toNat (bitOf p.ctl.toNat 0) kd vd))) ∧
  (∀ (s : State) (q : QEntry) (h : Hdr) (p : OptUpdateP) (pt : Nat) (gd wd : Desc) (rest : List Desc) (md vd od : Option Desc),
    Startable s q pt → firstFail (optFirst (atStart s q) pt p) = none →
    checkAll (atStart s q) pt (optList p) [] = .ok (gd :: wd :: rest) → md = (if optHasM p then rest[0]? else none) →
    vd = (if optHasV p then rest[b2n (optHasM p)]? else none) →
    od = (if optHasO p then rest[b2n (optHasM p) + b2n (optHasV p)]? else none) →
    firstFail (optChecks (atStart s q) pt p gd wd md vd od) = none →
    ckptHoldsDescs (atStart s q) pt ([some wd, md, vd, od].filterMap id) = false →
    exec (.optUpdate h p) (startOf s q) = .next (endsAs s q (.optUpdate h p) (optRun (atStart s q) q.cmd p gd wd md vd od)))

/-- The mask commands complete (R194 to R200, R206 to R209): PRUNE and REGROW edit the record's NEXT_MASK; REMASK stages the record, or
aborts it, an IDLE record being left as it is and an OPEN one going to IDLE with REMOVED and ADDED 0; MASK_VOTE counts at the root,
and MASK_DECIDE records the decision. -/
def Obligations.MaskCommandsComplete : Prop :=
  (∀ (s : State) (q : QEntry) (h : Hdr) (p : PruneP) (pt : Nat) (m : MaskRec) (d : Desc), Startable s q pt → unitFree (atStart s q) .welt q.cmd →
    regionOk (atStart s q) pt p.record.toNat 64 64 true = true → recordOf (atStart s q) pt p.record.toNat (pruneBad p) acceptEdit = .ok m →
    recordHeld (atStart s q) pt p.record.toNat = false →
    checkDescs (atStart s q) pt [(p.wDesc.toNat, false)] = .ok [d] → elemInt d.elem = false → seenExt d = m.ext →
    exec (.prune h p) (startOf s q) = .next (endsAs s q (.prune h p)
      (pruneRun (atStart s q) q.cmd m d p.k.toNat p.scope.toNat p.groupLog.toNat (bitOf p.ctl.toNat 0)))) ∧
  (∀ (s : State) (q : QEntry) (h : Hdr) (p : RegrowP) (pt : Nat) (m : MaskRec) (d : Desc) (rest : List Desc), Startable s q pt → unitFree (atStart s q) .welt q.cmd →
    regionOk (atStart s q) pt p.record.toNat 64 64 true = true → recordOf (atStart s q) pt p.record.toNat (regrowBad p) acceptEdit = .ok m →
    recordHeld (atStart s q) pt p.record.toNat = false →
    checkDescs (atStart s q) pt (regrowList p) = .ok (d :: rest) → regrowShape m d rest.head? = true →
    exec (.regrow h p) (startOf s q) = .next (endsAs s q (.regrow h p)
      (regrowRun (atStart s q) q.cmd m d rest.head? (regrowCtl p)))) ∧
  (∀ (s : State) (q : QEntry) (h : Hdr) (p : RemaskP) (pt : Nat) (m : MaskRec), Startable s q pt →
    recordHeld (atStart s q) pt p.record.toNat = false →
    (p.ctl.toNat = 1 → recordOf (atStart s q) pt p.record.toNat false acceptAbort = .ok m →
      exec (.remask h p) (startOf s q) = .next (endsAs s q (.remask h p)
        { s := if m.state = 0 then atStart s q
               else partWrite (partWrite (atStart s q) pt p.record.toNat (leBytes 1 0)) pt (p.record.toNat + 40) (zeros 16) })) ∧
    (p.ctl.toNat = 0 → firstFail (stageChecks (atStart s q) pt p) = none →
      recordOf (atStart s q) pt p.record.toNat false acceptStage = .ok m →
      exec (.remask h p) (startOf s q) = .next (endsAs s q (.remask h p) (remaskStage (atStart s q) q.cmd p m)))) ∧
  (∀ (s : State) (q : QEntry) (h : Hdr) (p : MaskVoteP) (pt : Nat), Startable s q pt → p.vote.toNat ≤ 1 → p.rsvdA = 0 → p.rsvdB = 0 →
    p.voters ≠ 0 →
    exec (.maskVote h p) (startOf s q) = .next (endsAs s q (.maskVote h p) { s := rootVote (atStart s q) pt p })) ∧
  (∀ (s : State) (q : QEntry) (h : Hdr) (p : MaskDecideP) (pt : Nat), Startable s q pt → p.decision.toNat ≤ 1 → p.rsvdA = 0 →
    exec (.maskDecide h p) (startOf s q) = .next (endsAs s q (.maskDecide h p)
      { s := decideEpoch (atStart s q) pt p.job (decide (p.decision = 0)) p.newEpoch p.effStep }))

/-! ### Reduction, parameters, jobs and checkpoints (R289 to R349, R437, R438) -/

/-- The reduction commands complete (R320, R324, R327, R335, R336, R340): REDUCE_SETUP installs a checked plan, removes it or abandons it;
REDUCE_TARGET directs the stream; REDUCE_CONTRIB delivers; REDUCE_WAIT answers or waits; REDUCE_RELEASE frees a complete window and
lets waiting segments in; REDUCE_EXCLUDE drops the missing slots and delivers its record. -/
def Obligations.ReductionCommandsComplete : Prop :=
  (∀ (s : State) (q : QEntry) (h : Hdr) (p : ReduceSetupP) (pt : Nat) (hd : List Byte) (es : List (List Byte)), Startable s q pt →
    p.rsvdA = 0 → regionOk (atStart s q) pt p.plan.toNat 64 64 false = true → hd = partRead (atStart s q) pt p.plan.toNat 64 →
    es = planEntries (atStart s q) pt hd →
    (p.op = 0 → planPoisoned (atStart s q) pt p.plan.toNat hd es = false → jobPlanned (atStart s q) (at_ hd 0 4) = false →
      draining (atStart s q) = false → planOk (atStart s q) pt hd es = true → planRegionsOk (atStart s q) pt hd es = true →
      reservedSlots (setPlan (atStart s q) pt none) + (es.map entryWindow).sum ≤ 768 →
      exec (.reduceSetup h p) (startOf s q) = .next (endsAs s q (.reduceSetup h p)
        { s := installPlan (atStart s q) pt (newPlan (atStart s q) pt hd es) })) ∧
    (∀ x, planOf (atStart s q) pt = some x → at_ x.header 0 4 = at_ hd 0 4 →
      (p.op = 1 → planOpen x = false →
        exec (.reduceSetup h p) (startOf s q) = .next (endsAs s q (.reduceSetup h p) { s := setPlan (atStart s q) pt none })) ∧
      (p.op = 2 →
        exec (.reduceSetup h p) (startOf s q) = .next (endsAs s q (.reduceSetup h p)
          { s := setPlan (abandonPlan (atStart s q) pt) pt none })))) ∧
  (∀ (s : State) (q : QEntry) (h : Hdr) (p : ReduceTargetP) (pt core i : Nat), Startable s q pt →
    streamOfHdr (atStart s q) q.cmd.h = some (core, i) → p.rsvdA = 0 →
    contributes (atStart s q) pt p.job.toNat p.bucket.toNat core = true →
    (if modeOf (atStart s q) pt = 1 then inInsole p.stageAddr.toNat core = true else p.stageAddr = 0) →
    exec (.reduceTarget h p) (startOf s q) = .next (endsAs s q (.reduceTarget h p)
      { s := modStream (atStart s q) core i (fun x => { x with target := some { job := p.job.toNat, bucket := p.bucket.toNat, baseElem := p.baseElem.toNat, rowPitch := p.rowPitch.toNat, stageAddr := p.stageAddr.toNat } }) })) ∧
  (∀ (s : State) (q : QEntry) (h : Hdr) (p : ReduceContribP) (pt core i : Nat) (ds : List Desc) (x : Bucket), Startable s q pt →
    streamOfHdr (atStart s q) q.cmd.h = some (core, i) → 1 ≤ p.ctl.toNat → p.ctl.toNat ≤ 3 → p.rsvdA = 0 → p.rsvdB = 0 →
    (bitOf p.ctl.toNat 1 = false → p.srcDesc = 0) → contributes (atStart s q) pt p.job.toNat p.bucket.toNat core = true →
    checkDescs (atStart s q) pt (if bitOf p.ctl.toNat 1 then [(p.srcDesc.toNat, false)] else []) = .ok ds →
    (∀ d ∈ ds, isDense d = true ∧ elemInt d.elem = false) → bucketOf (atStart s q) pt p.bucket.toNat = some x → x.lost = false →
    mustHold (atStart s q) pt x core = false →
    exec (.reduceContrib h p) (startOf s q) = .next (endsAs s q (.reduceContrib h p)
      (contribRun (atStart s q) q.cmd core i p.bucket.toNat p.baseElem.toNat (bitOf p.ctl.toNat 0) ds.head?))) ∧
  (∀ (s : State) (q : QEntry) (h : Hdr) (p : ReduceWaitP) (pt : Nat) (x : Bucket), Startable s q pt → p.rsvdA = 0 →
    ownsBucket (atStart s q) pt p.job.toNat p.bucket.toNat = true → bucketOf (atStart s q) pt p.bucket.toNat = some x →
    (∀ st, waitNow x (BitVec.ofNat 32 p.step.toNat) = some st →
      exec (.reduceWait h p) (startOf s q) = .next (endsAs s q (.reduceWait h p)
        { s := atStart s q, st := st, record := waitRecord x (BitVec.ofNat 32 p.step.toNat) })) ∧
    (waitNow x (BitVec.ofNat 32 p.step.toNat) = none →
      exec (.reduceWait h p) (startOf s q) = .next (endsAs s q (.reduceWait h p)
        { s := atStart s q, wait := some (.reduce p.bucket.toNat (p.step.toNat % 2 ^ 32)) }))) ∧
  (∀ (s : State) (q : QEntry) (h : Hdr) (p : ReduceReleaseP) (pt : Nat) (x : Bucket) (tag : BitVec 32), Startable s q pt → p.rsvdA = 0 →
    ownsBucket (atStart s q) pt p.job.toNat p.bucket.toNat = true → bucketOf (atStart s q) pt p.bucket.toNat = some x →
    x.win = .complete tag →
    exec (.reduceRelease h p) (startOf s q) = .next (endsAs s q (.reduceRelease h p)
      { s := settle (setBucket (atStart s q) pt p.bucket.toNat { x with win := .empty }) pt p.bucket.toNat })) ∧
  (∀ (s : State) (q : QEntry) (h : Hdr) (p : ReduceExcludeP) (pt : Nat) (x : Bucket) (r : Reduction), Startable s q pt → p.rsvdA = 0 →
    ownsBucket (atStart s q) pt p.job.toNat p.bucket.toNat = true → bucketOf (atStart s q) pt p.bucket.toNat = some x →
    x.red = some r → r.tag = BitVec.ofNat 32 p.step.toNat → r.isOpen = true → r.missing ≠ [] →
    r.missing.length + r.excluded.length < beSlots x →
    exec (.reduceExclude h p) (startOf s q) = .next (endsAs s q (.reduceExclude h p)
      { s := settle (setBucket (atStart s q) pt p.bucket.toNat { x with red := some { r with missing := [], excluded := r.excluded ++ r.missing } }) pt p.bucket.toNat,
        record := excludeRecord x r.missing }))

/-- PARAM_MCAST and JOB_START complete (R289 to R291, R301, R344): the owner's shard is multicast with its step, unless a pending mask
epoch holds it; a job whose record and sub-records pass their checks starts, restored first where its record names a manifest that can
be restored. -/
def Obligations.ParamMcastAndJobStartComplete : Prop :=
  (∀ (s : State) (q : QEntry) (h : Hdr) (p : ParamMcastP) (pt : Nat) (d : Desc) (x : DistRec), Startable s q pt →
    regionOk (atStart s q) pt p.dist.toNat 128 64 false = true →
    checkDescs (atStart s q) pt [(p.srcDesc.toNat, false)] = .ok [d] → p.ctl.toNat ≤ 1 → p.rsvdA = 0 → p.mcast.toNat < 4096 →
    checkDist (atStart s q) pt p.dist.toNat = .ok x → d.rank = x.dist.rank → seenExt d = localExt x.dist x.grid →
    elemInt d.elem = false →
    isOwner x.dist x.grid = true →
    (paramHolds (atStart s q) pt (mcastStep (atStart s q) pt p) = false →
      exec (.paramMcast h p) (startOf s q) = .next (endsAs s q (.paramMcast h p)
        (mcastRun (atStart s q) q.cmd d p.mcast.toNat (mcastStep (atStart s q) pt p) x.grid))) ∧
    (paramHolds (atStart s q) pt (mcastStep (atStart s q) pt p) = true →
      exec (.paramMcast h p) (startOf s q) = .next (endsAs s q (.paramMcast h p)
        { s := atStart s q, wait := some (.paramHeld pt (mcastStep (atStart s q) pt p)) }))) ∧
  (∀ (s : State) (q : QEntry) (h : Hdr) (p : JobStartP) (pt : Nat) (b : List Byte) (x : JobSubs) (gs : List GatherCfg),
    Startable s q pt → job (atStart s q) pt = none → draining (atStart s q) = false →
    regionOk (atStart s q) pt p.jobRec.toNat 128 64 false = true → p.rsvdA = 0 → partPoisoned (atStart s q) pt p.jobRec.toNat 128 = false →
    b = partRead (atStart s q) pt p.jobRec.toNat 128 → x = jobSubs (atStart s q) pt b →
    firstFail (jobChecks (atStart s q) pt b x) = none →
    gatherEntries (atStart s q) pt x.gathers (List.range (x.gathers.length / 64)) = .ok gs →
    restoreFails (atStart s q) pt b (ckptServiceOf (atStart s q) pt x) = none →
    exec (.jobStart h p) (startOf s q) = .next (endsAs s q (.jobStart h p)
      { s := startJob (atStart s q) pt b x gs (ckptServiceOf (atStart s q) pt x) }))

/-- JOB_CTL and CKPT_FETCH complete (R293, R294, R311): STATUS delivers the record; PAUSE, RESUME, STOP, a gate and a checkpoint request
act on the job; CKPT_FETCH opens its receiving context, asks the peer and waits for the slot. -/
def Obligations.JobCtlAndCkptFetchComplete : Prop :=
  (∀ (s : State) (q : QEntry) (h : Hdr) (p : JobCtlP) (pt : Nat) (j : Job), Startable s q pt → job (atStart s q) pt = some j →
    jTag j = p.job.toNat → p.rsvdA = 0 →
    (p.op.toNat = 0 →
      exec (.jobCtl h p) (startOf s q) = .next (endsAs s q (.jobCtl h p) { s := atStart s q, record := jobRecord (atStart s q) pt j })) ∧
    (p.op.toNat = 1 →
      exec (.jobCtl h p) (startOf s q) = .next (endsAs s q (.jobCtl h p) { s := pauseJob (atStart s q) pt 1 })) ∧
    (p.op.toNat = 2 → ∃ t, exec (.jobCtl h p) (startOf s q) = .next (endsAs s q (.jobCtl h p) { s := oweAdvance t pt }) ∧
      ∃ k, job t pt = some k ∧ k.paused = false ∧ k.data.halted = false ∧ k.step = j.step) ∧
    (p.op.toNat = 3 →
      exec (.jobCtl h p) (startOf s q) = .next (endsAs s q (.jobCtl h p) { s := stopJob (atStart s q) pt j })) ∧
    (p.op.toNat = 4 → jGateEvery j ≠ 0 → p.step.toNat % jGateEvery j = 0 → j.step.toNat < p.step.toNat →
      j.gates.contains p.step.toNat = false →
      exec (.jobCtl h p) (startOf s q) = .next (endsAs s q (.jobCtl h p)
        { s := oweAdvance (setJob (atStart s q) pt { j with gates := p.step.toNat :: j.gates }) pt })) ∧
    (p.op.toNat = 5 → ckOn j.ckpt = true →
      exec (.jobCtl h p) (startOf s q) = .next (endsAs s q (.jobCtl h p)
        { s := setJob (atStart s q) pt { j with ckpt := { j.ckpt with asked := true } } }))) ∧
  (∀ (s : State) (q : QEntry) (h : Hdr) (p : CkptFetchP) (pt : Nat), Startable s q pt → p.slot.toNat ≤ 1 → p.rsvdA = 0 → p.rsvdB = 0 →
    p.dstBytes.toNat % 2 ^ 21 = 0 → 2 ^ 21 ≤ p.dstBytes.toNat → p.dstBytes.toNat < 2 ^ 48 →
    regionOk (atStart s q) pt p.dst.toNat p.dstBytes.toNat (2 ^ 21) true = true →
    (spanHbm (atStart s q) pt p.dst.toNat p.dstBytes.toNat = true ∨ spanFar (atStart s q) pt p.dst.toNat p.dstBytes.toNat = true) →
    p.context.toNat < 0x10000 → ownsCtx (atStart s q) pt p.context.toNat = true → (ctx (atStart s q) p.context.toNat).isOpen = false →
    draining (atStart s q) = false → departed (atStart s q) p.peer = false →
    ∃ t, exec (.ckptFetch h p) (startOf s q) = .next (endsAs s q (.ckptFetch h p) { s := t, wait := some (.fetch p.context.toNat none) }) ∧
      (ctx t p.context.toNat).isOpen = true ∧ (ctx t p.context.toNat).kind = 4 ∧ (ctx t p.context.toNat).buf = p.dst ∧
      t.mem = (atStart s q).mem)

/-- The step counter and the events of a job (R292, R293, R312, R313): STEP_ADVANCE advances a job that nothing holds and changes
nothing while a pause, a stop, a gate, a hook, a mask epoch or STEP_LACE holds it; the monitors raise their event; the hook's return
posts EVAL_RESULT; a stopped job's Awl cores go into reset when its streams are quiet and its checkpoint is written; the data
service fills its slot. -/
def Obligations.JobEventsComplete : Prop :=
  (∀ (p : Fin 16) (s : State) (j : Job), job s p.val = some j →
    (j.stopping = false → j.paused = false → laceDone s j = true → epochHolds s p.val = false → gateHolds j = false →
      evalHolds j = false → exec (.stepAdvance p) s = .next (advance s p.val j)) ∧
    (j.stopping = true ∨ j.paused = true ∨ laceDone s j = false ∨ epochHolds s p.val = true ∨ gateHolds j = true ∨ evalHolds j = true →
      exec (.stepAdvance p) s = .next s)) ∧
  (∀ (p : Fin 16) (s : State), exec (.stepTimeExpiry p) s = .next (raiseHealth s p.val 1 none 1)) ∧
  (∀ (p : Fin 16) (s : State) (j : Job) (late : List Nat), job s p.val = some j →
    late = (List.range j.gathers.length).filter (fun k => !j.copies.any (fun c => decide (c.entry = k) && decide (c.step = j.step.toNat) && c.done)) →
    exec (.gatherLateExpiry p) s = .next (if late = [] then s else raiseHealth s p.val 4 none late.length)) ∧
  (∀ (p : Fin 16) (s : State) (j : Job) (e : EvalRun), job s p.val = some j → j.eval = some e →
    ∃ t, exec (.evalHookReturn p) s = .next (oweAdvance (postPart t p.val 0x0130 0 (partRead t p.val (at_ j.evalCfg 24 8) 16)) p.val) ∧
      ∃ k, job t p.val = some k ∧ k.eval = none ∧ k.step = j.step) ∧
  (∀ (p : Fin 16) (s : State) (j : Job), job s p.val = some j → j.stopping = true → j.ckpt.run = none → j.ckpt.onStop = false →
    (∀ c ∈ jCores j, ∀ i < 3, streamQuiet s (stream s c i) = true) → exec (.jobStopAwlReset p) s = .next (dropJob s p.val 1)) ∧
  (∀ (p : Fin 16) (e : Bool) (s : State) (j : Job), job s p.val = some j →
    (dsOn (dsGet j e) = false ∨ j.stopping = true ∨ (dsGet j e).halted = true → exec (.dataSlotFill p e) s = .next s) ∧
    exec (.dataSlotFill p e) s = .next (slotFill s p.val e)) ∧
  (∀ (p : Fin 16) (tag : BitVec 32) (s : State),
    exec (.maskEpochCommit p tag) s = .next (actEpochs s p.val tag true) ∧
    exec (.maskEpochAbort p tag) s = .next (actEpochs s p.val tag false) ∧
    (∀ c, dueEpochs s p.val tag c = [] → actEpochs s p.val tag c = s)) ∧
  (∀ (p : Fin 16) (tag : BitVec 32) (s : State) (j : Job) (e : PendEpoch), job s p.val = some j → laceDone s j = true →
    (part s p.val).pend.find? (fun e => decide (e.job = tag) && pendDue s p.val e && e.decision.isNone && !e.told) = some e →
    ∃ t, exec (.maskEpochUndecided p tag) s = .next (postPart t p.val 0x0152 0 (leBytes 8 e.epoch.toNat)) ∧ t.mem = s.mem) ∧
  (∀ (tag : BitVec 32) (epoch : BitVec 64) (s : State) (v : MaskVote),
    s.votes.find? (fun x => decide (x.job = tag) && decide (x.epoch = epoch)) = some v →
    exec (.epochVoteTimeout tag epoch) s = .next (closeVote s v 1))

/-- R292: when the counter advances from s, the job's step is s + 1 and the hold of a gate for a step that has come is gone. -/
def Obligations.AdvanceCountsOneStep : Prop :=
  ∀ (p : Fin 16) (s : State) (j : Job), job s p.val = some j → j.stopping = false → j.paused = false → laceDone s j = true →
    epochHolds s p.val = false → gateHolds j = false → evalHolds j = false →
    ∃ t k, exec (.stepAdvance p) s = .next t ∧ job t p.val = some k ∧ k.step = j.step + 1 ∧ jTag k = jTag j

/-- The checkpoint service and its flows (R307 to R311, R437, R438): the items of a checkpoint are read and then written; a lost peer
fails its transfers; a packet whose integrity check fails is counted and dropped; a fetch ends with the peer's answer, or without one. -/
def Obligations.CheckpointEventsComplete : Prop :=
  (∀ (p : Fin 16) (s : State) (j : Job) (r : CkptRun), job s p.val = some j → j.ckpt.run = some r →
    (r.phase = .reading → exec (.ckptItemsRead p) s = .next (itemsRead s p.val) ∧ exec (.checkpointComplete p) s = .next s) ∧
    (r.phase = .writing → exec (.checkpointComplete p) s = .next (completeCkpt s p.val) ∧ exec (.ckptItemsRead p) s = .next s)) ∧
  (∀ (p : Fin 16) (s : State) (x : CkptSend), (part s p.val).sends.find? (·.ended) = some x →
    exec (.ckptDoneTimeout p) s = .next (peerLost s p.val x)) ∧
  (∀ (b : List Byte) (s : State), pkGood b = false →
    exec (.tack b) s = .next (countEcrc s) ∧ exec (.ckptData b) s = .next (countEcrc s) ∧ exec (.ckptEnd b) s = .next (countEcrc s) ∧
    exec (.ckptDone b) s = .next (countEcrc s) ∧ exec (.ckptFetchPacket b) s = .next (countEcrc s) ∧
    exec (.tensor b) s = .next (countEcrc s)) ∧
  (∀ (b : List Byte) (s : State) (n : Nat), pkGood b = true → tackCtx s b = some n → exec (.tack b) s = .next (tackCtxOp s n b)) ∧
  (∀ (b : List Byte) (s : State) (n : Nat), pkGood b = true → rxCtx s b = some n →
    exec (.tensor b) s = .next (rxPacket s (pkDpart b) n (at_ (pkArg b) 0 8) (bitOf (at_ (pkArg b) 8 1) 0) b) ∧
    (fetches (rxPacket s (pkDpart b) n (at_ (pkArg b) 0 8) false b) (pkDpart b) = [] →
      exec (.ckptData b) s = .next (rxPacket s (pkDpart b) n (at_ (pkArg b) 0 8) false b))) ∧
  (∀ (b : List Byte) (s : State) (w : Waiting) (n : Nat) (l : Option Nat) (q : CkptFetchP), pkGood b = true →
    fetchNamed s b = some (w, n, l, q) →
    exec (.ckptEnd b) s = .next (checkFetch s w n q (at_ (pkPayload b) 16 8)) ∧
    ((at_ (pkPayload b) 5 1 = 2 ∨ at_ (pkPayload b) 5 1 = 3) →
      exec (.ckptDone b) s = .next (endFetch s w n .noResource 0 0 (at_ (pkPayload b) 5 1)))) ∧
  (∀ (b : List Byte) (s : State), pkGood b = true → exec (.ckptFetchPacket b) s = .next (countDrop s)) ∧
  (∀ (p : Fin 16) (s : State) (w : Waiting) (n : Nat) (l : Option Nat) (q : CkptFetchP),
    (fetches s p.val).find? (fun x => x.2.2.1.isNone) = some (w, n, l, q) →
    exec (.ckptFetchTimeout p) s = .next (endFetch (freeNat s).2 w n .deferred 1 0 ((freeNat s).1 % 256))) ∧
  (∀ (p : Fin 16) (n : BitVec 16) (s : State), (ctx s n.toNat).isOpen = true →
    ((ctx s n.toNat).kind = 3 → ownsCtx s p.val n.toNat = true → exec (.flowResendTimeout p (some n)) s = .next (flowResend s n.toNat)) ∧
    ((ctx s n.toNat).kind = 4 → ((ctx s n.toNat).packets ≠ 0 ∨ (ctx s n.toNat).overruns ≠ 0) → (List.range 16).find? (fun p => ownsCtx s p n.toNat) = some p.val →
      exec (.flowTackTimer n) s = .next (sendTack s n.toNat p.val (ctx s n.toNat).peer.toNat (ctx s n.toNat).peerPart.toNat)))

/-! ### Streams, accumulators, seeds and migration (R62 to R69, R97 to R107, R264 to R286) -/

/-- The accumulator, seed and queue registers of a core (R67 to R69, R97, R107, R267, R268). With no save or restore in progress SAVE and
RESTORE start with their stream and address and CLEAR resets the stream's region; while one is in progress each of the three only sets
ERR. The end of a save writes the record of the region; the end of a restore gives the region of a record that checks, and of one that
does not it leaves the region and sets ERR; either ends BUSY, sets DONE and fires the core's Sole source. A seed is kept for its
stream's next boundary. On a logical core out of service these commands are register access errors. LAST_SQ_RESV of a core in service
returns 1 to an Awl core that holds a reservation, or for which the stream has an entry free, which it then holds, and 0 to any other
or where the stream is OUT or fenced; a push with a reservation uses it up and gives the packet of the stream's window to the
interpreter, one without sets the core's push error. Both do nothing at a core out of service. A push of the reserved stream 3 is a
register access error, which is the model's choice (entry 46). -/
def Obligations.CoreRegistersComplete : Prop :=
  (∀ (c : Fin 16) (i : Fin 3) (a : BitVec 48) (s : State), inService s c.val = true → (core s c.val).accBusy = false →
    exec (.soleAccSave c i a) s = .next (modCore s c.val (fun k => { k with accStream := BitVec.ofNat 2 i.val, accBusy := true, accOp := some (i.val, false), accAddr := BitVec.ofNat 64 (a.toNat / 64 * 64) })) ∧
    exec (.soleAccRestore c i a) s = .next (modCore s c.val (fun k => { k with accStream := BitVec.ofNat 2 i.val, accBusy := true, accOp := some (i.val, true), accAddr := BitVec.ofNat 64 (a.toNat / 64 * 64) })) ∧
    exec (.soleAccClear c i) s = .next (modCore s c.val (fun k => setStreamOf { k with accStream := BitVec.ofNat 2 i.val } i.val { streamOf k i.val with region := {} }))) ∧
  (∀ (c : Fin 16) (i : Fin 3) (a : BitVec 48) (s : State), inService s c.val = true → (core s c.val).accBusy = true →
    exec (.soleAccSave c i a) s = .next (modCore s c.val (fun k => { k with accErr := true })) ∧
    exec (.soleAccRestore c i a) s = .next (modCore s c.val (fun k => { k with accErr := true })) ∧
    exec (.soleAccClear c i) s = .next (modCore s c.val (fun k => { k with accErr := true }))) ∧
  (∀ (k : Fin 18) (s : State) (i c : Nat), (coreP s k.val).accOp = some (i, false) → logicalOf s k.val = some c →
    exec (.soleAccDone k) s = .next (accEnds (accWrite s (some c) (coreP s k.val).accAddr.toNat
      (saveRecord i (passesDone s c i) (regionOf s k.val i))) k.val (some c) i)) ∧
  (∀ (k : Fin 18) (s : State) (i : Nat), (coreP s k.val).accOp = some (i, false) → logicalOf s k.val = none →
    exec (.soleAccDone k) s = .next (accEnds (accWrite s none (coreP s k.val).accAddr.toNat
      (saveRecord i 0 (regionOf s k.val i))) k.val none i)) ∧
  (∀ (k : Fin 18) (s : State) (i : Nat) (b : List Byte), (coreP s k.val).accOp = some (i, true) →
    b = accRead s (logicalOf s k.val) (coreP s k.val).accAddr.toNat 1310784 →
    (∀ g, restoreRecord b = some g →
      exec (.soleAccDone k) s = .next (accEnds (setRegion s k.val i g) k.val (logicalOf s k.val) i)) ∧
    (restoreRecord b = none →
      exec (.soleAccDone k) s = .next (accEnds (badSave (modCoreP s k.val (fun x => { x with accErr := true })) k.val b) k.val
        (logicalOf s k.val) i))) ∧
  (∀ (k : Fin 18) (s : State), (coreP s k.val).accOp = none → exec (.soleAccDone k) s = .next s) ∧
  (∀ (c : Fin 16) (i : Fin 3) (v : BitVec 64) (m : BitVec 3) (s : State), inService s c.val = true →
    exec (.weltSrSeed c i v) s = .next (modStream s c.val i.val (fun x => { x with seedReq := some (.soft v) })) ∧
    exec (.weltSrReseed c m) s = .next ((bitsSet m.toNat 3).foldl (fun s j => modStream s c.val j (fun x => { x with seedReq := some .hub })) s)) ∧
  (∀ (c : Fin 16) (i : Fin 3) (a : BitVec 48) (v : BitVec 64) (m : BitVec 3) (s : State), inService s c.val = false →
    exec (.weltSrSeed c i v) s = .next (regError s) ∧ exec (.weltSrReseed c m) s = .next (regError s) ∧
    exec (.soleAccSave c i a) s = .next (regError s) ∧ exec (.soleAccRestore c i a) s = .next (regError s) ∧
    exec (.soleAccClear c i) s = .next (regError s)) ∧
  (∀ (c : Fin 16) (a : Fin 4) (i : Fin 3) (s : State), inService s c.val = true →
    (stream s c.val i.val).mode ≠ .out → (stream s c.val i.val).mode ≠ .fenced →
    (bitOf (awlOf (core s c.val) a.val).resv.toNat i.val = true → exec (.lastSqResv c a i) s = .next (retAwl s c.val a.val 1)) ∧
    (bitOf (awlOf (core s c.val) a.val).resv.toNat i.val = false →
      (queueRoom s c.val i.val = 0 → exec (.lastSqResv c a i) s = .next (retAwl s c.val a.val 0)) ∧
      (queueRoom s c.val i.val ≠ 0 → exec (.lastSqResv c a i) s = .next (retAwl (modAwl s c.val a.val
        (fun y => { y with resv := BitVec.ofNat 3 (setBit y.resv.toNat i.val true) })) c.val a.val 1)))) ∧
  (∀ (c : Fin 16) (a : Fin 4) (i : Fin 3) (s : State), inService s c.val = true →
    ((stream s c.val i.val).mode = .out ∨ (stream s c.val i.val).mode = .fenced) →
    exec (.lastSqResv c a i) s = .next (retAwl s c.val a.val 0)) ∧
  (∀ (c : Fin 16) (a : Fin 4) (i : Fin 3) (s : State), inService s c.val = true →
    (bitOf (awlOf (core s c.val) a.val).resv.toNat i.val = true → exec (.lastSqPush c a (BitVec.ofNat 2 i.val)) s =
      .next (takePacket (modAwl s c.val a.val (fun y => { y with resv := BitVec.ofNat 3 (setBit y.resv.toNat i.val false) }))
        (.awl c a i) (tgets 0 256 (256 * i.val) (awlOf (core s c.val) a.val).windows))) ∧
    (bitOf (awlOf (core s c.val) a.val).resv.toNat i.val = false → exec (.lastSqPush c a (BitVec.ofNat 2 i.val)) s =
      .next (modCore s c.val (fun k => { k with pushErr := true })))) ∧
  (∀ (c : Fin 16) (a : Fin 4) (i : Fin 3) (j : BitVec 2) (s : State),
    (inService s c.val = false → exec (.lastSqResv c a i) s = .next s ∧ exec (.lastSqPush c a j) s = .next s) ∧
    (inService s c.val = true → exec (.lastSqPush c a 3) s = .next (regError s)))

/-- Stream switches and migrations (R16, R278 to R283). On a core in service and not BUSY, LAST_STREAM_CTL's OP 0b01 sets BUSY, names the
stream and the address, stops a ready stream and asks for its boundary; OP 0b10 restores a stream that is OUT from a record that checks,
sets ERR and leaves the stream where the record does not check or where the stream is not OUT, and a reserved STREAM keeps the field's
value; while BUSY either OP only sets ERR; on a core out of service either is a register access error. At its boundary the stream that the
register switches out is switched out, a stream that stops for a migration is put OUT, and where no stream stands at a boundary nothing
changes. CORE_MIGRATE starts a migration of a core in service to its die's free spare and waits for its end. WAIT_LIMIT stops the
streams of a migration that waits for a stage under a limit, and changes nothing for any other or without one. -/
def Obligations.StreamSwitchesAndMigrationsComplete : Prop :=
  (∀ (c : Fin 16) (i : BitVec 2) (a : BitVec 48) (s : State), inService s c.val = true → (core s c.val).ctlBusy = true →
    exec (.streamSwitchOut c i a) s = .next (modCore s c.val (fun k => { k with ctlErr := true })) ∧
    exec (.streamSwitchIn c i a) s = .next (modCore s c.val (fun k => { k with ctlErr := true }))) ∧
  (∀ (c : Fin 16) (i : BitVec 2) (a : BitVec 48) (s u : State) (j : Nat), inService s c.val = true → (core s c.val).ctlBusy = false →
    j = (if i = 3 then (core s c.val).ctlStream.toNat else i.toNat) →
    u = modCore s c.val (fun k => { k with ctlBusy := true, ctlStream := BitVec.ofNat 2 j, ctlAddr := BitVec.ofNat 48 (a.toNat / 64 * 64), ctlRun := (j, a.toNat / 64 * 64) }) →
    ((stream u c.val j).mode = .ready →
      exec (.streamSwitchOut c i a) s = .next (askBoundary (modStream u c.val j (fun y => { y with mode := .stopping })) c.val j)) ∧
    ((stream u c.val j).mode ≠ .ready → exec (.streamSwitchOut c i a) s = .next (askBoundary u c.val j))) ∧
  (∀ (c : Fin 16) (i : BitVec 2) (a : BitVec 48) (s u : State) (j p : Nat) (b acc : List Byte), inService s c.val = true →
    (core s c.val).ctlBusy = false → j = (if i = 3 then (core s c.val).ctlStream.toNat else i.toNat) →
    u = modCore s c.val (fun k => { k with ctlStream := BitVec.ofNat 2 j, ctlAddr := BitVec.ofNat 48 (a.toNat / 64 * 64) }) →
    p = (partOfCore u c.val).getD 16 → b = partRead u p (a.toNat / 64 * 64) 24896 → acc = partRead u p (at_ b 24 8) 1310784 →
    ((stream u c.val j).mode ≠ .out →
      exec (.streamSwitchIn c i a) s = .next (modCore u c.val (fun k => { k with ctlErr := true }))) ∧
    (∀ g, (stream u c.val j).mode = .out → recordOk c.val j b = true → partPoisoned u p (a.toNat / 64 * 64) 24896 = false →
      partPoisoned u p (at_ b 24 8) 1310784 = false → restoreRecord acc = some g →
      exec (.streamSwitchIn c i a) s = .next (switchInEnds (modStream u c.val j (fun y => restoredStream u c.val y b g)) c.val j)) ∧
    ((stream u c.val j).mode = .out → crcHolds b = true →
      (recordOk c.val j b = false ∨ partPoisoned u p (a.toNat / 64 * 64) 24896 = true ∨
        partPoisoned u p (at_ b 24 8) 1310784 = true ∨ restoreRecord acc = none) →
      exec (.streamSwitchIn c i a) s = .next (switchInEnds (modCore (badSave u (physOf u c.val) acc) c.val
        (fun k => { k with ctlErr := true })) c.val j)) ∧
    ((stream u c.val j).mode = .out → crcHolds b = false →
      exec (.streamSwitchIn c i a) s = .next (switchInEnds (modCore
        (countCrcTrigger (fireDie u (dieOfCore c.val) 0x308) (physOf u c.val)) c.val (fun k => { k with ctlErr := true })) c.val j))) ∧
  (∀ (c : Fin 16) (i : BitVec 2) (a : BitVec 48) (s : State), inService s c.val = false →
    exec (.streamSwitchOut c i a) s = .next (regError s) ∧ exec (.streamSwitchIn c i a) s = .next (regError s)) ∧
  (∀ (c : Fin 16) (i : Nat) (s t : State), i < 3 → (∀ j, j < 3 → j ≠ i → atResume s c.val j = false) → atResume s c.val i = true →
    (switching s c.val i = true ∧ t = switchOut s c.val i ∨
      switching s c.val i = false ∧ (stream s c.val i).mode = .stopping ∧ t = migrationOut s c.val i) →
    (∀ j, j < 3 → j ≠ i → atResume t c.val j = false) →
    exec (.switchOutComplete c) s = .next (tryMove t (dieOfCore c.val))) ∧
  (∀ (c : Fin 16) (s : State), (∀ j, j < 3 → atResume s c.val j = false) → (die s (dieOfCore c.val)).migration = none →
    exec (.switchOutComplete c) s = .next s) ∧
  (∀ (s : State) (q : QEntry) (h : Hdr) (p : CoreMigrateP) (c k : Nat), MgmtStartable s q → c = p.logical.toNat → c < 16 →
    p.ctl.toNat ≤ 7 → p.ctl.toNat % 4 ≤ 1 → p.rsvdA = 0 → p.rsvdB = 0 → inService (atStart s q) c = true →
    coreRebinding (atStart s q) c = false → (die (atStart s q) (dieOfCore c)).migration = none →
    freeSpare (atStart s q) (dieOfCore c) = some k →
    exec (.coreMigrate h p) (startOf s q) = .next (endsAs s q (.coreMigrate h p)
      { s := owe (startMigration (atStart s q) c k (p.ctl.toNat % 4) (bitOf p.ctl.toNat 2) p.waitLimit.toNat) (.boundary c),
        wait := some (.migrate (dieOfCore c)) })) ∧
  (∀ (d : Fin 2) (s : State) (m : Migration), (die s d.val).migration = some m →
    (m.stopped = false → m.waitStage = true → m.limit ≠ 0 → exec (.waitLimitExpiry d) s = .next (stopStreams s d.val m)) ∧
    (m.stopped = true ∨ m.waitStage = false ∨ m.limit = 0 → exec (.waitLimitExpiry d) s = .next s)) ∧
  (∀ (d : Fin 2) (s : State), (die s d.val).migration = none → exec (.waitLimitExpiry d) s = .next s)

/-! ### Partitions and security (R32, R514 to R547) -/

/-- The partition commands complete: PART_BIND binds a record whose checks pass, or waits for a migration of a core that it names; PART_UNBIND
and PART_REBIND of a partition none of whose cores is migrating begin the steps of R521 and wait for their end; PART_QUERY delivers the record, a tenant's with the readings of its
last window; the window's end quantises the readings; a latch gives tenants the counters of its die with bits [9:0] cleared. -/
def Obligations.PartitionCommandsComplete : Prop :=
  (∀ (s : State) (q : QEntry) (h : Hdr) (p : PartBindP) (list : List Byte) (far : List FarEntry), MgmtStartable s q →
    list = mgmtRead (atStart s q) q.cmd p.farList.toNat (16 * min 32 p.farCount.toNat) → far = farEntries (min 32 p.farCount.toNat) list →
    leadOk (atStart s q) = true → (atStart s q).fab.departing = false → bindFieldsOk (atStart s q) p far list = true →
    bound (atStart s q) p.part.toNat = false → (part (atStart s q) p.part.toNat).pstate = .unbound →
    (∀ k, k < 16 → claims (atStart s q) p far k = false) →
    (movingDie (atStart s q) p.cores.toNat = none →
      exec (.partBind h p) (startOf s q) = .next (endsAs s q (.partBind h p) { s := bindPart (atStart s q) p far })) ∧
    (∀ d, movingDie (atStart s q) p.cores.toNat = some d →
      exec (.partBind h p) (startOf s q) = .next (endsAs s q (.partBind h p) { s := atStart s q, wait := some (.bindAfter d) }))) ∧
  (∀ (s : State) (q : QEntry) (h : Hdr) (p : PartUnbindP) (n : Nat), MgmtStartable s q → n = p.part.toNat → n < 16 → p.rsvdA = 0 →
    leadOk (atStart s q) = true → (part (atStart s q) n).pstate ≠ .scrubbing → bindWaits (atStart s q) n = false →
    bound (atStart s q) n = true → movingDie (atStart s q) (bCores (atStart s q) n) = none →
    exec (.partUnbind h p) (startOf s q) = .next (endsAs s q (.partUnbind h p)
      { s := owe (startScrub (atStart s q) n) (.scrub n), wait := some (.scrub n) })) ∧
  (∀ (s : State) (q : QEntry) (h : Hdr) (p : PartRebindP) (n : Nat), MgmtStartable s q → n = p.part.toNat → n < 16 → p.rsvdA = 0 →
    leadOk (atStart s q) = true → (part (atStart s q) n).pstate ≠ .scrubbing → bindWaits (atStart s q) n = false →
    bound (atStart s q) n = true → movingDie (atStart s q) (bCores (atStart s q) n) = none →
    exec (.partRebind h p) (startOf s q) = .next (endsAs s q (.partRebind h p)
      { s := owe (startScrub (setTenant (atStart s q) n p.tenant) n) (.scrub n), wait := some (.scrub n) })) ∧
  (∀ (s : State) (q : QEntry) (h : Hdr) (p : PartQueryP) (pt : Nat), Startable s q pt → pt < 16 → p.rsvdA = 0 →
    p.part.toNat = 0xFF ∨ p.part.toNat = pt →
    exec (.partQuery h p) (startOf s q) = .next (endsAs s q (.partQuery h p) { s := atStart s q, record := queryRecord (atStart s q) pt (part (atStart s q) pt).readTemp (part (atStart s q) pt).readWatts })) ∧
  (∀ (s : State) (q : QEntry) (h : Hdr) (p : PartQueryP), MgmtStartable s q → p.rsvdA = 0 → p.part.toNat < 16 →
    ∃ temp watts, exec (.partQuery h p) (startOf s q) = .next (endsAs s q (.partQuery h p)
      { s := (freeNat (atStart s q)).2, record := queryRecord (freeNat (atStart s q)).2 p.part.toNat temp watts })) ∧
  (∀ (p : Fin 16) (w : BitVec 16) (c : BitVec 8) (s : State),
    ((part s p.val).pstate = .active → exec (.partitionReadingWindow p w c) s = .next (modPart s p.val
      (fun x => { x with readWatts := w.toNat / 25 * 25, readTemp := c.toNat / 5 * 5 }))) ∧
    ((part s p.val).pstate ≠ .active → exec (.partitionReadingWindow p w c) s = .next s)) ∧
  (∀ (d : Fin 2) (s : State), ∃ t, exec (.counterLatch d) s = .next t ∧ t.mem = s.mem ∧ ∀ k, k < 18 →
    coreP t k = if dieOfPhys k = d.val ∧ (coreP s k).power ≠ .off
      then { coreP s k with latched := tputs {} 0 ((coreCounters (coreP s k)).map tenantCount) [] } else coreP s k)

/-- Once a partition's keys are destroyed its pages are fresh: every byte of its HBM slices and far ranges reads as zero, and every byte of
device memory that it does not hold reads as before (R415, R519). -/
def Obligations.FreshPagesReadZero : Prop :=
  ∀ (s : State) (p : Nat), MemoryCanonical s →
    (∀ a, ownsDev s p a = true → devByte (freshPages s p) a = 0) ∧
    (∀ a, ownsDev s p a = false → devByte (freshPages s p) a = devByte s a)

/-- The security commands complete (R533 to R545): ATTEST delivers a report or the identity; SESSION_AGREE makes an agreement for the tenant's
partition or for a management interface; FW_STAGE writes a verified image and reports it; FW_ACTIVATE selects the staged slots, and asks
for the restart; CONFIG_WRITE writes the operator's items, and the vendor's where their signature verifies. -/
def Obligations.SecurityCommandsComplete : Prop :=
  (∀ (s : State) (q : QEntry) (h : Hdr) (p : AttestP) (n : Nat), s.starting = none → sigCheck (atStart s q) q.cmd.h = none →
    n = p.part.toNat → p.rsvdA = 0 → (n < 16 ∨ n = 0xFF) → (∀ k, q.cmd.part = some k → n = k) →
    (p.op.toNat = 1 → exec (.attest h p) (startOf s q) = .next (endsAs s q (.attest h p) { s := atStart s q, record := identityRecord })) ∧
    (p.op.toNat = 0 → (n < 16 → (part (atStart s q) n).busy = false ∧ bindWaits (atStart s q) n = false) → measChanging (atStart s q) = false →
      exec (.attest h p) (startOf s q) = .next (endsAs s q (.attest h p)
        { s := atStart s q, record := report (atStart s q) n (leBytes 32 p.nonce.toNat) }))) ∧
  (∀ (s : State) (q : QEntry) (h : Hdr) (p : SessionAgreeP) (pt : Nat) (ek : List Byte) (g : Agreement) (r : List Byte) (t : State),
    Startable s q pt → (∃ x y l, q.cmd.h.via = .ring x y l ∨ q.cmd.h.via = .slot x y l) → hdrCtx q.cmd.h = 0x10001 →
    ek = partRead (atStart s q) pt p.ekAddr.toNat 1184 → regionOk (atStart s q) pt p.ekAddr.toNat 1184 1 false = true →
    (part (atStart s q) pt).agreement = none → partPoisoned (atStart s q) pt p.ekAddr.toNat 1184 = false → Config.mlkemCheck ek = true →
    agree (atStart s q) pt (part (atStart s q) pt).session (leBytes 32 p.nonce.toNat) ek = (g, r, t) →
    exec (.sessionAgree h p) (startOf s q) = .next (endsAs s q (.sessionAgree h p)
      { s := modPart t pt (fun x => { x with agreement := some g, protected_ := true }), record := r })) ∧
  (∀ (s : State) (q : QEntry) (h : Hdr) (p : SessionAgreeP) (m : MgmtIface) (k n : Nat) (ek : List Byte) (g : Agreement) (r : List Byte)
    (t : State), MgmtStartable s q → q.cmd.h.via = .mgmt m → k = (if m = .i3c then 0 else 1) →
    ek = mgmtRead (atStart s q) q.cmd p.ekAddr.toNat 1184 → operatorSigned (atStart s q) q.cmd.h ek (leBytes 32 p.nonce.toNat) = true →
    Config.mlkemCheck ek = true → n = tget 0 k (atStart s q).mgmtCount + 1 →
    agree (atStart s q) 0xFF n (leBytes 32 p.nonce.toNat) ek = (g, r, t) →
    exec (.sessionAgree h p) (startOf s q) = .next (endsAs s q (.sessionAgree h p)
      { s := { t with mgmtSess := tput none k (some g) t.mgmtSess, mgmtCount := tput 0 k n t.mgmtCount }, record := r })) ∧
  (∀ (s : State) (q : QEntry) (h : Hdr) (p : FwStageP) (i n : Nat) (hd sig body : List Byte), MgmtStartable s q → i = p.image.toNat →
    n = p.bytes.toNat → 1 ≤ i → i ≤ 3 → p.rsvdA = 0 → hd = mgmtRead (atStart s q) q.cmd p.src.toNat 64 →
    sig = mgmtRead (atStart s q) q.cmd (p.src.toNat + n - 2420) 2420 → body = mgmtRead (atStart s q) q.cmd (p.src.toNat + 64) (n - 2484) →
    imageHeaderOk hd i n = true → slotRuns (atStart s q) i = false →
    Config.mldsaVerify (if i = 3 then Config.miKey else Config.vendorKey) (sha hd) sig = true → floorOf (atStart s q) i ≤ hdrSvn hd →
    n ≤ slotSize i → sha body = slice hd 24 32 →
    exec (.fwStage h p) (startOf s q) = .next (endsAs s q (.fwStage h p)
      (staged (putSlot (atStart s q) i { valid := true, header := some hd, meas := some (sha (hd ++ body)) }) i (hdrVersion hd) .ok))) ∧
  (∀ (s : State) (q : QEntry) (h : Hdr) (p : FwActivateP), MgmtStartable s q → p.images.toNat ≤ 3 → p.rsvdA = 0 →
    (bitOf p.images.toNat 0 = true → (atStart s q).sec.supStaged = true) → (bitOf p.images.toNat 1 = true → (atStart s q).sec.ctlStaged = true) →
    (p.when.toNat = 0 → exec (.fwActivate h p) (startOf s q) = .next (endsAs s q (.fwActivate h p)
      { s := fireHub (selectStaged (atStart s q) p.images.toNat) 0x143 })) ∧
    (p.when.toNat = 1 → ∀ t, t = fireHub (selectStaged (atStart s q) p.images.toNat) 0x143 →
      exec (.fwActivate h p) (startOf s q) = .next (endsAs s q (.fwActivate h p)
        { s := owe { t with sec := { t.sec with changing := true } } .restart }))) ∧
  (∀ (s : State) (q : QEntry) (h : Hdr) (p : ConfigWriteP) (l : List (Nat × List Byte)), MgmtStartable s q → p.op.toNat = 0 → p.rsvdA = 0 →
    p.bytes.toNat ≤ 2 ^ 18 → parseItems p.bytes.toNat (mgmtRead (atStart s q) q.cmd p.src.toNat p.bytes.toNat) = some l →
    (∀ e ∈ l, 0x0200 ≤ e.1 ∧ e.1 ≤ 0x02FF) →
    exec (.configWrite h p) (startOf s q) = .next (endsAs s q (.configWrite h p)
      (configWritten (cfgWrite (atStart s q) (fun k => { k with items := l.foldl (fun t e => tput none e.1 (some e.2) t) k.items }))))) ∧
  (∀ (s : State) (q : QEntry) (h : Hdr) (p : ConfigWriteP) (n : Nat) (b : List Byte) (l : List (Nat × List Byte)), MgmtStartable s q →
    p.op.toNat = 1 → p.rsvdA = 0 → n = p.bytes.toNat → 2420 ≤ n → n ≤ 2 ^ 18 → b = mgmtRead (atStart s q) q.cmd p.src.toNat n →
    parseItems n (b.take (n - 2420)) = some l → (∀ e ∈ l, 0 < e.1 ∧ e.1 ≤ 0x00FF) →
    Config.mldsaVerify Config.vendorKey (sha (deviceId ++ b.take (n - 2420))) (b.drop (n - 2420)) = true →
    exec (.configWrite h p) (startOf s q) = .next (endsAs s q (.configWrite h p)
      (configWritten (cfgWrite (atStart s q) (fun k => { k with vendor := some (b.take (n - 2420), b.drop (n - 2420)) })))))

/-! ### Silent errors and field tests (R614 to R645) -/

/-- The reliability commands complete (R622, R623, R630, R634, R635): TEST_RUN puts its request on the die's list and waits for the test's end;
TEST_PACK_LOAD loads a verified pack or unloads one that no test uses; FAULT_READ delivers a frame or acknowledges; COUNTER_READ
delivers ten counters, a tenant's as latched, and zeros for a physical core without power. -/
def Obligations.ReliabilityCommandsComplete : Prop :=
  (∀ (s : State) (q : QEntry) (h : Hdr) (p : TestRunP) (k n : Nat) (x : Pack), MgmtStartable s q → n = p.core.toNat →
    k = (if bitOf p.ctl.toNat 0 then n else physOf (atStart s q) n) → p.ctl.toNat ≤ 7 → p.rsvdA = 0 → p.rsvdB = 0 →
    n ≤ (if bitOf p.ctl.toNat 0 then 17 else 15) → packOf (atStart s q) p.packId.toNat = some x →
    p.testMask.toNat / 2 ^ packTests x = 0 → (bitOf p.ctl.toNat 0 = true ∨ inService (atStart s q) n = true) →
    (∀ l, logicalOf (atStart s q) k = some l → coreRebinding (atStart s q) l = false) → testBusy (atStart s q) k = false →
    ((logicalOf (atStart s q) k).isSome = true → (freeSpare (atStart s q) (dieOfPhys k)).isSome = true) →
    exec (.testRun h p) (startOf s q) = .next (endsAs s q (.testRun h p)
      { s := modDie (atStart s q) (dieOfPhys k) (fun d => { d with requests := d.requests ++ [{ core := k, packId := p.packId.toNat, mask := p.testMask.toNat, defer := p.defer.toNat, keep := bitOf p.ctl.toNat 2, stop := bitOf p.ctl.toNat 1 }] }), wait := some (.test k) })) ∧
  (∀ (s : State) (q : QEntry) (h : Hdr) (p : TestPackLoadP) (id n : Nat) (hd body sig meas : List Byte), MgmtStartable s q → p.op = 0 →
    p.rsvdA = 0 → id = p.packId.toNat → n = p.bytes.toNat → hd = mgmtRead (atStart s q) q.cmd p.src.toNat 64 →
    body = mgmtRead (atStart s q) q.cmd (p.src.toNat + 64) (n - 2484) → sig = mgmtRead (atStart s q) q.cmd (p.src.toNat + (n - 2420)) 2420 →
    meas = runMeas (atStart s q) 2 → packHeaderOk hd id n = true → Config.mldsaVerify (Config.testKey meas) (sha hd) sig = true →
    sha body = slice hd 32 32 → Config.packFloor meas ≤ at_ hd 12 4 →
    (∀ x, packOf (atStart s q) id = some x → at_ x.header 8 4 < at_ hd 8 4) → (storeUse (atStart s q) id).2 < 8 →
    (storeUse (atStart s q) id).1 + n ≤ 2 ^ 23 →
    ∃ t, exec (.testPackLoad h p) (startOf s q) = .next (endsAs s q (.testPackLoad h p) { s := t }) ∧
      packOf t id = some { header := hd, body := body } ∧ t.mem = (atStart s q).mem ∧ t.relia.log = (atStart s q).relia.log) ∧
  (∀ (s : State) (q : QEntry) (h : Hdr) (p : TestPackLoadP), MgmtStartable s q → p.op.toNat = 1 → p.rsvdA = 0 → p.packId.toNat ≠ 0 →
    packUsed (atStart s q) p.packId.toNat = false →
    exec (.testPackLoad h p) (startOf s q) = .next (endsAs s q (.testPackLoad h p) { s := { atStart s q with relia := { (atStart s q).relia with packs := tput none p.packId.toNat none (atStart s q).relia.packs } } })) ∧
  (∀ (s : State) (q : QEntry) (h : Hdr) (p : FaultReadP) (f : FaultFrame), MgmtStartable s q → p.rsvdA = 0 →
    (p.op.toNat = 0 → (atStart s q).relia.log.find? (fun f => !f.acked) = some f →
      exec (.faultRead h p) (startOf s q) = .next (endsAs s q (.faultRead h p) { s := atStart s q, record := f.bytes })) ∧
    (p.op.toNat = 1 → (atStart s q).relia.log.find? (fun f => decide (f.seq = p.seq.toNat)) = some f →
      exec (.faultRead h p) (startOf s q) = .next (endsAs s q (.faultRead h p) { s := atStart s q, record := f.bytes })) ∧
    (p.op.toNat = 2 → (atStart s q).relia.log.find? (fun f => decide (f.seq = p.seq.toNat)) = some f →
      ∃ t, exec (.faultRead h p) (startOf s q) = .next (endsAs s q (.faultRead h p) { s := t }) ∧
        (∀ g ∈ t.relia.log, g.seq ≤ p.seq.toNat → g.acked = true) ∧ t.relia.log.map (·.seq) = (atStart s q).relia.log.map (·.seq) ∧
        t.mem = (atStart s q).mem)) ∧
  (∀ (s : State) (q : QEntry) (h : Hdr) (p : CounterReadP), MgmtStartable s q → p.ctl.toNat ≤ 1 → p.rsvdA = 0 →
    (p.ctl.toNat = 0 → p.core.toNat < 16 → inService (atStart s q) p.core.toNat = true →
      exec (.counterRead h p) (startOf s q) = .next (endsAs s q (.counterRead h p) { s := atStart s q, record := (coreCounters (core (atStart s q) p.core.toNat)).flatMap (fun v => leBytes 8 (cntBits v)) })) ∧
    (p.ctl.toNat = 1 → p.core.toNat < 18 → (coreP (atStart s q) p.core.toNat).power ≠ .off →
      exec (.counterRead h p) (startOf s q) = .next (endsAs s q (.counterRead h p) { s := atStart s q, record := (coreCounters (coreP (atStart s q) p.core.toNat)).flatMap (fun v => leBytes 8 (cntBits v)) })) ∧
    (p.ctl.toNat = 1 → p.core.toNat < 18 → (coreP (atStart s q) p.core.toNat).power = .off →
      exec (.counterRead h p) (startOf s q) = .next (endsAs s q (.counterRead h p) { s := atStart s q, record := zeros 80 }))) ∧
  (∀ (s : State) (q : QEntry) (h : Hdr) (p : CounterReadP) (pt : Nat), Startable s q pt → p.ctl = 0 → p.rsvdA = 0 → p.core.toNat < 16 →
    holdsCore (atStart s q) pt p.core.toNat = true → inService (atStart s q) p.core.toNat = true →
    exec (.counterRead h p) (startOf s q) = .next (endsAs s q (.counterRead h p) { s := atStart s q, record := (List.range 10).flatMap (fun i => leBytes 8 (cntBits (tget {} i (core (atStart s q) p.core.toNat).latched))) }))

/-- The reliability events complete (R404, R408, R619 to R625, R633): a request is served, by a migration for a core in service and at once for
any other; a test ends with its verdict; a window's end clears both counts; fatal frames are sent again; a merge window's end counts; a
lost CXL link fails its port. -/
def Obligations.ReliabilityEventsComplete : Prop :=
  (∀ (k : Fin 18) (s u : State) (r : TestReq) (pk : Pack) (c d limit : Nat), d = dieOfPhys k.val →
    (die s d).requests.find? (fun r => !requestWaits s r) = some r → packOf s r.packId = some pk → r.core = k.val → (die s d).test = none →
    limit = (if r.defer = 0 then fld (die s d).trigCtl.toNat 16 16 else r.defer) →
    u = modDie s d (fun x => { x with requests := x.requests.filter (fun y => decide (y.core ≠ k.val)) }) →
    (logicalOf u k.val = none → exec (.testRequestServe k) s = .next (wakeCore (scrubCore (setCoreState
      (modDie u d (fun x => { x with test := some { req := r, pack := pk, phase := 3 } })) k.val 3) k.val) k.val)) ∧
    (logicalOf u k.val = some c → exec (.testRequestServe k) s = .next (owe (startMigration
      (modDie u d (fun x => { x with test := some { req := r, pack := pk } })) c ((freeSpare (modDie u d (fun x => { x with test := some { req := r, pack := pk } })) d).getD 0) 1
      (decide (limit ≠ 0)) limit) (.boundary c)))) ∧
  (∀ (k : Fin 18) (f : BitVec 64) (s : State) (t : TestRun), (die s (dieOfPhys k.val)).test = some t → t.req.core = k.val →
    (t.phase ≠ 2 → (coreP s k.val).power = .run → exec (.testEnd k f) s = .next (testEnds s (dieOfPhys k.val) k.val f.toNat t false)) ∧
    (t.phase = 2 → (die s (dieOfPhys k.val)).migration = none →
      exec (.testEnd k f) s = .next (testEnds s (dieOfPhys k.val) k.val f.toNat t true))) ∧
  (∀ (k : Fin 18) (s : State), exec (.triggerWindowEnd k) s = .next (modCoreP s k.val (fun c => { c with resWin := 0, crcWin := 0 }))) ∧
  (∀ s : State, (∀ f ∈ s.relia.log, f.fatal = false ∨ f.acked = true) → exec .fatalFrameResend s = .next s) ∧
  (∀ (s : State) (f : FaultFrame), s.relia.log.filter (fun f => f.fatal && !f.acked) = [f] →
    exec .fatalFrameResend s = .next (sendFrame s f.bytes)) ∧
  (∀ (b : Fin 64) (l : BitVec 42) (s u : State) (v n : Nat) (c : Counter), freeNat s = (v, u) →
    n = (if (die u (b.val / 32)).mergeEn then v else 0) → c = (die u (b.val / 32)).mergeCnt →
    exec (.mergeWindowExpiry b l) s = .next (fireIfEnabled (modDie u (b.val / 32) (fun x => { x with mergeCnt := cntAdd c n }))
      (cntWraps c n) (b.val / 32 + 1) 0x30A)) ∧
  (∀ (p : Fin 2) (s : State) (x : CxlPort), x = tget {} p.val s.cxl →
    (x.linkUp = true → exec (.cxlLinkDown p) s = .next (fireHub { s with cxl := tput {} p.val { x with linkUp := false, down := true, failed := true } s.cxl } (0x120 + p.val))) ∧
    (x.linkUp = false → exec (.cxlLinkDown p) s = .next s))

/-! ### The Metering Island (R553 to R579) -/

/-- The metering commands complete (R561, R571 to R574): MI_IDENT and MI_READ deliver their records; MI_SESSION_OPEN opens a metered session of a
bound partition that has none; MI_SESSION_CLOSE closes one and delivers its record number; MI_RECORD_GET delivers a record that the
issuer may read, or acknowledges it. -/
def Obligations.MeteringCommandsComplete : Prop :=
  (∀ (s : State) (q : QEntry) (h : Hdr) (p : MiIdentP), s.starting = none → sigCheck (atStart s q) q.cmd.h = none → p.rsvdA = 0 →
    exec (.miIdent h p) (startOf s q) = .next (endsAs s q (.miIdent h p) { s := atStart s q, record := miIdentRecord (atStart s q) })) ∧
  (∀ (s : State) (q : QEntry) (h : Hdr) (p : MiReadP), MgmtStartable s q → p.rsvdA = 0 →
    exec (.miRead h p) (startOf s q) = .next (endsAs s q (.miRead h p) { s := atStart s q, record := miReadRecord (atStart s q).mi.snap })) ∧
  (∀ (s : State) (q : QEntry) (h : Hdr) (p : MiSessionOpenP), MgmtStartable s q → p.rsvdA = 0 → p.part.toNat < 16 →
    miBound (atStart s q) p.part.toNat = true → tget none p.part.toNat (atStart s q).mi.sessions = none →
    exec (.miSessionOpen h p) (startOf s q) = .next (endsAs s q (.miSessionOpen h p) { s := miOpen (atStart s q) p.part.toNat })) ∧
  (∀ (s : State) (q : QEntry) (h : Hdr) (p : MiSessionCloseP) (u : State), MgmtStartable s q → p.rsvdA = 0 → p.part.toNat < 16 →
    miBound (atStart s q) p.part.toNat = true → (tget none p.part.toNat (atStart s q).mi.sessions).isSome = true →
    u = miClose (atStart s q) p.part.toNat 4 →
    (p.ctl.toNat = 0 → exec (.miSessionClose h p) (startOf s q) = .next (endsAs s q (.miSessionClose h p)
      { s := u, record := leBytes 8 u.mi.recordNo ++ leBytes 4 0 ++ zeros 4 })) ∧
    (p.ctl.toNat = 1 → exec (.miSessionClose h p) (startOf s q) = .next (endsAs s q (.miSessionClose h p)
      { s := miOpen u p.part.toNat,
        record := leBytes 8 u.mi.recordNo ++ leBytes 4 (tget (0, 0) p.part.toNat (miOpen u p.part.toNat).mi.metered).2 ++ zeros 4 }))) ∧
  (∀ (s : State) (q : QEntry) (h : Hdr) (p : MiRecordGetP) (r : Nat × List Byte), s.starting = none →
    sigCheck (atStart s q) q.cmd.h = none → p.rsvdA = 0 → mayRead (atStart s q) q.cmd.part r.2 = true →
    (p.op.toNat = 0 → (atStart s q).mi.log.find? (fun x => decide (x.1 = p.recordNo.toNat)) = some r →
      exec (.miRecordGet h p) (startOf s q) = .next (endsAs s q (.miRecordGet h p) { s := atStart s q, record := r.2 })) ∧
    (p.op.toNat = 2 → ((atStart s q).mi.log.filter (fun x => mayRead (atStart s q) q.cmd.part x.2)).getLast? = some r →
      exec (.miRecordGet h p) (startOf s q) = .next (endsAs s q (.miRecordGet h p) { s := atStart s q, record := r.2 })) ∧
    (p.op.toNat = 1 → q.cmd.part = none → (atStart s q).mi.log.find? (fun x => decide (x.1 = p.recordNo.toNat)) = some r →
      ∃ t, exec (.miRecordGet h p) (startOf s q) = .next (endsAs s q (.miRecordGet h p) { s := t }) ∧
        t.mi.log = (atStart s q).mi.log.filter (fun x => decide (x.1 ≠ p.recordNo.toNat)) ∧ t.mem = (atStart s q).mem))

/-- The Metering Island's own events complete (R556 to R570): a frame gives the occupancy; a millisecond adds its energy to the input total, once,
and moves MI time on by 1; a commit takes the snapshot; a DEVICE record is written; the hold-up test, and the checkpoint of the open
sessions while it fails; a power failure with hold-up closes every session and writes a DEVICE record, one without hold-up leaves what
the power-up is to close; at the power-up no session is open, and the totals go on, after a stop without hold-up from the last signed
records (entry 55); an island without power, or whose power has failed, does nothing but power up. -/
def Obligations.MeteringEventsComplete : Prop :=
  (∀ (s t : State) (f : MiFrame), s.mi.powered = true → s.mi.powerFail = false → miFrameNow s = (f, t) → t.mi = s.mi →
    ∃ u, exec .occupancyFrame s = .next u ∧ u.mi.frame = f ∧ u.mi.gotFrame = true ∧ u.mi.sessions = s.mi.sessions ∧ u.mem = t.mem) ∧
  (∀ (e : BitVec 32) (s : State), s.mi.powered = true → s.mi.powerFail = false →
    ∃ t, exec (.miMillisecond e) s = .next t ∧ t.mi.input = s.mi.input + e.toNat ∧ t.mi.time = s.mi.time + 1 ∧
      t.mi.log = s.mi.log ∧ t.mi.gotFrame = false ∧ t.mi.estimate = !s.mi.gotFrame ∧
      (∀ p x, p < 16 → tget none p s.mi.sessions = some x →
        tget none p t.mi.sessions = some (miAccount s.mi p (miShare s e.toNat p) x)) ∧ t.mem = s.mem) ∧
  (∀ s : State, s.mi.powered = true → s.mi.powerFail = false →
    ∃ t, exec .miCommit s = .next t ∧ t.mi.snap.time = s.mi.time ∧ t.mi.snap.input = s.mi.input ∧ t.mi.snap.dev = s.mi.dev ∧
      t.mi.snap.open_ = t.mi.sessions ∧ t.mi.log = s.mi.log ∧ t.mem = s.mem) ∧
  (∀ s : State, s.mi.powered = true → s.mi.powerFail = false → exec .miDeviceRecord s = .next (miDeviceRecord s 0)) ∧
  (∀ s : State, s.mi.powered = true → s.mi.powerFail = false →
    exec (.miHoldupTest true) s = .next { s with mi := miShow { s.mi with holdup := false } } ∧
    exec (.miHoldupTest false) s = .next (postMgmt (fireHub { s with mi := miShow { s.mi with holdup := true } } 0x1C3) 0x0192 1 [])) ∧
  (∀ s : State, s.mi.powered = true → s.mi.powerFail = false →
    (s.mi.holdup = true → exec .miCheckpoint s = .next { s with mi := miSigned { s.mi with saved := miSave s.mi } }) ∧
    (s.mi.holdup = false → exec .miCheckpoint s = .next s)) ∧
  (∀ s u : State, s.mi.powered = true → s.mi.powerFail = false →
    u = fireHub { s with mi := miShow { s.mi with powerFail := true } } 0x1C4 →
    (u.mi.holdup = false → exec .miPowerFail s = .next (miDeviceRecord ((List.range 16).foldl (fun s p => miClose s p 1) u) 1)) ∧
    (u.mi.holdup = true → exec .miPowerFail s = .next { u with mi := { u.mi with unclean := true, saved := u.mi.sessions.map (fun e => (e.1, e.2.map (miLeft u.mi e.1))), sessions := [] } })) ∧
  (∀ s : State, s.mi.powered = false ∨ s.mi.powerFail = true →
    ∃ u, exec .miPowerUp s = .next u ∧ u.mi.powered = true ∧ u.mi.powerFail = false ∧ u.mi.sessions = [] ∧ u.mi.saved = [] ∧
      u.mi.unclean = false ∧
      (s.mi.unclean = false → u.mi.time = s.mi.time ∧ u.mi.input = s.mi.input ∧ (miStagedRuns s.mi = false → u.mi.log = s.mi.log)) ∧
      (s.mi.unclean = true → u.mi.time = s.mi.signed.1 ∧ u.mi.input = s.mi.signed.2.1)) ∧
  (∀ (e : BitVec 32) (b : Bool) (s : State), s.mi.powered = false ∨ s.mi.powerFail = true →
    exec (.miMillisecond e) s = .next s ∧ exec .miCommit s = .next s ∧ exec .miDeviceRecord s = .next s ∧
    exec (.miHoldupTest b) s = .next s ∧ exec .miCheckpoint s = .next s ∧ exec .miPowerFail s = .next s)

/-! ### The Belsan fabric (R426 to R470) -/

/-- The fabric commands complete (R441, R443, R453): FABRIC_ROUTE writes consecutive entries of its table; FABRIC_ADDR takes the address and enters
JOINING, and stores it where asked; FABRIC_DEPART begins the drain, once; FABRIC_DISCOVER asks and waits, or ends with DEFERRED for an
address recorded as departed (DETAIL 2 is the model's, note 11 of the assumption log). -/
def Obligations.FabricCommandsComplete : Prop :=
  (∀ (s : State) (q : QEntry) (h : Hdr) (p : FabricRouteP) (n : Nat) (l : List Byte), MgmtStartable s q → p.rsvdA = 0 → p.rsvdB = 0 →
    n = p.count.toNat → 1 ≤ n → n ≤ 4096 → l = mgmtRead (atStart s q) q.cmd p.list.toNat (8 * n) →
    (p.table.toNat = 0 → p.first.toNat + n ≤ 256 → exec (.fabricRoute h p) (startOf s q) = .next (endsAs s q (.fabricRoute h p)
      { s := { atStart s q with fab := { (atStart s q).fab with grp := putRoutes false p.first.toNat l n (atStart s q).fab.grp } } })) ∧
    (p.table.toNat = 1 → p.first.toNat + n ≤ 256 → exec (.fabricRoute h p) (startOf s q) = .next (endsAs s q (.fabricRoute h p)
      { s := { atStart s q with fab := { (atStart s q).fab with mbr := putRoutes false p.first.toNat l n (atStart s q).fab.mbr } } })) ∧
    (p.table.toNat = 2 → p.first.toNat + n ≤ 4096 → exec (.fabricRoute h p) (startOf s q) = .next (endsAs s q (.fabricRoute h p)
      { s := { atStart s q with fab := { (atStart s q).fab with mc := putRoutes true p.first.toNat l n (atStart s q).fab.mc } } }))) ∧
  (∀ (s : State) (q : QEntry) (h : Hdr) (p : FabricAddrP) (u : State), MgmtStartable s q → p.rsvdA = 0 → p.ctl.toNat ≤ 1 →
    (atStart s q).fab.mode = .unassigned →
    u = (if p.ctl.toNat = 1 then cfgStore (atStart s q) idFabAddr (leBytes 2 p.addr.toNat) else atStart s q) →
    exec (.fabricAddr h p) (startOf s q) = .next (endsAs s q (.fabricAddr h p)
      { s := { u with fab := { u.fab with mode := .joining, addr := p.addr } } })) ∧
  (∀ (s : State) (q : QEntry) (h : Hdr) (p : FabricDepartP), MgmtStartable s q → leadOk (atStart s q) = true → p.rsvdA = 0 →
    (draining (atStart s q) = false → exec (.fabricDepart h p) (startOf s q) = .next (endsAs s q (.fabricDepart h p)
      { s := { atStart s q with fab := { (atStart s q).fab with mode := .draining, drain := if p.drainLimit.toNat = 0 then none else some p.drainLimit.toNat } } })) ∧
    (draining (atStart s q) = true → exec (.fabricDepart h p) (startOf s q) = .next (endsAs s q (.fabricDepart h p) { s := atStart s q }))) ∧
  (∀ (s : State) (q : QEntry) (h : Hdr) (p : FabricDiscoverP), s.starting = none → sigCheck (atStart s q) q.cmd.h = none →
    p.part.toNat < 16 → p.rsvdA = 0 →
    (departed (atStart s q) p.addr = false → exec (.fabricDiscover h p) (startOf s q) = .next (endsAs s q (.fabricDiscover h p)
      { s := originate (atStart s q) 0x40 0 false p.part.toNat (q.cmd.part.getD (devSpart (atStart s q))) p.addr.toNat 0 (if q.cmd.part = none then 0x10000 else 0) [] [], wait := some (.discover p.addr.toNat) })) ∧
    (departed (atStart s q) p.addr = true → exec (.fabricDiscover h p) (startOf s q) = .next (endsAs s q (.fabricDiscover h p)
      { s := atStart s q, st := .deferred, detail := 2 })))

/-- The link events complete (R428, R433, R440, R594): PCS link up takes a TRAINING port to HELLO at its rate, a pluggable module's at its entry's; the loss of a link drops it, with
what its neighbour's loss sets going from UP; the restart timer starts bring-up; HELLOs and capability lists are sent while the port
waits; a started group's ports begin bring-up, but those that are unused. Each does nothing in any other state. -/
def Obligations.LinkEventsComplete : Prop :=
  (∀ (q : Fin 32) (r : BitVec 2) (s : State),
    ((portOf s q.val).lstate = .training → r ≠ 0 →
      exec (.linkPcsUp q r) s = .next (setLink (setPort s q.val { portOf s q.val with rate := BitVec.ofNat 2 (upRate s q.val r.toNat) }) q.val .hello)) ∧
    ((portOf s q.val).lstate ≠ .training ∨ r = 0 → exec (.linkPcsUp q r) s = .next s)) ∧
  (∀ (q : Fin 32) (s : State) (x : Port), x = portOf s q.val →
    (x.lstate = .down ∨ x.lstate = .training → exec (.pcsLinkFail q) s = .next s ∧ exec (.linkSilenceTimeout q) s = .next s) ∧
    (x.lstate = .hello ∨ x.lstate = .caps ∨ x.lstate = .up ∧ x.peerValid = false →
      exec (.pcsLinkFail q) s = .next (dropLink s q.val) ∧ exec (.linkSilenceTimeout q) s = .next (dropLink s q.val)) ∧
    (x.lstate = .up → x.peerValid = true →
      exec (.pcsLinkFail q) s = .next (neighbourLost (dropLink s q.val) x.peer x.peerId) ∧
      exec (.linkSilenceTimeout q) s = .next (neighbourLost (dropLink s q.val) x.peer x.peerId)) ∧
    (x.ready = true → x.restart = true → x.lstate = .down → exec (.linkRestartTimer q) s = .next (bringUp s q.val)) ∧
    (x.ready = false ∨ x.restart = false ∨ x.lstate ≠ .down → exec (.linkRestartTimer q) s = .next s) ∧
    (x.lstate = .hello → exec (.helloTimer q) s = .next (sendHello s q.val)) ∧
    (x.lstate = .caps → exec (.helloTimer q) s = .next (sendCaps (sendHello s q.val) q.val)) ∧
    (x.lstate = .down ∨ x.lstate = .training ∨ x.lstate = .up → exec (.helloTimer q) s = .next s)) ∧
  (∀ (g : Fin 8) (s : State),
    (s.ready = false ∨ draining s = true → exec (.portGroupStart g) s = .next s) ∧
    (s.ready = true → draining s = false → ∃ t, exec (.portGroupStart g) s = .next t ∧
      (∀ i k, i < 4 → k = 4 * g.val + i →
        (mediaOf s k ≠ .unused → (portOf t k).ready = true ∧ ((portOf s k).ready = false → (portOf t k).lstate = .training)) ∧
        (mediaOf s k = .unused → portOf t k = portOf s k)) ∧ t.mem = s.mem ∧ t.cores = s.cores))

/-- The link frames (R430 to R432, R440): with the PCS down a frame is not seen; one that fails its checks is counted in FAB_LCRC_CNT; an ACK,
a NAK, a CREDIT, a HELLO and a capability fragment do what their rules say, after the acknowledgement that they carry; an in-order
DATA frame is accepted and its packet routed, and any other is refused by one NAK; timers send ACK and CREDIT frames, and a frame sent
8 times without an acknowledgement takes the link down; a link that is not UP, or that is dedicated to a partition being scrubbed, repeats
none (R458). -/
def Obligations.LinkFramesComplete : Prop :=
  (∀ (q : Fin 32) (f : List Byte) (s : State),
    (pcsIsUp (portOf s q.val) = false → exec (.ackFrame q f) s = .next s ∧ exec (.nakFrame q f) s = .next s ∧
      exec (.creditFrame q f) s = .next s ∧ exec (.hello q f) s = .next s ∧ exec (.caps q f) s = .next s) ∧
    (pcsIsUp (portOf s q.val) = true → frameOk f = false → exec (.ackFrame q f) s = .next (countLcrc s) ∧
      exec (.nakFrame q f) s = .next (countLcrc s) ∧ exec (.creditFrame q f) s = .next (countLcrc s) ∧
      exec (.hello q f) s = .next (countLcrc s) ∧ exec (.caps q f) s = .next (countLcrc s))) ∧
  (∀ (q : Fin 32) (f b : List Byte) (s u : State) (x : Port), pcsIsUp (portOf s q.val) = true → frameOk f = true → b = frBody f →
    u = carriedAck s q.val f → x = portOf u q.val →
    (frKind f = kAck → exec (.ackFrame q f) s = .next u) ∧
    (frKind f = kNak → exec (.nakFrame q f) s = .next (resendAll u q.val)) ∧
    (frKind f = kCredit → x.lstate = .up → exec (.creditFrame q f) s = .next (pump (modPort u q.val (fun x => { x with credit := (List.range 4).foldl (fun t c => tput (initCredit c) c (at_ b (4 * c) 4) t) x.credit })) q.val)) ∧
    (frKind f = kMaint → at_ b 0 1 = 1 → 16 ≤ b.length →
      (x.lstate = .caps ∨ x.lstate = .up → x.peerId ≠ BitVec.ofNat 64 (at_ b 8 8) → exec (.hello q f) s = .next (linkDown u q.val)) ∧
      (∀ v, (x.lstate = .hello ∨ x.peerId = BitVec.ofNat 64 (at_ b 8 8)) →
        v = setPort u q.val { x with versions := BitVec.ofNat 8 (at_ b 1 1), heard := true, seen := x.seen || bitOf (at_ b 7 1) 0, peerId := BitVec.ofNat 64 (at_ b 8 8), peer := if at_ b 3 1 = 0 then 0 else BitVec.ofNat 16 (at_ b 4 2), peerValid := decide (at_ b 3 1 ≠ 0) } →
        (at_ b 3 1 = 0 → exec (.hello q f) s = .next (tryCaps v q.val)) ∧
        (at_ b 3 1 ≠ 0 → exec (.hello q f) s = .next (tryCaps (checkConflict
          (noteHello v (BitVec.ofNat 16 (at_ b 4 2)) (BitVec.ofNat 64 (at_ b 8 8)) (BitVec.ofNat 8 (at_ b 1 1))) (BitVec.ofNat 16 (at_ b 4 2)).toNat
          (BitVec.ofNat 64 (at_ b 8 8)).toNat (at_ b 3 1)) q.val)))) ∧
    (frKind f = kMaint → at_ b 0 1 = 2 → x.lstate ≠ .up → at_ b 2 2 ≤ 4080 → ∀ got, got = (if at_ b 1 1 = 0 then [] else x.capsGot) →
      got.length = 1024 * at_ b 1 1 → got.length + (b.length - 4) ≤ at_ b 2 2 →
      exec (.caps q f) s = .next (tryUp (setPort u q.val { x with capsGot := got ++ b.drop 4, capsDone := decide ((got ++ b.drop 4).length = at_ b 2 2) }) q.val))) ∧
  (∀ (q : Fin 32) (f : List Byte) (s u : State), (portOf s q.val).lstate = .up →
    (frameOk f = false → exec (.dataFrame q f) s = .next (refuseData (countLcrc s) q.val)) ∧
    (frameOk f = true → frKind f = kData → u = carriedAck s q.val f → ∀ n, n = ((portOf s q.val).rxLast.map (fun l => (l + 1) % 4096)).getD 0 →
      (frLseq f = n → exec (.dataFrame q f) s = .next (owe (modPort u q.val (fun x => { x with rxLast := some n, nakSent := false, ackDue := true }))
        (.run (.packetForward (some q) (frBody f))))) ∧
      (frLseq f ≠ n → exec (.dataFrame q f) s = .next (refuseData u q.val)))) ∧
  (∀ (q : Fin 32) (s : State) (x : Port), x = portOf s q.val →
    (x.lstate = .up → x.ackDue = true → exec (.ackTimer q) s = .next (linkSend s q.val kAck 0 [])) ∧
    (x.lstate ≠ .up ∨ x.ackDue = false → exec (.ackTimer q) s = .next s) ∧
    (x.lstate = .up → exec (.creditTimer q) s = .next (linkSend s q.val kCredit 0
      ((List.range 4).flatMap (fun c => leBytes 4 (initCredit c + tget 0 c x.granted))))) ∧
    (x.lstate ≠ .up → exec (.creditTimer q) s = .next s) ∧ (carriesData s x = false → exec (.replayTimeout q) s = .next s) ∧
    (carriesData s x = true → (∃ f ∈ x.replay, 8 ≤ f.sends) → exec (.replayTimeout q) s = .next (linkDown s q.val)) ∧
    (carriesData s x = true → (∀ f ∈ x.replay, f.sends < 8) → ∃ t, exec (.replayTimeout q) s = .next t ∧
      (portOf t q.val).replay = x.replay.map (fun f => { f with sends := f.sends + 1 }) ∧ t.mem = s.mem ∧ t.cores = s.cores))

/-- The router (R434, R435, R444, R445, R459): a packet that is too short, has come 31 hops or names a group with a TYPE that may not is
dropped and counted; one for this device is delivered; any other is routed on with HOPS one higher, but not from a dedicated port. A
delivered packet whose ECRC fails is counted, and one that passes is an event of its TYPE. -/
def Obligations.PacketsAreRouted : Prop :=
  ∀ (o : Option (Fin 32)) (b : List Byte) (s : State),
    (b.length < 36 ∨ (o.isSome = true ∧ pkHops b = 31) ∨ (pkMc b = true ∧ mayMulticast (pkType b) = false) →
      exec (.packetForward o b) s = .next (countDrop (drainPacket s o b))) ∧
    (36 ≤ b.length → (o = none ∨ pkHops b ≠ 31) → pkMc b = false →
      (hasAddr s = true → pkDst b = s.fab.addr.toNat →
        (pkGood b = false → exec (.packetForward o b) s = .next (countEcrc (drainPacket s o b))) ∧
        (pkGood b = true → 1 ≤ pkVersion b → pkVersion b ≤ 3 → (part s (pkDpart b)).pstate ≠ .scrubbing →
          ∀ i, packetEvent o (pkDpart b) b = some i → exec (.packetForward o b) s = .next
            (breakQuag (owe (if pkType b = 0x10 then s else drainPacket s o b) (.run i)) (pkDpart b)))) ∧
      (hasAddr s = false ∨ pkDst b ≠ s.fab.addr.toNat →
        (o = none → exec (.packetForward o b) s = .next (routeOn (drainPacket s o b) b true)) ∧
        (∀ q, o = some q → (portOf s q.val).dedicated = true → exec (.packetForward o b) s = .next (routeMiss (drainPacket s o b))) ∧
        (∀ q, o = some q → (portOf s q.val).dedicated = false →
          exec (.packetForward o b) s = .next (routeOn (drainPacket s o b) (withHops b (pkHops b + 1)) false))))

/-- The packets that reach their destination (R301, R330, R339, R345, R442, R443, R454, R455, R493, R494): a CMD goes to the interpreter, a REPLY
ends the command it answers, a GRAD_SEG joins its reduction, a PARAM its gather, a query, a probe and an announcement do what their
rules say; one whose ECRC fails is counted. The timeouts of a forwarded command and of a query end them, and the root's timer delivers
MISSING_CONTRIBUTION to those that wait. -/
def Obligations.DeliveredPacketsComplete : Prop :=
  (∀ (p : Fin 16) (b : List Byte) (s : State), pkGood b = false →
    (s.ready = true → exec (.cmd p b) s = .next (countEcrc s)) ∧ exec (.reply b) s = .next (countEcrc s) ∧
    exec (.param p b) s = .next (countEcrc s) ∧ exec (.discQuery b) s = .next (countEcrc s) ∧ exec (.discReply b) s = .next (countEcrc s) ∧
    exec (.probe b) s = .next (countEcrc s) ∧ exec (.probeReply b) s = .next (countEcrc s) ∧ exec (.announce none b) s = .next (countEcrc s)) ∧
  (∀ (p : Fin 16) (b : List Byte) (s : State), pkGood b = true → s.ready = true → exec (.cmd p b) s = .next (takePacket s
    (.fabric (BitVec.ofNat 16 (pkSrc b)) (BitVec.ofNat 4 (pkSpart b)) (BitVec.ofNat 4 p.val)) (pkPayload b ++ zeros (256 - (pkPayload b).length)))) ∧
  (∀ (b : List Byte) (s : State), pkGood b = true →
    (∀ w, remoteOf s b = some w → exec (.reply b) s = .next (endWaiting s w (statusOf (at_ (pkPayload b) 4 2)) (at_ (pkPayload b) 20 4) [])) ∧
    (remoteOf s b = none → exec (.reply b) s = .next s)) ∧
  (∀ (o : Option (Fin 32)) (b : List Byte) (s : State) (x : Bucket), pkGood b = true →
    (bucketOf s (pkDpart b) (at_ (pkArg b) 0 2) = some x → x.lost = false → exec (.gradSeg o b) s =
      .next (settle (offer s (pkDpart b) (at_ (pkArg b) 0 2) (gradFrame x o b)) (pkDpart b) (at_ (pkArg b) 0 2))) ∧
    (bucketOf s (pkDpart b) (at_ (pkArg b) 0 2) = none → exec (.gradSeg o b) s = .next (drainPort (countDrop s) o 1 (frameBlocks b)))) ∧
  (∀ (p : Fin 16) (b : List Byte) (s : State), pkGood b = true →
    (job s p.val = none → exec (.param p b) s = .next s) ∧
    (∀ j, job s p.val = some j → j.stopping = true → exec (.param p b) s = .next s) ∧
    (∀ j k, job s p.val = some j → j.stopping = false → j.gathers.findIdx? (fun g => decide (gaMcast g = pkDst b)) = some k → at_ (pkArg b) 13 1 < 2 →
      (tagStep j.step.toNat (at_ (pkArg b) 0 4) = none → exec (.param p b) s = .next (setJob s p.val { j with dropped := j.dropped + 1 })) ∧
      (∀ t, tagStep j.step.toNat (at_ (pkArg b) 0 4) = some t →
        (j.step.toNat + 2 ≤ t → exec (.param p b) s = .next (setJob s p.val { j with held := j.held ++ [{ step := t, packet := b }] })) ∧
        (∀ g, t < j.step.toNat + 2 → j.gathers[k]? = some g → exec (.param p b) s = .next (gatherArrival s p.val k g t b))))) ∧
  (∀ (b : List Byte) (s : State), pkGood b = true →
    exec (.discQuery b) s = .next (originate s 0x41 0 false (pkSpart b) (pkDpart b) (pkSrc b) 0 0 [] (discPayload s (pkDpart b) (decide (pkFlow b = 0x10000)))) ∧
    exec (.probe b) s = .next (originate s 0x43 0 false (pkSpart b) (pkDpart b) (pkSrc b) 0 0 [] []) ∧
    exec (.probeReply b) s = .next { s with fab := { s.fab with probing := s.fab.probing.filter (fun x => !(decide (x.addr.toNat = pkSrc b) && x.sent)) } } ∧
    exec (.announce none b) s = .next (learn s (pkArg b))) ∧
  (∀ (b : List Byte) (s v u : State) (k : Known) (w : Waiting), pkGood b = true →
    v = noteHello s (BitVec.ofNat 16 (pkSrc b)) (BitVec.ofNat 64 (at_ (pkPayload b) 0 8)) (BitVec.ofNat 8 (at_ (pkPayload b) 10 1)) → knownOf v (BitVec.ofNat 16 (pkSrc b)) = some k →
    u = checkConflict (setKnown v { k with caps := slice (pkPayload b) 16 (at_ (pkPayload b) 12 2) }) (BitVec.ofNat 16 (pkSrc b)).toNat
      (BitVec.ofNat 64 (at_ (pkPayload b) 0 8)).toNat (at_ (pkPayload b) 8 1) →
    discoverOf u (BitVec.ofNat 16 (pkSrc b)).toNat (some (pkSpart b)) = some w →
    exec (.discReply b) s = .next (endWaiting u w .ok 0 (pkPayload b))) ∧
  (∀ (q : Fin 32) (f : List Byte) (s : State), pcsIsUp (portOf s q.val) = true → frameOk f = true → frKind f = kMaint →
    at_ (frBody f) 0 1 = 3 → 15 ≤ frLen f → exec (.announce (some q) f) s = .next (learn (carriedAck s q.val f) (slice (frBody f) 1 14))) ∧
  (∀ (c : BitVec 16) (n : BitVec 32) (s : State),
    (∀ w, s.waiting.find? (fun w => decide (w.wait = .remote c.toNat n.toNat)) = some w →
      exec (.remoteReplyTimeout c n) s = .next (endWaiting s w .deferred 1 [])) ∧
    (s.waiting.find? (fun w => decide (w.wait = .remote c.toNat n.toNat)) = none → exec (.remoteReplyTimeout c n) s = .next s)) ∧
  (∀ (a : BitVec 16) (s : State),
    (∀ w, discoverOf s a.toNat none = some w → exec (.discoverTimeout a) s = .next (endWaiting s w .ok 0 (zeros 8 ++ [0xFF] ++ zeros 7))) ∧
    (discoverOf s a.toNat none = none → exec (.discoverTimeout a) s = .next s)) ∧
  (∀ (p : Fin 16) (n : BitVec 16) (s : State) (pl : Plan) (x y : Bucket) (r : Reduction), planOf s p.val = some pl →
    bucketOf s p.val n.toNat = some x → x.red = some r → r.timer = true → r.isOpen = true →
    y = { x with red := some { r with timer := false, missing := silentSlots (plMode pl) x r, reported := !(silentSlots (plMode pl) x r).isEmpty } } →
    (silentSlots (plMode pl) x r ≠ [] → exec (.reductionRootTimeout p n) s =
      .next (endRedWaits (setBucket s p.val n.toNat y) p.val n.toNat r.tag .missingContribution (waitRecord y r.tag))) ∧
    (silentSlots (plMode pl) x r = [] → exec (.reductionRootTimeout p n) s = .next (setBucket s p.val n.toNat y)))

/-- Joining, draining and departing (R441, R452 to R454): JOINING without a conflict becomes ACTIVE and is announced; a drain ends when no job is
left, or stops the jobs left at its limit; the departing device unbinds and powers down; a lost neighbour is probed and then announced. -/
def Obligations.MembershipEventsComplete : Prop :=
  (∀ s : State,
    (s.fab.mode = .joining → exec .joiningTimeout s = .next (announceAll { s with fab := { s.fab with mode := .active } } 1 s.fab.addr deviceNum)) ∧
    (s.fab.mode ≠ .joining → exec .joiningTimeout s = .next s) ∧
    (s.fab.mode = .draining → s.fab.departing = false →
      (jobParts s = [] → exec .drainEnd s = .next (announceDepart s)) ∧
      (jobParts s ≠ [] → s.fab.drain.isSome = true →
        exec .drainEnd s = .next (announceDepart ((jobParts s).foldl (fun s p => dropJob s p 1) s))) ∧
      (jobParts s ≠ [] → s.fab.drain = none → exec .drainEnd s = .next s)) ∧
    (s.fab.mode ≠ .draining ∨ s.fab.departing = true → exec .drainEnd s = .next s) ∧
    (s.fab.departing = true → exec .departTimeout s = .next (enterStandby ((List.range 16).foldl unbindNow s))) ∧
    (s.fab.departing = false → exec .departTimeout s = .next s)) ∧
  (∀ (a : BitVec 16) (s : State),
    (s.fab.probing.any (fun x => decide (x.addr = a) && !x.sent) = true → exec (.probeDelay a) s = .next (originate { s with fab := { s.fab with probing := s.fab.probing.map (fun x => if x.addr = a then { x with sent := true } else x) } } 0x42 0 false 0 (devSpart s) a.toNat 0 0 [] [])) ∧
    (s.fab.probing.any (fun x => decide (x.addr = a) && !x.sent) = false → exec (.probeDelay a) s = .next s) ∧
    (∀ x, s.fab.probing.find? (fun x => decide (x.addr = a) && x.sent) = some x → exec (.probeTimeout a) s = .next (announceLost
      { s with fab := { s.fab with probing := s.fab.probing.filter (fun y => decide (y.addr ≠ a)) } } a x.id.toNat)) ∧
    (s.fab.probing.find? (fun x => decide (x.addr = a) && x.sent) = none → exec (.probeTimeout a) s = .next s))

/-! ### Ivtu: rings, windows, lines and registers (R13 to R17, R471 to R484, R498, R507) -/

/-- The control-page registers complete (R480 to R484, R498, R507): a submission doorbell sets TAIL and sets the fetching of its entries going;
a completion doorbell frees the replies consumed; a ring and an event ring are configured and restarted; a slot's doorbell takes its packet, at once or when its lines
have come back, and a busy slot's is dropped; an acknowledgement of a READY window of the same GEN frees it, and any other is ignored. -/
def Obligations.ControlPageRegistersComplete : Prop :=
  (∀ (q : Fin 17) (r : Fin 16) (t : BitVec 16) (s : State) (x : Ring), x = ring s q.val r.val →
    (x.enable = true → s.ivtu.up = true → exec (.ivtSqDb q r t) s = .next (fetchAll (modRing s q.val r.val
      (fun y => { y with sqTail := BitVec.ofNat 16 (t.toNat % 2 ^ x.log2.toNat) })) q.val r.val)) ∧
    (x.enable = false ∨ s.ivtu.up = false → exec (.ivtSqDb q r t) s = .next s) ∧
    (∀ n u, n = consumed (2 ^ x.log2.toNat) x.cqHead.toNat t.toNat x.unread →
      u = modRing s q.val r.val (fun y => { y with cqHead := BitVec.ofNat 16 (t.toNat % 2 ^ x.log2.toNat), unread := y.unread - n, notifyOut := false, notifyWait := false }) →
      exec (.ivtCqDb q r t) s = .next (fetchAll (if x.notifyWait then notifyRing u q.val r.val else u) q.val r.val))) ∧
  (∀ (q : Fin 17) (r : Fin 16) (v : BitVec 32) (s : State) (x y : Ring), x = ring s q.val r.val →
    y = { x with enable := bitOf v.toNat 31, err := x.err && !bitOf v.toNat 30, snoop := bitOf v.toNat 29, lineS := false, log2 := if x.enable || decide (fld v.toNat 16 5 < 4) || decide (16 < fld v.toNat 16 5) then x.log2 else BitVec.ofNat 5 (fld v.toNat 16 5), weight := if fld v.toNat 0 8 = 0 then x.weight else BitVec.ofNat 8 (fld v.toNat 0 8) } →
    (bitOf v.toNat 31 = false → exec (.ivtRingEnable q r v) s = .next (modRing s q.val r.val (fun _ => y))) ∧
    (bitOf v.toNat 31 = true → exec (.ivtRingEnable q r v) s = .next (fetchAll (modRing s q.val r.val (fun _ =>
      { y with halted := false, sqHead := 0, sqTail := 0, cqTail := 0, cqHead := 0, sqPass := true, cqPass := true, unread := 0 })) q.val r.val))) ∧
  (∀ (q : Fin 17) (v : BitVec 32) (s : State) (e f : EvRing), e = (page s q.val).ev →
    f = { e with enable := bitOf v.toNat 31, notify := bitOf v.toNat 30, log2 := if e.enable || decide (fld v.toNat 16 5 < 4) || decide (16 < fld v.toNat 16 5) then e.log2 else BitVec.ofNat 5 (fld v.toNat 16 5) } →
    exec (.ivtEvEnable q v) s = .next (modPage s q.val (fun p => { p with ev := if bitOf v.toNat 31 then { f with tail := 0, head := 0, lost := 0, unread := 0 } else f }))) ∧
  (∀ (q : Fin 17) (hd : BitVec 16) (s u : State) (e : EvRing), e = (page s q.val).ev →
    u = modPage s q.val (fun p => { p with ev := { e with head := BitVec.ofNat 16 (hd.toNat % 2 ^ e.log2.toNat), unread := e.unread - consumed (2 ^ e.log2.toNat) e.head.toNat hd.toNat e.unread, notifyOut := e.notifyWait, notifyWait := false } }) →
    exec (.ivtEvHead q hd) s = .next (if e.notifyWait then notify u (q.val * 256 + 0xFF) else u)) ∧
  (∀ (q : Fin 17) (i : BitVec 4) (s u : State) (x : Slot), x = slot s q.val i.toNat →
    u = modSlot s q.val i.toNat (fun y => { y with busy := true, notifyOut := false, notifyWait := false }) →
    (x.busy = true → exec (.ivtCwinDb q i) s = .next (fireHub s 0x101)) ∧
    (x.busy = false → x.heldM = [] → exec (.ivtCwinDb q i) s = .next (runSlot (if x.notifyWait then notifySlot u q.val i.toNat else u) q.val i.toNat (tgets 0 256 0 x.bytes))) ∧
    (x.busy = false → x.heldM ≠ [] → x.notifyWait = false → exec (.ivtCwinDb q i) s = .next
      (x.heldM.foldl (fun s l => send s (.snpInv (slotOffset q.val i.toNat + 64 * l.1)))
        (modSlot u q.val i.toNat (fun y => { y with snooped := true, taken := tgets 0 256 0 x.bytes }))))) ∧
  (∀ (q : Fin 17) (n : BitVec 16) (g : BitVec 32) (s : State) (k : Pool) (w : Window), (page s q.val).pool = some k →
    w = poolWindow k n.toNat →
    (n.toNat < k.count → w.state = .ready → w.inUse = true → w.gen.toNat = g.toNat → exec (.ivtRwAck q n g) s = .next
      (putWindow (modPage s q.val (fun p => { p with pool := some { k with freed := k.freed ++ [n.toNat] } })) q.val n.toNat
        { w with state := .stale, status := BitVec.ofNat 16 (statusCode .staleGeneration), inUse := false } true)) ∧
    (k.count ≤ n.toNat ∨ w.state ≠ .ready ∨ w.inUse = false ∨ w.gen.toNat ≠ g.toNat → exec (.ivtRwAck q n g) s = .next s))

/-- The coherence messages and register writes complete (R13, R17, R473 to R477, R484): RdS gives the line and records it; RdM gives a packet line
and refuses any other; a packet line that the host is recorded to hold in M is first taken back by one SnpInv, and the request waits
(R476); WbM and InvData take a line that the host holds in M; RdCur and WrCur act without a record, WrCur not where the
host itself holds the line; a snoop drops the ring lines that the device holds; with the link down nothing arrives. A register write
of the wrong width, or through the logical window of a core out of service, is a register access error; one in a window of a core
without power, by an Awl core that is silent or of a block that its agent does not reach, changes nothing; one of the direct windows is
its user's store there. -/
def Obligations.HostLinesAndRegistersComplete : Prop :=
  (∀ (a : BitVec 52) (data : List Byte) (n : BitVec 7) (m : BitVec 64) (s : State), s.ivtu.up = false →
    exec (.rds a) s = .next s ∧ exec (.rdm a) s = .next s ∧ exec (.wbm a data) s = .next s ∧ exec (.rdcur a n) s = .next s ∧
    exec (.wrcur a m data) s = .next s) ∧
  (∀ (a : BitVec 52) (s u : State) (d : List Byte), s.ivtu.up = true → slotLine (lineOf a.toNat) = none →
    apertureRead s (lineOf a.toNat) 64 = (d, u) →
    exec (.rds a) s = .next (send (holdShared u (lineOf a.toNat)) (.dataS (lineOf a.toNat) d))) ∧
  (∀ (a : BitVec 52) (data : List Byte) (s : State), s.ivtu.up = true →
    (∀ q i l b, slotLine (lineOf a.toNat) = some (q, i, l) → b = slotOffset q i + 64 * l →
      (tget false l (slot s q i).heldM = false →
        exec (.rds a) s = .next (send (modSlot s q i (fun x => { x with heldS := tput false l true x.heldS }))
          (.dataS b (tgets 0 64 (64 * l) (slot s q i).bytes))) ∧
        exec (.rdm a) s = .next (send (modSlot s q i (fun x => { x with heldS := tput false l false x.heldS, heldM := tput false l true x.heldM }))
          (.dataM b (tgets 0 64 (64 * l) (slot s q i).bytes)))) ∧
      (tget false l (slot s q i).heldM = true → (slot s q i).snooped = false → (∀ e ∈ (slot s q i).later, e.1 ≠ l) →
        exec (.rds a) s = .next (send (modSlot s q i (fun x => { x with later := x.later ++ [(l, false)] })) (.snpInv b)) ∧
        exec (.rdm a) s = .next (send (modSlot s q i (fun x => { x with later := x.later ++ [(l, true)] })) (.snpInv b))) ∧
      (tget false l (slot s q i).heldM = true → ((slot s q i).snooped = true ∨ ∃ e ∈ (slot s q i).later, e.1 = l) →
        exec (.rds a) s = .next (modSlot s q i (fun x => { x with later := x.later ++ [(l, false)] })) ∧
        exec (.rdm a) s = .next (modSlot s q i (fun x => { x with later := x.later ++ [(l, true)] }))) ∧
      (tget false l (slot s q i).heldM = true → exec (.wbm a data) s = .next (send (slotData s q i l data) (.cmp (lineOf a.toNat) false []))) ∧
      (tget false l (slot s q i).heldM = false → exec (.wbm a data) s = .next (send s (.cmp (lineOf a.toNat) true [])))) ∧
    (slotLine (lineOf a.toNat) = none →
      exec (.rdm a) s = .next (send (fireHub s 0x101) (.cmp (lineOf a.toNat) true [])) ∧
      exec (.wbm a data) s = .next (send s (.cmp (lineOf a.toNat) true [])))) ∧
  (∀ (a : BitVec 52) (n : BitVec 7) (s u : State) (d : List Byte), s.ivtu.up = true → apertureRead s a.toNat (min 64 n.toNat) = (d, u) →
    exec (.rdcur a n) s = .next (send u (.cmp a.toNat false d))) ∧
  (∀ (a : BitVec 52) (m : BitVec 64) (data : List Byte) (s : State), s.ivtu.up = true → selectedBytes m.toNat ≠ [] →
    ((selectedBytes m.toNat).any (fun i => hostHolds s (a.toNat + i)) = true →
      exec (.wrcur a m data) s = .next (send (fireHub s 0x101) (.cmp a.toNat true []))) ∧
    ((selectedBytes m.toNat).any (fun i => hostHolds s (a.toNat + i)) = false →
      exec (.wrcur a m data) s = .next (send (wrCurOp s a.toNat m.toNat data) (.cmp a.toNat false [])))) ∧
  (∀ (a : BitVec 52) (s : State), (∀ q r, q < 17 → r < 16 → (ring s q r).lineS = false) →
    exec (.snpinv a) s = .next (send s (.invAck a.toNat))) ∧
  (∀ (a : BitVec 52) (data : List Byte) (s : State),
    (∀ q i l, slotLine a.toNat = some (q, i, l) → tget false l (slot s q i).heldM = true →
      exec (.invdata a data) s = .next (slotData s q i l data)) ∧
    (∀ q i l, slotLine a.toNat = some (q, i, l) → tget false l (slot s q i).heldM = false → exec (.invdata a data) s = .next s) ∧
    (slotLine a.toNat = none → exec (.invdata a data) s = .next s)) ∧
  (∀ (q : Fin 17) (a : BitVec 48) (n : BitVec 8) (v : BitVec 64) (s : State),
    (wrongPage s q.val a.toNat n.toNat = true → exec (.registerWrite (.hostPage q) a n v) s = .next (regError s)) ∧
    (wrongPage s q.val a.toNat n.toNat = false → ∀ r o, r < 16 → o < 0x40 → a.toNat = 0x100 + 0x40 * r + o →
      exec (.registerWrite (.hostPage q) a n v) s = .next (ringWrite s q.val r o v.toNat))) ∧
  (∀ (w : Agent) (a : BitVec 48) (n : BitVec 8) (v : BitVec 64) (s : State), (∀ q, w ≠ .hostPage q) →
    (silenced s w = true → exec (.registerWrite w a n v) s = .next s) ∧
    (silenced s w = false → (objectAt a.toNat).isSome = true →
      (∀ u, winUser w = some u → exec (.registerWrite w a n v) s = .next (windowStore s u a.toNat)) ∧
      (winUser w = none → exec (.registerWrite w a n v) s = .next s))) ∧
  (∀ (w : Agent) (a : BitVec 48) (n : BitVec 8) (v : BitVec 64) (s : State) (b : RegBlock) (o : Nat), (∀ q, w ≠ .hostPage q) →
    silenced s w = false → objectAt a.toNat = none → blockOf a.toNat = (b, o) →
    (reaches s w b = false → exec (.registerWrite w a n v) s = .next s) ∧
    (reaches s w b = true →
      (∀ c, b = .logical c → inService s c = false → exec (.registerWrite w a n v) s = .next (regError s)) ∧
      (∀ c, b = .logical c → inService s c = true →
        exec (.registerWrite w a n v) s = .next (windowWrite s w (physOf s c) (some c) b o n.toNat v.toNat)) ∧
      (∀ k, b = .physical k → (coreP s k).power = .off → exec (.registerWrite w a n v) s = .next s) ∧
      (∀ k, b = .physical k → (coreP s k).power ≠ .off →
        exec (.registerWrite w a n v) s = .next (windowWrite s w k (logicalOf s k) b o n.toNat v.toNat)) ∧
      ((∀ c, b ≠ .logical c) → (∀ k, b ≠ .physical k) →
        (wrongAccess s b o n.toNat = true → exec (.registerWrite w a n v) s = .next (regError s)) ∧
        (wrongAccess s b o n.toNat = false → (regAt s b o).isSome = true →
          exec (.registerWrite w a n v) s = .next (blockWrite s w b o v.toNat)) ∧
        (wrongAccess s b o n.toNat = false → (regAt s b o).isSome = false →
          (isAwlAgent w = true → exec (.registerWrite w a n v) s = .next (regError s)) ∧
          (isAwlAgent w = false → exec (.registerWrite w a n v) s = .next s)))))

/-! ### Clocks, power states and start-up (R580 to R612, R652 to R659) -/

/-- The lead token and the shared action of R593 complete (R597 to R599): the offered die takes the token at its generation; equal claims freeze
shared control; a release and both timeouts offer it to the other die; a STANDBY request is refused, or announces the departure. -/
def Obligations.LeadTokenCommandsComplete : Prop :=
  (∀ (d : Fin 2) (g : BitVec 64) (s : State),
    (equalClaim s d.val g.toNat = true → exec (.pwrLeadAck d g) s = .next (leadConflict s d.val g.toNat)) ∧
    (equalClaim s d.val g.toNat = false → s.power.lead.offered = true → s.power.lead.die = d.val → s.power.lead.gen = g →
      exec (.pwrLeadAck d g) s = .next { s with power := { s.power with lead := { s.power.lead with offered := false, held := true, frozen := false } } }) ∧
    (equalClaim s d.val g.toNat = false → s.power.lead.offered = false → exec (.pwrLeadAck d g) s = .next s) ∧
    (s.power.lead.held = true → s.power.lead.die = d.val → s.power.lead.gen = g → exec (.pwrLeadRelease d g) s = .next (offerLead s (1 - d.val))) ∧
    (s.power.lead.held = false ∨ s.power.lead.die ≠ d.val ∨ s.power.lead.gen ≠ g → exec (.pwrLeadRelease d g) s = .next s) ∧
    (s.ready = false → exec (.standbyRequest d g) s = .next s) ∧
    (s.ready = true → equalClaim s d.val g.toNat = false → s.power.lead.held = true → s.power.lead.frozen = false →
      s.power.lead.die = d.val → s.power.lead.gen = g →
      ((∀ p, p < 16 → bound s p = false) → coresRest s = true → draining s = false → s.fab.departing = false →
        exec (.standbyRequest d g) s = .next (announceDepart s)) ∧
      ((∃ p, p < 16 ∧ bound s p = true) ∨ coresRest s = false ∨ draining s = true ∨ s.fab.departing = true →
        exec (.standbyRequest d g) s = .next { s with power := { s.power with refused := true } }))) ∧
  (∀ s : State,
    (s.power.lead.offered = true → exec .leadOfferTimeout s = .next (offerLead s (1 - s.power.lead.die))) ∧
    (s.power.lead.offered = false → exec .leadOfferTimeout s = .next s) ∧
    (s.power.lead.held = true → exec .leadKeepaliveTimeout s = .next (offerLead s (1 - s.power.lead.die))) ∧
    (s.power.lead.held = false → exec .leadKeepaliveTimeout s = .next s)) ∧
  (∀ (s : State) (d : Nat), (offerLead s d).power.lead = { s.power.lead with gen := s.power.lead.gen + 1, held := false, offered := true, die := d } ∧
    (btnSrc (bittern (offerLead s d) 0) 0 0x183).pend = true ∧ (offerLead s d).mem = s.mem)

/-- The clock and power events complete (R584 to R594): a sample moves the divisor by one step by R587; the limiter asks for 8; a domain restarts
at its new divisor; a core that rests enters RETAIN, a device whose cores rest IDLE; the stagger queue starts its head; a core that is
waking reaches RUN; HBM leaves self-refresh. Each does nothing where its condition does not hold. -/
def Obligations.ClockAndPowerEventsComplete : Prop :=
  (∀ (w : BitVec 16) (c : BitVec 8) (s : State), 6 ≤ s.power.bootStep.toNat → s.power.device ≠ .off → s.power.device ≠ .standby →
    exec (.estimatorSample w c false) s = .next { s with power := { s.power with valid := 0, calm := 0, since := s.power.since + 1 } } ∧
    (s.power.limiting = true ∨ s.power.since + 1 < 10 → ∃ t, exec (.estimatorSample w c true) s = .next t ∧ t.power.estW = w ∧
      t.power.valid = min 1000 (s.power.valid + 1) ∧ t.power.since = s.power.since + 1 ∧ divTarget t.power = divTarget s.power ∧
      t.pins.therm = decide (c.toNat + 5 < s.power.tLimit.toNat) ∧ t.mem = s.mem ∧ t.cores = s.cores) ∧
    (s.power.limiting = false → 10 ≤ s.power.since + 1 → s.power.limitW.toNat < w.toNat ∨ s.power.tLimit.toNat ≤ c.toNat →
      divTarget s.power ≠ 8 → ∃ t, exec (.estimatorSample w c true) s = .next t ∧ divTarget t.power = slower (divTarget s.power) ∧
        t.power.since = 0 ∧ t.power.estW = w ∧ t.mem = s.mem ∧ t.cores = s.cores)) ∧
  (∀ (w : BitVec 16) (c : BitVec 8) (v : Bool) (s : State), s.power.bootStep.toNat < 6 ∨ s.power.device = .off ∨ s.power.device = .standby →
    exec (.estimatorSample w c v) s = .next s) ∧
  (∀ s : State, (s.power.good = true → ∃ t, exec .currentLimitEngage s = .next t ∧ divTarget t.power = 8 ∧ t.power.limiting = true ∧
      (btnSrc (bittern t 0) 0 0x181).pend = true ∧ t.mem = s.mem ∧ t.cores = s.cores) ∧
    (s.power.good = false → exec .currentLimitEngage s = .next s) ∧
    exec .limiterHoldExpiry s = .next { s with power := { s.power with limiting := false } }) ∧
  (∀ s : State,
    (∀ d, s.power.next = some d → ∃ t, exec (.clockSwitchRestart false) s = .next t ∧ t.power.div = d ∧ t.power.next = s.power.later ∧
      t.power.later = none ∧ t.power.ctlSel = s.power.ctlSel ∧ t.power.switchCnt = cntAdd s.power.switchCnt 1 ∧ t.mem = s.mem) ∧
    (s.power.next = none → exec (.clockSwitchRestart false) s = .next s) ∧
    (∀ d, s.power.ctlNext = some d → ∃ t, exec (.clockSwitchRestart true) s = .next t ∧ t.power.ctlSel = d ∧ t.power.ctlNext = s.power.ctlLater ∧
      t.power.div = s.power.div ∧ t.power.switchCnt = cntAdd s.power.switchCnt 1 ∧ t.mem = s.mem) ∧
    (s.power.ctlNext = none → exec (.clockSwitchRestart true) s = .next s)) ∧
  (∀ (k : Fin 18) (s : State) (l : Nat), (coreP s k.val).power = .run → logicalOf s k.val = some l → (partOfCore s l).isSome = true →
    s.power.retainAfter ≠ 0 →
    ((∀ i, i < 3 → streamRests (streamOf (coreP s k.val) i) = true) → (∀ a, a < 4 → awlRests s l a = true) →
      exec (.coreRetainEntry k) s = .next (modCoreP s k.val (fun x => { x with power := .retain }))) ∧
    ((∃ i, i < 3 ∧ streamRests (streamOf (coreP s k.val) i) = false) ∨ (∃ a, a < 4 ∧ awlRests s l a = false) →
      exec (.coreRetainEntry k) s = .next s)) ∧
  (∀ s : State,
    (s.power.device = .active → coresRest s = true → s.power.retainAfter ≠ 0 → s.ready = true → exec .deviceIdleEntry s = .next
      (postDevice { s with power := { s.power with device := .idle, refresh := true } } .idle)) ∧
    (s.power.device ≠ .active ∨ coresRest s = false ∨ s.power.retainAfter = 0 ∨ s.ready = false → exec .deviceIdleEntry s = .next s) ∧
    (∀ k rest, s.power.stagger = k :: rest → exec .staggerStart s = .next (goActive { s with power := { s.power with stagger := rest } })) ∧
    (s.power.stagger = [] → exec .staggerStart s = .next s) ∧
    (s.power.refresh = true → exec .hbmSelfRefreshExit s = .next (goActive { s with power := { s.power with refresh := false } })) ∧
    (s.power.refresh = false → exec .hbmSelfRefreshExit s = .next s)) ∧
  (∀ (k : Fin 18) (s u : State), u = modCoreP s k.val (fun c => { c with power := .run }) → (coreP s k.val).power = .waking →
    k.val ∉ s.power.stagger →
    (logicalOf u k.val = none → exec (.coreRunReady k) s = .next (tryMove u (dieOfPhys k.val))) ∧
    (∀ c, logicalOf u k.val = some c → exec (.coreRunReady k) s =
      .next (tryMove (kickStream (kickStream (kickStream u c 0) c 1) c 2) (dieOfPhys k.val))))

/-- Start-up, loss of power and the pins complete (R471 to R473, R527, R595 to R602, R611, R652, R653): a rise of power good resets and starts
the module, and its fall loses everything but flash, the island and the host; the root PLL's loss of lock and a start-up that takes too
long restart from step 3; the link comes up once step 7 has begun, and its first rise brings host-visible ready; the pins follow their
levels, and a removal request drains the device, at once or from host-visible ready. -/
def Obligations.StartupAndPinsComplete : Prop :=
  (∀ s : State,
    (s.power.good = true → exec .powerGoodRise s = .next s) ∧
    (s.power.good = false → ∀ u, u = setPg (powerOn s) true →
      exec .powerGoodRise s = .next (bootThree { u with power := { u.power with good := true } } u.sec.supNext)) ∧
    (s.power.good = true → s.ready = false → s.power.device ≠ .standby →
      exec .startupTimeout s = .next (bootThree (cleared s) (1 - s.sec.supSlot))) ∧
    (s.power.good = false ∨ s.ready = true ∨ s.power.device = .standby → exec .startupTimeout s = .next s) ∧
    (s.power.good = false → exec .powerFail s = .next s ∧ exec .thermalTrip s = .next s ∧ exec .pllLockLoss s = .next s) ∧
    (s.power.good = true → ∃ t, exec .powerFail s = .next t ∧ exec .thermalTrip s = .next t ∧ t.power.good = false ∧ t.ready = false ∧
      t.mem = [] ∧ t.cores = [] ∧ t.parts = [] ∧ t.pages = [] ∧ t.ctxs = [] ∧ t.eyelets = [] ∧ t.hostMem = s.hostMem ∧
      t.sec.sup = s.sec.sup ∧ t.sec.ctl = s.sec.ctl ∧ t.sec.cfgs = s.sec.cfgs ∧ t.mi.log = s.mi.log ∧ t.pins.modReady = false ∧
      t.pins.modPg = false ∧ (btnSrc (bittern t 0) 0 0x182).pend = true) ∧
    (s.power.good = true → s.power.device ≠ .standby → ∀ u, u = linkDownOp ((List.range 16).foldl unbindNow s) →
      exec .pllLockLoss s = .next (fireHub (bootThree (cleared u) u.sec.supNext) 0x185)) ∧
    (s.power.device ≠ .standby → exec .standbyWake s = .next s) ∧
    (s.power.device = .standby → ∀ c, c = cleared s → exec .standbyWake s = .next (bootSix { c with btn := s.btn, mgmtSeq := s.mgmtSeq, mgmtSess := s.mgmtSess, sec := { s.sec with akReady := false }, power := { c.power with bootStep := 5, ctlNext := some 0 } }))) ∧
  (∀ (x g : Bool) (s : State),
    (s.power.good = true → s.pins.ivtRst = true → 7 ≤ s.power.bootStep.toNat → s.power.device ≠ .standby →
      (s.ready = true → exec (.ivtuLinkUp x g) s = .next (linkUpOp s x g)) ∧
      (s.ready = false → s.power.bootStep.toNat = 7 → ∃ t, exec (.ivtuLinkUp x g) s = .next t ∧ t.ready = true ∧ t.sec.akReady = true ∧
        t.pins.modReady = true ∧ t.power.bootStep.toNat = 9 ∧ t.mem = s.mem)) ∧
    (s.power.good = false ∨ s.pins.ivtRst = false ∨ s.power.bootStep.toNat < 7 ∨ s.power.device = .standby →
      exec (.ivtuLinkUp x g) s = .next s) ∧
    (s.ivtu.up = false → exec .ivtuLinkDown s = .next s) ∧
    (s.ivtu.up = true → exec .ivtuLinkDown s = .next (fireHub (resetPages { s with ivtu := { s.ivtu with up := false, downs := s.ivtu.downs + 1, idLines := [], poolLines := [] } }) 0x100))) ∧
  (∀ (a b : Bool) (s : State),
    exec .pwrEnRise s = .next { s with pins := { s.pins with pwrEn := true } } ∧
    exec .pwrEnFall s = .next { s with pins := { s.pins with pwrEn := false }, work := s.work ++ [.run .powerFail, .run .miPowerFail] } ∧
    exec (.presenceChange a b) s = .next { s with pins := { s.pins with prsnt1 := a, prsnt2 := b } } ∧
    exec (.ivtRstN true) s = .next { s with pins := { s.pins with ivtRst := true } } ∧
    exec (.ivtRstN false) s = .next (resetPages (linkDownOp { s with pins := { s.pins with ivtRst := false } })) ∧
    exec (.removeReq false) s = .next { s with pins := { s.pins with removeReq := true } } ∧
    (s.pins.removeReq = false → exec (.removeReq true) s = .next { s with pins := { s.pins with removeReq := false } }) ∧
    (s.pins.removeReq = true → s.ready = true → exec (.removeReq true) s = .next (startDrain { s with pins := { s.pins with removeReq := false } } 30000)) ∧
    (s.pins.removeReq = true → s.ready = false →
      exec (.removeReq true) s = .next { s with pins := { s.pins with removeReq := false, removing := true } }))
end

