-- ==== Sys2Proof/Laws/State.lean ====
section
/-! SUPPORT. What each update of the state leaves alone: one lemma per field and update, so that no proof unfolds a record update. -/
namespace Sys2Proof.Machine

-- One theorem after another: many side by side reserve more memory than the check allows.
set_option Elab.async false

/-! ### setCoreP -/

@[simp] theorem setCoreP_pending (s : State) (p : Nat) (c : Core) : (setCoreP s p c).pending = s.pending := rfl
@[simp] theorem setCoreP_work (s : State) (p : Nat) (c : Core) : (setCoreP s p c).work = s.work := rfl
@[simp] theorem setCoreP_sent (s : State) (p : Nat) (c : Core) : (setCoreP s p c).sent = s.sent := rfl
@[simp] theorem setCoreP_freeIx (s : State) (p : Nat) (c : Core) : (setCoreP s p c).freeIx = s.freeIx := rfl
@[simp] theorem setCoreP_nextId (s : State) (p : Nat) (c : Core) : (setCoreP s p c).nextId = s.nextId := rfl
@[simp] theorem setCoreP_starting (s : State) (p : Nat) (c : Core) : (setCoreP s p c).starting = s.starting := rfl
@[simp] theorem setCoreP_waiting (s : State) (p : Nat) (c : Core) : (setCoreP s p c).waiting = s.waiting := rfl
@[simp] theorem setCoreP_dies (s : State) (p : Nat) (c : Core) : (setCoreP s p c).dies = s.dies := rfl
@[simp] theorem setCoreP_eyelets (s : State) (p : Nat) (c : Core) : (setCoreP s p c).eyelets = s.eyelets := rfl
@[simp] theorem setCoreP_laces (s : State) (p : Nat) (c : Core) : (setCoreP s p c).laces = s.laces := rfl
@[simp] theorem setCoreP_tallies (s : State) (p : Nat) (c : Core) : (setCoreP s p c).tallies = s.tallies := rfl
@[simp] theorem setCoreP_btn (s : State) (p : Nat) (c : Core) : (setCoreP s p c).btn = s.btn := rfl
@[simp] theorem setCoreP_pages (s : State) (p : Nat) (c : Core) : (setCoreP s p c).pages = s.pages := rfl
@[simp] theorem setCoreP_ctxs (s : State) (p : Nat) (c : Core) : (setCoreP s p c).ctxs = s.ctxs := rfl
@[simp] theorem setCoreP_parts (s : State) (p : Nat) (c : Core) : (setCoreP s p c).parts = s.parts := rfl
@[simp] theorem setCoreP_mgmtSeq (s : State) (p : Nat) (c : Core) : (setCoreP s p c).mgmtSeq = s.mgmtSeq := rfl
@[simp] theorem setCoreP_mgmtFwq (s : State) (p : Nat) (c : Core) : (setCoreP s p c).mgmtFwq = s.mgmtFwq := rfl
@[simp] theorem setCoreP_mgmtSess (s : State) (p : Nat) (c : Core) : (setCoreP s p c).mgmtSess = s.mgmtSess := rfl
@[simp] theorem setCoreP_mgmtCount (s : State) (p : Nat) (c : Core) : (setCoreP s p c).mgmtCount = s.mgmtCount := rfl
@[simp] theorem setCoreP_ivtu (s : State) (p : Nat) (c : Core) : (setCoreP s p c).ivtu = s.ivtu := rfl
@[simp] theorem setCoreP_mem (s : State) (p : Nat) (c : Core) : (setCoreP s p c).mem = s.mem := rfl
@[simp] theorem setCoreP_hostMem (s : State) (p : Nat) (c : Core) : (setCoreP s p c).hostMem = s.hostMem := rfl
@[simp] theorem setCoreP_used (s : State) (p : Nat) (c : Core) : (setCoreP s p c).used = s.used := rfl
@[simp] theorem setCoreP_poison (s : State) (p : Nat) (c : Core) : (setCoreP s p c).poison = s.poison := rfl
@[simp] theorem setCoreP_hbm (s : State) (p : Nat) (c : Core) : (setCoreP s p c).hbm = s.hbm := rfl
@[simp] theorem setCoreP_cxl (s : State) (p : Nat) (c : Core) : (setCoreP s p c).cxl = s.cxl := rfl
@[simp] theorem setCoreP_fab (s : State) (p : Nat) (c : Core) : (setCoreP s p c).fab = s.fab := rfl
@[simp] theorem setCoreP_devSeq (s : State) (p : Nat) (c : Core) : (setCoreP s p c).devSeq = s.devSeq := rfl
@[simp] theorem setCoreP_votes (s : State) (p : Nat) (c : Core) : (setCoreP s p c).votes = s.votes := rfl
@[simp] theorem setCoreP_sec (s : State) (p : Nat) (c : Core) : (setCoreP s p c).sec = s.sec := rfl
@[simp] theorem setCoreP_mi (s : State) (p : Nat) (c : Core) : (setCoreP s p c).mi = s.mi := rfl
@[simp] theorem setCoreP_relia (s : State) (p : Nat) (c : Core) : (setCoreP s p c).relia = s.relia := rfl
@[simp] theorem setCoreP_power (s : State) (p : Nat) (c : Core) : (setCoreP s p c).power = s.power := rfl
@[simp] theorem setCoreP_pins (s : State) (p : Nat) (c : Core) : (setCoreP s p c).pins = s.pins := rfl
@[simp] theorem setCoreP_ready (s : State) (p : Nat) (c : Core) : (setCoreP s p c).ready = s.ready := rfl

/-! ### modCoreP -/

@[simp] theorem modCoreP_pending (s : State) (p : Nat) (f : Core → Core) : (modCoreP s p f).pending = s.pending := rfl
@[simp] theorem modCoreP_work (s : State) (p : Nat) (f : Core → Core) : (modCoreP s p f).work = s.work := rfl
@[simp] theorem modCoreP_sent (s : State) (p : Nat) (f : Core → Core) : (modCoreP s p f).sent = s.sent := rfl
@[simp] theorem modCoreP_freeIx (s : State) (p : Nat) (f : Core → Core) : (modCoreP s p f).freeIx = s.freeIx := rfl
@[simp] theorem modCoreP_nextId (s : State) (p : Nat) (f : Core → Core) : (modCoreP s p f).nextId = s.nextId := rfl
@[simp] theorem modCoreP_starting (s : State) (p : Nat) (f : Core → Core) : (modCoreP s p f).starting = s.starting := rfl
@[simp] theorem modCoreP_waiting (s : State) (p : Nat) (f : Core → Core) : (modCoreP s p f).waiting = s.waiting := rfl
@[simp] theorem modCoreP_dies (s : State) (p : Nat) (f : Core → Core) : (modCoreP s p f).dies = s.dies := rfl
@[simp] theorem modCoreP_eyelets (s : State) (p : Nat) (f : Core → Core) : (modCoreP s p f).eyelets = s.eyelets := rfl
@[simp] theorem modCoreP_laces (s : State) (p : Nat) (f : Core → Core) : (modCoreP s p f).laces = s.laces := rfl
@[simp] theorem modCoreP_tallies (s : State) (p : Nat) (f : Core → Core) : (modCoreP s p f).tallies = s.tallies := rfl
@[simp] theorem modCoreP_btn (s : State) (p : Nat) (f : Core → Core) : (modCoreP s p f).btn = s.btn := rfl
@[simp] theorem modCoreP_pages (s : State) (p : Nat) (f : Core → Core) : (modCoreP s p f).pages = s.pages := rfl
@[simp] theorem modCoreP_ctxs (s : State) (p : Nat) (f : Core → Core) : (modCoreP s p f).ctxs = s.ctxs := rfl
@[simp] theorem modCoreP_parts (s : State) (p : Nat) (f : Core → Core) : (modCoreP s p f).parts = s.parts := rfl
@[simp] theorem modCoreP_mgmtSeq (s : State) (p : Nat) (f : Core → Core) : (modCoreP s p f).mgmtSeq = s.mgmtSeq := rfl
@[simp] theorem modCoreP_mgmtFwq (s : State) (p : Nat) (f : Core → Core) : (modCoreP s p f).mgmtFwq = s.mgmtFwq := rfl
@[simp] theorem modCoreP_mgmtSess (s : State) (p : Nat) (f : Core → Core) : (modCoreP s p f).mgmtSess = s.mgmtSess := rfl
@[simp] theorem modCoreP_mgmtCount (s : State) (p : Nat) (f : Core → Core) : (modCoreP s p f).mgmtCount = s.mgmtCount := rfl
@[simp] theorem modCoreP_ivtu (s : State) (p : Nat) (f : Core → Core) : (modCoreP s p f).ivtu = s.ivtu := rfl
@[simp] theorem modCoreP_mem (s : State) (p : Nat) (f : Core → Core) : (modCoreP s p f).mem = s.mem := rfl
@[simp] theorem modCoreP_hostMem (s : State) (p : Nat) (f : Core → Core) : (modCoreP s p f).hostMem = s.hostMem := rfl
@[simp] theorem modCoreP_used (s : State) (p : Nat) (f : Core → Core) : (modCoreP s p f).used = s.used := rfl
@[simp] theorem modCoreP_poison (s : State) (p : Nat) (f : Core → Core) : (modCoreP s p f).poison = s.poison := rfl
@[simp] theorem modCoreP_hbm (s : State) (p : Nat) (f : Core → Core) : (modCoreP s p f).hbm = s.hbm := rfl
@[simp] theorem modCoreP_cxl (s : State) (p : Nat) (f : Core → Core) : (modCoreP s p f).cxl = s.cxl := rfl
@[simp] theorem modCoreP_fab (s : State) (p : Nat) (f : Core → Core) : (modCoreP s p f).fab = s.fab := rfl
@[simp] theorem modCoreP_devSeq (s : State) (p : Nat) (f : Core → Core) : (modCoreP s p f).devSeq = s.devSeq := rfl
@[simp] theorem modCoreP_votes (s : State) (p : Nat) (f : Core → Core) : (modCoreP s p f).votes = s.votes := rfl
@[simp] theorem modCoreP_sec (s : State) (p : Nat) (f : Core → Core) : (modCoreP s p f).sec = s.sec := rfl
@[simp] theorem modCoreP_mi (s : State) (p : Nat) (f : Core → Core) : (modCoreP s p f).mi = s.mi := rfl
@[simp] theorem modCoreP_relia (s : State) (p : Nat) (f : Core → Core) : (modCoreP s p f).relia = s.relia := rfl
@[simp] theorem modCoreP_power (s : State) (p : Nat) (f : Core → Core) : (modCoreP s p f).power = s.power := rfl
@[simp] theorem modCoreP_pins (s : State) (p : Nat) (f : Core → Core) : (modCoreP s p f).pins = s.pins := rfl
@[simp] theorem modCoreP_ready (s : State) (p : Nat) (f : Core → Core) : (modCoreP s p f).ready = s.ready := rfl

/-! ### modCore -/

@[simp] theorem modCore_pending (s : State) (c : Nat) (f : Core → Core) : (modCore s c f).pending = s.pending := rfl
@[simp] theorem modCore_work (s : State) (c : Nat) (f : Core → Core) : (modCore s c f).work = s.work := rfl
@[simp] theorem modCore_sent (s : State) (c : Nat) (f : Core → Core) : (modCore s c f).sent = s.sent := rfl
@[simp] theorem modCore_freeIx (s : State) (c : Nat) (f : Core → Core) : (modCore s c f).freeIx = s.freeIx := rfl
@[simp] theorem modCore_nextId (s : State) (c : Nat) (f : Core → Core) : (modCore s c f).nextId = s.nextId := rfl
@[simp] theorem modCore_starting (s : State) (c : Nat) (f : Core → Core) : (modCore s c f).starting = s.starting := rfl
@[simp] theorem modCore_waiting (s : State) (c : Nat) (f : Core → Core) : (modCore s c f).waiting = s.waiting := rfl
@[simp] theorem modCore_dies (s : State) (c : Nat) (f : Core → Core) : (modCore s c f).dies = s.dies := rfl
@[simp] theorem modCore_eyelets (s : State) (c : Nat) (f : Core → Core) : (modCore s c f).eyelets = s.eyelets := rfl
@[simp] theorem modCore_laces (s : State) (c : Nat) (f : Core → Core) : (modCore s c f).laces = s.laces := rfl
@[simp] theorem modCore_tallies (s : State) (c : Nat) (f : Core → Core) : (modCore s c f).tallies = s.tallies := rfl
@[simp] theorem modCore_btn (s : State) (c : Nat) (f : Core → Core) : (modCore s c f).btn = s.btn := rfl
@[simp] theorem modCore_pages (s : State) (c : Nat) (f : Core → Core) : (modCore s c f).pages = s.pages := rfl
@[simp] theorem modCore_ctxs (s : State) (c : Nat) (f : Core → Core) : (modCore s c f).ctxs = s.ctxs := rfl
@[simp] theorem modCore_parts (s : State) (c : Nat) (f : Core → Core) : (modCore s c f).parts = s.parts := rfl
@[simp] theorem modCore_mgmtSeq (s : State) (c : Nat) (f : Core → Core) : (modCore s c f).mgmtSeq = s.mgmtSeq := rfl
@[simp] theorem modCore_mgmtFwq (s : State) (c : Nat) (f : Core → Core) : (modCore s c f).mgmtFwq = s.mgmtFwq := rfl
@[simp] theorem modCore_mgmtSess (s : State) (c : Nat) (f : Core → Core) : (modCore s c f).mgmtSess = s.mgmtSess := rfl
@[simp] theorem modCore_mgmtCount (s : State) (c : Nat) (f : Core → Core) : (modCore s c f).mgmtCount = s.mgmtCount := rfl
@[simp] theorem modCore_ivtu (s : State) (c : Nat) (f : Core → Core) : (modCore s c f).ivtu = s.ivtu := rfl
@[simp] theorem modCore_mem (s : State) (c : Nat) (f : Core → Core) : (modCore s c f).mem = s.mem := rfl
@[simp] theorem modCore_hostMem (s : State) (c : Nat) (f : Core → Core) : (modCore s c f).hostMem = s.hostMem := rfl
@[simp] theorem modCore_used (s : State) (c : Nat) (f : Core → Core) : (modCore s c f).used = s.used := rfl
@[simp] theorem modCore_poison (s : State) (c : Nat) (f : Core → Core) : (modCore s c f).poison = s.poison := rfl
@[simp] theorem modCore_hbm (s : State) (c : Nat) (f : Core → Core) : (modCore s c f).hbm = s.hbm := rfl
@[simp] theorem modCore_cxl (s : State) (c : Nat) (f : Core → Core) : (modCore s c f).cxl = s.cxl := rfl
@[simp] theorem modCore_fab (s : State) (c : Nat) (f : Core → Core) : (modCore s c f).fab = s.fab := rfl
@[simp] theorem modCore_devSeq (s : State) (c : Nat) (f : Core → Core) : (modCore s c f).devSeq = s.devSeq := rfl
@[simp] theorem modCore_votes (s : State) (c : Nat) (f : Core → Core) : (modCore s c f).votes = s.votes := rfl
@[simp] theorem modCore_sec (s : State) (c : Nat) (f : Core → Core) : (modCore s c f).sec = s.sec := rfl
@[simp] theorem modCore_mi (s : State) (c : Nat) (f : Core → Core) : (modCore s c f).mi = s.mi := rfl
@[simp] theorem modCore_relia (s : State) (c : Nat) (f : Core → Core) : (modCore s c f).relia = s.relia := rfl
@[simp] theorem modCore_power (s : State) (c : Nat) (f : Core → Core) : (modCore s c f).power = s.power := rfl
@[simp] theorem modCore_pins (s : State) (c : Nat) (f : Core → Core) : (modCore s c f).pins = s.pins := rfl
@[simp] theorem modCore_ready (s : State) (c : Nat) (f : Core → Core) : (modCore s c f).ready = s.ready := rfl

/-! ### modStream -/

@[simp] theorem modStream_pending (s : State) (c i : Nat) (f : Stream → Stream) : (modStream s c i f).pending = s.pending := rfl
@[simp] theorem modStream_work (s : State) (c i : Nat) (f : Stream → Stream) : (modStream s c i f).work = s.work := rfl
@[simp] theorem modStream_sent (s : State) (c i : Nat) (f : Stream → Stream) : (modStream s c i f).sent = s.sent := rfl
@[simp] theorem modStream_freeIx (s : State) (c i : Nat) (f : Stream → Stream) : (modStream s c i f).freeIx = s.freeIx := rfl
@[simp] theorem modStream_nextId (s : State) (c i : Nat) (f : Stream → Stream) : (modStream s c i f).nextId = s.nextId := rfl
@[simp] theorem modStream_starting (s : State) (c i : Nat) (f : Stream → Stream) : (modStream s c i f).starting = s.starting := rfl
@[simp] theorem modStream_waiting (s : State) (c i : Nat) (f : Stream → Stream) : (modStream s c i f).waiting = s.waiting := rfl
@[simp] theorem modStream_dies (s : State) (c i : Nat) (f : Stream → Stream) : (modStream s c i f).dies = s.dies := rfl
@[simp] theorem modStream_eyelets (s : State) (c i : Nat) (f : Stream → Stream) : (modStream s c i f).eyelets = s.eyelets := rfl
@[simp] theorem modStream_laces (s : State) (c i : Nat) (f : Stream → Stream) : (modStream s c i f).laces = s.laces := rfl
@[simp] theorem modStream_tallies (s : State) (c i : Nat) (f : Stream → Stream) : (modStream s c i f).tallies = s.tallies := rfl
@[simp] theorem modStream_btn (s : State) (c i : Nat) (f : Stream → Stream) : (modStream s c i f).btn = s.btn := rfl
@[simp] theorem modStream_pages (s : State) (c i : Nat) (f : Stream → Stream) : (modStream s c i f).pages = s.pages := rfl
@[simp] theorem modStream_ctxs (s : State) (c i : Nat) (f : Stream → Stream) : (modStream s c i f).ctxs = s.ctxs := rfl
@[simp] theorem modStream_parts (s : State) (c i : Nat) (f : Stream → Stream) : (modStream s c i f).parts = s.parts := rfl
@[simp] theorem modStream_mgmtSeq (s : State) (c i : Nat) (f : Stream → Stream) : (modStream s c i f).mgmtSeq = s.mgmtSeq := rfl
@[simp] theorem modStream_mgmtFwq (s : State) (c i : Nat) (f : Stream → Stream) : (modStream s c i f).mgmtFwq = s.mgmtFwq := rfl
@[simp] theorem modStream_mgmtSess (s : State) (c i : Nat) (f : Stream → Stream) : (modStream s c i f).mgmtSess = s.mgmtSess := rfl
@[simp] theorem modStream_mgmtCount (s : State) (c i : Nat) (f : Stream → Stream) : (modStream s c i f).mgmtCount = s.mgmtCount := rfl
@[simp] theorem modStream_ivtu (s : State) (c i : Nat) (f : Stream → Stream) : (modStream s c i f).ivtu = s.ivtu := rfl
@[simp] theorem modStream_mem (s : State) (c i : Nat) (f : Stream → Stream) : (modStream s c i f).mem = s.mem := rfl
@[simp] theorem modStream_hostMem (s : State) (c i : Nat) (f : Stream → Stream) : (modStream s c i f).hostMem = s.hostMem := rfl
@[simp] theorem modStream_used (s : State) (c i : Nat) (f : Stream → Stream) : (modStream s c i f).used = s.used := rfl
@[simp] theorem modStream_poison (s : State) (c i : Nat) (f : Stream → Stream) : (modStream s c i f).poison = s.poison := rfl
@[simp] theorem modStream_hbm (s : State) (c i : Nat) (f : Stream → Stream) : (modStream s c i f).hbm = s.hbm := rfl
@[simp] theorem modStream_cxl (s : State) (c i : Nat) (f : Stream → Stream) : (modStream s c i f).cxl = s.cxl := rfl
@[simp] theorem modStream_fab (s : State) (c i : Nat) (f : Stream → Stream) : (modStream s c i f).fab = s.fab := rfl
@[simp] theorem modStream_devSeq (s : State) (c i : Nat) (f : Stream → Stream) : (modStream s c i f).devSeq = s.devSeq := rfl
@[simp] theorem modStream_votes (s : State) (c i : Nat) (f : Stream → Stream) : (modStream s c i f).votes = s.votes := rfl
@[simp] theorem modStream_sec (s : State) (c i : Nat) (f : Stream → Stream) : (modStream s c i f).sec = s.sec := rfl
@[simp] theorem modStream_mi (s : State) (c i : Nat) (f : Stream → Stream) : (modStream s c i f).mi = s.mi := rfl
@[simp] theorem modStream_relia (s : State) (c i : Nat) (f : Stream → Stream) : (modStream s c i f).relia = s.relia := rfl
@[simp] theorem modStream_power (s : State) (c i : Nat) (f : Stream → Stream) : (modStream s c i f).power = s.power := rfl
@[simp] theorem modStream_pins (s : State) (c i : Nat) (f : Stream → Stream) : (modStream s c i f).pins = s.pins := rfl
@[simp] theorem modStream_ready (s : State) (c i : Nat) (f : Stream → Stream) : (modStream s c i f).ready = s.ready := rfl

/-! ### modAwl -/

@[simp] theorem modAwl_pending (s : State) (c a : Nat) (f : Awl → Awl) : (modAwl s c a f).pending = s.pending := rfl
@[simp] theorem modAwl_work (s : State) (c a : Nat) (f : Awl → Awl) : (modAwl s c a f).work = s.work := rfl
@[simp] theorem modAwl_sent (s : State) (c a : Nat) (f : Awl → Awl) : (modAwl s c a f).sent = s.sent := rfl
@[simp] theorem modAwl_freeIx (s : State) (c a : Nat) (f : Awl → Awl) : (modAwl s c a f).freeIx = s.freeIx := rfl
@[simp] theorem modAwl_nextId (s : State) (c a : Nat) (f : Awl → Awl) : (modAwl s c a f).nextId = s.nextId := rfl
@[simp] theorem modAwl_starting (s : State) (c a : Nat) (f : Awl → Awl) : (modAwl s c a f).starting = s.starting := rfl
@[simp] theorem modAwl_waiting (s : State) (c a : Nat) (f : Awl → Awl) : (modAwl s c a f).waiting = s.waiting := rfl
@[simp] theorem modAwl_dies (s : State) (c a : Nat) (f : Awl → Awl) : (modAwl s c a f).dies = s.dies := rfl
@[simp] theorem modAwl_eyelets (s : State) (c a : Nat) (f : Awl → Awl) : (modAwl s c a f).eyelets = s.eyelets := rfl
@[simp] theorem modAwl_laces (s : State) (c a : Nat) (f : Awl → Awl) : (modAwl s c a f).laces = s.laces := rfl
@[simp] theorem modAwl_tallies (s : State) (c a : Nat) (f : Awl → Awl) : (modAwl s c a f).tallies = s.tallies := rfl
@[simp] theorem modAwl_btn (s : State) (c a : Nat) (f : Awl → Awl) : (modAwl s c a f).btn = s.btn := rfl
@[simp] theorem modAwl_pages (s : State) (c a : Nat) (f : Awl → Awl) : (modAwl s c a f).pages = s.pages := rfl
@[simp] theorem modAwl_ctxs (s : State) (c a : Nat) (f : Awl → Awl) : (modAwl s c a f).ctxs = s.ctxs := rfl
@[simp] theorem modAwl_parts (s : State) (c a : Nat) (f : Awl → Awl) : (modAwl s c a f).parts = s.parts := rfl
@[simp] theorem modAwl_mgmtSeq (s : State) (c a : Nat) (f : Awl → Awl) : (modAwl s c a f).mgmtSeq = s.mgmtSeq := rfl
@[simp] theorem modAwl_mgmtFwq (s : State) (c a : Nat) (f : Awl → Awl) : (modAwl s c a f).mgmtFwq = s.mgmtFwq := rfl
@[simp] theorem modAwl_mgmtSess (s : State) (c a : Nat) (f : Awl → Awl) : (modAwl s c a f).mgmtSess = s.mgmtSess := rfl
@[simp] theorem modAwl_mgmtCount (s : State) (c a : Nat) (f : Awl → Awl) : (modAwl s c a f).mgmtCount = s.mgmtCount := rfl
@[simp] theorem modAwl_ivtu (s : State) (c a : Nat) (f : Awl → Awl) : (modAwl s c a f).ivtu = s.ivtu := rfl
@[simp] theorem modAwl_mem (s : State) (c a : Nat) (f : Awl → Awl) : (modAwl s c a f).mem = s.mem := rfl
@[simp] theorem modAwl_hostMem (s : State) (c a : Nat) (f : Awl → Awl) : (modAwl s c a f).hostMem = s.hostMem := rfl
@[simp] theorem modAwl_used (s : State) (c a : Nat) (f : Awl → Awl) : (modAwl s c a f).used = s.used := rfl
@[simp] theorem modAwl_poison (s : State) (c a : Nat) (f : Awl → Awl) : (modAwl s c a f).poison = s.poison := rfl
@[simp] theorem modAwl_hbm (s : State) (c a : Nat) (f : Awl → Awl) : (modAwl s c a f).hbm = s.hbm := rfl
@[simp] theorem modAwl_cxl (s : State) (c a : Nat) (f : Awl → Awl) : (modAwl s c a f).cxl = s.cxl := rfl
@[simp] theorem modAwl_fab (s : State) (c a : Nat) (f : Awl → Awl) : (modAwl s c a f).fab = s.fab := rfl
@[simp] theorem modAwl_devSeq (s : State) (c a : Nat) (f : Awl → Awl) : (modAwl s c a f).devSeq = s.devSeq := rfl
@[simp] theorem modAwl_votes (s : State) (c a : Nat) (f : Awl → Awl) : (modAwl s c a f).votes = s.votes := rfl
@[simp] theorem modAwl_sec (s : State) (c a : Nat) (f : Awl → Awl) : (modAwl s c a f).sec = s.sec := rfl
@[simp] theorem modAwl_mi (s : State) (c a : Nat) (f : Awl → Awl) : (modAwl s c a f).mi = s.mi := rfl
@[simp] theorem modAwl_relia (s : State) (c a : Nat) (f : Awl → Awl) : (modAwl s c a f).relia = s.relia := rfl
@[simp] theorem modAwl_power (s : State) (c a : Nat) (f : Awl → Awl) : (modAwl s c a f).power = s.power := rfl
@[simp] theorem modAwl_pins (s : State) (c a : Nat) (f : Awl → Awl) : (modAwl s c a f).pins = s.pins := rfl
@[simp] theorem modAwl_ready (s : State) (c a : Nat) (f : Awl → Awl) : (modAwl s c a f).ready = s.ready := rfl

/-! ### setDie -/

@[simp] theorem setDie_pending (s : State) (d : Nat) (x : Die) : (setDie s d x).pending = s.pending := rfl
@[simp] theorem setDie_work (s : State) (d : Nat) (x : Die) : (setDie s d x).work = s.work := rfl
@[simp] theorem setDie_sent (s : State) (d : Nat) (x : Die) : (setDie s d x).sent = s.sent := rfl
@[simp] theorem setDie_freeIx (s : State) (d : Nat) (x : Die) : (setDie s d x).freeIx = s.freeIx := rfl
@[simp] theorem setDie_nextId (s : State) (d : Nat) (x : Die) : (setDie s d x).nextId = s.nextId := rfl
@[simp] theorem setDie_starting (s : State) (d : Nat) (x : Die) : (setDie s d x).starting = s.starting := rfl
@[simp] theorem setDie_waiting (s : State) (d : Nat) (x : Die) : (setDie s d x).waiting = s.waiting := rfl
@[simp] theorem setDie_cores (s : State) (d : Nat) (x : Die) : (setDie s d x).cores = s.cores := rfl
@[simp] theorem setDie_eyelets (s : State) (d : Nat) (x : Die) : (setDie s d x).eyelets = s.eyelets := rfl
@[simp] theorem setDie_laces (s : State) (d : Nat) (x : Die) : (setDie s d x).laces = s.laces := rfl
@[simp] theorem setDie_tallies (s : State) (d : Nat) (x : Die) : (setDie s d x).tallies = s.tallies := rfl
@[simp] theorem setDie_btn (s : State) (d : Nat) (x : Die) : (setDie s d x).btn = s.btn := rfl
@[simp] theorem setDie_pages (s : State) (d : Nat) (x : Die) : (setDie s d x).pages = s.pages := rfl
@[simp] theorem setDie_ctxs (s : State) (d : Nat) (x : Die) : (setDie s d x).ctxs = s.ctxs := rfl
@[simp] theorem setDie_parts (s : State) (d : Nat) (x : Die) : (setDie s d x).parts = s.parts := rfl
@[simp] theorem setDie_mgmtSeq (s : State) (d : Nat) (x : Die) : (setDie s d x).mgmtSeq = s.mgmtSeq := rfl
@[simp] theorem setDie_mgmtFwq (s : State) (d : Nat) (x : Die) : (setDie s d x).mgmtFwq = s.mgmtFwq := rfl
@[simp] theorem setDie_mgmtSess (s : State) (d : Nat) (x : Die) : (setDie s d x).mgmtSess = s.mgmtSess := rfl
@[simp] theorem setDie_mgmtCount (s : State) (d : Nat) (x : Die) : (setDie s d x).mgmtCount = s.mgmtCount := rfl
@[simp] theorem setDie_ivtu (s : State) (d : Nat) (x : Die) : (setDie s d x).ivtu = s.ivtu := rfl
@[simp] theorem setDie_mem (s : State) (d : Nat) (x : Die) : (setDie s d x).mem = s.mem := rfl
@[simp] theorem setDie_hostMem (s : State) (d : Nat) (x : Die) : (setDie s d x).hostMem = s.hostMem := rfl
@[simp] theorem setDie_used (s : State) (d : Nat) (x : Die) : (setDie s d x).used = s.used := rfl
@[simp] theorem setDie_poison (s : State) (d : Nat) (x : Die) : (setDie s d x).poison = s.poison := rfl
@[simp] theorem setDie_hbm (s : State) (d : Nat) (x : Die) : (setDie s d x).hbm = s.hbm := rfl
@[simp] theorem setDie_cxl (s : State) (d : Nat) (x : Die) : (setDie s d x).cxl = s.cxl := rfl
@[simp] theorem setDie_fab (s : State) (d : Nat) (x : Die) : (setDie s d x).fab = s.fab := rfl
@[simp] theorem setDie_devSeq (s : State) (d : Nat) (x : Die) : (setDie s d x).devSeq = s.devSeq := rfl
@[simp] theorem setDie_votes (s : State) (d : Nat) (x : Die) : (setDie s d x).votes = s.votes := rfl
@[simp] theorem setDie_sec (s : State) (d : Nat) (x : Die) : (setDie s d x).sec = s.sec := rfl
@[simp] theorem setDie_mi (s : State) (d : Nat) (x : Die) : (setDie s d x).mi = s.mi := rfl
@[simp] theorem setDie_relia (s : State) (d : Nat) (x : Die) : (setDie s d x).relia = s.relia := rfl
@[simp] theorem setDie_power (s : State) (d : Nat) (x : Die) : (setDie s d x).power = s.power := rfl
@[simp] theorem setDie_pins (s : State) (d : Nat) (x : Die) : (setDie s d x).pins = s.pins := rfl
@[simp] theorem setDie_ready (s : State) (d : Nat) (x : Die) : (setDie s d x).ready = s.ready := rfl

/-! ### modDie -/

@[simp] theorem modDie_pending (s : State) (d : Nat) (f : Die → Die) : (modDie s d f).pending = s.pending := rfl
@[simp] theorem modDie_work (s : State) (d : Nat) (f : Die → Die) : (modDie s d f).work = s.work := rfl
@[simp] theorem modDie_sent (s : State) (d : Nat) (f : Die → Die) : (modDie s d f).sent = s.sent := rfl
@[simp] theorem modDie_freeIx (s : State) (d : Nat) (f : Die → Die) : (modDie s d f).freeIx = s.freeIx := rfl
@[simp] theorem modDie_nextId (s : State) (d : Nat) (f : Die → Die) : (modDie s d f).nextId = s.nextId := rfl
@[simp] theorem modDie_starting (s : State) (d : Nat) (f : Die → Die) : (modDie s d f).starting = s.starting := rfl
@[simp] theorem modDie_waiting (s : State) (d : Nat) (f : Die → Die) : (modDie s d f).waiting = s.waiting := rfl
@[simp] theorem modDie_cores (s : State) (d : Nat) (f : Die → Die) : (modDie s d f).cores = s.cores := rfl
@[simp] theorem modDie_eyelets (s : State) (d : Nat) (f : Die → Die) : (modDie s d f).eyelets = s.eyelets := rfl
@[simp] theorem modDie_laces (s : State) (d : Nat) (f : Die → Die) : (modDie s d f).laces = s.laces := rfl
@[simp] theorem modDie_tallies (s : State) (d : Nat) (f : Die → Die) : (modDie s d f).tallies = s.tallies := rfl
@[simp] theorem modDie_btn (s : State) (d : Nat) (f : Die → Die) : (modDie s d f).btn = s.btn := rfl
@[simp] theorem modDie_pages (s : State) (d : Nat) (f : Die → Die) : (modDie s d f).pages = s.pages := rfl
@[simp] theorem modDie_ctxs (s : State) (d : Nat) (f : Die → Die) : (modDie s d f).ctxs = s.ctxs := rfl
@[simp] theorem modDie_parts (s : State) (d : Nat) (f : Die → Die) : (modDie s d f).parts = s.parts := rfl
@[simp] theorem modDie_mgmtSeq (s : State) (d : Nat) (f : Die → Die) : (modDie s d f).mgmtSeq = s.mgmtSeq := rfl
@[simp] theorem modDie_mgmtFwq (s : State) (d : Nat) (f : Die → Die) : (modDie s d f).mgmtFwq = s.mgmtFwq := rfl
@[simp] theorem modDie_mgmtSess (s : State) (d : Nat) (f : Die → Die) : (modDie s d f).mgmtSess = s.mgmtSess := rfl
@[simp] theorem modDie_mgmtCount (s : State) (d : Nat) (f : Die → Die) : (modDie s d f).mgmtCount = s.mgmtCount := rfl
@[simp] theorem modDie_ivtu (s : State) (d : Nat) (f : Die → Die) : (modDie s d f).ivtu = s.ivtu := rfl
@[simp] theorem modDie_mem (s : State) (d : Nat) (f : Die → Die) : (modDie s d f).mem = s.mem := rfl
@[simp] theorem modDie_hostMem (s : State) (d : Nat) (f : Die → Die) : (modDie s d f).hostMem = s.hostMem := rfl
@[simp] theorem modDie_used (s : State) (d : Nat) (f : Die → Die) : (modDie s d f).used = s.used := rfl
@[simp] theorem modDie_poison (s : State) (d : Nat) (f : Die → Die) : (modDie s d f).poison = s.poison := rfl
@[simp] theorem modDie_hbm (s : State) (d : Nat) (f : Die → Die) : (modDie s d f).hbm = s.hbm := rfl
@[simp] theorem modDie_cxl (s : State) (d : Nat) (f : Die → Die) : (modDie s d f).cxl = s.cxl := rfl
@[simp] theorem modDie_fab (s : State) (d : Nat) (f : Die → Die) : (modDie s d f).fab = s.fab := rfl
@[simp] theorem modDie_devSeq (s : State) (d : Nat) (f : Die → Die) : (modDie s d f).devSeq = s.devSeq := rfl
@[simp] theorem modDie_votes (s : State) (d : Nat) (f : Die → Die) : (modDie s d f).votes = s.votes := rfl
@[simp] theorem modDie_sec (s : State) (d : Nat) (f : Die → Die) : (modDie s d f).sec = s.sec := rfl
@[simp] theorem modDie_mi (s : State) (d : Nat) (f : Die → Die) : (modDie s d f).mi = s.mi := rfl
@[simp] theorem modDie_relia (s : State) (d : Nat) (f : Die → Die) : (modDie s d f).relia = s.relia := rfl
@[simp] theorem modDie_power (s : State) (d : Nat) (f : Die → Die) : (modDie s d f).power = s.power := rfl
@[simp] theorem modDie_pins (s : State) (d : Nat) (f : Die → Die) : (modDie s d f).pins = s.pins := rfl
@[simp] theorem modDie_ready (s : State) (d : Nat) (f : Die → Die) : (modDie s d f).ready = s.ready := rfl

/-! ### setCoreState -/

@[simp] theorem setCoreState_pending (s : State) (p v : Nat) : (setCoreState s p v).pending = s.pending := rfl
@[simp] theorem setCoreState_work (s : State) (p v : Nat) : (setCoreState s p v).work = s.work := rfl
@[simp] theorem setCoreState_sent (s : State) (p v : Nat) : (setCoreState s p v).sent = s.sent := rfl
@[simp] theorem setCoreState_freeIx (s : State) (p v : Nat) : (setCoreState s p v).freeIx = s.freeIx := rfl
@[simp] theorem setCoreState_nextId (s : State) (p v : Nat) : (setCoreState s p v).nextId = s.nextId := rfl
@[simp] theorem setCoreState_starting (s : State) (p v : Nat) : (setCoreState s p v).starting = s.starting := rfl
@[simp] theorem setCoreState_waiting (s : State) (p v : Nat) : (setCoreState s p v).waiting = s.waiting := rfl
@[simp] theorem setCoreState_cores (s : State) (p v : Nat) : (setCoreState s p v).cores = s.cores := rfl
@[simp] theorem setCoreState_eyelets (s : State) (p v : Nat) : (setCoreState s p v).eyelets = s.eyelets := rfl
@[simp] theorem setCoreState_laces (s : State) (p v : Nat) : (setCoreState s p v).laces = s.laces := rfl
@[simp] theorem setCoreState_tallies (s : State) (p v : Nat) : (setCoreState s p v).tallies = s.tallies := rfl
@[simp] theorem setCoreState_btn (s : State) (p v : Nat) : (setCoreState s p v).btn = s.btn := rfl
@[simp] theorem setCoreState_pages (s : State) (p v : Nat) : (setCoreState s p v).pages = s.pages := rfl
@[simp] theorem setCoreState_ctxs (s : State) (p v : Nat) : (setCoreState s p v).ctxs = s.ctxs := rfl
@[simp] theorem setCoreState_parts (s : State) (p v : Nat) : (setCoreState s p v).parts = s.parts := rfl
@[simp] theorem setCoreState_mgmtSeq (s : State) (p v : Nat) : (setCoreState s p v).mgmtSeq = s.mgmtSeq := rfl
@[simp] theorem setCoreState_mgmtFwq (s : State) (p v : Nat) : (setCoreState s p v).mgmtFwq = s.mgmtFwq := rfl
@[simp] theorem setCoreState_mgmtSess (s : State) (p v : Nat) : (setCoreState s p v).mgmtSess = s.mgmtSess := rfl
@[simp] theorem setCoreState_mgmtCount (s : State) (p v : Nat) : (setCoreState s p v).mgmtCount = s.mgmtCount := rfl
@[simp] theorem setCoreState_ivtu (s : State) (p v : Nat) : (setCoreState s p v).ivtu = s.ivtu := rfl
@[simp] theorem setCoreState_mem (s : State) (p v : Nat) : (setCoreState s p v).mem = s.mem := rfl
@[simp] theorem setCoreState_hostMem (s : State) (p v : Nat) : (setCoreState s p v).hostMem = s.hostMem := rfl
@[simp] theorem setCoreState_used (s : State) (p v : Nat) : (setCoreState s p v).used = s.used := rfl
@[simp] theorem setCoreState_poison (s : State) (p v : Nat) : (setCoreState s p v).poison = s.poison := rfl
@[simp] theorem setCoreState_hbm (s : State) (p v : Nat) : (setCoreState s p v).hbm = s.hbm := rfl
@[simp] theorem setCoreState_cxl (s : State) (p v : Nat) : (setCoreState s p v).cxl = s.cxl := rfl
@[simp] theorem setCoreState_fab (s : State) (p v : Nat) : (setCoreState s p v).fab = s.fab := rfl
@[simp] theorem setCoreState_devSeq (s : State) (p v : Nat) : (setCoreState s p v).devSeq = s.devSeq := rfl
@[simp] theorem setCoreState_votes (s : State) (p v : Nat) : (setCoreState s p v).votes = s.votes := rfl
@[simp] theorem setCoreState_sec (s : State) (p v : Nat) : (setCoreState s p v).sec = s.sec := rfl
@[simp] theorem setCoreState_mi (s : State) (p v : Nat) : (setCoreState s p v).mi = s.mi := rfl
@[simp] theorem setCoreState_relia (s : State) (p v : Nat) : (setCoreState s p v).relia = s.relia := rfl
@[simp] theorem setCoreState_power (s : State) (p v : Nat) : (setCoreState s p v).power = s.power := rfl
@[simp] theorem setCoreState_pins (s : State) (p v : Nat) : (setCoreState s p v).pins = s.pins := rfl
@[simp] theorem setCoreState_ready (s : State) (p v : Nat) : (setCoreState s p v).ready = s.ready := rfl

/-! ### setMapByte -/

@[simp] theorem setMapByte_pending (s : State) (c v : Nat) : (setMapByte s c v).pending = s.pending := rfl
@[simp] theorem setMapByte_work (s : State) (c v : Nat) : (setMapByte s c v).work = s.work := rfl
@[simp] theorem setMapByte_sent (s : State) (c v : Nat) : (setMapByte s c v).sent = s.sent := rfl
@[simp] theorem setMapByte_freeIx (s : State) (c v : Nat) : (setMapByte s c v).freeIx = s.freeIx := rfl
@[simp] theorem setMapByte_nextId (s : State) (c v : Nat) : (setMapByte s c v).nextId = s.nextId := rfl
@[simp] theorem setMapByte_starting (s : State) (c v : Nat) : (setMapByte s c v).starting = s.starting := rfl
@[simp] theorem setMapByte_waiting (s : State) (c v : Nat) : (setMapByte s c v).waiting = s.waiting := rfl
@[simp] theorem setMapByte_cores (s : State) (c v : Nat) : (setMapByte s c v).cores = s.cores := rfl
@[simp] theorem setMapByte_eyelets (s : State) (c v : Nat) : (setMapByte s c v).eyelets = s.eyelets := rfl
@[simp] theorem setMapByte_laces (s : State) (c v : Nat) : (setMapByte s c v).laces = s.laces := rfl
@[simp] theorem setMapByte_tallies (s : State) (c v : Nat) : (setMapByte s c v).tallies = s.tallies := rfl
@[simp] theorem setMapByte_btn (s : State) (c v : Nat) : (setMapByte s c v).btn = s.btn := rfl
@[simp] theorem setMapByte_pages (s : State) (c v : Nat) : (setMapByte s c v).pages = s.pages := rfl
@[simp] theorem setMapByte_ctxs (s : State) (c v : Nat) : (setMapByte s c v).ctxs = s.ctxs := rfl
@[simp] theorem setMapByte_parts (s : State) (c v : Nat) : (setMapByte s c v).parts = s.parts := rfl
@[simp] theorem setMapByte_mgmtSeq (s : State) (c v : Nat) : (setMapByte s c v).mgmtSeq = s.mgmtSeq := rfl
@[simp] theorem setMapByte_mgmtFwq (s : State) (c v : Nat) : (setMapByte s c v).mgmtFwq = s.mgmtFwq := rfl
@[simp] theorem setMapByte_mgmtSess (s : State) (c v : Nat) : (setMapByte s c v).mgmtSess = s.mgmtSess := rfl
@[simp] theorem setMapByte_mgmtCount (s : State) (c v : Nat) : (setMapByte s c v).mgmtCount = s.mgmtCount := rfl
@[simp] theorem setMapByte_ivtu (s : State) (c v : Nat) : (setMapByte s c v).ivtu = s.ivtu := rfl
@[simp] theorem setMapByte_mem (s : State) (c v : Nat) : (setMapByte s c v).mem = s.mem := rfl
@[simp] theorem setMapByte_hostMem (s : State) (c v : Nat) : (setMapByte s c v).hostMem = s.hostMem := rfl
@[simp] theorem setMapByte_used (s : State) (c v : Nat) : (setMapByte s c v).used = s.used := rfl
@[simp] theorem setMapByte_poison (s : State) (c v : Nat) : (setMapByte s c v).poison = s.poison := rfl
@[simp] theorem setMapByte_hbm (s : State) (c v : Nat) : (setMapByte s c v).hbm = s.hbm := rfl
@[simp] theorem setMapByte_cxl (s : State) (c v : Nat) : (setMapByte s c v).cxl = s.cxl := rfl
@[simp] theorem setMapByte_fab (s : State) (c v : Nat) : (setMapByte s c v).fab = s.fab := rfl
@[simp] theorem setMapByte_devSeq (s : State) (c v : Nat) : (setMapByte s c v).devSeq = s.devSeq := rfl
@[simp] theorem setMapByte_votes (s : State) (c v : Nat) : (setMapByte s c v).votes = s.votes := rfl
@[simp] theorem setMapByte_sec (s : State) (c v : Nat) : (setMapByte s c v).sec = s.sec := rfl
@[simp] theorem setMapByte_mi (s : State) (c v : Nat) : (setMapByte s c v).mi = s.mi := rfl
@[simp] theorem setMapByte_relia (s : State) (c v : Nat) : (setMapByte s c v).relia = s.relia := rfl
@[simp] theorem setMapByte_power (s : State) (c v : Nat) : (setMapByte s c v).power = s.power := rfl
@[simp] theorem setMapByte_pins (s : State) (c v : Nat) : (setMapByte s c v).pins = s.pins := rfl
@[simp] theorem setMapByte_ready (s : State) (c v : Nat) : (setMapByte s c v).ready = s.ready := rfl

/-! ### setEyelet -/

@[simp] theorem setEyelet_pending (s : State) (e : Nat) (x : Eyelet) : (setEyelet s e x).pending = s.pending := rfl
@[simp] theorem setEyelet_work (s : State) (e : Nat) (x : Eyelet) : (setEyelet s e x).work = s.work := rfl
@[simp] theorem setEyelet_sent (s : State) (e : Nat) (x : Eyelet) : (setEyelet s e x).sent = s.sent := rfl
@[simp] theorem setEyelet_freeIx (s : State) (e : Nat) (x : Eyelet) : (setEyelet s e x).freeIx = s.freeIx := rfl
@[simp] theorem setEyelet_nextId (s : State) (e : Nat) (x : Eyelet) : (setEyelet s e x).nextId = s.nextId := rfl
@[simp] theorem setEyelet_starting (s : State) (e : Nat) (x : Eyelet) : (setEyelet s e x).starting = s.starting := rfl
@[simp] theorem setEyelet_waiting (s : State) (e : Nat) (x : Eyelet) : (setEyelet s e x).waiting = s.waiting := rfl
@[simp] theorem setEyelet_cores (s : State) (e : Nat) (x : Eyelet) : (setEyelet s e x).cores = s.cores := rfl
@[simp] theorem setEyelet_dies (s : State) (e : Nat) (x : Eyelet) : (setEyelet s e x).dies = s.dies := rfl
@[simp] theorem setEyelet_laces (s : State) (e : Nat) (x : Eyelet) : (setEyelet s e x).laces = s.laces := rfl
@[simp] theorem setEyelet_tallies (s : State) (e : Nat) (x : Eyelet) : (setEyelet s e x).tallies = s.tallies := rfl
@[simp] theorem setEyelet_btn (s : State) (e : Nat) (x : Eyelet) : (setEyelet s e x).btn = s.btn := rfl
@[simp] theorem setEyelet_pages (s : State) (e : Nat) (x : Eyelet) : (setEyelet s e x).pages = s.pages := rfl
@[simp] theorem setEyelet_ctxs (s : State) (e : Nat) (x : Eyelet) : (setEyelet s e x).ctxs = s.ctxs := rfl
@[simp] theorem setEyelet_parts (s : State) (e : Nat) (x : Eyelet) : (setEyelet s e x).parts = s.parts := rfl
@[simp] theorem setEyelet_mgmtSeq (s : State) (e : Nat) (x : Eyelet) : (setEyelet s e x).mgmtSeq = s.mgmtSeq := rfl
@[simp] theorem setEyelet_mgmtFwq (s : State) (e : Nat) (x : Eyelet) : (setEyelet s e x).mgmtFwq = s.mgmtFwq := rfl
@[simp] theorem setEyelet_mgmtSess (s : State) (e : Nat) (x : Eyelet) : (setEyelet s e x).mgmtSess = s.mgmtSess := rfl
@[simp] theorem setEyelet_mgmtCount (s : State) (e : Nat) (x : Eyelet) : (setEyelet s e x).mgmtCount = s.mgmtCount := rfl
@[simp] theorem setEyelet_ivtu (s : State) (e : Nat) (x : Eyelet) : (setEyelet s e x).ivtu = s.ivtu := rfl
@[simp] theorem setEyelet_mem (s : State) (e : Nat) (x : Eyelet) : (setEyelet s e x).mem = s.mem := rfl
@[simp] theorem setEyelet_hostMem (s : State) (e : Nat) (x : Eyelet) : (setEyelet s e x).hostMem = s.hostMem := rfl
@[simp] theorem setEyelet_used (s : State) (e : Nat) (x : Eyelet) : (setEyelet s e x).used = s.used := rfl
@[simp] theorem setEyelet_poison (s : State) (e : Nat) (x : Eyelet) : (setEyelet s e x).poison = s.poison := rfl
@[simp] theorem setEyelet_hbm (s : State) (e : Nat) (x : Eyelet) : (setEyelet s e x).hbm = s.hbm := rfl
@[simp] theorem setEyelet_cxl (s : State) (e : Nat) (x : Eyelet) : (setEyelet s e x).cxl = s.cxl := rfl
@[simp] theorem setEyelet_fab (s : State) (e : Nat) (x : Eyelet) : (setEyelet s e x).fab = s.fab := rfl
@[simp] theorem setEyelet_devSeq (s : State) (e : Nat) (x : Eyelet) : (setEyelet s e x).devSeq = s.devSeq := rfl
@[simp] theorem setEyelet_votes (s : State) (e : Nat) (x : Eyelet) : (setEyelet s e x).votes = s.votes := rfl
@[simp] theorem setEyelet_sec (s : State) (e : Nat) (x : Eyelet) : (setEyelet s e x).sec = s.sec := rfl
@[simp] theorem setEyelet_mi (s : State) (e : Nat) (x : Eyelet) : (setEyelet s e x).mi = s.mi := rfl
@[simp] theorem setEyelet_relia (s : State) (e : Nat) (x : Eyelet) : (setEyelet s e x).relia = s.relia := rfl
@[simp] theorem setEyelet_power (s : State) (e : Nat) (x : Eyelet) : (setEyelet s e x).power = s.power := rfl
@[simp] theorem setEyelet_pins (s : State) (e : Nat) (x : Eyelet) : (setEyelet s e x).pins = s.pins := rfl
@[simp] theorem setEyelet_ready (s : State) (e : Nat) (x : Eyelet) : (setEyelet s e x).ready = s.ready := rfl

/-! ### setLace -/

@[simp] theorem setLace_pending (s : State) (l : Nat) (x : Lace) : (setLace s l x).pending = s.pending := rfl
@[simp] theorem setLace_work (s : State) (l : Nat) (x : Lace) : (setLace s l x).work = s.work := rfl
@[simp] theorem setLace_sent (s : State) (l : Nat) (x : Lace) : (setLace s l x).sent = s.sent := rfl
@[simp] theorem setLace_freeIx (s : State) (l : Nat) (x : Lace) : (setLace s l x).freeIx = s.freeIx := rfl
@[simp] theorem setLace_nextId (s : State) (l : Nat) (x : Lace) : (setLace s l x).nextId = s.nextId := rfl
@[simp] theorem setLace_starting (s : State) (l : Nat) (x : Lace) : (setLace s l x).starting = s.starting := rfl
@[simp] theorem setLace_waiting (s : State) (l : Nat) (x : Lace) : (setLace s l x).waiting = s.waiting := rfl
@[simp] theorem setLace_cores (s : State) (l : Nat) (x : Lace) : (setLace s l x).cores = s.cores := rfl
@[simp] theorem setLace_dies (s : State) (l : Nat) (x : Lace) : (setLace s l x).dies = s.dies := rfl
@[simp] theorem setLace_eyelets (s : State) (l : Nat) (x : Lace) : (setLace s l x).eyelets = s.eyelets := rfl
@[simp] theorem setLace_tallies (s : State) (l : Nat) (x : Lace) : (setLace s l x).tallies = s.tallies := rfl
@[simp] theorem setLace_btn (s : State) (l : Nat) (x : Lace) : (setLace s l x).btn = s.btn := rfl
@[simp] theorem setLace_pages (s : State) (l : Nat) (x : Lace) : (setLace s l x).pages = s.pages := rfl
@[simp] theorem setLace_ctxs (s : State) (l : Nat) (x : Lace) : (setLace s l x).ctxs = s.ctxs := rfl
@[simp] theorem setLace_parts (s : State) (l : Nat) (x : Lace) : (setLace s l x).parts = s.parts := rfl
@[simp] theorem setLace_mgmtSeq (s : State) (l : Nat) (x : Lace) : (setLace s l x).mgmtSeq = s.mgmtSeq := rfl
@[simp] theorem setLace_mgmtFwq (s : State) (l : Nat) (x : Lace) : (setLace s l x).mgmtFwq = s.mgmtFwq := rfl
@[simp] theorem setLace_mgmtSess (s : State) (l : Nat) (x : Lace) : (setLace s l x).mgmtSess = s.mgmtSess := rfl
@[simp] theorem setLace_mgmtCount (s : State) (l : Nat) (x : Lace) : (setLace s l x).mgmtCount = s.mgmtCount := rfl
@[simp] theorem setLace_ivtu (s : State) (l : Nat) (x : Lace) : (setLace s l x).ivtu = s.ivtu := rfl
@[simp] theorem setLace_mem (s : State) (l : Nat) (x : Lace) : (setLace s l x).mem = s.mem := rfl
@[simp] theorem setLace_hostMem (s : State) (l : Nat) (x : Lace) : (setLace s l x).hostMem = s.hostMem := rfl
@[simp] theorem setLace_used (s : State) (l : Nat) (x : Lace) : (setLace s l x).used = s.used := rfl
@[simp] theorem setLace_poison (s : State) (l : Nat) (x : Lace) : (setLace s l x).poison = s.poison := rfl
@[simp] theorem setLace_hbm (s : State) (l : Nat) (x : Lace) : (setLace s l x).hbm = s.hbm := rfl
@[simp] theorem setLace_cxl (s : State) (l : Nat) (x : Lace) : (setLace s l x).cxl = s.cxl := rfl
@[simp] theorem setLace_fab (s : State) (l : Nat) (x : Lace) : (setLace s l x).fab = s.fab := rfl
@[simp] theorem setLace_devSeq (s : State) (l : Nat) (x : Lace) : (setLace s l x).devSeq = s.devSeq := rfl
@[simp] theorem setLace_votes (s : State) (l : Nat) (x : Lace) : (setLace s l x).votes = s.votes := rfl
@[simp] theorem setLace_sec (s : State) (l : Nat) (x : Lace) : (setLace s l x).sec = s.sec := rfl
@[simp] theorem setLace_mi (s : State) (l : Nat) (x : Lace) : (setLace s l x).mi = s.mi := rfl
@[simp] theorem setLace_relia (s : State) (l : Nat) (x : Lace) : (setLace s l x).relia = s.relia := rfl
@[simp] theorem setLace_power (s : State) (l : Nat) (x : Lace) : (setLace s l x).power = s.power := rfl
@[simp] theorem setLace_pins (s : State) (l : Nat) (x : Lace) : (setLace s l x).pins = s.pins := rfl
@[simp] theorem setLace_ready (s : State) (l : Nat) (x : Lace) : (setLace s l x).ready = s.ready := rfl

/-! ### setTally -/

@[simp] theorem setTally_pending (s : State) (t : Nat) (x : Tally) : (setTally s t x).pending = s.pending := rfl
@[simp] theorem setTally_work (s : State) (t : Nat) (x : Tally) : (setTally s t x).work = s.work := rfl
@[simp] theorem setTally_sent (s : State) (t : Nat) (x : Tally) : (setTally s t x).sent = s.sent := rfl
@[simp] theorem setTally_freeIx (s : State) (t : Nat) (x : Tally) : (setTally s t x).freeIx = s.freeIx := rfl
@[simp] theorem setTally_nextId (s : State) (t : Nat) (x : Tally) : (setTally s t x).nextId = s.nextId := rfl
@[simp] theorem setTally_starting (s : State) (t : Nat) (x : Tally) : (setTally s t x).starting = s.starting := rfl
@[simp] theorem setTally_waiting (s : State) (t : Nat) (x : Tally) : (setTally s t x).waiting = s.waiting := rfl
@[simp] theorem setTally_cores (s : State) (t : Nat) (x : Tally) : (setTally s t x).cores = s.cores := rfl
@[simp] theorem setTally_dies (s : State) (t : Nat) (x : Tally) : (setTally s t x).dies = s.dies := rfl
@[simp] theorem setTally_eyelets (s : State) (t : Nat) (x : Tally) : (setTally s t x).eyelets = s.eyelets := rfl
@[simp] theorem setTally_laces (s : State) (t : Nat) (x : Tally) : (setTally s t x).laces = s.laces := rfl
@[simp] theorem setTally_btn (s : State) (t : Nat) (x : Tally) : (setTally s t x).btn = s.btn := rfl
@[simp] theorem setTally_pages (s : State) (t : Nat) (x : Tally) : (setTally s t x).pages = s.pages := rfl
@[simp] theorem setTally_ctxs (s : State) (t : Nat) (x : Tally) : (setTally s t x).ctxs = s.ctxs := rfl
@[simp] theorem setTally_parts (s : State) (t : Nat) (x : Tally) : (setTally s t x).parts = s.parts := rfl
@[simp] theorem setTally_mgmtSeq (s : State) (t : Nat) (x : Tally) : (setTally s t x).mgmtSeq = s.mgmtSeq := rfl
@[simp] theorem setTally_mgmtFwq (s : State) (t : Nat) (x : Tally) : (setTally s t x).mgmtFwq = s.mgmtFwq := rfl
@[simp] theorem setTally_mgmtSess (s : State) (t : Nat) (x : Tally) : (setTally s t x).mgmtSess = s.mgmtSess := rfl
@[simp] theorem setTally_mgmtCount (s : State) (t : Nat) (x : Tally) : (setTally s t x).mgmtCount = s.mgmtCount := rfl
@[simp] theorem setTally_ivtu (s : State) (t : Nat) (x : Tally) : (setTally s t x).ivtu = s.ivtu := rfl
@[simp] theorem setTally_mem (s : State) (t : Nat) (x : Tally) : (setTally s t x).mem = s.mem := rfl
@[simp] theorem setTally_hostMem (s : State) (t : Nat) (x : Tally) : (setTally s t x).hostMem = s.hostMem := rfl
@[simp] theorem setTally_used (s : State) (t : Nat) (x : Tally) : (setTally s t x).used = s.used := rfl
@[simp] theorem setTally_poison (s : State) (t : Nat) (x : Tally) : (setTally s t x).poison = s.poison := rfl
@[simp] theorem setTally_hbm (s : State) (t : Nat) (x : Tally) : (setTally s t x).hbm = s.hbm := rfl
@[simp] theorem setTally_cxl (s : State) (t : Nat) (x : Tally) : (setTally s t x).cxl = s.cxl := rfl
@[simp] theorem setTally_fab (s : State) (t : Nat) (x : Tally) : (setTally s t x).fab = s.fab := rfl
@[simp] theorem setTally_devSeq (s : State) (t : Nat) (x : Tally) : (setTally s t x).devSeq = s.devSeq := rfl
@[simp] theorem setTally_votes (s : State) (t : Nat) (x : Tally) : (setTally s t x).votes = s.votes := rfl
@[simp] theorem setTally_sec (s : State) (t : Nat) (x : Tally) : (setTally s t x).sec = s.sec := rfl
@[simp] theorem setTally_mi (s : State) (t : Nat) (x : Tally) : (setTally s t x).mi = s.mi := rfl
@[simp] theorem setTally_relia (s : State) (t : Nat) (x : Tally) : (setTally s t x).relia = s.relia := rfl
@[simp] theorem setTally_power (s : State) (t : Nat) (x : Tally) : (setTally s t x).power = s.power := rfl
@[simp] theorem setTally_pins (s : State) (t : Nat) (x : Tally) : (setTally s t x).pins = s.pins := rfl
@[simp] theorem setTally_ready (s : State) (t : Nat) (x : Tally) : (setTally s t x).ready = s.ready := rfl

/-! ### setPage -/

@[simp] theorem setPage_pending (s : State) (q : Nat) (x : Page) : (setPage s q x).pending = s.pending := rfl
@[simp] theorem setPage_work (s : State) (q : Nat) (x : Page) : (setPage s q x).work = s.work := rfl
@[simp] theorem setPage_sent (s : State) (q : Nat) (x : Page) : (setPage s q x).sent = s.sent := rfl
@[simp] theorem setPage_freeIx (s : State) (q : Nat) (x : Page) : (setPage s q x).freeIx = s.freeIx := rfl
@[simp] theorem setPage_nextId (s : State) (q : Nat) (x : Page) : (setPage s q x).nextId = s.nextId := rfl
@[simp] theorem setPage_starting (s : State) (q : Nat) (x : Page) : (setPage s q x).starting = s.starting := rfl
@[simp] theorem setPage_waiting (s : State) (q : Nat) (x : Page) : (setPage s q x).waiting = s.waiting := rfl
@[simp] theorem setPage_cores (s : State) (q : Nat) (x : Page) : (setPage s q x).cores = s.cores := rfl
@[simp] theorem setPage_dies (s : State) (q : Nat) (x : Page) : (setPage s q x).dies = s.dies := rfl
@[simp] theorem setPage_eyelets (s : State) (q : Nat) (x : Page) : (setPage s q x).eyelets = s.eyelets := rfl
@[simp] theorem setPage_laces (s : State) (q : Nat) (x : Page) : (setPage s q x).laces = s.laces := rfl
@[simp] theorem setPage_tallies (s : State) (q : Nat) (x : Page) : (setPage s q x).tallies = s.tallies := rfl
@[simp] theorem setPage_btn (s : State) (q : Nat) (x : Page) : (setPage s q x).btn = s.btn := rfl
@[simp] theorem setPage_ctxs (s : State) (q : Nat) (x : Page) : (setPage s q x).ctxs = s.ctxs := rfl
@[simp] theorem setPage_parts (s : State) (q : Nat) (x : Page) : (setPage s q x).parts = s.parts := rfl
@[simp] theorem setPage_mgmtSeq (s : State) (q : Nat) (x : Page) : (setPage s q x).mgmtSeq = s.mgmtSeq := rfl
@[simp] theorem setPage_mgmtFwq (s : State) (q : Nat) (x : Page) : (setPage s q x).mgmtFwq = s.mgmtFwq := rfl
@[simp] theorem setPage_mgmtSess (s : State) (q : Nat) (x : Page) : (setPage s q x).mgmtSess = s.mgmtSess := rfl
@[simp] theorem setPage_mgmtCount (s : State) (q : Nat) (x : Page) : (setPage s q x).mgmtCount = s.mgmtCount := rfl
@[simp] theorem setPage_ivtu (s : State) (q : Nat) (x : Page) : (setPage s q x).ivtu = s.ivtu := rfl
@[simp] theorem setPage_mem (s : State) (q : Nat) (x : Page) : (setPage s q x).mem = s.mem := rfl
@[simp] theorem setPage_hostMem (s : State) (q : Nat) (x : Page) : (setPage s q x).hostMem = s.hostMem := rfl
@[simp] theorem setPage_used (s : State) (q : Nat) (x : Page) : (setPage s q x).used = s.used := rfl
@[simp] theorem setPage_poison (s : State) (q : Nat) (x : Page) : (setPage s q x).poison = s.poison := rfl
@[simp] theorem setPage_hbm (s : State) (q : Nat) (x : Page) : (setPage s q x).hbm = s.hbm := rfl
@[simp] theorem setPage_cxl (s : State) (q : Nat) (x : Page) : (setPage s q x).cxl = s.cxl := rfl
@[simp] theorem setPage_fab (s : State) (q : Nat) (x : Page) : (setPage s q x).fab = s.fab := rfl
@[simp] theorem setPage_devSeq (s : State) (q : Nat) (x : Page) : (setPage s q x).devSeq = s.devSeq := rfl
@[simp] theorem setPage_votes (s : State) (q : Nat) (x : Page) : (setPage s q x).votes = s.votes := rfl
@[simp] theorem setPage_sec (s : State) (q : Nat) (x : Page) : (setPage s q x).sec = s.sec := rfl
@[simp] theorem setPage_mi (s : State) (q : Nat) (x : Page) : (setPage s q x).mi = s.mi := rfl
@[simp] theorem setPage_relia (s : State) (q : Nat) (x : Page) : (setPage s q x).relia = s.relia := rfl
@[simp] theorem setPage_power (s : State) (q : Nat) (x : Page) : (setPage s q x).power = s.power := rfl
@[simp] theorem setPage_pins (s : State) (q : Nat) (x : Page) : (setPage s q x).pins = s.pins := rfl
@[simp] theorem setPage_ready (s : State) (q : Nat) (x : Page) : (setPage s q x).ready = s.ready := rfl

/-! ### modPage -/

@[simp] theorem modPage_pending (s : State) (q : Nat) (f : Page → Page) : (modPage s q f).pending = s.pending := rfl
@[simp] theorem modPage_work (s : State) (q : Nat) (f : Page → Page) : (modPage s q f).work = s.work := rfl
@[simp] theorem modPage_sent (s : State) (q : Nat) (f : Page → Page) : (modPage s q f).sent = s.sent := rfl
@[simp] theorem modPage_freeIx (s : State) (q : Nat) (f : Page → Page) : (modPage s q f).freeIx = s.freeIx := rfl
@[simp] theorem modPage_nextId (s : State) (q : Nat) (f : Page → Page) : (modPage s q f).nextId = s.nextId := rfl
@[simp] theorem modPage_starting (s : State) (q : Nat) (f : Page → Page) : (modPage s q f).starting = s.starting := rfl
@[simp] theorem modPage_waiting (s : State) (q : Nat) (f : Page → Page) : (modPage s q f).waiting = s.waiting := rfl
@[simp] theorem modPage_cores (s : State) (q : Nat) (f : Page → Page) : (modPage s q f).cores = s.cores := rfl
@[simp] theorem modPage_dies (s : State) (q : Nat) (f : Page → Page) : (modPage s q f).dies = s.dies := rfl
@[simp] theorem modPage_eyelets (s : State) (q : Nat) (f : Page → Page) : (modPage s q f).eyelets = s.eyelets := rfl
@[simp] theorem modPage_laces (s : State) (q : Nat) (f : Page → Page) : (modPage s q f).laces = s.laces := rfl
@[simp] theorem modPage_tallies (s : State) (q : Nat) (f : Page → Page) : (modPage s q f).tallies = s.tallies := rfl
@[simp] theorem modPage_btn (s : State) (q : Nat) (f : Page → Page) : (modPage s q f).btn = s.btn := rfl
@[simp] theorem modPage_ctxs (s : State) (q : Nat) (f : Page → Page) : (modPage s q f).ctxs = s.ctxs := rfl
@[simp] theorem modPage_parts (s : State) (q : Nat) (f : Page → Page) : (modPage s q f).parts = s.parts := rfl
@[simp] theorem modPage_mgmtSeq (s : State) (q : Nat) (f : Page → Page) : (modPage s q f).mgmtSeq = s.mgmtSeq := rfl
@[simp] theorem modPage_mgmtFwq (s : State) (q : Nat) (f : Page → Page) : (modPage s q f).mgmtFwq = s.mgmtFwq := rfl
@[simp] theorem modPage_mgmtSess (s : State) (q : Nat) (f : Page → Page) : (modPage s q f).mgmtSess = s.mgmtSess := rfl
@[simp] theorem modPage_mgmtCount (s : State) (q : Nat) (f : Page → Page) : (modPage s q f).mgmtCount = s.mgmtCount := rfl
@[simp] theorem modPage_ivtu (s : State) (q : Nat) (f : Page → Page) : (modPage s q f).ivtu = s.ivtu := rfl
@[simp] theorem modPage_mem (s : State) (q : Nat) (f : Page → Page) : (modPage s q f).mem = s.mem := rfl
@[simp] theorem modPage_hostMem (s : State) (q : Nat) (f : Page → Page) : (modPage s q f).hostMem = s.hostMem := rfl
@[simp] theorem modPage_used (s : State) (q : Nat) (f : Page → Page) : (modPage s q f).used = s.used := rfl
@[simp] theorem modPage_poison (s : State) (q : Nat) (f : Page → Page) : (modPage s q f).poison = s.poison := rfl
@[simp] theorem modPage_hbm (s : State) (q : Nat) (f : Page → Page) : (modPage s q f).hbm = s.hbm := rfl
@[simp] theorem modPage_cxl (s : State) (q : Nat) (f : Page → Page) : (modPage s q f).cxl = s.cxl := rfl
@[simp] theorem modPage_fab (s : State) (q : Nat) (f : Page → Page) : (modPage s q f).fab = s.fab := rfl
@[simp] theorem modPage_devSeq (s : State) (q : Nat) (f : Page → Page) : (modPage s q f).devSeq = s.devSeq := rfl
@[simp] theorem modPage_votes (s : State) (q : Nat) (f : Page → Page) : (modPage s q f).votes = s.votes := rfl
@[simp] theorem modPage_sec (s : State) (q : Nat) (f : Page → Page) : (modPage s q f).sec = s.sec := rfl
@[simp] theorem modPage_mi (s : State) (q : Nat) (f : Page → Page) : (modPage s q f).mi = s.mi := rfl
@[simp] theorem modPage_relia (s : State) (q : Nat) (f : Page → Page) : (modPage s q f).relia = s.relia := rfl
@[simp] theorem modPage_power (s : State) (q : Nat) (f : Page → Page) : (modPage s q f).power = s.power := rfl
@[simp] theorem modPage_pins (s : State) (q : Nat) (f : Page → Page) : (modPage s q f).pins = s.pins := rfl
@[simp] theorem modPage_ready (s : State) (q : Nat) (f : Page → Page) : (modPage s q f).ready = s.ready := rfl

/-! ### modRing -/

@[simp] theorem modRing_pending (s : State) (q r : Nat) (f : Ring → Ring) : (modRing s q r f).pending = s.pending := rfl
@[simp] theorem modRing_work (s : State) (q r : Nat) (f : Ring → Ring) : (modRing s q r f).work = s.work := rfl
@[simp] theorem modRing_sent (s : State) (q r : Nat) (f : Ring → Ring) : (modRing s q r f).sent = s.sent := rfl
@[simp] theorem modRing_freeIx (s : State) (q r : Nat) (f : Ring → Ring) : (modRing s q r f).freeIx = s.freeIx := rfl
@[simp] theorem modRing_nextId (s : State) (q r : Nat) (f : Ring → Ring) : (modRing s q r f).nextId = s.nextId := rfl
@[simp] theorem modRing_starting (s : State) (q r : Nat) (f : Ring → Ring) : (modRing s q r f).starting = s.starting := rfl
@[simp] theorem modRing_waiting (s : State) (q r : Nat) (f : Ring → Ring) : (modRing s q r f).waiting = s.waiting := rfl
@[simp] theorem modRing_cores (s : State) (q r : Nat) (f : Ring → Ring) : (modRing s q r f).cores = s.cores := rfl
@[simp] theorem modRing_dies (s : State) (q r : Nat) (f : Ring → Ring) : (modRing s q r f).dies = s.dies := rfl
@[simp] theorem modRing_eyelets (s : State) (q r : Nat) (f : Ring → Ring) : (modRing s q r f).eyelets = s.eyelets := rfl
@[simp] theorem modRing_laces (s : State) (q r : Nat) (f : Ring → Ring) : (modRing s q r f).laces = s.laces := rfl
@[simp] theorem modRing_tallies (s : State) (q r : Nat) (f : Ring → Ring) : (modRing s q r f).tallies = s.tallies := rfl
@[simp] theorem modRing_btn (s : State) (q r : Nat) (f : Ring → Ring) : (modRing s q r f).btn = s.btn := rfl
@[simp] theorem modRing_ctxs (s : State) (q r : Nat) (f : Ring → Ring) : (modRing s q r f).ctxs = s.ctxs := rfl
@[simp] theorem modRing_parts (s : State) (q r : Nat) (f : Ring → Ring) : (modRing s q r f).parts = s.parts := rfl
@[simp] theorem modRing_mgmtSeq (s : State) (q r : Nat) (f : Ring → Ring) : (modRing s q r f).mgmtSeq = s.mgmtSeq := rfl
@[simp] theorem modRing_mgmtFwq (s : State) (q r : Nat) (f : Ring → Ring) : (modRing s q r f).mgmtFwq = s.mgmtFwq := rfl
@[simp] theorem modRing_mgmtSess (s : State) (q r : Nat) (f : Ring → Ring) : (modRing s q r f).mgmtSess = s.mgmtSess := rfl
@[simp] theorem modRing_mgmtCount (s : State) (q r : Nat) (f : Ring → Ring) : (modRing s q r f).mgmtCount = s.mgmtCount := rfl
@[simp] theorem modRing_ivtu (s : State) (q r : Nat) (f : Ring → Ring) : (modRing s q r f).ivtu = s.ivtu := rfl
@[simp] theorem modRing_mem (s : State) (q r : Nat) (f : Ring → Ring) : (modRing s q r f).mem = s.mem := rfl
@[simp] theorem modRing_hostMem (s : State) (q r : Nat) (f : Ring → Ring) : (modRing s q r f).hostMem = s.hostMem := rfl
@[simp] theorem modRing_used (s : State) (q r : Nat) (f : Ring → Ring) : (modRing s q r f).used = s.used := rfl
@[simp] theorem modRing_poison (s : State) (q r : Nat) (f : Ring → Ring) : (modRing s q r f).poison = s.poison := rfl
@[simp] theorem modRing_hbm (s : State) (q r : Nat) (f : Ring → Ring) : (modRing s q r f).hbm = s.hbm := rfl
@[simp] theorem modRing_cxl (s : State) (q r : Nat) (f : Ring → Ring) : (modRing s q r f).cxl = s.cxl := rfl
@[simp] theorem modRing_fab (s : State) (q r : Nat) (f : Ring → Ring) : (modRing s q r f).fab = s.fab := rfl
@[simp] theorem modRing_devSeq (s : State) (q r : Nat) (f : Ring → Ring) : (modRing s q r f).devSeq = s.devSeq := rfl
@[simp] theorem modRing_votes (s : State) (q r : Nat) (f : Ring → Ring) : (modRing s q r f).votes = s.votes := rfl
@[simp] theorem modRing_sec (s : State) (q r : Nat) (f : Ring → Ring) : (modRing s q r f).sec = s.sec := rfl
@[simp] theorem modRing_mi (s : State) (q r : Nat) (f : Ring → Ring) : (modRing s q r f).mi = s.mi := rfl
@[simp] theorem modRing_relia (s : State) (q r : Nat) (f : Ring → Ring) : (modRing s q r f).relia = s.relia := rfl
@[simp] theorem modRing_power (s : State) (q r : Nat) (f : Ring → Ring) : (modRing s q r f).power = s.power := rfl
@[simp] theorem modRing_pins (s : State) (q r : Nat) (f : Ring → Ring) : (modRing s q r f).pins = s.pins := rfl
@[simp] theorem modRing_ready (s : State) (q r : Nat) (f : Ring → Ring) : (modRing s q r f).ready = s.ready := rfl

/-! ### modSlot -/

@[simp] theorem modSlot_pending (s : State) (q i : Nat) (f : Slot → Slot) : (modSlot s q i f).pending = s.pending := rfl
@[simp] theorem modSlot_work (s : State) (q i : Nat) (f : Slot → Slot) : (modSlot s q i f).work = s.work := rfl
@[simp] theorem modSlot_sent (s : State) (q i : Nat) (f : Slot → Slot) : (modSlot s q i f).sent = s.sent := rfl
@[simp] theorem modSlot_freeIx (s : State) (q i : Nat) (f : Slot → Slot) : (modSlot s q i f).freeIx = s.freeIx := rfl
@[simp] theorem modSlot_nextId (s : State) (q i : Nat) (f : Slot → Slot) : (modSlot s q i f).nextId = s.nextId := rfl
@[simp] theorem modSlot_starting (s : State) (q i : Nat) (f : Slot → Slot) : (modSlot s q i f).starting = s.starting := rfl
@[simp] theorem modSlot_waiting (s : State) (q i : Nat) (f : Slot → Slot) : (modSlot s q i f).waiting = s.waiting := rfl
@[simp] theorem modSlot_cores (s : State) (q i : Nat) (f : Slot → Slot) : (modSlot s q i f).cores = s.cores := rfl
@[simp] theorem modSlot_dies (s : State) (q i : Nat) (f : Slot → Slot) : (modSlot s q i f).dies = s.dies := rfl
@[simp] theorem modSlot_eyelets (s : State) (q i : Nat) (f : Slot → Slot) : (modSlot s q i f).eyelets = s.eyelets := rfl
@[simp] theorem modSlot_laces (s : State) (q i : Nat) (f : Slot → Slot) : (modSlot s q i f).laces = s.laces := rfl
@[simp] theorem modSlot_tallies (s : State) (q i : Nat) (f : Slot → Slot) : (modSlot s q i f).tallies = s.tallies := rfl
@[simp] theorem modSlot_btn (s : State) (q i : Nat) (f : Slot → Slot) : (modSlot s q i f).btn = s.btn := rfl
@[simp] theorem modSlot_ctxs (s : State) (q i : Nat) (f : Slot → Slot) : (modSlot s q i f).ctxs = s.ctxs := rfl
@[simp] theorem modSlot_parts (s : State) (q i : Nat) (f : Slot → Slot) : (modSlot s q i f).parts = s.parts := rfl
@[simp] theorem modSlot_mgmtSeq (s : State) (q i : Nat) (f : Slot → Slot) : (modSlot s q i f).mgmtSeq = s.mgmtSeq := rfl
@[simp] theorem modSlot_mgmtFwq (s : State) (q i : Nat) (f : Slot → Slot) : (modSlot s q i f).mgmtFwq = s.mgmtFwq := rfl
@[simp] theorem modSlot_mgmtSess (s : State) (q i : Nat) (f : Slot → Slot) : (modSlot s q i f).mgmtSess = s.mgmtSess := rfl
@[simp] theorem modSlot_mgmtCount (s : State) (q i : Nat) (f : Slot → Slot) : (modSlot s q i f).mgmtCount = s.mgmtCount := rfl
@[simp] theorem modSlot_ivtu (s : State) (q i : Nat) (f : Slot → Slot) : (modSlot s q i f).ivtu = s.ivtu := rfl
@[simp] theorem modSlot_mem (s : State) (q i : Nat) (f : Slot → Slot) : (modSlot s q i f).mem = s.mem := rfl
@[simp] theorem modSlot_hostMem (s : State) (q i : Nat) (f : Slot → Slot) : (modSlot s q i f).hostMem = s.hostMem := rfl
@[simp] theorem modSlot_used (s : State) (q i : Nat) (f : Slot → Slot) : (modSlot s q i f).used = s.used := rfl
@[simp] theorem modSlot_poison (s : State) (q i : Nat) (f : Slot → Slot) : (modSlot s q i f).poison = s.poison := rfl
@[simp] theorem modSlot_hbm (s : State) (q i : Nat) (f : Slot → Slot) : (modSlot s q i f).hbm = s.hbm := rfl
@[simp] theorem modSlot_cxl (s : State) (q i : Nat) (f : Slot → Slot) : (modSlot s q i f).cxl = s.cxl := rfl
@[simp] theorem modSlot_fab (s : State) (q i : Nat) (f : Slot → Slot) : (modSlot s q i f).fab = s.fab := rfl
@[simp] theorem modSlot_devSeq (s : State) (q i : Nat) (f : Slot → Slot) : (modSlot s q i f).devSeq = s.devSeq := rfl
@[simp] theorem modSlot_votes (s : State) (q i : Nat) (f : Slot → Slot) : (modSlot s q i f).votes = s.votes := rfl
@[simp] theorem modSlot_sec (s : State) (q i : Nat) (f : Slot → Slot) : (modSlot s q i f).sec = s.sec := rfl
@[simp] theorem modSlot_mi (s : State) (q i : Nat) (f : Slot → Slot) : (modSlot s q i f).mi = s.mi := rfl
@[simp] theorem modSlot_relia (s : State) (q i : Nat) (f : Slot → Slot) : (modSlot s q i f).relia = s.relia := rfl
@[simp] theorem modSlot_power (s : State) (q i : Nat) (f : Slot → Slot) : (modSlot s q i f).power = s.power := rfl
@[simp] theorem modSlot_pins (s : State) (q i : Nat) (f : Slot → Slot) : (modSlot s q i f).pins = s.pins := rfl
@[simp] theorem modSlot_ready (s : State) (q i : Nat) (f : Slot → Slot) : (modSlot s q i f).ready = s.ready := rfl

/-! ### setCtx -/

@[simp] theorem setCtx_pending (s : State) (n : Nat) (x : Ctx) : (setCtx s n x).pending = s.pending := rfl
@[simp] theorem setCtx_work (s : State) (n : Nat) (x : Ctx) : (setCtx s n x).work = s.work := rfl
@[simp] theorem setCtx_sent (s : State) (n : Nat) (x : Ctx) : (setCtx s n x).sent = s.sent := rfl
@[simp] theorem setCtx_freeIx (s : State) (n : Nat) (x : Ctx) : (setCtx s n x).freeIx = s.freeIx := rfl
@[simp] theorem setCtx_nextId (s : State) (n : Nat) (x : Ctx) : (setCtx s n x).nextId = s.nextId := rfl
@[simp] theorem setCtx_starting (s : State) (n : Nat) (x : Ctx) : (setCtx s n x).starting = s.starting := rfl
@[simp] theorem setCtx_waiting (s : State) (n : Nat) (x : Ctx) : (setCtx s n x).waiting = s.waiting := rfl
@[simp] theorem setCtx_cores (s : State) (n : Nat) (x : Ctx) : (setCtx s n x).cores = s.cores := rfl
@[simp] theorem setCtx_dies (s : State) (n : Nat) (x : Ctx) : (setCtx s n x).dies = s.dies := rfl
@[simp] theorem setCtx_eyelets (s : State) (n : Nat) (x : Ctx) : (setCtx s n x).eyelets = s.eyelets := rfl
@[simp] theorem setCtx_laces (s : State) (n : Nat) (x : Ctx) : (setCtx s n x).laces = s.laces := rfl
@[simp] theorem setCtx_tallies (s : State) (n : Nat) (x : Ctx) : (setCtx s n x).tallies = s.tallies := rfl
@[simp] theorem setCtx_btn (s : State) (n : Nat) (x : Ctx) : (setCtx s n x).btn = s.btn := rfl
@[simp] theorem setCtx_pages (s : State) (n : Nat) (x : Ctx) : (setCtx s n x).pages = s.pages := rfl
@[simp] theorem setCtx_parts (s : State) (n : Nat) (x : Ctx) : (setCtx s n x).parts = s.parts := rfl
@[simp] theorem setCtx_mgmtSeq (s : State) (n : Nat) (x : Ctx) : (setCtx s n x).mgmtSeq = s.mgmtSeq := rfl
@[simp] theorem setCtx_mgmtFwq (s : State) (n : Nat) (x : Ctx) : (setCtx s n x).mgmtFwq = s.mgmtFwq := rfl
@[simp] theorem setCtx_mgmtSess (s : State) (n : Nat) (x : Ctx) : (setCtx s n x).mgmtSess = s.mgmtSess := rfl
@[simp] theorem setCtx_mgmtCount (s : State) (n : Nat) (x : Ctx) : (setCtx s n x).mgmtCount = s.mgmtCount := rfl
@[simp] theorem setCtx_ivtu (s : State) (n : Nat) (x : Ctx) : (setCtx s n x).ivtu = s.ivtu := rfl
@[simp] theorem setCtx_mem (s : State) (n : Nat) (x : Ctx) : (setCtx s n x).mem = s.mem := rfl
@[simp] theorem setCtx_hostMem (s : State) (n : Nat) (x : Ctx) : (setCtx s n x).hostMem = s.hostMem := rfl
@[simp] theorem setCtx_used (s : State) (n : Nat) (x : Ctx) : (setCtx s n x).used = s.used := rfl
@[simp] theorem setCtx_poison (s : State) (n : Nat) (x : Ctx) : (setCtx s n x).poison = s.poison := rfl
@[simp] theorem setCtx_hbm (s : State) (n : Nat) (x : Ctx) : (setCtx s n x).hbm = s.hbm := rfl
@[simp] theorem setCtx_cxl (s : State) (n : Nat) (x : Ctx) : (setCtx s n x).cxl = s.cxl := rfl
@[simp] theorem setCtx_fab (s : State) (n : Nat) (x : Ctx) : (setCtx s n x).fab = s.fab := rfl
@[simp] theorem setCtx_devSeq (s : State) (n : Nat) (x : Ctx) : (setCtx s n x).devSeq = s.devSeq := rfl
@[simp] theorem setCtx_votes (s : State) (n : Nat) (x : Ctx) : (setCtx s n x).votes = s.votes := rfl
@[simp] theorem setCtx_sec (s : State) (n : Nat) (x : Ctx) : (setCtx s n x).sec = s.sec := rfl
@[simp] theorem setCtx_mi (s : State) (n : Nat) (x : Ctx) : (setCtx s n x).mi = s.mi := rfl
@[simp] theorem setCtx_relia (s : State) (n : Nat) (x : Ctx) : (setCtx s n x).relia = s.relia := rfl
@[simp] theorem setCtx_power (s : State) (n : Nat) (x : Ctx) : (setCtx s n x).power = s.power := rfl
@[simp] theorem setCtx_pins (s : State) (n : Nat) (x : Ctx) : (setCtx s n x).pins = s.pins := rfl
@[simp] theorem setCtx_ready (s : State) (n : Nat) (x : Ctx) : (setCtx s n x).ready = s.ready := rfl

/-! ### modCtx -/

@[simp] theorem modCtx_pending (s : State) (n : Nat) (f : Ctx → Ctx) : (modCtx s n f).pending = s.pending := rfl
@[simp] theorem modCtx_work (s : State) (n : Nat) (f : Ctx → Ctx) : (modCtx s n f).work = s.work := rfl
@[simp] theorem modCtx_sent (s : State) (n : Nat) (f : Ctx → Ctx) : (modCtx s n f).sent = s.sent := rfl
@[simp] theorem modCtx_freeIx (s : State) (n : Nat) (f : Ctx → Ctx) : (modCtx s n f).freeIx = s.freeIx := rfl
@[simp] theorem modCtx_nextId (s : State) (n : Nat) (f : Ctx → Ctx) : (modCtx s n f).nextId = s.nextId := rfl
@[simp] theorem modCtx_starting (s : State) (n : Nat) (f : Ctx → Ctx) : (modCtx s n f).starting = s.starting := rfl
@[simp] theorem modCtx_waiting (s : State) (n : Nat) (f : Ctx → Ctx) : (modCtx s n f).waiting = s.waiting := rfl
@[simp] theorem modCtx_cores (s : State) (n : Nat) (f : Ctx → Ctx) : (modCtx s n f).cores = s.cores := rfl
@[simp] theorem modCtx_dies (s : State) (n : Nat) (f : Ctx → Ctx) : (modCtx s n f).dies = s.dies := rfl
@[simp] theorem modCtx_eyelets (s : State) (n : Nat) (f : Ctx → Ctx) : (modCtx s n f).eyelets = s.eyelets := rfl
@[simp] theorem modCtx_laces (s : State) (n : Nat) (f : Ctx → Ctx) : (modCtx s n f).laces = s.laces := rfl
@[simp] theorem modCtx_tallies (s : State) (n : Nat) (f : Ctx → Ctx) : (modCtx s n f).tallies = s.tallies := rfl
@[simp] theorem modCtx_btn (s : State) (n : Nat) (f : Ctx → Ctx) : (modCtx s n f).btn = s.btn := rfl
@[simp] theorem modCtx_pages (s : State) (n : Nat) (f : Ctx → Ctx) : (modCtx s n f).pages = s.pages := rfl
@[simp] theorem modCtx_parts (s : State) (n : Nat) (f : Ctx → Ctx) : (modCtx s n f).parts = s.parts := rfl
@[simp] theorem modCtx_mgmtSeq (s : State) (n : Nat) (f : Ctx → Ctx) : (modCtx s n f).mgmtSeq = s.mgmtSeq := rfl
@[simp] theorem modCtx_mgmtFwq (s : State) (n : Nat) (f : Ctx → Ctx) : (modCtx s n f).mgmtFwq = s.mgmtFwq := rfl
@[simp] theorem modCtx_mgmtSess (s : State) (n : Nat) (f : Ctx → Ctx) : (modCtx s n f).mgmtSess = s.mgmtSess := rfl
@[simp] theorem modCtx_mgmtCount (s : State) (n : Nat) (f : Ctx → Ctx) : (modCtx s n f).mgmtCount = s.mgmtCount := rfl
@[simp] theorem modCtx_ivtu (s : State) (n : Nat) (f : Ctx → Ctx) : (modCtx s n f).ivtu = s.ivtu := rfl
@[simp] theorem modCtx_mem (s : State) (n : Nat) (f : Ctx → Ctx) : (modCtx s n f).mem = s.mem := rfl
@[simp] theorem modCtx_hostMem (s : State) (n : Nat) (f : Ctx → Ctx) : (modCtx s n f).hostMem = s.hostMem := rfl
@[simp] theorem modCtx_used (s : State) (n : Nat) (f : Ctx → Ctx) : (modCtx s n f).used = s.used := rfl
@[simp] theorem modCtx_poison (s : State) (n : Nat) (f : Ctx → Ctx) : (modCtx s n f).poison = s.poison := rfl
@[simp] theorem modCtx_hbm (s : State) (n : Nat) (f : Ctx → Ctx) : (modCtx s n f).hbm = s.hbm := rfl
@[simp] theorem modCtx_cxl (s : State) (n : Nat) (f : Ctx → Ctx) : (modCtx s n f).cxl = s.cxl := rfl
@[simp] theorem modCtx_fab (s : State) (n : Nat) (f : Ctx → Ctx) : (modCtx s n f).fab = s.fab := rfl
@[simp] theorem modCtx_devSeq (s : State) (n : Nat) (f : Ctx → Ctx) : (modCtx s n f).devSeq = s.devSeq := rfl
@[simp] theorem modCtx_votes (s : State) (n : Nat) (f : Ctx → Ctx) : (modCtx s n f).votes = s.votes := rfl
@[simp] theorem modCtx_sec (s : State) (n : Nat) (f : Ctx → Ctx) : (modCtx s n f).sec = s.sec := rfl
@[simp] theorem modCtx_mi (s : State) (n : Nat) (f : Ctx → Ctx) : (modCtx s n f).mi = s.mi := rfl
@[simp] theorem modCtx_relia (s : State) (n : Nat) (f : Ctx → Ctx) : (modCtx s n f).relia = s.relia := rfl
@[simp] theorem modCtx_power (s : State) (n : Nat) (f : Ctx → Ctx) : (modCtx s n f).power = s.power := rfl
@[simp] theorem modCtx_pins (s : State) (n : Nat) (f : Ctx → Ctx) : (modCtx s n f).pins = s.pins := rfl
@[simp] theorem modCtx_ready (s : State) (n : Nat) (f : Ctx → Ctx) : (modCtx s n f).ready = s.ready := rfl

/-! ### setPart -/

@[simp] theorem setPart_pending (s : State) (p : Nat) (x : Part) : (setPart s p x).pending = s.pending := rfl
@[simp] theorem setPart_work (s : State) (p : Nat) (x : Part) : (setPart s p x).work = s.work := rfl
@[simp] theorem setPart_sent (s : State) (p : Nat) (x : Part) : (setPart s p x).sent = s.sent := rfl
@[simp] theorem setPart_freeIx (s : State) (p : Nat) (x : Part) : (setPart s p x).freeIx = s.freeIx := rfl
@[simp] theorem setPart_nextId (s : State) (p : Nat) (x : Part) : (setPart s p x).nextId = s.nextId := rfl
@[simp] theorem setPart_starting (s : State) (p : Nat) (x : Part) : (setPart s p x).starting = s.starting := rfl
@[simp] theorem setPart_waiting (s : State) (p : Nat) (x : Part) : (setPart s p x).waiting = s.waiting := rfl
@[simp] theorem setPart_cores (s : State) (p : Nat) (x : Part) : (setPart s p x).cores = s.cores := rfl
@[simp] theorem setPart_dies (s : State) (p : Nat) (x : Part) : (setPart s p x).dies = s.dies := rfl
@[simp] theorem setPart_eyelets (s : State) (p : Nat) (x : Part) : (setPart s p x).eyelets = s.eyelets := rfl
@[simp] theorem setPart_laces (s : State) (p : Nat) (x : Part) : (setPart s p x).laces = s.laces := rfl
@[simp] theorem setPart_tallies (s : State) (p : Nat) (x : Part) : (setPart s p x).tallies = s.tallies := rfl
@[simp] theorem setPart_btn (s : State) (p : Nat) (x : Part) : (setPart s p x).btn = s.btn := rfl
@[simp] theorem setPart_pages (s : State) (p : Nat) (x : Part) : (setPart s p x).pages = s.pages := rfl
@[simp] theorem setPart_ctxs (s : State) (p : Nat) (x : Part) : (setPart s p x).ctxs = s.ctxs := rfl
@[simp] theorem setPart_mgmtSeq (s : State) (p : Nat) (x : Part) : (setPart s p x).mgmtSeq = s.mgmtSeq := rfl
@[simp] theorem setPart_mgmtFwq (s : State) (p : Nat) (x : Part) : (setPart s p x).mgmtFwq = s.mgmtFwq := rfl
@[simp] theorem setPart_mgmtSess (s : State) (p : Nat) (x : Part) : (setPart s p x).mgmtSess = s.mgmtSess := rfl
@[simp] theorem setPart_mgmtCount (s : State) (p : Nat) (x : Part) : (setPart s p x).mgmtCount = s.mgmtCount := rfl
@[simp] theorem setPart_ivtu (s : State) (p : Nat) (x : Part) : (setPart s p x).ivtu = s.ivtu := rfl
@[simp] theorem setPart_mem (s : State) (p : Nat) (x : Part) : (setPart s p x).mem = s.mem := rfl
@[simp] theorem setPart_hostMem (s : State) (p : Nat) (x : Part) : (setPart s p x).hostMem = s.hostMem := rfl
@[simp] theorem setPart_used (s : State) (p : Nat) (x : Part) : (setPart s p x).used = s.used := rfl
@[simp] theorem setPart_poison (s : State) (p : Nat) (x : Part) : (setPart s p x).poison = s.poison := rfl
@[simp] theorem setPart_hbm (s : State) (p : Nat) (x : Part) : (setPart s p x).hbm = s.hbm := rfl
@[simp] theorem setPart_cxl (s : State) (p : Nat) (x : Part) : (setPart s p x).cxl = s.cxl := rfl
@[simp] theorem setPart_fab (s : State) (p : Nat) (x : Part) : (setPart s p x).fab = s.fab := rfl
@[simp] theorem setPart_devSeq (s : State) (p : Nat) (x : Part) : (setPart s p x).devSeq = s.devSeq := rfl
@[simp] theorem setPart_votes (s : State) (p : Nat) (x : Part) : (setPart s p x).votes = s.votes := rfl
@[simp] theorem setPart_sec (s : State) (p : Nat) (x : Part) : (setPart s p x).sec = s.sec := rfl
@[simp] theorem setPart_mi (s : State) (p : Nat) (x : Part) : (setPart s p x).mi = s.mi := rfl
@[simp] theorem setPart_relia (s : State) (p : Nat) (x : Part) : (setPart s p x).relia = s.relia := rfl
@[simp] theorem setPart_power (s : State) (p : Nat) (x : Part) : (setPart s p x).power = s.power := rfl
@[simp] theorem setPart_pins (s : State) (p : Nat) (x : Part) : (setPart s p x).pins = s.pins := rfl
@[simp] theorem setPart_ready (s : State) (p : Nat) (x : Part) : (setPart s p x).ready = s.ready := rfl

/-! ### modPart -/

@[simp] theorem modPart_pending (s : State) (p : Nat) (f : Part → Part) : (modPart s p f).pending = s.pending := rfl
@[simp] theorem modPart_work (s : State) (p : Nat) (f : Part → Part) : (modPart s p f).work = s.work := rfl
@[simp] theorem modPart_sent (s : State) (p : Nat) (f : Part → Part) : (modPart s p f).sent = s.sent := rfl
@[simp] theorem modPart_freeIx (s : State) (p : Nat) (f : Part → Part) : (modPart s p f).freeIx = s.freeIx := rfl
@[simp] theorem modPart_nextId (s : State) (p : Nat) (f : Part → Part) : (modPart s p f).nextId = s.nextId := rfl
@[simp] theorem modPart_starting (s : State) (p : Nat) (f : Part → Part) : (modPart s p f).starting = s.starting := rfl
@[simp] theorem modPart_waiting (s : State) (p : Nat) (f : Part → Part) : (modPart s p f).waiting = s.waiting := rfl
@[simp] theorem modPart_cores (s : State) (p : Nat) (f : Part → Part) : (modPart s p f).cores = s.cores := rfl
@[simp] theorem modPart_dies (s : State) (p : Nat) (f : Part → Part) : (modPart s p f).dies = s.dies := rfl
@[simp] theorem modPart_eyelets (s : State) (p : Nat) (f : Part → Part) : (modPart s p f).eyelets = s.eyelets := rfl
@[simp] theorem modPart_laces (s : State) (p : Nat) (f : Part → Part) : (modPart s p f).laces = s.laces := rfl
@[simp] theorem modPart_tallies (s : State) (p : Nat) (f : Part → Part) : (modPart s p f).tallies = s.tallies := rfl
@[simp] theorem modPart_btn (s : State) (p : Nat) (f : Part → Part) : (modPart s p f).btn = s.btn := rfl
@[simp] theorem modPart_pages (s : State) (p : Nat) (f : Part → Part) : (modPart s p f).pages = s.pages := rfl
@[simp] theorem modPart_ctxs (s : State) (p : Nat) (f : Part → Part) : (modPart s p f).ctxs = s.ctxs := rfl
@[simp] theorem modPart_mgmtSeq (s : State) (p : Nat) (f : Part → Part) : (modPart s p f).mgmtSeq = s.mgmtSeq := rfl
@[simp] theorem modPart_mgmtFwq (s : State) (p : Nat) (f : Part → Part) : (modPart s p f).mgmtFwq = s.mgmtFwq := rfl
@[simp] theorem modPart_mgmtSess (s : State) (p : Nat) (f : Part → Part) : (modPart s p f).mgmtSess = s.mgmtSess := rfl
@[simp] theorem modPart_mgmtCount (s : State) (p : Nat) (f : Part → Part) : (modPart s p f).mgmtCount = s.mgmtCount := rfl
@[simp] theorem modPart_ivtu (s : State) (p : Nat) (f : Part → Part) : (modPart s p f).ivtu = s.ivtu := rfl
@[simp] theorem modPart_mem (s : State) (p : Nat) (f : Part → Part) : (modPart s p f).mem = s.mem := rfl
@[simp] theorem modPart_hostMem (s : State) (p : Nat) (f : Part → Part) : (modPart s p f).hostMem = s.hostMem := rfl
@[simp] theorem modPart_used (s : State) (p : Nat) (f : Part → Part) : (modPart s p f).used = s.used := rfl
@[simp] theorem modPart_poison (s : State) (p : Nat) (f : Part → Part) : (modPart s p f).poison = s.poison := rfl
@[simp] theorem modPart_hbm (s : State) (p : Nat) (f : Part → Part) : (modPart s p f).hbm = s.hbm := rfl
@[simp] theorem modPart_cxl (s : State) (p : Nat) (f : Part → Part) : (modPart s p f).cxl = s.cxl := rfl
@[simp] theorem modPart_fab (s : State) (p : Nat) (f : Part → Part) : (modPart s p f).fab = s.fab := rfl
@[simp] theorem modPart_devSeq (s : State) (p : Nat) (f : Part → Part) : (modPart s p f).devSeq = s.devSeq := rfl
@[simp] theorem modPart_votes (s : State) (p : Nat) (f : Part → Part) : (modPart s p f).votes = s.votes := rfl
@[simp] theorem modPart_sec (s : State) (p : Nat) (f : Part → Part) : (modPart s p f).sec = s.sec := rfl
@[simp] theorem modPart_mi (s : State) (p : Nat) (f : Part → Part) : (modPart s p f).mi = s.mi := rfl
@[simp] theorem modPart_relia (s : State) (p : Nat) (f : Part → Part) : (modPart s p f).relia = s.relia := rfl
@[simp] theorem modPart_power (s : State) (p : Nat) (f : Part → Part) : (modPart s p f).power = s.power := rfl
@[simp] theorem modPart_pins (s : State) (p : Nat) (f : Part → Part) : (modPart s p f).pins = s.pins := rfl
@[simp] theorem modPart_ready (s : State) (p : Nat) (f : Part → Part) : (modPart s p f).ready = s.ready := rfl

/-! ### send -/

@[simp] theorem send_pending (s : State) (o : Out) : (send s o).pending = s.pending := rfl
@[simp] theorem send_work (s : State) (o : Out) : (send s o).work = s.work := rfl
@[simp] theorem send_freeIx (s : State) (o : Out) : (send s o).freeIx = s.freeIx := rfl
@[simp] theorem send_nextId (s : State) (o : Out) : (send s o).nextId = s.nextId := rfl
@[simp] theorem send_starting (s : State) (o : Out) : (send s o).starting = s.starting := rfl
@[simp] theorem send_waiting (s : State) (o : Out) : (send s o).waiting = s.waiting := rfl
@[simp] theorem send_cores (s : State) (o : Out) : (send s o).cores = s.cores := rfl
@[simp] theorem send_dies (s : State) (o : Out) : (send s o).dies = s.dies := rfl
@[simp] theorem send_eyelets (s : State) (o : Out) : (send s o).eyelets = s.eyelets := rfl
@[simp] theorem send_laces (s : State) (o : Out) : (send s o).laces = s.laces := rfl
@[simp] theorem send_tallies (s : State) (o : Out) : (send s o).tallies = s.tallies := rfl
@[simp] theorem send_btn (s : State) (o : Out) : (send s o).btn = s.btn := rfl
@[simp] theorem send_pages (s : State) (o : Out) : (send s o).pages = s.pages := rfl
@[simp] theorem send_ctxs (s : State) (o : Out) : (send s o).ctxs = s.ctxs := rfl
@[simp] theorem send_parts (s : State) (o : Out) : (send s o).parts = s.parts := rfl
@[simp] theorem send_mgmtSeq (s : State) (o : Out) : (send s o).mgmtSeq = s.mgmtSeq := rfl
@[simp] theorem send_mgmtFwq (s : State) (o : Out) : (send s o).mgmtFwq = s.mgmtFwq := rfl
@[simp] theorem send_mgmtSess (s : State) (o : Out) : (send s o).mgmtSess = s.mgmtSess := rfl
@[simp] theorem send_mgmtCount (s : State) (o : Out) : (send s o).mgmtCount = s.mgmtCount := rfl
@[simp] theorem send_ivtu (s : State) (o : Out) : (send s o).ivtu = s.ivtu := rfl
@[simp] theorem send_mem (s : State) (o : Out) : (send s o).mem = s.mem := rfl
@[simp] theorem send_hostMem (s : State) (o : Out) : (send s o).hostMem = s.hostMem := rfl
@[simp] theorem send_used (s : State) (o : Out) : (send s o).used = s.used := rfl
@[simp] theorem send_poison (s : State) (o : Out) : (send s o).poison = s.poison := rfl
@[simp] theorem send_hbm (s : State) (o : Out) : (send s o).hbm = s.hbm := rfl
@[simp] theorem send_cxl (s : State) (o : Out) : (send s o).cxl = s.cxl := rfl
@[simp] theorem send_fab (s : State) (o : Out) : (send s o).fab = s.fab := rfl
@[simp] theorem send_devSeq (s : State) (o : Out) : (send s o).devSeq = s.devSeq := rfl
@[simp] theorem send_votes (s : State) (o : Out) : (send s o).votes = s.votes := rfl
@[simp] theorem send_sec (s : State) (o : Out) : (send s o).sec = s.sec := rfl
@[simp] theorem send_mi (s : State) (o : Out) : (send s o).mi = s.mi := rfl
@[simp] theorem send_relia (s : State) (o : Out) : (send s o).relia = s.relia := rfl
@[simp] theorem send_power (s : State) (o : Out) : (send s o).power = s.power := rfl
@[simp] theorem send_pins (s : State) (o : Out) : (send s o).pins = s.pins := rfl
@[simp] theorem send_ready (s : State) (o : Out) : (send s o).ready = s.ready := rfl

/-! ### owe -/

@[simp] theorem owe_pending (s : State) (w : Work) : (owe s w).pending = s.pending := rfl
@[simp] theorem owe_sent (s : State) (w : Work) : (owe s w).sent = s.sent := rfl
@[simp] theorem owe_freeIx (s : State) (w : Work) : (owe s w).freeIx = s.freeIx := rfl
@[simp] theorem owe_nextId (s : State) (w : Work) : (owe s w).nextId = s.nextId := rfl
@[simp] theorem owe_starting (s : State) (w : Work) : (owe s w).starting = s.starting := rfl
@[simp] theorem owe_waiting (s : State) (w : Work) : (owe s w).waiting = s.waiting := rfl
@[simp] theorem owe_cores (s : State) (w : Work) : (owe s w).cores = s.cores := rfl
@[simp] theorem owe_dies (s : State) (w : Work) : (owe s w).dies = s.dies := rfl
@[simp] theorem owe_eyelets (s : State) (w : Work) : (owe s w).eyelets = s.eyelets := rfl
@[simp] theorem owe_laces (s : State) (w : Work) : (owe s w).laces = s.laces := rfl
@[simp] theorem owe_tallies (s : State) (w : Work) : (owe s w).tallies = s.tallies := rfl
@[simp] theorem owe_btn (s : State) (w : Work) : (owe s w).btn = s.btn := rfl
@[simp] theorem owe_pages (s : State) (w : Work) : (owe s w).pages = s.pages := rfl
@[simp] theorem owe_ctxs (s : State) (w : Work) : (owe s w).ctxs = s.ctxs := rfl
@[simp] theorem owe_parts (s : State) (w : Work) : (owe s w).parts = s.parts := rfl
@[simp] theorem owe_mgmtSeq (s : State) (w : Work) : (owe s w).mgmtSeq = s.mgmtSeq := rfl
@[simp] theorem owe_mgmtFwq (s : State) (w : Work) : (owe s w).mgmtFwq = s.mgmtFwq := rfl
@[simp] theorem owe_mgmtSess (s : State) (w : Work) : (owe s w).mgmtSess = s.mgmtSess := rfl
@[simp] theorem owe_mgmtCount (s : State) (w : Work) : (owe s w).mgmtCount = s.mgmtCount := rfl
@[simp] theorem owe_ivtu (s : State) (w : Work) : (owe s w).ivtu = s.ivtu := rfl
@[simp] theorem owe_mem (s : State) (w : Work) : (owe s w).mem = s.mem := rfl
@[simp] theorem owe_hostMem (s : State) (w : Work) : (owe s w).hostMem = s.hostMem := rfl
@[simp] theorem owe_used (s : State) (w : Work) : (owe s w).used = s.used := rfl
@[simp] theorem owe_poison (s : State) (w : Work) : (owe s w).poison = s.poison := rfl
@[simp] theorem owe_hbm (s : State) (w : Work) : (owe s w).hbm = s.hbm := rfl
@[simp] theorem owe_cxl (s : State) (w : Work) : (owe s w).cxl = s.cxl := rfl
@[simp] theorem owe_fab (s : State) (w : Work) : (owe s w).fab = s.fab := rfl
@[simp] theorem owe_devSeq (s : State) (w : Work) : (owe s w).devSeq = s.devSeq := rfl
@[simp] theorem owe_votes (s : State) (w : Work) : (owe s w).votes = s.votes := rfl
@[simp] theorem owe_sec (s : State) (w : Work) : (owe s w).sec = s.sec := rfl
@[simp] theorem owe_mi (s : State) (w : Work) : (owe s w).mi = s.mi := rfl
@[simp] theorem owe_relia (s : State) (w : Work) : (owe s w).relia = s.relia := rfl
@[simp] theorem owe_power (s : State) (w : Work) : (owe s w).power = s.power := rfl
@[simp] theorem owe_pins (s : State) (w : Work) : (owe s w).pins = s.pins := rfl
@[simp] theorem owe_ready (s : State) (w : Work) : (owe s w).ready = s.ready := rfl

@[simp] theorem setCoreP_cores (s : State) (p : Nat) (c : Core) : (setCoreP s p c).cores = tput {} p c s.cores := rfl
@[simp] theorem setDie_dies (s : State) (d : Nat) (x : Die) : (setDie s d x).dies = tput {} d x s.dies := rfl
@[simp] theorem setEyelet_eyelets (s : State) (e : Nat) (x : Eyelet) : (setEyelet s e x).eyelets = tput {} e x s.eyelets := rfl
@[simp] theorem setLace_laces (s : State) (l : Nat) (x : Lace) : (setLace s l x).laces = tput {} l x s.laces := rfl
@[simp] theorem setTally_tallies (s : State) (t : Nat) (x : Tally) : (setTally s t x).tallies = tput {} t x s.tallies := rfl
@[simp] theorem setPage_pages (s : State) (q : Nat) (x : Page) : (setPage s q x).pages = tput {} q x s.pages := rfl
@[simp] theorem setCtx_ctxs (s : State) (n : Nat) (x : Ctx) : (setCtx s n x).ctxs = tput {} n x s.ctxs := rfl
@[simp] theorem setPart_parts (s : State) (p : Nat) (x : Part) : (setPart s p x).parts = tput {} p x s.parts := rfl
@[simp] theorem send_sent (s : State) (o : Out) : (send s o).sent = s.sent ++ [o] := rfl
@[simp] theorem owe_work (s : State) (w : Work) : (owe s w).work = s.work ++ [w] := rfl

end Sys2Proof.Machine
end

