-- ==== Sys2Proof/Laws/Ops.lean ====
section
/-! SUPPORT. What the shared operations leave alone: firing a source, counting, writing device and host memory, and posting events
change only the parts of the state that their names say. -/
namespace Sys2Proof.Machine

-- One theorem after another: many side by side reserve more memory than the check allows.
set_option Elab.async false

/-! ### modBtn -/

@[simp] theorem modBtn_pending (s : State) (c : Nat) (f : Bittern → Bittern) : (modBtn s c f).pending = s.pending := by simp only [modBtn]; split <;> rfl
@[simp] theorem modBtn_work (s : State) (c : Nat) (f : Bittern → Bittern) : (modBtn s c f).work = s.work := by simp only [modBtn]; split <;> rfl
@[simp] theorem modBtn_freeIx (s : State) (c : Nat) (f : Bittern → Bittern) : (modBtn s c f).freeIx = s.freeIx := by simp only [modBtn]; split <;> rfl
@[simp] theorem modBtn_nextId (s : State) (c : Nat) (f : Bittern → Bittern) : (modBtn s c f).nextId = s.nextId := by simp only [modBtn]; split <;> rfl
@[simp] theorem modBtn_starting (s : State) (c : Nat) (f : Bittern → Bittern) : (modBtn s c f).starting = s.starting := by simp only [modBtn]; split <;> rfl
@[simp] theorem modBtn_waiting (s : State) (c : Nat) (f : Bittern → Bittern) : (modBtn s c f).waiting = s.waiting := by simp only [modBtn]; split <;> rfl
@[simp] theorem modBtn_cores (s : State) (c : Nat) (f : Bittern → Bittern) : (modBtn s c f).cores = s.cores := by simp only [modBtn]; split <;> rfl
@[simp] theorem modBtn_dies (s : State) (c : Nat) (f : Bittern → Bittern) : (modBtn s c f).dies = s.dies := by simp only [modBtn]; split <;> rfl
@[simp] theorem modBtn_eyelets (s : State) (c : Nat) (f : Bittern → Bittern) : (modBtn s c f).eyelets = s.eyelets := by simp only [modBtn]; split <;> rfl
@[simp] theorem modBtn_laces (s : State) (c : Nat) (f : Bittern → Bittern) : (modBtn s c f).laces = s.laces := by simp only [modBtn]; split <;> rfl
@[simp] theorem modBtn_tallies (s : State) (c : Nat) (f : Bittern → Bittern) : (modBtn s c f).tallies = s.tallies := by simp only [modBtn]; split <;> rfl
@[simp] theorem modBtn_pages (s : State) (c : Nat) (f : Bittern → Bittern) : (modBtn s c f).pages = s.pages := by simp only [modBtn]; split <;> rfl
@[simp] theorem modBtn_ctxs (s : State) (c : Nat) (f : Bittern → Bittern) : (modBtn s c f).ctxs = s.ctxs := by simp only [modBtn]; split <;> rfl
@[simp] theorem modBtn_parts (s : State) (c : Nat) (f : Bittern → Bittern) : (modBtn s c f).parts = s.parts := by simp only [modBtn]; split <;> rfl
@[simp] theorem modBtn_mgmtSeq (s : State) (c : Nat) (f : Bittern → Bittern) : (modBtn s c f).mgmtSeq = s.mgmtSeq := by simp only [modBtn]; split <;> rfl
@[simp] theorem modBtn_mgmtFwq (s : State) (c : Nat) (f : Bittern → Bittern) : (modBtn s c f).mgmtFwq = s.mgmtFwq := by simp only [modBtn]; split <;> rfl
@[simp] theorem modBtn_mgmtSess (s : State) (c : Nat) (f : Bittern → Bittern) : (modBtn s c f).mgmtSess = s.mgmtSess := by simp only [modBtn]; split <;> rfl
@[simp] theorem modBtn_mgmtCount (s : State) (c : Nat) (f : Bittern → Bittern) : (modBtn s c f).mgmtCount = s.mgmtCount := by simp only [modBtn]; split <;> rfl
@[simp] theorem modBtn_ivtu (s : State) (c : Nat) (f : Bittern → Bittern) : (modBtn s c f).ivtu = s.ivtu := by simp only [modBtn]; split <;> rfl
@[simp] theorem modBtn_mem (s : State) (c : Nat) (f : Bittern → Bittern) : (modBtn s c f).mem = s.mem := by simp only [modBtn]; split <;> rfl
@[simp] theorem modBtn_hostMem (s : State) (c : Nat) (f : Bittern → Bittern) : (modBtn s c f).hostMem = s.hostMem := by simp only [modBtn]; split <;> rfl
@[simp] theorem modBtn_used (s : State) (c : Nat) (f : Bittern → Bittern) : (modBtn s c f).used = s.used := by simp only [modBtn]; split <;> rfl
@[simp] theorem modBtn_poison (s : State) (c : Nat) (f : Bittern → Bittern) : (modBtn s c f).poison = s.poison := by simp only [modBtn]; split <;> rfl
@[simp] theorem modBtn_hbm (s : State) (c : Nat) (f : Bittern → Bittern) : (modBtn s c f).hbm = s.hbm := by simp only [modBtn]; split <;> rfl
@[simp] theorem modBtn_cxl (s : State) (c : Nat) (f : Bittern → Bittern) : (modBtn s c f).cxl = s.cxl := by simp only [modBtn]; split <;> rfl
@[simp] theorem modBtn_fab (s : State) (c : Nat) (f : Bittern → Bittern) : (modBtn s c f).fab = s.fab := by simp only [modBtn]; split <;> rfl
@[simp] theorem modBtn_devSeq (s : State) (c : Nat) (f : Bittern → Bittern) : (modBtn s c f).devSeq = s.devSeq := by simp only [modBtn]; split <;> rfl
@[simp] theorem modBtn_votes (s : State) (c : Nat) (f : Bittern → Bittern) : (modBtn s c f).votes = s.votes := by simp only [modBtn]; split <;> rfl
@[simp] theorem modBtn_sec (s : State) (c : Nat) (f : Bittern → Bittern) : (modBtn s c f).sec = s.sec := by simp only [modBtn]; split <;> rfl
@[simp] theorem modBtn_mi (s : State) (c : Nat) (f : Bittern → Bittern) : (modBtn s c f).mi = s.mi := by simp only [modBtn]; split <;> rfl
@[simp] theorem modBtn_relia (s : State) (c : Nat) (f : Bittern → Bittern) : (modBtn s c f).relia = s.relia := by simp only [modBtn]; split <;> rfl
@[simp] theorem modBtn_power (s : State) (c : Nat) (f : Bittern → Bittern) : (modBtn s c f).power = s.power := by simp only [modBtn]; split <;> rfl
@[simp] theorem modBtn_pins (s : State) (c : Nat) (f : Bittern → Bittern) : (modBtn s c f).pins = s.pins := by simp only [modBtn]; split <;> rfl
@[simp] theorem modBtn_ready (s : State) (c : Nat) (f : Bittern → Bittern) : (modBtn s c f).ready = s.ready := by simp only [modBtn]; split <;> rfl

/-! ### fire -/

@[simp] theorem fire_pending (s : State) (c n : Nat) : (fire s c n).pending = s.pending := by simp [fire]
@[simp] theorem fire_work (s : State) (c n : Nat) : (fire s c n).work = s.work := by simp [fire]
@[simp] theorem fire_freeIx (s : State) (c n : Nat) : (fire s c n).freeIx = s.freeIx := by simp [fire]
@[simp] theorem fire_nextId (s : State) (c n : Nat) : (fire s c n).nextId = s.nextId := by simp [fire]
@[simp] theorem fire_starting (s : State) (c n : Nat) : (fire s c n).starting = s.starting := by simp [fire]
@[simp] theorem fire_waiting (s : State) (c n : Nat) : (fire s c n).waiting = s.waiting := by simp [fire]
@[simp] theorem fire_cores (s : State) (c n : Nat) : (fire s c n).cores = s.cores := by simp [fire]
@[simp] theorem fire_dies (s : State) (c n : Nat) : (fire s c n).dies = s.dies := by simp [fire]
@[simp] theorem fire_eyelets (s : State) (c n : Nat) : (fire s c n).eyelets = s.eyelets := by simp [fire]
@[simp] theorem fire_laces (s : State) (c n : Nat) : (fire s c n).laces = s.laces := by simp [fire]
@[simp] theorem fire_tallies (s : State) (c n : Nat) : (fire s c n).tallies = s.tallies := by simp [fire]
@[simp] theorem fire_pages (s : State) (c n : Nat) : (fire s c n).pages = s.pages := by simp [fire]
@[simp] theorem fire_ctxs (s : State) (c n : Nat) : (fire s c n).ctxs = s.ctxs := by simp [fire]
@[simp] theorem fire_parts (s : State) (c n : Nat) : (fire s c n).parts = s.parts := by simp [fire]
@[simp] theorem fire_mgmtSeq (s : State) (c n : Nat) : (fire s c n).mgmtSeq = s.mgmtSeq := by simp [fire]
@[simp] theorem fire_mgmtFwq (s : State) (c n : Nat) : (fire s c n).mgmtFwq = s.mgmtFwq := by simp [fire]
@[simp] theorem fire_mgmtSess (s : State) (c n : Nat) : (fire s c n).mgmtSess = s.mgmtSess := by simp [fire]
@[simp] theorem fire_mgmtCount (s : State) (c n : Nat) : (fire s c n).mgmtCount = s.mgmtCount := by simp [fire]
@[simp] theorem fire_ivtu (s : State) (c n : Nat) : (fire s c n).ivtu = s.ivtu := by simp [fire]
@[simp] theorem fire_mem (s : State) (c n : Nat) : (fire s c n).mem = s.mem := by simp [fire]
@[simp] theorem fire_hostMem (s : State) (c n : Nat) : (fire s c n).hostMem = s.hostMem := by simp [fire]
@[simp] theorem fire_used (s : State) (c n : Nat) : (fire s c n).used = s.used := by simp [fire]
@[simp] theorem fire_poison (s : State) (c n : Nat) : (fire s c n).poison = s.poison := by simp [fire]
@[simp] theorem fire_hbm (s : State) (c n : Nat) : (fire s c n).hbm = s.hbm := by simp [fire]
@[simp] theorem fire_cxl (s : State) (c n : Nat) : (fire s c n).cxl = s.cxl := by simp [fire]
@[simp] theorem fire_fab (s : State) (c n : Nat) : (fire s c n).fab = s.fab := by simp [fire]
@[simp] theorem fire_devSeq (s : State) (c n : Nat) : (fire s c n).devSeq = s.devSeq := by simp [fire]
@[simp] theorem fire_votes (s : State) (c n : Nat) : (fire s c n).votes = s.votes := by simp [fire]
@[simp] theorem fire_sec (s : State) (c n : Nat) : (fire s c n).sec = s.sec := by simp [fire]
@[simp] theorem fire_mi (s : State) (c n : Nat) : (fire s c n).mi = s.mi := by simp [fire]
@[simp] theorem fire_relia (s : State) (c n : Nat) : (fire s c n).relia = s.relia := by simp [fire]
@[simp] theorem fire_power (s : State) (c n : Nat) : (fire s c n).power = s.power := by simp [fire]
@[simp] theorem fire_pins (s : State) (c n : Nat) : (fire s c n).pins = s.pins := by simp [fire]
@[simp] theorem fire_ready (s : State) (c n : Nat) : (fire s c n).ready = s.ready := by simp [fire]

/-! ### fireHub -/

@[simp] theorem fireHub_pending (s : State) (n : Nat) : (fireHub s n).pending = s.pending := by simp [fireHub]
@[simp] theorem fireHub_work (s : State) (n : Nat) : (fireHub s n).work = s.work := by simp [fireHub]
@[simp] theorem fireHub_freeIx (s : State) (n : Nat) : (fireHub s n).freeIx = s.freeIx := by simp [fireHub]
@[simp] theorem fireHub_nextId (s : State) (n : Nat) : (fireHub s n).nextId = s.nextId := by simp [fireHub]
@[simp] theorem fireHub_starting (s : State) (n : Nat) : (fireHub s n).starting = s.starting := by simp [fireHub]
@[simp] theorem fireHub_waiting (s : State) (n : Nat) : (fireHub s n).waiting = s.waiting := by simp [fireHub]
@[simp] theorem fireHub_cores (s : State) (n : Nat) : (fireHub s n).cores = s.cores := by simp [fireHub]
@[simp] theorem fireHub_dies (s : State) (n : Nat) : (fireHub s n).dies = s.dies := by simp [fireHub]
@[simp] theorem fireHub_eyelets (s : State) (n : Nat) : (fireHub s n).eyelets = s.eyelets := by simp [fireHub]
@[simp] theorem fireHub_laces (s : State) (n : Nat) : (fireHub s n).laces = s.laces := by simp [fireHub]
@[simp] theorem fireHub_tallies (s : State) (n : Nat) : (fireHub s n).tallies = s.tallies := by simp [fireHub]
@[simp] theorem fireHub_pages (s : State) (n : Nat) : (fireHub s n).pages = s.pages := by simp [fireHub]
@[simp] theorem fireHub_ctxs (s : State) (n : Nat) : (fireHub s n).ctxs = s.ctxs := by simp [fireHub]
@[simp] theorem fireHub_parts (s : State) (n : Nat) : (fireHub s n).parts = s.parts := by simp [fireHub]
@[simp] theorem fireHub_mgmtSeq (s : State) (n : Nat) : (fireHub s n).mgmtSeq = s.mgmtSeq := by simp [fireHub]
@[simp] theorem fireHub_mgmtFwq (s : State) (n : Nat) : (fireHub s n).mgmtFwq = s.mgmtFwq := by simp [fireHub]
@[simp] theorem fireHub_mgmtSess (s : State) (n : Nat) : (fireHub s n).mgmtSess = s.mgmtSess := by simp [fireHub]
@[simp] theorem fireHub_mgmtCount (s : State) (n : Nat) : (fireHub s n).mgmtCount = s.mgmtCount := by simp [fireHub]
@[simp] theorem fireHub_ivtu (s : State) (n : Nat) : (fireHub s n).ivtu = s.ivtu := by simp [fireHub]
@[simp] theorem fireHub_mem (s : State) (n : Nat) : (fireHub s n).mem = s.mem := by simp [fireHub]
@[simp] theorem fireHub_hostMem (s : State) (n : Nat) : (fireHub s n).hostMem = s.hostMem := by simp [fireHub]
@[simp] theorem fireHub_used (s : State) (n : Nat) : (fireHub s n).used = s.used := by simp [fireHub]
@[simp] theorem fireHub_poison (s : State) (n : Nat) : (fireHub s n).poison = s.poison := by simp [fireHub]
@[simp] theorem fireHub_hbm (s : State) (n : Nat) : (fireHub s n).hbm = s.hbm := by simp [fireHub]
@[simp] theorem fireHub_cxl (s : State) (n : Nat) : (fireHub s n).cxl = s.cxl := by simp [fireHub]
@[simp] theorem fireHub_fab (s : State) (n : Nat) : (fireHub s n).fab = s.fab := by simp [fireHub]
@[simp] theorem fireHub_devSeq (s : State) (n : Nat) : (fireHub s n).devSeq = s.devSeq := by simp [fireHub]
@[simp] theorem fireHub_votes (s : State) (n : Nat) : (fireHub s n).votes = s.votes := by simp [fireHub]
@[simp] theorem fireHub_sec (s : State) (n : Nat) : (fireHub s n).sec = s.sec := by simp [fireHub]
@[simp] theorem fireHub_mi (s : State) (n : Nat) : (fireHub s n).mi = s.mi := by simp [fireHub]
@[simp] theorem fireHub_relia (s : State) (n : Nat) : (fireHub s n).relia = s.relia := by simp [fireHub]
@[simp] theorem fireHub_power (s : State) (n : Nat) : (fireHub s n).power = s.power := by simp [fireHub]
@[simp] theorem fireHub_pins (s : State) (n : Nat) : (fireHub s n).pins = s.pins := by simp [fireHub]
@[simp] theorem fireHub_ready (s : State) (n : Nat) : (fireHub s n).ready = s.ready := by simp [fireHub]

/-! ### fireDie -/

@[simp] theorem fireDie_pending (s : State) (d n : Nat) : (fireDie s d n).pending = s.pending := by simp [fireDie]
@[simp] theorem fireDie_work (s : State) (d n : Nat) : (fireDie s d n).work = s.work := by simp [fireDie]
@[simp] theorem fireDie_freeIx (s : State) (d n : Nat) : (fireDie s d n).freeIx = s.freeIx := by simp [fireDie]
@[simp] theorem fireDie_nextId (s : State) (d n : Nat) : (fireDie s d n).nextId = s.nextId := by simp [fireDie]
@[simp] theorem fireDie_starting (s : State) (d n : Nat) : (fireDie s d n).starting = s.starting := by simp [fireDie]
@[simp] theorem fireDie_waiting (s : State) (d n : Nat) : (fireDie s d n).waiting = s.waiting := by simp [fireDie]
@[simp] theorem fireDie_cores (s : State) (d n : Nat) : (fireDie s d n).cores = s.cores := by simp [fireDie]
@[simp] theorem fireDie_dies (s : State) (d n : Nat) : (fireDie s d n).dies = s.dies := by simp [fireDie]
@[simp] theorem fireDie_eyelets (s : State) (d n : Nat) : (fireDie s d n).eyelets = s.eyelets := by simp [fireDie]
@[simp] theorem fireDie_laces (s : State) (d n : Nat) : (fireDie s d n).laces = s.laces := by simp [fireDie]
@[simp] theorem fireDie_tallies (s : State) (d n : Nat) : (fireDie s d n).tallies = s.tallies := by simp [fireDie]
@[simp] theorem fireDie_pages (s : State) (d n : Nat) : (fireDie s d n).pages = s.pages := by simp [fireDie]
@[simp] theorem fireDie_ctxs (s : State) (d n : Nat) : (fireDie s d n).ctxs = s.ctxs := by simp [fireDie]
@[simp] theorem fireDie_parts (s : State) (d n : Nat) : (fireDie s d n).parts = s.parts := by simp [fireDie]
@[simp] theorem fireDie_mgmtSeq (s : State) (d n : Nat) : (fireDie s d n).mgmtSeq = s.mgmtSeq := by simp [fireDie]
@[simp] theorem fireDie_mgmtFwq (s : State) (d n : Nat) : (fireDie s d n).mgmtFwq = s.mgmtFwq := by simp [fireDie]
@[simp] theorem fireDie_mgmtSess (s : State) (d n : Nat) : (fireDie s d n).mgmtSess = s.mgmtSess := by simp [fireDie]
@[simp] theorem fireDie_mgmtCount (s : State) (d n : Nat) : (fireDie s d n).mgmtCount = s.mgmtCount := by simp [fireDie]
@[simp] theorem fireDie_ivtu (s : State) (d n : Nat) : (fireDie s d n).ivtu = s.ivtu := by simp [fireDie]
@[simp] theorem fireDie_mem (s : State) (d n : Nat) : (fireDie s d n).mem = s.mem := by simp [fireDie]
@[simp] theorem fireDie_hostMem (s : State) (d n : Nat) : (fireDie s d n).hostMem = s.hostMem := by simp [fireDie]
@[simp] theorem fireDie_used (s : State) (d n : Nat) : (fireDie s d n).used = s.used := by simp [fireDie]
@[simp] theorem fireDie_poison (s : State) (d n : Nat) : (fireDie s d n).poison = s.poison := by simp [fireDie]
@[simp] theorem fireDie_hbm (s : State) (d n : Nat) : (fireDie s d n).hbm = s.hbm := by simp [fireDie]
@[simp] theorem fireDie_cxl (s : State) (d n : Nat) : (fireDie s d n).cxl = s.cxl := by simp [fireDie]
@[simp] theorem fireDie_fab (s : State) (d n : Nat) : (fireDie s d n).fab = s.fab := by simp [fireDie]
@[simp] theorem fireDie_devSeq (s : State) (d n : Nat) : (fireDie s d n).devSeq = s.devSeq := by simp [fireDie]
@[simp] theorem fireDie_votes (s : State) (d n : Nat) : (fireDie s d n).votes = s.votes := by simp [fireDie]
@[simp] theorem fireDie_sec (s : State) (d n : Nat) : (fireDie s d n).sec = s.sec := by simp [fireDie]
@[simp] theorem fireDie_mi (s : State) (d n : Nat) : (fireDie s d n).mi = s.mi := by simp [fireDie]
@[simp] theorem fireDie_relia (s : State) (d n : Nat) : (fireDie s d n).relia = s.relia := by simp [fireDie]
@[simp] theorem fireDie_power (s : State) (d n : Nat) : (fireDie s d n).power = s.power := by simp [fireDie]
@[simp] theorem fireDie_pins (s : State) (d n : Nat) : (fireDie s d n).pins = s.pins := by simp [fireDie]
@[simp] theorem fireDie_ready (s : State) (d n : Nat) : (fireDie s d n).ready = s.ready := by simp [fireDie]

/-! ### regError -/

@[simp] theorem regError_pending (s : State) : (regError s).pending = s.pending := by simp [regError]
@[simp] theorem regError_work (s : State) : (regError s).work = s.work := by simp [regError]
@[simp] theorem regError_freeIx (s : State) : (regError s).freeIx = s.freeIx := by simp [regError]
@[simp] theorem regError_nextId (s : State) : (regError s).nextId = s.nextId := by simp [regError]
@[simp] theorem regError_starting (s : State) : (regError s).starting = s.starting := by simp [regError]
@[simp] theorem regError_waiting (s : State) : (regError s).waiting = s.waiting := by simp [regError]
@[simp] theorem regError_cores (s : State) : (regError s).cores = s.cores := by simp [regError]
@[simp] theorem regError_dies (s : State) : (regError s).dies = s.dies := by simp [regError]
@[simp] theorem regError_eyelets (s : State) : (regError s).eyelets = s.eyelets := by simp [regError]
@[simp] theorem regError_laces (s : State) : (regError s).laces = s.laces := by simp [regError]
@[simp] theorem regError_tallies (s : State) : (regError s).tallies = s.tallies := by simp [regError]
@[simp] theorem regError_pages (s : State) : (regError s).pages = s.pages := by simp [regError]
@[simp] theorem regError_ctxs (s : State) : (regError s).ctxs = s.ctxs := by simp [regError]
@[simp] theorem regError_parts (s : State) : (regError s).parts = s.parts := by simp [regError]
@[simp] theorem regError_mgmtSeq (s : State) : (regError s).mgmtSeq = s.mgmtSeq := by simp [regError]
@[simp] theorem regError_mgmtFwq (s : State) : (regError s).mgmtFwq = s.mgmtFwq := by simp [regError]
@[simp] theorem regError_mgmtSess (s : State) : (regError s).mgmtSess = s.mgmtSess := by simp [regError]
@[simp] theorem regError_mgmtCount (s : State) : (regError s).mgmtCount = s.mgmtCount := by simp [regError]
@[simp] theorem regError_ivtu (s : State) : (regError s).ivtu = s.ivtu := by simp [regError]
@[simp] theorem regError_mem (s : State) : (regError s).mem = s.mem := by simp [regError]
@[simp] theorem regError_hostMem (s : State) : (regError s).hostMem = s.hostMem := by simp [regError]
@[simp] theorem regError_used (s : State) : (regError s).used = s.used := by simp [regError]
@[simp] theorem regError_poison (s : State) : (regError s).poison = s.poison := by simp [regError]
@[simp] theorem regError_hbm (s : State) : (regError s).hbm = s.hbm := by simp [regError]
@[simp] theorem regError_cxl (s : State) : (regError s).cxl = s.cxl := by simp [regError]
@[simp] theorem regError_fab (s : State) : (regError s).fab = s.fab := by simp [regError]
@[simp] theorem regError_devSeq (s : State) : (regError s).devSeq = s.devSeq := by simp [regError]
@[simp] theorem regError_votes (s : State) : (regError s).votes = s.votes := by simp [regError]
@[simp] theorem regError_sec (s : State) : (regError s).sec = s.sec := by simp [regError]
@[simp] theorem regError_mi (s : State) : (regError s).mi = s.mi := by simp [regError]
@[simp] theorem regError_relia (s : State) : (regError s).relia = s.relia := by simp [regError]
@[simp] theorem regError_power (s : State) : (regError s).power = s.power := by simp [regError]
@[simp] theorem regError_pins (s : State) : (regError s).pins = s.pins := by simp [regError]
@[simp] theorem regError_ready (s : State) : (regError s).ready = s.ready := by simp [regError]

/-! ### fireCore -/

@[simp] theorem fireCore_pending (s : State) (p i : Nat) : (fireCore s p i).pending = s.pending := by simp [fireCore]
@[simp] theorem fireCore_work (s : State) (p i : Nat) : (fireCore s p i).work = s.work := by simp [fireCore]
@[simp] theorem fireCore_freeIx (s : State) (p i : Nat) : (fireCore s p i).freeIx = s.freeIx := by simp [fireCore]
@[simp] theorem fireCore_nextId (s : State) (p i : Nat) : (fireCore s p i).nextId = s.nextId := by simp [fireCore]
@[simp] theorem fireCore_starting (s : State) (p i : Nat) : (fireCore s p i).starting = s.starting := by simp [fireCore]
@[simp] theorem fireCore_waiting (s : State) (p i : Nat) : (fireCore s p i).waiting = s.waiting := by simp [fireCore]
@[simp] theorem fireCore_cores (s : State) (p i : Nat) : (fireCore s p i).cores = s.cores := by simp [fireCore]
@[simp] theorem fireCore_dies (s : State) (p i : Nat) : (fireCore s p i).dies = s.dies := by simp [fireCore]
@[simp] theorem fireCore_eyelets (s : State) (p i : Nat) : (fireCore s p i).eyelets = s.eyelets := by simp [fireCore]
@[simp] theorem fireCore_laces (s : State) (p i : Nat) : (fireCore s p i).laces = s.laces := by simp [fireCore]
@[simp] theorem fireCore_tallies (s : State) (p i : Nat) : (fireCore s p i).tallies = s.tallies := by simp [fireCore]
@[simp] theorem fireCore_pages (s : State) (p i : Nat) : (fireCore s p i).pages = s.pages := by simp [fireCore]
@[simp] theorem fireCore_ctxs (s : State) (p i : Nat) : (fireCore s p i).ctxs = s.ctxs := by simp [fireCore]
@[simp] theorem fireCore_parts (s : State) (p i : Nat) : (fireCore s p i).parts = s.parts := by simp [fireCore]
@[simp] theorem fireCore_mgmtSeq (s : State) (p i : Nat) : (fireCore s p i).mgmtSeq = s.mgmtSeq := by simp [fireCore]
@[simp] theorem fireCore_mgmtFwq (s : State) (p i : Nat) : (fireCore s p i).mgmtFwq = s.mgmtFwq := by simp [fireCore]
@[simp] theorem fireCore_mgmtSess (s : State) (p i : Nat) : (fireCore s p i).mgmtSess = s.mgmtSess := by simp [fireCore]
@[simp] theorem fireCore_mgmtCount (s : State) (p i : Nat) : (fireCore s p i).mgmtCount = s.mgmtCount := by simp [fireCore]
@[simp] theorem fireCore_ivtu (s : State) (p i : Nat) : (fireCore s p i).ivtu = s.ivtu := by simp [fireCore]
@[simp] theorem fireCore_mem (s : State) (p i : Nat) : (fireCore s p i).mem = s.mem := by simp [fireCore]
@[simp] theorem fireCore_hostMem (s : State) (p i : Nat) : (fireCore s p i).hostMem = s.hostMem := by simp [fireCore]
@[simp] theorem fireCore_used (s : State) (p i : Nat) : (fireCore s p i).used = s.used := by simp [fireCore]
@[simp] theorem fireCore_poison (s : State) (p i : Nat) : (fireCore s p i).poison = s.poison := by simp [fireCore]
@[simp] theorem fireCore_hbm (s : State) (p i : Nat) : (fireCore s p i).hbm = s.hbm := by simp [fireCore]
@[simp] theorem fireCore_cxl (s : State) (p i : Nat) : (fireCore s p i).cxl = s.cxl := by simp [fireCore]
@[simp] theorem fireCore_fab (s : State) (p i : Nat) : (fireCore s p i).fab = s.fab := by simp [fireCore]
@[simp] theorem fireCore_devSeq (s : State) (p i : Nat) : (fireCore s p i).devSeq = s.devSeq := by simp [fireCore]
@[simp] theorem fireCore_votes (s : State) (p i : Nat) : (fireCore s p i).votes = s.votes := by simp [fireCore]
@[simp] theorem fireCore_sec (s : State) (p i : Nat) : (fireCore s p i).sec = s.sec := by simp [fireCore]
@[simp] theorem fireCore_mi (s : State) (p i : Nat) : (fireCore s p i).mi = s.mi := by simp [fireCore]
@[simp] theorem fireCore_relia (s : State) (p i : Nat) : (fireCore s p i).relia = s.relia := by simp [fireCore]
@[simp] theorem fireCore_power (s : State) (p i : Nat) : (fireCore s p i).power = s.power := by simp [fireCore]
@[simp] theorem fireCore_pins (s : State) (p i : Nat) : (fireCore s p i).pins = s.pins := by simp [fireCore]
@[simp] theorem fireCore_ready (s : State) (p i : Nat) : (fireCore s p i).ready = s.ready := by simp [fireCore]

/-! ### fireIfEnabled -/

@[simp] theorem fireIfEnabled_pending (s : State) (w : Bool) (c n : Nat) : (fireIfEnabled s w c n).pending = s.pending := by simp only [fireIfEnabled]; split <;> simp
@[simp] theorem fireIfEnabled_work (s : State) (w : Bool) (c n : Nat) : (fireIfEnabled s w c n).work = s.work := by simp only [fireIfEnabled]; split <;> simp
@[simp] theorem fireIfEnabled_freeIx (s : State) (w : Bool) (c n : Nat) : (fireIfEnabled s w c n).freeIx = s.freeIx := by simp only [fireIfEnabled]; split <;> simp
@[simp] theorem fireIfEnabled_nextId (s : State) (w : Bool) (c n : Nat) : (fireIfEnabled s w c n).nextId = s.nextId := by simp only [fireIfEnabled]; split <;> simp
@[simp] theorem fireIfEnabled_starting (s : State) (w : Bool) (c n : Nat) : (fireIfEnabled s w c n).starting = s.starting := by simp only [fireIfEnabled]; split <;> simp
@[simp] theorem fireIfEnabled_waiting (s : State) (w : Bool) (c n : Nat) : (fireIfEnabled s w c n).waiting = s.waiting := by simp only [fireIfEnabled]; split <;> simp
@[simp] theorem fireIfEnabled_cores (s : State) (w : Bool) (c n : Nat) : (fireIfEnabled s w c n).cores = s.cores := by simp only [fireIfEnabled]; split <;> simp
@[simp] theorem fireIfEnabled_dies (s : State) (w : Bool) (c n : Nat) : (fireIfEnabled s w c n).dies = s.dies := by simp only [fireIfEnabled]; split <;> simp
@[simp] theorem fireIfEnabled_eyelets (s : State) (w : Bool) (c n : Nat) : (fireIfEnabled s w c n).eyelets = s.eyelets := by simp only [fireIfEnabled]; split <;> simp
@[simp] theorem fireIfEnabled_laces (s : State) (w : Bool) (c n : Nat) : (fireIfEnabled s w c n).laces = s.laces := by simp only [fireIfEnabled]; split <;> simp
@[simp] theorem fireIfEnabled_tallies (s : State) (w : Bool) (c n : Nat) : (fireIfEnabled s w c n).tallies = s.tallies := by simp only [fireIfEnabled]; split <;> simp
@[simp] theorem fireIfEnabled_pages (s : State) (w : Bool) (c n : Nat) : (fireIfEnabled s w c n).pages = s.pages := by simp only [fireIfEnabled]; split <;> simp
@[simp] theorem fireIfEnabled_ctxs (s : State) (w : Bool) (c n : Nat) : (fireIfEnabled s w c n).ctxs = s.ctxs := by simp only [fireIfEnabled]; split <;> simp
@[simp] theorem fireIfEnabled_parts (s : State) (w : Bool) (c n : Nat) : (fireIfEnabled s w c n).parts = s.parts := by simp only [fireIfEnabled]; split <;> simp
@[simp] theorem fireIfEnabled_mgmtSeq (s : State) (w : Bool) (c n : Nat) : (fireIfEnabled s w c n).mgmtSeq = s.mgmtSeq := by simp only [fireIfEnabled]; split <;> simp
@[simp] theorem fireIfEnabled_mgmtFwq (s : State) (w : Bool) (c n : Nat) : (fireIfEnabled s w c n).mgmtFwq = s.mgmtFwq := by simp only [fireIfEnabled]; split <;> simp
@[simp] theorem fireIfEnabled_mgmtSess (s : State) (w : Bool) (c n : Nat) : (fireIfEnabled s w c n).mgmtSess = s.mgmtSess := by simp only [fireIfEnabled]; split <;> simp
@[simp] theorem fireIfEnabled_mgmtCount (s : State) (w : Bool) (c n : Nat) : (fireIfEnabled s w c n).mgmtCount = s.mgmtCount := by simp only [fireIfEnabled]; split <;> simp
@[simp] theorem fireIfEnabled_ivtu (s : State) (w : Bool) (c n : Nat) : (fireIfEnabled s w c n).ivtu = s.ivtu := by simp only [fireIfEnabled]; split <;> simp
@[simp] theorem fireIfEnabled_mem (s : State) (w : Bool) (c n : Nat) : (fireIfEnabled s w c n).mem = s.mem := by simp only [fireIfEnabled]; split <;> simp
@[simp] theorem fireIfEnabled_hostMem (s : State) (w : Bool) (c n : Nat) : (fireIfEnabled s w c n).hostMem = s.hostMem := by simp only [fireIfEnabled]; split <;> simp
@[simp] theorem fireIfEnabled_used (s : State) (w : Bool) (c n : Nat) : (fireIfEnabled s w c n).used = s.used := by simp only [fireIfEnabled]; split <;> simp
@[simp] theorem fireIfEnabled_poison (s : State) (w : Bool) (c n : Nat) : (fireIfEnabled s w c n).poison = s.poison := by simp only [fireIfEnabled]; split <;> simp
@[simp] theorem fireIfEnabled_hbm (s : State) (w : Bool) (c n : Nat) : (fireIfEnabled s w c n).hbm = s.hbm := by simp only [fireIfEnabled]; split <;> simp
@[simp] theorem fireIfEnabled_cxl (s : State) (w : Bool) (c n : Nat) : (fireIfEnabled s w c n).cxl = s.cxl := by simp only [fireIfEnabled]; split <;> simp
@[simp] theorem fireIfEnabled_fab (s : State) (w : Bool) (c n : Nat) : (fireIfEnabled s w c n).fab = s.fab := by simp only [fireIfEnabled]; split <;> simp
@[simp] theorem fireIfEnabled_devSeq (s : State) (w : Bool) (c n : Nat) : (fireIfEnabled s w c n).devSeq = s.devSeq := by simp only [fireIfEnabled]; split <;> simp
@[simp] theorem fireIfEnabled_votes (s : State) (w : Bool) (c n : Nat) : (fireIfEnabled s w c n).votes = s.votes := by simp only [fireIfEnabled]; split <;> simp
@[simp] theorem fireIfEnabled_sec (s : State) (w : Bool) (c n : Nat) : (fireIfEnabled s w c n).sec = s.sec := by simp only [fireIfEnabled]; split <;> simp
@[simp] theorem fireIfEnabled_mi (s : State) (w : Bool) (c n : Nat) : (fireIfEnabled s w c n).mi = s.mi := by simp only [fireIfEnabled]; split <;> simp
@[simp] theorem fireIfEnabled_relia (s : State) (w : Bool) (c n : Nat) : (fireIfEnabled s w c n).relia = s.relia := by simp only [fireIfEnabled]; split <;> simp
@[simp] theorem fireIfEnabled_power (s : State) (w : Bool) (c n : Nat) : (fireIfEnabled s w c n).power = s.power := by simp only [fireIfEnabled]; split <;> simp
@[simp] theorem fireIfEnabled_pins (s : State) (w : Bool) (c n : Nat) : (fireIfEnabled s w c n).pins = s.pins := by simp only [fireIfEnabled]; split <;> simp
@[simp] theorem fireIfEnabled_ready (s : State) (w : Bool) (c n : Nat) : (fireIfEnabled s w c n).ready = s.ready := by simp only [fireIfEnabled]; split <;> simp

/-! ### countCore -/

@[simp] theorem countCore_pending (s : State) (p i n : Nat) (g : Core → Counter) (f : Core → Counter → Core) : (countCore s p i n g f).pending = s.pending := by simp [countCore]
@[simp] theorem countCore_work (s : State) (p i n : Nat) (g : Core → Counter) (f : Core → Counter → Core) : (countCore s p i n g f).work = s.work := by simp [countCore]
@[simp] theorem countCore_freeIx (s : State) (p i n : Nat) (g : Core → Counter) (f : Core → Counter → Core) : (countCore s p i n g f).freeIx = s.freeIx := by simp [countCore]
@[simp] theorem countCore_nextId (s : State) (p i n : Nat) (g : Core → Counter) (f : Core → Counter → Core) : (countCore s p i n g f).nextId = s.nextId := by simp [countCore]
@[simp] theorem countCore_starting (s : State) (p i n : Nat) (g : Core → Counter) (f : Core → Counter → Core) : (countCore s p i n g f).starting = s.starting := by simp [countCore]
@[simp] theorem countCore_waiting (s : State) (p i n : Nat) (g : Core → Counter) (f : Core → Counter → Core) : (countCore s p i n g f).waiting = s.waiting := by simp [countCore]
@[simp] theorem countCore_dies (s : State) (p i n : Nat) (g : Core → Counter) (f : Core → Counter → Core) : (countCore s p i n g f).dies = s.dies := by simp [countCore]
@[simp] theorem countCore_eyelets (s : State) (p i n : Nat) (g : Core → Counter) (f : Core → Counter → Core) : (countCore s p i n g f).eyelets = s.eyelets := by simp [countCore]
@[simp] theorem countCore_laces (s : State) (p i n : Nat) (g : Core → Counter) (f : Core → Counter → Core) : (countCore s p i n g f).laces = s.laces := by simp [countCore]
@[simp] theorem countCore_tallies (s : State) (p i n : Nat) (g : Core → Counter) (f : Core → Counter → Core) : (countCore s p i n g f).tallies = s.tallies := by simp [countCore]
@[simp] theorem countCore_pages (s : State) (p i n : Nat) (g : Core → Counter) (f : Core → Counter → Core) : (countCore s p i n g f).pages = s.pages := by simp [countCore]
@[simp] theorem countCore_ctxs (s : State) (p i n : Nat) (g : Core → Counter) (f : Core → Counter → Core) : (countCore s p i n g f).ctxs = s.ctxs := by simp [countCore]
@[simp] theorem countCore_parts (s : State) (p i n : Nat) (g : Core → Counter) (f : Core → Counter → Core) : (countCore s p i n g f).parts = s.parts := by simp [countCore]
@[simp] theorem countCore_mgmtSeq (s : State) (p i n : Nat) (g : Core → Counter) (f : Core → Counter → Core) : (countCore s p i n g f).mgmtSeq = s.mgmtSeq := by simp [countCore]
@[simp] theorem countCore_mgmtFwq (s : State) (p i n : Nat) (g : Core → Counter) (f : Core → Counter → Core) : (countCore s p i n g f).mgmtFwq = s.mgmtFwq := by simp [countCore]
@[simp] theorem countCore_mgmtSess (s : State) (p i n : Nat) (g : Core → Counter) (f : Core → Counter → Core) : (countCore s p i n g f).mgmtSess = s.mgmtSess := by simp [countCore]
@[simp] theorem countCore_mgmtCount (s : State) (p i n : Nat) (g : Core → Counter) (f : Core → Counter → Core) : (countCore s p i n g f).mgmtCount = s.mgmtCount := by simp [countCore]
@[simp] theorem countCore_ivtu (s : State) (p i n : Nat) (g : Core → Counter) (f : Core → Counter → Core) : (countCore s p i n g f).ivtu = s.ivtu := by simp [countCore]
@[simp] theorem countCore_mem (s : State) (p i n : Nat) (g : Core → Counter) (f : Core → Counter → Core) : (countCore s p i n g f).mem = s.mem := by simp [countCore]
@[simp] theorem countCore_hostMem (s : State) (p i n : Nat) (g : Core → Counter) (f : Core → Counter → Core) : (countCore s p i n g f).hostMem = s.hostMem := by simp [countCore]
@[simp] theorem countCore_used (s : State) (p i n : Nat) (g : Core → Counter) (f : Core → Counter → Core) : (countCore s p i n g f).used = s.used := by simp [countCore]
@[simp] theorem countCore_poison (s : State) (p i n : Nat) (g : Core → Counter) (f : Core → Counter → Core) : (countCore s p i n g f).poison = s.poison := by simp [countCore]
@[simp] theorem countCore_hbm (s : State) (p i n : Nat) (g : Core → Counter) (f : Core → Counter → Core) : (countCore s p i n g f).hbm = s.hbm := by simp [countCore]
@[simp] theorem countCore_cxl (s : State) (p i n : Nat) (g : Core → Counter) (f : Core → Counter → Core) : (countCore s p i n g f).cxl = s.cxl := by simp [countCore]
@[simp] theorem countCore_fab (s : State) (p i n : Nat) (g : Core → Counter) (f : Core → Counter → Core) : (countCore s p i n g f).fab = s.fab := by simp [countCore]
@[simp] theorem countCore_devSeq (s : State) (p i n : Nat) (g : Core → Counter) (f : Core → Counter → Core) : (countCore s p i n g f).devSeq = s.devSeq := by simp [countCore]
@[simp] theorem countCore_votes (s : State) (p i n : Nat) (g : Core → Counter) (f : Core → Counter → Core) : (countCore s p i n g f).votes = s.votes := by simp [countCore]
@[simp] theorem countCore_sec (s : State) (p i n : Nat) (g : Core → Counter) (f : Core → Counter → Core) : (countCore s p i n g f).sec = s.sec := by simp [countCore]
@[simp] theorem countCore_mi (s : State) (p i n : Nat) (g : Core → Counter) (f : Core → Counter → Core) : (countCore s p i n g f).mi = s.mi := by simp [countCore]
@[simp] theorem countCore_relia (s : State) (p i n : Nat) (g : Core → Counter) (f : Core → Counter → Core) : (countCore s p i n g f).relia = s.relia := by simp [countCore]
@[simp] theorem countCore_power (s : State) (p i n : Nat) (g : Core → Counter) (f : Core → Counter → Core) : (countCore s p i n g f).power = s.power := by simp [countCore]
@[simp] theorem countCore_pins (s : State) (p i n : Nat) (g : Core → Counter) (f : Core → Counter → Core) : (countCore s p i n g f).pins = s.pins := by simp [countCore]
@[simp] theorem countCore_ready (s : State) (p i n : Nat) (g : Core → Counter) (f : Core → Counter → Core) : (countCore s p i n g f).ready = s.ready := by simp [countCore]

/-! ### wakeCore -/

@[simp] theorem wakeCore_pending (s : State) (k : Nat) : (wakeCore s k).pending = s.pending := by simp only [wakeCore]; split <;> rfl
@[simp] theorem wakeCore_work (s : State) (k : Nat) : (wakeCore s k).work = s.work := by simp only [wakeCore]; split <;> rfl
@[simp] theorem wakeCore_sent (s : State) (k : Nat) : (wakeCore s k).sent = s.sent := by simp only [wakeCore]; split <;> rfl
@[simp] theorem wakeCore_freeIx (s : State) (k : Nat) : (wakeCore s k).freeIx = s.freeIx := by simp only [wakeCore]; split <;> rfl
@[simp] theorem wakeCore_nextId (s : State) (k : Nat) : (wakeCore s k).nextId = s.nextId := by simp only [wakeCore]; split <;> rfl
@[simp] theorem wakeCore_starting (s : State) (k : Nat) : (wakeCore s k).starting = s.starting := by simp only [wakeCore]; split <;> rfl
@[simp] theorem wakeCore_waiting (s : State) (k : Nat) : (wakeCore s k).waiting = s.waiting := by simp only [wakeCore]; split <;> rfl
@[simp] theorem wakeCore_dies (s : State) (k : Nat) : (wakeCore s k).dies = s.dies := by simp only [wakeCore]; split <;> rfl
@[simp] theorem wakeCore_eyelets (s : State) (k : Nat) : (wakeCore s k).eyelets = s.eyelets := by simp only [wakeCore]; split <;> rfl
@[simp] theorem wakeCore_laces (s : State) (k : Nat) : (wakeCore s k).laces = s.laces := by simp only [wakeCore]; split <;> rfl
@[simp] theorem wakeCore_tallies (s : State) (k : Nat) : (wakeCore s k).tallies = s.tallies := by simp only [wakeCore]; split <;> rfl
@[simp] theorem wakeCore_btn (s : State) (k : Nat) : (wakeCore s k).btn = s.btn := by simp only [wakeCore]; split <;> rfl
@[simp] theorem wakeCore_pages (s : State) (k : Nat) : (wakeCore s k).pages = s.pages := by simp only [wakeCore]; split <;> rfl
@[simp] theorem wakeCore_ctxs (s : State) (k : Nat) : (wakeCore s k).ctxs = s.ctxs := by simp only [wakeCore]; split <;> rfl
@[simp] theorem wakeCore_parts (s : State) (k : Nat) : (wakeCore s k).parts = s.parts := by simp only [wakeCore]; split <;> rfl
@[simp] theorem wakeCore_mgmtSeq (s : State) (k : Nat) : (wakeCore s k).mgmtSeq = s.mgmtSeq := by simp only [wakeCore]; split <;> rfl
@[simp] theorem wakeCore_mgmtFwq (s : State) (k : Nat) : (wakeCore s k).mgmtFwq = s.mgmtFwq := by simp only [wakeCore]; split <;> rfl
@[simp] theorem wakeCore_mgmtSess (s : State) (k : Nat) : (wakeCore s k).mgmtSess = s.mgmtSess := by simp only [wakeCore]; split <;> rfl
@[simp] theorem wakeCore_mgmtCount (s : State) (k : Nat) : (wakeCore s k).mgmtCount = s.mgmtCount := by simp only [wakeCore]; split <;> rfl
@[simp] theorem wakeCore_ivtu (s : State) (k : Nat) : (wakeCore s k).ivtu = s.ivtu := by simp only [wakeCore]; split <;> rfl
@[simp] theorem wakeCore_mem (s : State) (k : Nat) : (wakeCore s k).mem = s.mem := by simp only [wakeCore]; split <;> rfl
@[simp] theorem wakeCore_hostMem (s : State) (k : Nat) : (wakeCore s k).hostMem = s.hostMem := by simp only [wakeCore]; split <;> rfl
@[simp] theorem wakeCore_used (s : State) (k : Nat) : (wakeCore s k).used = s.used := by simp only [wakeCore]; split <;> rfl
@[simp] theorem wakeCore_poison (s : State) (k : Nat) : (wakeCore s k).poison = s.poison := by simp only [wakeCore]; split <;> rfl
@[simp] theorem wakeCore_hbm (s : State) (k : Nat) : (wakeCore s k).hbm = s.hbm := by simp only [wakeCore]; split <;> rfl
@[simp] theorem wakeCore_cxl (s : State) (k : Nat) : (wakeCore s k).cxl = s.cxl := by simp only [wakeCore]; split <;> rfl
@[simp] theorem wakeCore_fab (s : State) (k : Nat) : (wakeCore s k).fab = s.fab := by simp only [wakeCore]; split <;> rfl
@[simp] theorem wakeCore_devSeq (s : State) (k : Nat) : (wakeCore s k).devSeq = s.devSeq := by simp only [wakeCore]; split <;> rfl
@[simp] theorem wakeCore_votes (s : State) (k : Nat) : (wakeCore s k).votes = s.votes := by simp only [wakeCore]; split <;> rfl
@[simp] theorem wakeCore_sec (s : State) (k : Nat) : (wakeCore s k).sec = s.sec := by simp only [wakeCore]; split <;> rfl
@[simp] theorem wakeCore_mi (s : State) (k : Nat) : (wakeCore s k).mi = s.mi := by simp only [wakeCore]; split <;> rfl
@[simp] theorem wakeCore_relia (s : State) (k : Nat) : (wakeCore s k).relia = s.relia := by simp only [wakeCore]; split <;> rfl
@[simp] theorem wakeCore_pins (s : State) (k : Nat) : (wakeCore s k).pins = s.pins := by simp only [wakeCore]; split <;> rfl
@[simp] theorem wakeCore_ready (s : State) (k : Nat) : (wakeCore s k).ready = s.ready := by simp only [wakeCore]; split <;> rfl

/-! ### countIntegrity -/

@[simp] theorem countIntegrity_pending (s : State) (a : Nat) : (countIntegrity s a).pending = s.pending := by simp only [countIntegrity]; split <;> simp
@[simp] theorem countIntegrity_work (s : State) (a : Nat) : (countIntegrity s a).work = s.work := by simp only [countIntegrity]; split <;> simp
@[simp] theorem countIntegrity_freeIx (s : State) (a : Nat) : (countIntegrity s a).freeIx = s.freeIx := by simp only [countIntegrity]; split <;> simp
@[simp] theorem countIntegrity_nextId (s : State) (a : Nat) : (countIntegrity s a).nextId = s.nextId := by simp only [countIntegrity]; split <;> simp
@[simp] theorem countIntegrity_starting (s : State) (a : Nat) : (countIntegrity s a).starting = s.starting := by simp only [countIntegrity]; split <;> simp
@[simp] theorem countIntegrity_waiting (s : State) (a : Nat) : (countIntegrity s a).waiting = s.waiting := by simp only [countIntegrity]; split <;> simp
@[simp] theorem countIntegrity_cores (s : State) (a : Nat) : (countIntegrity s a).cores = s.cores := by simp only [countIntegrity]; split <;> simp
@[simp] theorem countIntegrity_dies (s : State) (a : Nat) : (countIntegrity s a).dies = s.dies := by simp only [countIntegrity]; split <;> simp
@[simp] theorem countIntegrity_eyelets (s : State) (a : Nat) : (countIntegrity s a).eyelets = s.eyelets := by simp only [countIntegrity]; split <;> simp
@[simp] theorem countIntegrity_laces (s : State) (a : Nat) : (countIntegrity s a).laces = s.laces := by simp only [countIntegrity]; split <;> simp
@[simp] theorem countIntegrity_tallies (s : State) (a : Nat) : (countIntegrity s a).tallies = s.tallies := by simp only [countIntegrity]; split <;> simp
@[simp] theorem countIntegrity_pages (s : State) (a : Nat) : (countIntegrity s a).pages = s.pages := by simp only [countIntegrity]; split <;> simp
@[simp] theorem countIntegrity_ctxs (s : State) (a : Nat) : (countIntegrity s a).ctxs = s.ctxs := by simp only [countIntegrity]; split <;> simp
@[simp] theorem countIntegrity_parts (s : State) (a : Nat) : (countIntegrity s a).parts = s.parts := by simp only [countIntegrity]; split <;> simp
@[simp] theorem countIntegrity_mgmtSeq (s : State) (a : Nat) : (countIntegrity s a).mgmtSeq = s.mgmtSeq := by simp only [countIntegrity]; split <;> simp
@[simp] theorem countIntegrity_mgmtFwq (s : State) (a : Nat) : (countIntegrity s a).mgmtFwq = s.mgmtFwq := by simp only [countIntegrity]; split <;> simp
@[simp] theorem countIntegrity_mgmtSess (s : State) (a : Nat) : (countIntegrity s a).mgmtSess = s.mgmtSess := by simp only [countIntegrity]; split <;> simp
@[simp] theorem countIntegrity_mgmtCount (s : State) (a : Nat) : (countIntegrity s a).mgmtCount = s.mgmtCount := by simp only [countIntegrity]; split <;> simp
@[simp] theorem countIntegrity_ivtu (s : State) (a : Nat) : (countIntegrity s a).ivtu = s.ivtu := by simp only [countIntegrity]; split <;> simp
@[simp] theorem countIntegrity_mem (s : State) (a : Nat) : (countIntegrity s a).mem = s.mem := by simp only [countIntegrity]; split <;> simp
@[simp] theorem countIntegrity_hostMem (s : State) (a : Nat) : (countIntegrity s a).hostMem = s.hostMem := by simp only [countIntegrity]; split <;> simp
@[simp] theorem countIntegrity_used (s : State) (a : Nat) : (countIntegrity s a).used = s.used := by simp only [countIntegrity]; split <;> simp
@[simp] theorem countIntegrity_poison (s : State) (a : Nat) : (countIntegrity s a).poison = s.poison := by simp only [countIntegrity]; split <;> simp
@[simp] theorem countIntegrity_fab (s : State) (a : Nat) : (countIntegrity s a).fab = s.fab := by simp only [countIntegrity]; split <;> simp
@[simp] theorem countIntegrity_devSeq (s : State) (a : Nat) : (countIntegrity s a).devSeq = s.devSeq := by simp only [countIntegrity]; split <;> simp
@[simp] theorem countIntegrity_votes (s : State) (a : Nat) : (countIntegrity s a).votes = s.votes := by simp only [countIntegrity]; split <;> simp
@[simp] theorem countIntegrity_sec (s : State) (a : Nat) : (countIntegrity s a).sec = s.sec := by simp only [countIntegrity]; split <;> simp
@[simp] theorem countIntegrity_mi (s : State) (a : Nat) : (countIntegrity s a).mi = s.mi := by simp only [countIntegrity]; split <;> simp
@[simp] theorem countIntegrity_relia (s : State) (a : Nat) : (countIntegrity s a).relia = s.relia := by simp only [countIntegrity]; split <;> simp
@[simp] theorem countIntegrity_power (s : State) (a : Nat) : (countIntegrity s a).power = s.power := by simp only [countIntegrity]; split <;> simp
@[simp] theorem countIntegrity_pins (s : State) (a : Nat) : (countIntegrity s a).pins = s.pins := by simp only [countIntegrity]; split <;> simp
@[simp] theorem countIntegrity_ready (s : State) (a : Nat) : (countIntegrity s a).ready = s.ready := by simp only [countIntegrity]; split <;> simp

/-! ### poisonSector -/

@[simp] theorem poisonSector_pending (s : State) (a : Nat) : (poisonSector s a).pending = s.pending := by simp [poisonSector]
@[simp] theorem poisonSector_work (s : State) (a : Nat) : (poisonSector s a).work = s.work := by simp [poisonSector]
@[simp] theorem poisonSector_freeIx (s : State) (a : Nat) : (poisonSector s a).freeIx = s.freeIx := by simp [poisonSector]
@[simp] theorem poisonSector_nextId (s : State) (a : Nat) : (poisonSector s a).nextId = s.nextId := by simp [poisonSector]
@[simp] theorem poisonSector_starting (s : State) (a : Nat) : (poisonSector s a).starting = s.starting := by simp [poisonSector]
@[simp] theorem poisonSector_waiting (s : State) (a : Nat) : (poisonSector s a).waiting = s.waiting := by simp [poisonSector]
@[simp] theorem poisonSector_cores (s : State) (a : Nat) : (poisonSector s a).cores = s.cores := by simp [poisonSector]
@[simp] theorem poisonSector_dies (s : State) (a : Nat) : (poisonSector s a).dies = s.dies := by simp [poisonSector]
@[simp] theorem poisonSector_eyelets (s : State) (a : Nat) : (poisonSector s a).eyelets = s.eyelets := by simp [poisonSector]
@[simp] theorem poisonSector_laces (s : State) (a : Nat) : (poisonSector s a).laces = s.laces := by simp [poisonSector]
@[simp] theorem poisonSector_tallies (s : State) (a : Nat) : (poisonSector s a).tallies = s.tallies := by simp [poisonSector]
@[simp] theorem poisonSector_pages (s : State) (a : Nat) : (poisonSector s a).pages = s.pages := by simp [poisonSector]
@[simp] theorem poisonSector_ctxs (s : State) (a : Nat) : (poisonSector s a).ctxs = s.ctxs := by simp [poisonSector]
@[simp] theorem poisonSector_parts (s : State) (a : Nat) : (poisonSector s a).parts = s.parts := by simp [poisonSector]
@[simp] theorem poisonSector_mgmtSeq (s : State) (a : Nat) : (poisonSector s a).mgmtSeq = s.mgmtSeq := by simp [poisonSector]
@[simp] theorem poisonSector_mgmtFwq (s : State) (a : Nat) : (poisonSector s a).mgmtFwq = s.mgmtFwq := by simp [poisonSector]
@[simp] theorem poisonSector_mgmtSess (s : State) (a : Nat) : (poisonSector s a).mgmtSess = s.mgmtSess := by simp [poisonSector]
@[simp] theorem poisonSector_mgmtCount (s : State) (a : Nat) : (poisonSector s a).mgmtCount = s.mgmtCount := by simp [poisonSector]
@[simp] theorem poisonSector_ivtu (s : State) (a : Nat) : (poisonSector s a).ivtu = s.ivtu := by simp [poisonSector]
@[simp] theorem poisonSector_mem (s : State) (a : Nat) : (poisonSector s a).mem = s.mem := by simp [poisonSector]
@[simp] theorem poisonSector_hostMem (s : State) (a : Nat) : (poisonSector s a).hostMem = s.hostMem := by simp [poisonSector]
@[simp] theorem poisonSector_used (s : State) (a : Nat) : (poisonSector s a).used = s.used := by simp [poisonSector]
@[simp] theorem poisonSector_fab (s : State) (a : Nat) : (poisonSector s a).fab = s.fab := by simp [poisonSector]
@[simp] theorem poisonSector_devSeq (s : State) (a : Nat) : (poisonSector s a).devSeq = s.devSeq := by simp [poisonSector]
@[simp] theorem poisonSector_votes (s : State) (a : Nat) : (poisonSector s a).votes = s.votes := by simp [poisonSector]
@[simp] theorem poisonSector_sec (s : State) (a : Nat) : (poisonSector s a).sec = s.sec := by simp [poisonSector]
@[simp] theorem poisonSector_mi (s : State) (a : Nat) : (poisonSector s a).mi = s.mi := by simp [poisonSector]
@[simp] theorem poisonSector_relia (s : State) (a : Nat) : (poisonSector s a).relia = s.relia := by simp [poisonSector]
@[simp] theorem poisonSector_power (s : State) (a : Nat) : (poisonSector s a).power = s.power := by simp [poisonSector]
@[simp] theorem poisonSector_pins (s : State) (a : Nat) : (poisonSector s a).pins = s.pins := by simp [poisonSector]
@[simp] theorem poisonSector_ready (s : State) (a : Nat) : (poisonSector s a).ready = s.ready := by simp [poisonSector]

/-! ### objectError -/

@[simp] theorem objectError_pending (s : State) (a : Nat) : (objectError s a).pending = s.pending := by simp only [objectError]; split <;> simp
@[simp] theorem objectError_work (s : State) (a : Nat) : (objectError s a).work = s.work := by simp only [objectError]; split <;> simp
@[simp] theorem objectError_freeIx (s : State) (a : Nat) : (objectError s a).freeIx = s.freeIx := by simp only [objectError]; split <;> simp
@[simp] theorem objectError_nextId (s : State) (a : Nat) : (objectError s a).nextId = s.nextId := by simp only [objectError]; split <;> simp
@[simp] theorem objectError_starting (s : State) (a : Nat) : (objectError s a).starting = s.starting := by simp only [objectError]; split <;> simp
@[simp] theorem objectError_waiting (s : State) (a : Nat) : (objectError s a).waiting = s.waiting := by simp only [objectError]; split <;> simp
@[simp] theorem objectError_cores (s : State) (a : Nat) : (objectError s a).cores = s.cores := by simp only [objectError]; split <;> simp
@[simp] theorem objectError_dies (s : State) (a : Nat) : (objectError s a).dies = s.dies := by simp only [objectError]; split <;> simp
@[simp] theorem objectError_eyelets (s : State) (a : Nat) : (objectError s a).eyelets = s.eyelets := by simp only [objectError]; split <;> simp
@[simp] theorem objectError_laces (s : State) (a : Nat) : (objectError s a).laces = s.laces := by simp only [objectError]; split <;> simp
@[simp] theorem objectError_tallies (s : State) (a : Nat) : (objectError s a).tallies = s.tallies := by simp only [objectError]; split <;> simp
@[simp] theorem objectError_pages (s : State) (a : Nat) : (objectError s a).pages = s.pages := by simp only [objectError]; split <;> simp
@[simp] theorem objectError_ctxs (s : State) (a : Nat) : (objectError s a).ctxs = s.ctxs := by simp only [objectError]; split <;> simp
@[simp] theorem objectError_parts (s : State) (a : Nat) : (objectError s a).parts = s.parts := by simp only [objectError]; split <;> simp
@[simp] theorem objectError_mgmtSeq (s : State) (a : Nat) : (objectError s a).mgmtSeq = s.mgmtSeq := by simp only [objectError]; split <;> simp
@[simp] theorem objectError_mgmtFwq (s : State) (a : Nat) : (objectError s a).mgmtFwq = s.mgmtFwq := by simp only [objectError]; split <;> simp
@[simp] theorem objectError_mgmtSess (s : State) (a : Nat) : (objectError s a).mgmtSess = s.mgmtSess := by simp only [objectError]; split <;> simp
@[simp] theorem objectError_mgmtCount (s : State) (a : Nat) : (objectError s a).mgmtCount = s.mgmtCount := by simp only [objectError]; split <;> simp
@[simp] theorem objectError_ivtu (s : State) (a : Nat) : (objectError s a).ivtu = s.ivtu := by simp only [objectError]; split <;> simp
@[simp] theorem objectError_mem (s : State) (a : Nat) : (objectError s a).mem = s.mem := by simp only [objectError]; split <;> simp
@[simp] theorem objectError_hostMem (s : State) (a : Nat) : (objectError s a).hostMem = s.hostMem := by simp only [objectError]; split <;> simp
@[simp] theorem objectError_used (s : State) (a : Nat) : (objectError s a).used = s.used := by simp only [objectError]; split <;> simp
@[simp] theorem objectError_poison (s : State) (a : Nat) : (objectError s a).poison = s.poison := by simp only [objectError]; split <;> simp
@[simp] theorem objectError_hbm (s : State) (a : Nat) : (objectError s a).hbm = s.hbm := by simp only [objectError]; split <;> simp
@[simp] theorem objectError_cxl (s : State) (a : Nat) : (objectError s a).cxl = s.cxl := by simp only [objectError]; split <;> simp
@[simp] theorem objectError_fab (s : State) (a : Nat) : (objectError s a).fab = s.fab := by simp only [objectError]; split <;> simp
@[simp] theorem objectError_devSeq (s : State) (a : Nat) : (objectError s a).devSeq = s.devSeq := by simp only [objectError]; split <;> simp
@[simp] theorem objectError_votes (s : State) (a : Nat) : (objectError s a).votes = s.votes := by simp only [objectError]; split <;> simp
@[simp] theorem objectError_sec (s : State) (a : Nat) : (objectError s a).sec = s.sec := by simp only [objectError]; split <;> simp
@[simp] theorem objectError_mi (s : State) (a : Nat) : (objectError s a).mi = s.mi := by simp only [objectError]; split <;> simp
@[simp] theorem objectError_relia (s : State) (a : Nat) : (objectError s a).relia = s.relia := by simp only [objectError]; split <;> simp
@[simp] theorem objectError_power (s : State) (a : Nat) : (objectError s a).power = s.power := by simp only [objectError]; split <;> simp
@[simp] theorem objectError_pins (s : State) (a : Nat) : (objectError s a).pins = s.pins := by simp only [objectError]; split <;> simp
@[simp] theorem objectError_ready (s : State) (a : Nat) : (objectError s a).ready = s.ready := by simp only [objectError]; split <;> simp

/-! ### noteWindow -/

@[simp] theorem noteWindow_pending (s : State) (p a : Nat) : (noteWindow s p a).pending = s.pending := by simp only [noteWindow]; repeat (first | rfl | split | simp)
@[simp] theorem noteWindow_work (s : State) (p a : Nat) : (noteWindow s p a).work = s.work := by simp only [noteWindow]; repeat (first | rfl | split | simp)
@[simp] theorem noteWindow_freeIx (s : State) (p a : Nat) : (noteWindow s p a).freeIx = s.freeIx := by simp only [noteWindow]; repeat (first | rfl | split | simp)
@[simp] theorem noteWindow_nextId (s : State) (p a : Nat) : (noteWindow s p a).nextId = s.nextId := by simp only [noteWindow]; repeat (first | rfl | split | simp)
@[simp] theorem noteWindow_starting (s : State) (p a : Nat) : (noteWindow s p a).starting = s.starting := by simp only [noteWindow]; repeat (first | rfl | split | simp)
@[simp] theorem noteWindow_waiting (s : State) (p a : Nat) : (noteWindow s p a).waiting = s.waiting := by simp only [noteWindow]; repeat (first | rfl | split | simp)
@[simp] theorem noteWindow_cores (s : State) (p a : Nat) : (noteWindow s p a).cores = s.cores := by simp only [noteWindow]; repeat (first | rfl | split | simp)
@[simp] theorem noteWindow_dies (s : State) (p a : Nat) : (noteWindow s p a).dies = s.dies := by simp only [noteWindow]; repeat (first | rfl | split | simp)
@[simp] theorem noteWindow_eyelets (s : State) (p a : Nat) : (noteWindow s p a).eyelets = s.eyelets := by simp only [noteWindow]; repeat (first | rfl | split | simp)
@[simp] theorem noteWindow_laces (s : State) (p a : Nat) : (noteWindow s p a).laces = s.laces := by simp only [noteWindow]; repeat (first | rfl | split | simp)
@[simp] theorem noteWindow_tallies (s : State) (p a : Nat) : (noteWindow s p a).tallies = s.tallies := by simp only [noteWindow]; repeat (first | rfl | split | simp)
@[simp] theorem noteWindow_pages (s : State) (p a : Nat) : (noteWindow s p a).pages = s.pages := by simp only [noteWindow]; repeat (first | rfl | split | simp)
@[simp] theorem noteWindow_ctxs (s : State) (p a : Nat) : (noteWindow s p a).ctxs = s.ctxs := by simp only [noteWindow]; repeat (first | rfl | split | simp)
@[simp] theorem noteWindow_parts (s : State) (p a : Nat) : (noteWindow s p a).parts = s.parts := by simp only [noteWindow]; repeat (first | rfl | split | simp)
@[simp] theorem noteWindow_mgmtSeq (s : State) (p a : Nat) : (noteWindow s p a).mgmtSeq = s.mgmtSeq := by simp only [noteWindow]; repeat (first | rfl | split | simp)
@[simp] theorem noteWindow_mgmtFwq (s : State) (p a : Nat) : (noteWindow s p a).mgmtFwq = s.mgmtFwq := by simp only [noteWindow]; repeat (first | rfl | split | simp)
@[simp] theorem noteWindow_mgmtSess (s : State) (p a : Nat) : (noteWindow s p a).mgmtSess = s.mgmtSess := by simp only [noteWindow]; repeat (first | rfl | split | simp)
@[simp] theorem noteWindow_mgmtCount (s : State) (p a : Nat) : (noteWindow s p a).mgmtCount = s.mgmtCount := by simp only [noteWindow]; repeat (first | rfl | split | simp)
@[simp] theorem noteWindow_ivtu (s : State) (p a : Nat) : (noteWindow s p a).ivtu = s.ivtu := by simp only [noteWindow]; repeat (first | rfl | split | simp)
@[simp] theorem noteWindow_mem (s : State) (p a : Nat) : (noteWindow s p a).mem = s.mem := by simp only [noteWindow]; repeat (first | rfl | split | simp)
@[simp] theorem noteWindow_hostMem (s : State) (p a : Nat) : (noteWindow s p a).hostMem = s.hostMem := by simp only [noteWindow]; repeat (first | rfl | split | simp)
@[simp] theorem noteWindow_used (s : State) (p a : Nat) : (noteWindow s p a).used = s.used := by simp only [noteWindow]; repeat (first | rfl | split | simp)
@[simp] theorem noteWindow_poison (s : State) (p a : Nat) : (noteWindow s p a).poison = s.poison := by simp only [noteWindow]; repeat (first | rfl | split | simp)
@[simp] theorem noteWindow_hbm (s : State) (p a : Nat) : (noteWindow s p a).hbm = s.hbm := by simp only [noteWindow]; repeat (first | rfl | split | simp)
@[simp] theorem noteWindow_cxl (s : State) (p a : Nat) : (noteWindow s p a).cxl = s.cxl := by simp only [noteWindow]; repeat (first | rfl | split | simp)
@[simp] theorem noteWindow_fab (s : State) (p a : Nat) : (noteWindow s p a).fab = s.fab := by simp only [noteWindow]; repeat (first | rfl | split | simp)
@[simp] theorem noteWindow_devSeq (s : State) (p a : Nat) : (noteWindow s p a).devSeq = s.devSeq := by simp only [noteWindow]; repeat (first | rfl | split | simp)
@[simp] theorem noteWindow_votes (s : State) (p a : Nat) : (noteWindow s p a).votes = s.votes := by simp only [noteWindow]; repeat (first | rfl | split | simp)
@[simp] theorem noteWindow_sec (s : State) (p a : Nat) : (noteWindow s p a).sec = s.sec := by simp only [noteWindow]; repeat (first | rfl | split | simp)
@[simp] theorem noteWindow_mi (s : State) (p a : Nat) : (noteWindow s p a).mi = s.mi := by simp only [noteWindow]; repeat (first | rfl | split | simp)
@[simp] theorem noteWindow_relia (s : State) (p a : Nat) : (noteWindow s p a).relia = s.relia := by simp only [noteWindow]; repeat (first | rfl | split | simp)
@[simp] theorem noteWindow_power (s : State) (p a : Nat) : (noteWindow s p a).power = s.power := by simp only [noteWindow]; repeat (first | rfl | split | simp)
@[simp] theorem noteWindow_pins (s : State) (p a : Nat) : (noteWindow s p a).pins = s.pins := by simp only [noteWindow]; repeat (first | rfl | split | simp)
@[simp] theorem noteWindow_ready (s : State) (p a : Nat) : (noteWindow s p a).ready = s.ready := by simp only [noteWindow]; repeat (first | rfl | split | simp)

/-! ### sendRdCur -/

@[simp] theorem sendRdCur_pending (s : State) (a n : Nat) : (sendRdCur s a n).pending = s.pending := by simp only [sendRdCur]; split <;> rfl
@[simp] theorem sendRdCur_work (s : State) (a n : Nat) : (sendRdCur s a n).work = s.work := by simp only [sendRdCur]; split <;> rfl
@[simp] theorem sendRdCur_freeIx (s : State) (a n : Nat) : (sendRdCur s a n).freeIx = s.freeIx := by simp only [sendRdCur]; split <;> rfl
@[simp] theorem sendRdCur_nextId (s : State) (a n : Nat) : (sendRdCur s a n).nextId = s.nextId := by simp only [sendRdCur]; split <;> rfl
@[simp] theorem sendRdCur_starting (s : State) (a n : Nat) : (sendRdCur s a n).starting = s.starting := by simp only [sendRdCur]; split <;> rfl
@[simp] theorem sendRdCur_waiting (s : State) (a n : Nat) : (sendRdCur s a n).waiting = s.waiting := by simp only [sendRdCur]; split <;> rfl
@[simp] theorem sendRdCur_cores (s : State) (a n : Nat) : (sendRdCur s a n).cores = s.cores := by simp only [sendRdCur]; split <;> rfl
@[simp] theorem sendRdCur_dies (s : State) (a n : Nat) : (sendRdCur s a n).dies = s.dies := by simp only [sendRdCur]; split <;> rfl
@[simp] theorem sendRdCur_eyelets (s : State) (a n : Nat) : (sendRdCur s a n).eyelets = s.eyelets := by simp only [sendRdCur]; split <;> rfl
@[simp] theorem sendRdCur_laces (s : State) (a n : Nat) : (sendRdCur s a n).laces = s.laces := by simp only [sendRdCur]; split <;> rfl
@[simp] theorem sendRdCur_tallies (s : State) (a n : Nat) : (sendRdCur s a n).tallies = s.tallies := by simp only [sendRdCur]; split <;> rfl
@[simp] theorem sendRdCur_btn (s : State) (a n : Nat) : (sendRdCur s a n).btn = s.btn := by simp only [sendRdCur]; split <;> rfl
@[simp] theorem sendRdCur_pages (s : State) (a n : Nat) : (sendRdCur s a n).pages = s.pages := by simp only [sendRdCur]; split <;> rfl
@[simp] theorem sendRdCur_ctxs (s : State) (a n : Nat) : (sendRdCur s a n).ctxs = s.ctxs := by simp only [sendRdCur]; split <;> rfl
@[simp] theorem sendRdCur_parts (s : State) (a n : Nat) : (sendRdCur s a n).parts = s.parts := by simp only [sendRdCur]; split <;> rfl
@[simp] theorem sendRdCur_mgmtSeq (s : State) (a n : Nat) : (sendRdCur s a n).mgmtSeq = s.mgmtSeq := by simp only [sendRdCur]; split <;> rfl
@[simp] theorem sendRdCur_mgmtFwq (s : State) (a n : Nat) : (sendRdCur s a n).mgmtFwq = s.mgmtFwq := by simp only [sendRdCur]; split <;> rfl
@[simp] theorem sendRdCur_mgmtSess (s : State) (a n : Nat) : (sendRdCur s a n).mgmtSess = s.mgmtSess := by simp only [sendRdCur]; split <;> rfl
@[simp] theorem sendRdCur_mgmtCount (s : State) (a n : Nat) : (sendRdCur s a n).mgmtCount = s.mgmtCount := by simp only [sendRdCur]; split <;> rfl
@[simp] theorem sendRdCur_ivtu (s : State) (a n : Nat) : (sendRdCur s a n).ivtu = s.ivtu := by simp only [sendRdCur]; split <;> rfl
@[simp] theorem sendRdCur_mem (s : State) (a n : Nat) : (sendRdCur s a n).mem = s.mem := by simp only [sendRdCur]; split <;> rfl
@[simp] theorem sendRdCur_hostMem (s : State) (a n : Nat) : (sendRdCur s a n).hostMem = s.hostMem := by simp only [sendRdCur]; split <;> rfl
@[simp] theorem sendRdCur_used (s : State) (a n : Nat) : (sendRdCur s a n).used = s.used := by simp only [sendRdCur]; split <;> rfl
@[simp] theorem sendRdCur_poison (s : State) (a n : Nat) : (sendRdCur s a n).poison = s.poison := by simp only [sendRdCur]; split <;> rfl
@[simp] theorem sendRdCur_hbm (s : State) (a n : Nat) : (sendRdCur s a n).hbm = s.hbm := by simp only [sendRdCur]; split <;> rfl
@[simp] theorem sendRdCur_cxl (s : State) (a n : Nat) : (sendRdCur s a n).cxl = s.cxl := by simp only [sendRdCur]; split <;> rfl
@[simp] theorem sendRdCur_fab (s : State) (a n : Nat) : (sendRdCur s a n).fab = s.fab := by simp only [sendRdCur]; split <;> rfl
@[simp] theorem sendRdCur_devSeq (s : State) (a n : Nat) : (sendRdCur s a n).devSeq = s.devSeq := by simp only [sendRdCur]; split <;> rfl
@[simp] theorem sendRdCur_votes (s : State) (a n : Nat) : (sendRdCur s a n).votes = s.votes := by simp only [sendRdCur]; split <;> rfl
@[simp] theorem sendRdCur_sec (s : State) (a n : Nat) : (sendRdCur s a n).sec = s.sec := by simp only [sendRdCur]; split <;> rfl
@[simp] theorem sendRdCur_mi (s : State) (a n : Nat) : (sendRdCur s a n).mi = s.mi := by simp only [sendRdCur]; split <;> rfl
@[simp] theorem sendRdCur_relia (s : State) (a n : Nat) : (sendRdCur s a n).relia = s.relia := by simp only [sendRdCur]; split <;> rfl
@[simp] theorem sendRdCur_power (s : State) (a n : Nat) : (sendRdCur s a n).power = s.power := by simp only [sendRdCur]; split <;> rfl
@[simp] theorem sendRdCur_pins (s : State) (a n : Nat) : (sendRdCur s a n).pins = s.pins := by simp only [sendRdCur]; split <;> rfl
@[simp] theorem sendRdCur_ready (s : State) (a n : Nat) : (sendRdCur s a n).ready = s.ready := by simp only [sendRdCur]; split <;> rfl

/-! ### devWriteSector -/

@[simp] theorem devWriteSector_pending (s : State) (a : Nat) (bs : List Byte) : (devWriteSector s a bs).pending = s.pending := by simp only [devWriteSector]; repeat (first | rfl | split | simp)
@[simp] theorem devWriteSector_work (s : State) (a : Nat) (bs : List Byte) : (devWriteSector s a bs).work = s.work := by simp only [devWriteSector]; repeat (first | rfl | split | simp)
@[simp] theorem devWriteSector_freeIx (s : State) (a : Nat) (bs : List Byte) : (devWriteSector s a bs).freeIx = s.freeIx := by simp only [devWriteSector]; repeat (first | rfl | split | simp)
@[simp] theorem devWriteSector_nextId (s : State) (a : Nat) (bs : List Byte) : (devWriteSector s a bs).nextId = s.nextId := by simp only [devWriteSector]; repeat (first | rfl | split | simp)
@[simp] theorem devWriteSector_starting (s : State) (a : Nat) (bs : List Byte) : (devWriteSector s a bs).starting = s.starting := by simp only [devWriteSector]; repeat (first | rfl | split | simp)
@[simp] theorem devWriteSector_waiting (s : State) (a : Nat) (bs : List Byte) : (devWriteSector s a bs).waiting = s.waiting := by simp only [devWriteSector]; repeat (first | rfl | split | simp)
@[simp] theorem devWriteSector_cores (s : State) (a : Nat) (bs : List Byte) : (devWriteSector s a bs).cores = s.cores := by simp only [devWriteSector]; repeat (first | rfl | split | simp)
@[simp] theorem devWriteSector_dies (s : State) (a : Nat) (bs : List Byte) : (devWriteSector s a bs).dies = s.dies := by simp only [devWriteSector]; repeat (first | rfl | split | simp)
@[simp] theorem devWriteSector_eyelets (s : State) (a : Nat) (bs : List Byte) : (devWriteSector s a bs).eyelets = s.eyelets := by simp only [devWriteSector]; repeat (first | rfl | split | simp)
@[simp] theorem devWriteSector_laces (s : State) (a : Nat) (bs : List Byte) : (devWriteSector s a bs).laces = s.laces := by simp only [devWriteSector]; repeat (first | rfl | split | simp)
@[simp] theorem devWriteSector_tallies (s : State) (a : Nat) (bs : List Byte) : (devWriteSector s a bs).tallies = s.tallies := by simp only [devWriteSector]; repeat (first | rfl | split | simp)
@[simp] theorem devWriteSector_pages (s : State) (a : Nat) (bs : List Byte) : (devWriteSector s a bs).pages = s.pages := by simp only [devWriteSector]; repeat (first | rfl | split | simp)
@[simp] theorem devWriteSector_ctxs (s : State) (a : Nat) (bs : List Byte) : (devWriteSector s a bs).ctxs = s.ctxs := by simp only [devWriteSector]; repeat (first | rfl | split | simp)
@[simp] theorem devWriteSector_parts (s : State) (a : Nat) (bs : List Byte) : (devWriteSector s a bs).parts = s.parts := by simp only [devWriteSector]; repeat (first | rfl | split | simp)
@[simp] theorem devWriteSector_mgmtSeq (s : State) (a : Nat) (bs : List Byte) : (devWriteSector s a bs).mgmtSeq = s.mgmtSeq := by simp only [devWriteSector]; repeat (first | rfl | split | simp)
@[simp] theorem devWriteSector_mgmtFwq (s : State) (a : Nat) (bs : List Byte) : (devWriteSector s a bs).mgmtFwq = s.mgmtFwq := by simp only [devWriteSector]; repeat (first | rfl | split | simp)
@[simp] theorem devWriteSector_mgmtSess (s : State) (a : Nat) (bs : List Byte) : (devWriteSector s a bs).mgmtSess = s.mgmtSess := by simp only [devWriteSector]; repeat (first | rfl | split | simp)
@[simp] theorem devWriteSector_mgmtCount (s : State) (a : Nat) (bs : List Byte) : (devWriteSector s a bs).mgmtCount = s.mgmtCount := by simp only [devWriteSector]; repeat (first | rfl | split | simp)
@[simp] theorem devWriteSector_ivtu (s : State) (a : Nat) (bs : List Byte) : (devWriteSector s a bs).ivtu = s.ivtu := by simp only [devWriteSector]; repeat (first | rfl | split | simp)
@[simp] theorem devWriteSector_hostMem (s : State) (a : Nat) (bs : List Byte) : (devWriteSector s a bs).hostMem = s.hostMem := by simp only [devWriteSector]; repeat (first | rfl | split | simp)
@[simp] theorem devWriteSector_fab (s : State) (a : Nat) (bs : List Byte) : (devWriteSector s a bs).fab = s.fab := by simp only [devWriteSector]; repeat (first | rfl | split | simp)
@[simp] theorem devWriteSector_devSeq (s : State) (a : Nat) (bs : List Byte) : (devWriteSector s a bs).devSeq = s.devSeq := by simp only [devWriteSector]; repeat (first | rfl | split | simp)
@[simp] theorem devWriteSector_votes (s : State) (a : Nat) (bs : List Byte) : (devWriteSector s a bs).votes = s.votes := by simp only [devWriteSector]; repeat (first | rfl | split | simp)
@[simp] theorem devWriteSector_sec (s : State) (a : Nat) (bs : List Byte) : (devWriteSector s a bs).sec = s.sec := by simp only [devWriteSector]; repeat (first | rfl | split | simp)
@[simp] theorem devWriteSector_mi (s : State) (a : Nat) (bs : List Byte) : (devWriteSector s a bs).mi = s.mi := by simp only [devWriteSector]; repeat (first | rfl | split | simp)
@[simp] theorem devWriteSector_relia (s : State) (a : Nat) (bs : List Byte) : (devWriteSector s a bs).relia = s.relia := by simp only [devWriteSector]; repeat (first | rfl | split | simp)
@[simp] theorem devWriteSector_power (s : State) (a : Nat) (bs : List Byte) : (devWriteSector s a bs).power = s.power := by simp only [devWriteSector]; repeat (first | rfl | split | simp)
@[simp] theorem devWriteSector_pins (s : State) (a : Nat) (bs : List Byte) : (devWriteSector s a bs).pins = s.pins := by simp only [devWriteSector]; repeat (first | rfl | split | simp)
@[simp] theorem devWriteSector_ready (s : State) (a : Nat) (bs : List Byte) : (devWriteSector s a bs).ready = s.ready := by simp only [devWriteSector]; repeat (first | rfl | split | simp)

/-! ### devWriteGo -/

@[simp] theorem devWriteGo_pending (n : Nat) (s : State) (a : Nat) (bs : List Byte) : (devWriteGo n s a bs).pending = s.pending := by
  induction n generalizing s a bs with
  | zero => rfl
  | succ n ih => simp only [devWriteGo]; split <;> simp [ih]
@[simp] theorem devWriteGo_work (n : Nat) (s : State) (a : Nat) (bs : List Byte) : (devWriteGo n s a bs).work = s.work := by
  induction n generalizing s a bs with
  | zero => rfl
  | succ n ih => simp only [devWriteGo]; split <;> simp [ih]
@[simp] theorem devWriteGo_freeIx (n : Nat) (s : State) (a : Nat) (bs : List Byte) : (devWriteGo n s a bs).freeIx = s.freeIx := by
  induction n generalizing s a bs with
  | zero => rfl
  | succ n ih => simp only [devWriteGo]; split <;> simp [ih]
@[simp] theorem devWriteGo_nextId (n : Nat) (s : State) (a : Nat) (bs : List Byte) : (devWriteGo n s a bs).nextId = s.nextId := by
  induction n generalizing s a bs with
  | zero => rfl
  | succ n ih => simp only [devWriteGo]; split <;> simp [ih]
@[simp] theorem devWriteGo_starting (n : Nat) (s : State) (a : Nat) (bs : List Byte) : (devWriteGo n s a bs).starting = s.starting := by
  induction n generalizing s a bs with
  | zero => rfl
  | succ n ih => simp only [devWriteGo]; split <;> simp [ih]
@[simp] theorem devWriteGo_waiting (n : Nat) (s : State) (a : Nat) (bs : List Byte) : (devWriteGo n s a bs).waiting = s.waiting := by
  induction n generalizing s a bs with
  | zero => rfl
  | succ n ih => simp only [devWriteGo]; split <;> simp [ih]
@[simp] theorem devWriteGo_cores (n : Nat) (s : State) (a : Nat) (bs : List Byte) : (devWriteGo n s a bs).cores = s.cores := by
  induction n generalizing s a bs with
  | zero => rfl
  | succ n ih => simp only [devWriteGo]; split <;> simp [ih]
@[simp] theorem devWriteGo_dies (n : Nat) (s : State) (a : Nat) (bs : List Byte) : (devWriteGo n s a bs).dies = s.dies := by
  induction n generalizing s a bs with
  | zero => rfl
  | succ n ih => simp only [devWriteGo]; split <;> simp [ih]
@[simp] theorem devWriteGo_eyelets (n : Nat) (s : State) (a : Nat) (bs : List Byte) : (devWriteGo n s a bs).eyelets = s.eyelets := by
  induction n generalizing s a bs with
  | zero => rfl
  | succ n ih => simp only [devWriteGo]; split <;> simp [ih]
@[simp] theorem devWriteGo_laces (n : Nat) (s : State) (a : Nat) (bs : List Byte) : (devWriteGo n s a bs).laces = s.laces := by
  induction n generalizing s a bs with
  | zero => rfl
  | succ n ih => simp only [devWriteGo]; split <;> simp [ih]
@[simp] theorem devWriteGo_tallies (n : Nat) (s : State) (a : Nat) (bs : List Byte) : (devWriteGo n s a bs).tallies = s.tallies := by
  induction n generalizing s a bs with
  | zero => rfl
  | succ n ih => simp only [devWriteGo]; split <;> simp [ih]
@[simp] theorem devWriteGo_pages (n : Nat) (s : State) (a : Nat) (bs : List Byte) : (devWriteGo n s a bs).pages = s.pages := by
  induction n generalizing s a bs with
  | zero => rfl
  | succ n ih => simp only [devWriteGo]; split <;> simp [ih]
@[simp] theorem devWriteGo_ctxs (n : Nat) (s : State) (a : Nat) (bs : List Byte) : (devWriteGo n s a bs).ctxs = s.ctxs := by
  induction n generalizing s a bs with
  | zero => rfl
  | succ n ih => simp only [devWriteGo]; split <;> simp [ih]
@[simp] theorem devWriteGo_parts (n : Nat) (s : State) (a : Nat) (bs : List Byte) : (devWriteGo n s a bs).parts = s.parts := by
  induction n generalizing s a bs with
  | zero => rfl
  | succ n ih => simp only [devWriteGo]; split <;> simp [ih]
@[simp] theorem devWriteGo_mgmtSeq (n : Nat) (s : State) (a : Nat) (bs : List Byte) : (devWriteGo n s a bs).mgmtSeq = s.mgmtSeq := by
  induction n generalizing s a bs with
  | zero => rfl
  | succ n ih => simp only [devWriteGo]; split <;> simp [ih]
@[simp] theorem devWriteGo_mgmtFwq (n : Nat) (s : State) (a : Nat) (bs : List Byte) : (devWriteGo n s a bs).mgmtFwq = s.mgmtFwq := by
  induction n generalizing s a bs with
  | zero => rfl
  | succ n ih => simp only [devWriteGo]; split <;> simp [ih]
@[simp] theorem devWriteGo_mgmtSess (n : Nat) (s : State) (a : Nat) (bs : List Byte) : (devWriteGo n s a bs).mgmtSess = s.mgmtSess := by
  induction n generalizing s a bs with
  | zero => rfl
  | succ n ih => simp only [devWriteGo]; split <;> simp [ih]
@[simp] theorem devWriteGo_mgmtCount (n : Nat) (s : State) (a : Nat) (bs : List Byte) : (devWriteGo n s a bs).mgmtCount = s.mgmtCount := by
  induction n generalizing s a bs with
  | zero => rfl
  | succ n ih => simp only [devWriteGo]; split <;> simp [ih]
@[simp] theorem devWriteGo_ivtu (n : Nat) (s : State) (a : Nat) (bs : List Byte) : (devWriteGo n s a bs).ivtu = s.ivtu := by
  induction n generalizing s a bs with
  | zero => rfl
  | succ n ih => simp only [devWriteGo]; split <;> simp [ih]
@[simp] theorem devWriteGo_hostMem (n : Nat) (s : State) (a : Nat) (bs : List Byte) : (devWriteGo n s a bs).hostMem = s.hostMem := by
  induction n generalizing s a bs with
  | zero => rfl
  | succ n ih => simp only [devWriteGo]; split <;> simp [ih]
@[simp] theorem devWriteGo_fab (n : Nat) (s : State) (a : Nat) (bs : List Byte) : (devWriteGo n s a bs).fab = s.fab := by
  induction n generalizing s a bs with
  | zero => rfl
  | succ n ih => simp only [devWriteGo]; split <;> simp [ih]
@[simp] theorem devWriteGo_devSeq (n : Nat) (s : State) (a : Nat) (bs : List Byte) : (devWriteGo n s a bs).devSeq = s.devSeq := by
  induction n generalizing s a bs with
  | zero => rfl
  | succ n ih => simp only [devWriteGo]; split <;> simp [ih]
@[simp] theorem devWriteGo_votes (n : Nat) (s : State) (a : Nat) (bs : List Byte) : (devWriteGo n s a bs).votes = s.votes := by
  induction n generalizing s a bs with
  | zero => rfl
  | succ n ih => simp only [devWriteGo]; split <;> simp [ih]
@[simp] theorem devWriteGo_sec (n : Nat) (s : State) (a : Nat) (bs : List Byte) : (devWriteGo n s a bs).sec = s.sec := by
  induction n generalizing s a bs with
  | zero => rfl
  | succ n ih => simp only [devWriteGo]; split <;> simp [ih]
@[simp] theorem devWriteGo_mi (n : Nat) (s : State) (a : Nat) (bs : List Byte) : (devWriteGo n s a bs).mi = s.mi := by
  induction n generalizing s a bs with
  | zero => rfl
  | succ n ih => simp only [devWriteGo]; split <;> simp [ih]
@[simp] theorem devWriteGo_relia (n : Nat) (s : State) (a : Nat) (bs : List Byte) : (devWriteGo n s a bs).relia = s.relia := by
  induction n generalizing s a bs with
  | zero => rfl
  | succ n ih => simp only [devWriteGo]; split <;> simp [ih]
@[simp] theorem devWriteGo_power (n : Nat) (s : State) (a : Nat) (bs : List Byte) : (devWriteGo n s a bs).power = s.power := by
  induction n generalizing s a bs with
  | zero => rfl
  | succ n ih => simp only [devWriteGo]; split <;> simp [ih]
@[simp] theorem devWriteGo_pins (n : Nat) (s : State) (a : Nat) (bs : List Byte) : (devWriteGo n s a bs).pins = s.pins := by
  induction n generalizing s a bs with
  | zero => rfl
  | succ n ih => simp only [devWriteGo]; split <;> simp [ih]
@[simp] theorem devWriteGo_ready (n : Nat) (s : State) (a : Nat) (bs : List Byte) : (devWriteGo n s a bs).ready = s.ready := by
  induction n generalizing s a bs with
  | zero => rfl
  | succ n ih => simp only [devWriteGo]; split <;> simp [ih]

/-! ### devWrite -/

@[simp] theorem devWrite_pending (s : State) (a : Nat) (bs : List Byte) : (devWrite s a bs).pending = s.pending := by simp [devWrite]
@[simp] theorem devWrite_work (s : State) (a : Nat) (bs : List Byte) : (devWrite s a bs).work = s.work := by simp [devWrite]
@[simp] theorem devWrite_freeIx (s : State) (a : Nat) (bs : List Byte) : (devWrite s a bs).freeIx = s.freeIx := by simp [devWrite]
@[simp] theorem devWrite_nextId (s : State) (a : Nat) (bs : List Byte) : (devWrite s a bs).nextId = s.nextId := by simp [devWrite]
@[simp] theorem devWrite_starting (s : State) (a : Nat) (bs : List Byte) : (devWrite s a bs).starting = s.starting := by simp [devWrite]
@[simp] theorem devWrite_waiting (s : State) (a : Nat) (bs : List Byte) : (devWrite s a bs).waiting = s.waiting := by simp [devWrite]
@[simp] theorem devWrite_cores (s : State) (a : Nat) (bs : List Byte) : (devWrite s a bs).cores = s.cores := by simp [devWrite]
@[simp] theorem devWrite_dies (s : State) (a : Nat) (bs : List Byte) : (devWrite s a bs).dies = s.dies := by simp [devWrite]
@[simp] theorem devWrite_eyelets (s : State) (a : Nat) (bs : List Byte) : (devWrite s a bs).eyelets = s.eyelets := by simp [devWrite]
@[simp] theorem devWrite_laces (s : State) (a : Nat) (bs : List Byte) : (devWrite s a bs).laces = s.laces := by simp [devWrite]
@[simp] theorem devWrite_tallies (s : State) (a : Nat) (bs : List Byte) : (devWrite s a bs).tallies = s.tallies := by simp [devWrite]
@[simp] theorem devWrite_pages (s : State) (a : Nat) (bs : List Byte) : (devWrite s a bs).pages = s.pages := by simp [devWrite]
@[simp] theorem devWrite_ctxs (s : State) (a : Nat) (bs : List Byte) : (devWrite s a bs).ctxs = s.ctxs := by simp [devWrite]
@[simp] theorem devWrite_parts (s : State) (a : Nat) (bs : List Byte) : (devWrite s a bs).parts = s.parts := by simp [devWrite]
@[simp] theorem devWrite_mgmtSeq (s : State) (a : Nat) (bs : List Byte) : (devWrite s a bs).mgmtSeq = s.mgmtSeq := by simp [devWrite]
@[simp] theorem devWrite_mgmtFwq (s : State) (a : Nat) (bs : List Byte) : (devWrite s a bs).mgmtFwq = s.mgmtFwq := by simp [devWrite]
@[simp] theorem devWrite_mgmtSess (s : State) (a : Nat) (bs : List Byte) : (devWrite s a bs).mgmtSess = s.mgmtSess := by simp [devWrite]
@[simp] theorem devWrite_mgmtCount (s : State) (a : Nat) (bs : List Byte) : (devWrite s a bs).mgmtCount = s.mgmtCount := by simp [devWrite]
@[simp] theorem devWrite_ivtu (s : State) (a : Nat) (bs : List Byte) : (devWrite s a bs).ivtu = s.ivtu := by simp [devWrite]
@[simp] theorem devWrite_hostMem (s : State) (a : Nat) (bs : List Byte) : (devWrite s a bs).hostMem = s.hostMem := by simp [devWrite]
@[simp] theorem devWrite_fab (s : State) (a : Nat) (bs : List Byte) : (devWrite s a bs).fab = s.fab := by simp [devWrite]
@[simp] theorem devWrite_devSeq (s : State) (a : Nat) (bs : List Byte) : (devWrite s a bs).devSeq = s.devSeq := by simp [devWrite]
@[simp] theorem devWrite_votes (s : State) (a : Nat) (bs : List Byte) : (devWrite s a bs).votes = s.votes := by simp [devWrite]
@[simp] theorem devWrite_sec (s : State) (a : Nat) (bs : List Byte) : (devWrite s a bs).sec = s.sec := by simp [devWrite]
@[simp] theorem devWrite_mi (s : State) (a : Nat) (bs : List Byte) : (devWrite s a bs).mi = s.mi := by simp [devWrite]
@[simp] theorem devWrite_relia (s : State) (a : Nat) (bs : List Byte) : (devWrite s a bs).relia = s.relia := by simp [devWrite]
@[simp] theorem devWrite_power (s : State) (a : Nat) (bs : List Byte) : (devWrite s a bs).power = s.power := by simp [devWrite]
@[simp] theorem devWrite_pins (s : State) (a : Nat) (bs : List Byte) : (devWrite s a bs).pins = s.pins := by simp [devWrite]
@[simp] theorem devWrite_ready (s : State) (a : Nat) (bs : List Byte) : (devWrite s a bs).ready = s.ready := by simp [devWrite]

/-! ### partWriteGo -/

@[simp] theorem partWriteGo_pending (n : Nat) (s : State) (p a : Nat) (bs : List Byte) : (partWriteGo n s p a bs).pending = s.pending := by
  induction n generalizing s a bs with
  | zero => rfl
  | succ n ih => simp only [partWriteGo]; repeat (first | rfl | split | simp [ih])
@[simp] theorem partWriteGo_work (n : Nat) (s : State) (p a : Nat) (bs : List Byte) : (partWriteGo n s p a bs).work = s.work := by
  induction n generalizing s a bs with
  | zero => rfl
  | succ n ih => simp only [partWriteGo]; repeat (first | rfl | split | simp [ih])
@[simp] theorem partWriteGo_freeIx (n : Nat) (s : State) (p a : Nat) (bs : List Byte) : (partWriteGo n s p a bs).freeIx = s.freeIx := by
  induction n generalizing s a bs with
  | zero => rfl
  | succ n ih => simp only [partWriteGo]; repeat (first | rfl | split | simp [ih])
@[simp] theorem partWriteGo_nextId (n : Nat) (s : State) (p a : Nat) (bs : List Byte) : (partWriteGo n s p a bs).nextId = s.nextId := by
  induction n generalizing s a bs with
  | zero => rfl
  | succ n ih => simp only [partWriteGo]; repeat (first | rfl | split | simp [ih])
@[simp] theorem partWriteGo_starting (n : Nat) (s : State) (p a : Nat) (bs : List Byte) : (partWriteGo n s p a bs).starting = s.starting := by
  induction n generalizing s a bs with
  | zero => rfl
  | succ n ih => simp only [partWriteGo]; repeat (first | rfl | split | simp [ih])
@[simp] theorem partWriteGo_waiting (n : Nat) (s : State) (p a : Nat) (bs : List Byte) : (partWriteGo n s p a bs).waiting = s.waiting := by
  induction n generalizing s a bs with
  | zero => rfl
  | succ n ih => simp only [partWriteGo]; repeat (first | rfl | split | simp [ih])
@[simp] theorem partWriteGo_cores (n : Nat) (s : State) (p a : Nat) (bs : List Byte) : (partWriteGo n s p a bs).cores = s.cores := by
  induction n generalizing s a bs with
  | zero => rfl
  | succ n ih => simp only [partWriteGo]; repeat (first | rfl | split | simp [ih])
@[simp] theorem partWriteGo_dies (n : Nat) (s : State) (p a : Nat) (bs : List Byte) : (partWriteGo n s p a bs).dies = s.dies := by
  induction n generalizing s a bs with
  | zero => rfl
  | succ n ih => simp only [partWriteGo]; repeat (first | rfl | split | simp [ih])
@[simp] theorem partWriteGo_eyelets (n : Nat) (s : State) (p a : Nat) (bs : List Byte) : (partWriteGo n s p a bs).eyelets = s.eyelets := by
  induction n generalizing s a bs with
  | zero => rfl
  | succ n ih => simp only [partWriteGo]; repeat (first | rfl | split | simp [ih])
@[simp] theorem partWriteGo_laces (n : Nat) (s : State) (p a : Nat) (bs : List Byte) : (partWriteGo n s p a bs).laces = s.laces := by
  induction n generalizing s a bs with
  | zero => rfl
  | succ n ih => simp only [partWriteGo]; repeat (first | rfl | split | simp [ih])
@[simp] theorem partWriteGo_tallies (n : Nat) (s : State) (p a : Nat) (bs : List Byte) : (partWriteGo n s p a bs).tallies = s.tallies := by
  induction n generalizing s a bs with
  | zero => rfl
  | succ n ih => simp only [partWriteGo]; repeat (first | rfl | split | simp [ih])
@[simp] theorem partWriteGo_pages (n : Nat) (s : State) (p a : Nat) (bs : List Byte) : (partWriteGo n s p a bs).pages = s.pages := by
  induction n generalizing s a bs with
  | zero => rfl
  | succ n ih => simp only [partWriteGo]; repeat (first | rfl | split | simp [ih])
@[simp] theorem partWriteGo_ctxs (n : Nat) (s : State) (p a : Nat) (bs : List Byte) : (partWriteGo n s p a bs).ctxs = s.ctxs := by
  induction n generalizing s a bs with
  | zero => rfl
  | succ n ih => simp only [partWriteGo]; repeat (first | rfl | split | simp [ih])
@[simp] theorem partWriteGo_parts (n : Nat) (s : State) (p a : Nat) (bs : List Byte) : (partWriteGo n s p a bs).parts = s.parts := by
  induction n generalizing s a bs with
  | zero => rfl
  | succ n ih => simp only [partWriteGo]; repeat (first | rfl | split | simp [ih])
@[simp] theorem partWriteGo_mgmtSeq (n : Nat) (s : State) (p a : Nat) (bs : List Byte) : (partWriteGo n s p a bs).mgmtSeq = s.mgmtSeq := by
  induction n generalizing s a bs with
  | zero => rfl
  | succ n ih => simp only [partWriteGo]; repeat (first | rfl | split | simp [ih])
@[simp] theorem partWriteGo_mgmtFwq (n : Nat) (s : State) (p a : Nat) (bs : List Byte) : (partWriteGo n s p a bs).mgmtFwq = s.mgmtFwq := by
  induction n generalizing s a bs with
  | zero => rfl
  | succ n ih => simp only [partWriteGo]; repeat (first | rfl | split | simp [ih])
@[simp] theorem partWriteGo_mgmtSess (n : Nat) (s : State) (p a : Nat) (bs : List Byte) : (partWriteGo n s p a bs).mgmtSess = s.mgmtSess := by
  induction n generalizing s a bs with
  | zero => rfl
  | succ n ih => simp only [partWriteGo]; repeat (first | rfl | split | simp [ih])
@[simp] theorem partWriteGo_mgmtCount (n : Nat) (s : State) (p a : Nat) (bs : List Byte) : (partWriteGo n s p a bs).mgmtCount = s.mgmtCount := by
  induction n generalizing s a bs with
  | zero => rfl
  | succ n ih => simp only [partWriteGo]; repeat (first | rfl | split | simp [ih])
@[simp] theorem partWriteGo_ivtu (n : Nat) (s : State) (p a : Nat) (bs : List Byte) : (partWriteGo n s p a bs).ivtu = s.ivtu := by
  induction n generalizing s a bs with
  | zero => rfl
  | succ n ih => simp only [partWriteGo]; repeat (first | rfl | split | simp [ih])
@[simp] theorem partWriteGo_hostMem (n : Nat) (s : State) (p a : Nat) (bs : List Byte) : (partWriteGo n s p a bs).hostMem = s.hostMem := by
  induction n generalizing s a bs with
  | zero => rfl
  | succ n ih => simp only [partWriteGo]; repeat (first | rfl | split | simp [ih])
@[simp] theorem partWriteGo_fab (n : Nat) (s : State) (p a : Nat) (bs : List Byte) : (partWriteGo n s p a bs).fab = s.fab := by
  induction n generalizing s a bs with
  | zero => rfl
  | succ n ih => simp only [partWriteGo]; repeat (first | rfl | split | simp [ih])
@[simp] theorem partWriteGo_devSeq (n : Nat) (s : State) (p a : Nat) (bs : List Byte) : (partWriteGo n s p a bs).devSeq = s.devSeq := by
  induction n generalizing s a bs with
  | zero => rfl
  | succ n ih => simp only [partWriteGo]; repeat (first | rfl | split | simp [ih])
@[simp] theorem partWriteGo_votes (n : Nat) (s : State) (p a : Nat) (bs : List Byte) : (partWriteGo n s p a bs).votes = s.votes := by
  induction n generalizing s a bs with
  | zero => rfl
  | succ n ih => simp only [partWriteGo]; repeat (first | rfl | split | simp [ih])
@[simp] theorem partWriteGo_sec (n : Nat) (s : State) (p a : Nat) (bs : List Byte) : (partWriteGo n s p a bs).sec = s.sec := by
  induction n generalizing s a bs with
  | zero => rfl
  | succ n ih => simp only [partWriteGo]; repeat (first | rfl | split | simp [ih])
@[simp] theorem partWriteGo_mi (n : Nat) (s : State) (p a : Nat) (bs : List Byte) : (partWriteGo n s p a bs).mi = s.mi := by
  induction n generalizing s a bs with
  | zero => rfl
  | succ n ih => simp only [partWriteGo]; repeat (first | rfl | split | simp [ih])
@[simp] theorem partWriteGo_relia (n : Nat) (s : State) (p a : Nat) (bs : List Byte) : (partWriteGo n s p a bs).relia = s.relia := by
  induction n generalizing s a bs with
  | zero => rfl
  | succ n ih => simp only [partWriteGo]; repeat (first | rfl | split | simp [ih])
@[simp] theorem partWriteGo_power (n : Nat) (s : State) (p a : Nat) (bs : List Byte) : (partWriteGo n s p a bs).power = s.power := by
  induction n generalizing s a bs with
  | zero => rfl
  | succ n ih => simp only [partWriteGo]; repeat (first | rfl | split | simp [ih])
@[simp] theorem partWriteGo_pins (n : Nat) (s : State) (p a : Nat) (bs : List Byte) : (partWriteGo n s p a bs).pins = s.pins := by
  induction n generalizing s a bs with
  | zero => rfl
  | succ n ih => simp only [partWriteGo]; repeat (first | rfl | split | simp [ih])
@[simp] theorem partWriteGo_ready (n : Nat) (s : State) (p a : Nat) (bs : List Byte) : (partWriteGo n s p a bs).ready = s.ready := by
  induction n generalizing s a bs with
  | zero => rfl
  | succ n ih => simp only [partWriteGo]; repeat (first | rfl | split | simp [ih])

/-! ### partWrite -/

@[simp] theorem partWrite_pending (s : State) (p a : Nat) (bs : List Byte) : (partWrite s p a bs).pending = s.pending := by simp [partWrite]
@[simp] theorem partWrite_work (s : State) (p a : Nat) (bs : List Byte) : (partWrite s p a bs).work = s.work := by simp [partWrite]
@[simp] theorem partWrite_freeIx (s : State) (p a : Nat) (bs : List Byte) : (partWrite s p a bs).freeIx = s.freeIx := by simp [partWrite]
@[simp] theorem partWrite_nextId (s : State) (p a : Nat) (bs : List Byte) : (partWrite s p a bs).nextId = s.nextId := by simp [partWrite]
@[simp] theorem partWrite_starting (s : State) (p a : Nat) (bs : List Byte) : (partWrite s p a bs).starting = s.starting := by simp [partWrite]
@[simp] theorem partWrite_waiting (s : State) (p a : Nat) (bs : List Byte) : (partWrite s p a bs).waiting = s.waiting := by simp [partWrite]
@[simp] theorem partWrite_cores (s : State) (p a : Nat) (bs : List Byte) : (partWrite s p a bs).cores = s.cores := by simp [partWrite]
@[simp] theorem partWrite_dies (s : State) (p a : Nat) (bs : List Byte) : (partWrite s p a bs).dies = s.dies := by simp [partWrite]
@[simp] theorem partWrite_eyelets (s : State) (p a : Nat) (bs : List Byte) : (partWrite s p a bs).eyelets = s.eyelets := by simp [partWrite]
@[simp] theorem partWrite_laces (s : State) (p a : Nat) (bs : List Byte) : (partWrite s p a bs).laces = s.laces := by simp [partWrite]
@[simp] theorem partWrite_tallies (s : State) (p a : Nat) (bs : List Byte) : (partWrite s p a bs).tallies = s.tallies := by simp [partWrite]
@[simp] theorem partWrite_pages (s : State) (p a : Nat) (bs : List Byte) : (partWrite s p a bs).pages = s.pages := by simp [partWrite]
@[simp] theorem partWrite_ctxs (s : State) (p a : Nat) (bs : List Byte) : (partWrite s p a bs).ctxs = s.ctxs := by simp [partWrite]
@[simp] theorem partWrite_parts (s : State) (p a : Nat) (bs : List Byte) : (partWrite s p a bs).parts = s.parts := by simp [partWrite]
@[simp] theorem partWrite_mgmtSeq (s : State) (p a : Nat) (bs : List Byte) : (partWrite s p a bs).mgmtSeq = s.mgmtSeq := by simp [partWrite]
@[simp] theorem partWrite_mgmtFwq (s : State) (p a : Nat) (bs : List Byte) : (partWrite s p a bs).mgmtFwq = s.mgmtFwq := by simp [partWrite]
@[simp] theorem partWrite_mgmtSess (s : State) (p a : Nat) (bs : List Byte) : (partWrite s p a bs).mgmtSess = s.mgmtSess := by simp [partWrite]
@[simp] theorem partWrite_mgmtCount (s : State) (p a : Nat) (bs : List Byte) : (partWrite s p a bs).mgmtCount = s.mgmtCount := by simp [partWrite]
@[simp] theorem partWrite_ivtu (s : State) (p a : Nat) (bs : List Byte) : (partWrite s p a bs).ivtu = s.ivtu := by simp [partWrite]
@[simp] theorem partWrite_hostMem (s : State) (p a : Nat) (bs : List Byte) : (partWrite s p a bs).hostMem = s.hostMem := by simp [partWrite]
@[simp] theorem partWrite_fab (s : State) (p a : Nat) (bs : List Byte) : (partWrite s p a bs).fab = s.fab := by simp [partWrite]
@[simp] theorem partWrite_devSeq (s : State) (p a : Nat) (bs : List Byte) : (partWrite s p a bs).devSeq = s.devSeq := by simp [partWrite]
@[simp] theorem partWrite_votes (s : State) (p a : Nat) (bs : List Byte) : (partWrite s p a bs).votes = s.votes := by simp [partWrite]
@[simp] theorem partWrite_sec (s : State) (p a : Nat) (bs : List Byte) : (partWrite s p a bs).sec = s.sec := by simp [partWrite]
@[simp] theorem partWrite_mi (s : State) (p a : Nat) (bs : List Byte) : (partWrite s p a bs).mi = s.mi := by simp [partWrite]
@[simp] theorem partWrite_relia (s : State) (p a : Nat) (bs : List Byte) : (partWrite s p a bs).relia = s.relia := by simp [partWrite]
@[simp] theorem partWrite_power (s : State) (p a : Nat) (bs : List Byte) : (partWrite s p a bs).power = s.power := by simp [partWrite]
@[simp] theorem partWrite_pins (s : State) (p a : Nat) (bs : List Byte) : (partWrite s p a bs).pins = s.pins := by simp [partWrite]
@[simp] theorem partWrite_ready (s : State) (p a : Nat) (bs : List Byte) : (partWrite s p a bs).ready = s.ready := by simp [partWrite]

/-! ### devForget -/

@[simp] theorem devForget_pending (s : State) (lo hi : Nat) : (devForget s lo hi).pending = s.pending := rfl
@[simp] theorem devForget_work (s : State) (lo hi : Nat) : (devForget s lo hi).work = s.work := rfl
@[simp] theorem devForget_sent (s : State) (lo hi : Nat) : (devForget s lo hi).sent = s.sent := rfl
@[simp] theorem devForget_freeIx (s : State) (lo hi : Nat) : (devForget s lo hi).freeIx = s.freeIx := rfl
@[simp] theorem devForget_nextId (s : State) (lo hi : Nat) : (devForget s lo hi).nextId = s.nextId := rfl
@[simp] theorem devForget_starting (s : State) (lo hi : Nat) : (devForget s lo hi).starting = s.starting := rfl
@[simp] theorem devForget_waiting (s : State) (lo hi : Nat) : (devForget s lo hi).waiting = s.waiting := rfl
@[simp] theorem devForget_cores (s : State) (lo hi : Nat) : (devForget s lo hi).cores = s.cores := rfl
@[simp] theorem devForget_dies (s : State) (lo hi : Nat) : (devForget s lo hi).dies = s.dies := rfl
@[simp] theorem devForget_eyelets (s : State) (lo hi : Nat) : (devForget s lo hi).eyelets = s.eyelets := rfl
@[simp] theorem devForget_laces (s : State) (lo hi : Nat) : (devForget s lo hi).laces = s.laces := rfl
@[simp] theorem devForget_tallies (s : State) (lo hi : Nat) : (devForget s lo hi).tallies = s.tallies := rfl
@[simp] theorem devForget_btn (s : State) (lo hi : Nat) : (devForget s lo hi).btn = s.btn := rfl
@[simp] theorem devForget_pages (s : State) (lo hi : Nat) : (devForget s lo hi).pages = s.pages := rfl
@[simp] theorem devForget_ctxs (s : State) (lo hi : Nat) : (devForget s lo hi).ctxs = s.ctxs := rfl
@[simp] theorem devForget_parts (s : State) (lo hi : Nat) : (devForget s lo hi).parts = s.parts := rfl
@[simp] theorem devForget_mgmtSeq (s : State) (lo hi : Nat) : (devForget s lo hi).mgmtSeq = s.mgmtSeq := rfl
@[simp] theorem devForget_mgmtFwq (s : State) (lo hi : Nat) : (devForget s lo hi).mgmtFwq = s.mgmtFwq := rfl
@[simp] theorem devForget_mgmtSess (s : State) (lo hi : Nat) : (devForget s lo hi).mgmtSess = s.mgmtSess := rfl
@[simp] theorem devForget_mgmtCount (s : State) (lo hi : Nat) : (devForget s lo hi).mgmtCount = s.mgmtCount := rfl
@[simp] theorem devForget_ivtu (s : State) (lo hi : Nat) : (devForget s lo hi).ivtu = s.ivtu := rfl
@[simp] theorem devForget_hostMem (s : State) (lo hi : Nat) : (devForget s lo hi).hostMem = s.hostMem := rfl
@[simp] theorem devForget_hbm (s : State) (lo hi : Nat) : (devForget s lo hi).hbm = s.hbm := rfl
@[simp] theorem devForget_cxl (s : State) (lo hi : Nat) : (devForget s lo hi).cxl = s.cxl := rfl
@[simp] theorem devForget_fab (s : State) (lo hi : Nat) : (devForget s lo hi).fab = s.fab := rfl
@[simp] theorem devForget_devSeq (s : State) (lo hi : Nat) : (devForget s lo hi).devSeq = s.devSeq := rfl
@[simp] theorem devForget_votes (s : State) (lo hi : Nat) : (devForget s lo hi).votes = s.votes := rfl
@[simp] theorem devForget_sec (s : State) (lo hi : Nat) : (devForget s lo hi).sec = s.sec := rfl
@[simp] theorem devForget_mi (s : State) (lo hi : Nat) : (devForget s lo hi).mi = s.mi := rfl
@[simp] theorem devForget_relia (s : State) (lo hi : Nat) : (devForget s lo hi).relia = s.relia := rfl
@[simp] theorem devForget_power (s : State) (lo hi : Nat) : (devForget s lo hi).power = s.power := rfl
@[simp] theorem devForget_pins (s : State) (lo hi : Nat) : (devForget s lo hi).pins = s.pins := rfl
@[simp] theorem devForget_ready (s : State) (lo hi : Nat) : (devForget s lo hi).ready = s.ready := rfl

/-! ### countAtomic -/

@[simp] theorem countAtomic_pending (s : State) (p a n : Nat) : (countAtomic s p a n).pending = s.pending := by simp only [countAtomic]; split <;> simp
@[simp] theorem countAtomic_work (s : State) (p a n : Nat) : (countAtomic s p a n).work = s.work := by simp only [countAtomic]; split <;> simp
@[simp] theorem countAtomic_freeIx (s : State) (p a n : Nat) : (countAtomic s p a n).freeIx = s.freeIx := by simp only [countAtomic]; split <;> simp
@[simp] theorem countAtomic_nextId (s : State) (p a n : Nat) : (countAtomic s p a n).nextId = s.nextId := by simp only [countAtomic]; split <;> simp
@[simp] theorem countAtomic_starting (s : State) (p a n : Nat) : (countAtomic s p a n).starting = s.starting := by simp only [countAtomic]; split <;> simp
@[simp] theorem countAtomic_waiting (s : State) (p a n : Nat) : (countAtomic s p a n).waiting = s.waiting := by simp only [countAtomic]; split <;> simp
@[simp] theorem countAtomic_cores (s : State) (p a n : Nat) : (countAtomic s p a n).cores = s.cores := by simp only [countAtomic]; split <;> simp
@[simp] theorem countAtomic_eyelets (s : State) (p a n : Nat) : (countAtomic s p a n).eyelets = s.eyelets := by simp only [countAtomic]; split <;> simp
@[simp] theorem countAtomic_laces (s : State) (p a n : Nat) : (countAtomic s p a n).laces = s.laces := by simp only [countAtomic]; split <;> simp
@[simp] theorem countAtomic_tallies (s : State) (p a n : Nat) : (countAtomic s p a n).tallies = s.tallies := by simp only [countAtomic]; split <;> simp
@[simp] theorem countAtomic_pages (s : State) (p a n : Nat) : (countAtomic s p a n).pages = s.pages := by simp only [countAtomic]; split <;> simp
@[simp] theorem countAtomic_ctxs (s : State) (p a n : Nat) : (countAtomic s p a n).ctxs = s.ctxs := by simp only [countAtomic]; split <;> simp
@[simp] theorem countAtomic_parts (s : State) (p a n : Nat) : (countAtomic s p a n).parts = s.parts := by simp only [countAtomic]; split <;> simp
@[simp] theorem countAtomic_mgmtSeq (s : State) (p a n : Nat) : (countAtomic s p a n).mgmtSeq = s.mgmtSeq := by simp only [countAtomic]; split <;> simp
@[simp] theorem countAtomic_mgmtFwq (s : State) (p a n : Nat) : (countAtomic s p a n).mgmtFwq = s.mgmtFwq := by simp only [countAtomic]; split <;> simp
@[simp] theorem countAtomic_mgmtSess (s : State) (p a n : Nat) : (countAtomic s p a n).mgmtSess = s.mgmtSess := by simp only [countAtomic]; split <;> simp
@[simp] theorem countAtomic_mgmtCount (s : State) (p a n : Nat) : (countAtomic s p a n).mgmtCount = s.mgmtCount := by simp only [countAtomic]; split <;> simp
@[simp] theorem countAtomic_ivtu (s : State) (p a n : Nat) : (countAtomic s p a n).ivtu = s.ivtu := by simp only [countAtomic]; split <;> simp
@[simp] theorem countAtomic_mem (s : State) (p a n : Nat) : (countAtomic s p a n).mem = s.mem := by simp only [countAtomic]; split <;> simp
@[simp] theorem countAtomic_hostMem (s : State) (p a n : Nat) : (countAtomic s p a n).hostMem = s.hostMem := by simp only [countAtomic]; split <;> simp
@[simp] theorem countAtomic_used (s : State) (p a n : Nat) : (countAtomic s p a n).used = s.used := by simp only [countAtomic]; split <;> simp
@[simp] theorem countAtomic_poison (s : State) (p a n : Nat) : (countAtomic s p a n).poison = s.poison := by simp only [countAtomic]; split <;> simp
@[simp] theorem countAtomic_hbm (s : State) (p a n : Nat) : (countAtomic s p a n).hbm = s.hbm := by simp only [countAtomic]; split <;> simp
@[simp] theorem countAtomic_cxl (s : State) (p a n : Nat) : (countAtomic s p a n).cxl = s.cxl := by simp only [countAtomic]; split <;> simp
@[simp] theorem countAtomic_fab (s : State) (p a n : Nat) : (countAtomic s p a n).fab = s.fab := by simp only [countAtomic]; split <;> simp
@[simp] theorem countAtomic_devSeq (s : State) (p a n : Nat) : (countAtomic s p a n).devSeq = s.devSeq := by simp only [countAtomic]; split <;> simp
@[simp] theorem countAtomic_votes (s : State) (p a n : Nat) : (countAtomic s p a n).votes = s.votes := by simp only [countAtomic]; split <;> simp
@[simp] theorem countAtomic_sec (s : State) (p a n : Nat) : (countAtomic s p a n).sec = s.sec := by simp only [countAtomic]; split <;> simp
@[simp] theorem countAtomic_mi (s : State) (p a n : Nat) : (countAtomic s p a n).mi = s.mi := by simp only [countAtomic]; split <;> simp
@[simp] theorem countAtomic_relia (s : State) (p a n : Nat) : (countAtomic s p a n).relia = s.relia := by simp only [countAtomic]; split <;> simp
@[simp] theorem countAtomic_power (s : State) (p a n : Nat) : (countAtomic s p a n).power = s.power := by simp only [countAtomic]; split <;> simp
@[simp] theorem countAtomic_pins (s : State) (p a n : Nat) : (countAtomic s p a n).pins = s.pins := by simp only [countAtomic]; split <;> simp
@[simp] theorem countAtomic_ready (s : State) (p a n : Nat) : (countAtomic s p a n).ready = s.ready := by simp only [countAtomic]; split <;> simp

/-! ### hostWrite -/

@[simp] theorem hostWrite_pending (s : State) (a : Nat) (bs : List Byte) : (hostWrite s a bs).pending = s.pending := by simp only [hostWrite]; split <;> rfl
@[simp] theorem hostWrite_work (s : State) (a : Nat) (bs : List Byte) : (hostWrite s a bs).work = s.work := by simp only [hostWrite]; split <;> rfl
@[simp] theorem hostWrite_freeIx (s : State) (a : Nat) (bs : List Byte) : (hostWrite s a bs).freeIx = s.freeIx := by simp only [hostWrite]; split <;> rfl
@[simp] theorem hostWrite_nextId (s : State) (a : Nat) (bs : List Byte) : (hostWrite s a bs).nextId = s.nextId := by simp only [hostWrite]; split <;> rfl
@[simp] theorem hostWrite_starting (s : State) (a : Nat) (bs : List Byte) : (hostWrite s a bs).starting = s.starting := by simp only [hostWrite]; split <;> rfl
@[simp] theorem hostWrite_waiting (s : State) (a : Nat) (bs : List Byte) : (hostWrite s a bs).waiting = s.waiting := by simp only [hostWrite]; split <;> rfl
@[simp] theorem hostWrite_cores (s : State) (a : Nat) (bs : List Byte) : (hostWrite s a bs).cores = s.cores := by simp only [hostWrite]; split <;> rfl
@[simp] theorem hostWrite_dies (s : State) (a : Nat) (bs : List Byte) : (hostWrite s a bs).dies = s.dies := by simp only [hostWrite]; split <;> rfl
@[simp] theorem hostWrite_eyelets (s : State) (a : Nat) (bs : List Byte) : (hostWrite s a bs).eyelets = s.eyelets := by simp only [hostWrite]; split <;> rfl
@[simp] theorem hostWrite_laces (s : State) (a : Nat) (bs : List Byte) : (hostWrite s a bs).laces = s.laces := by simp only [hostWrite]; split <;> rfl
@[simp] theorem hostWrite_tallies (s : State) (a : Nat) (bs : List Byte) : (hostWrite s a bs).tallies = s.tallies := by simp only [hostWrite]; split <;> rfl
@[simp] theorem hostWrite_btn (s : State) (a : Nat) (bs : List Byte) : (hostWrite s a bs).btn = s.btn := by simp only [hostWrite]; split <;> rfl
@[simp] theorem hostWrite_pages (s : State) (a : Nat) (bs : List Byte) : (hostWrite s a bs).pages = s.pages := by simp only [hostWrite]; split <;> rfl
@[simp] theorem hostWrite_ctxs (s : State) (a : Nat) (bs : List Byte) : (hostWrite s a bs).ctxs = s.ctxs := by simp only [hostWrite]; split <;> rfl
@[simp] theorem hostWrite_parts (s : State) (a : Nat) (bs : List Byte) : (hostWrite s a bs).parts = s.parts := by simp only [hostWrite]; split <;> rfl
@[simp] theorem hostWrite_mgmtSeq (s : State) (a : Nat) (bs : List Byte) : (hostWrite s a bs).mgmtSeq = s.mgmtSeq := by simp only [hostWrite]; split <;> rfl
@[simp] theorem hostWrite_mgmtFwq (s : State) (a : Nat) (bs : List Byte) : (hostWrite s a bs).mgmtFwq = s.mgmtFwq := by simp only [hostWrite]; split <;> rfl
@[simp] theorem hostWrite_mgmtSess (s : State) (a : Nat) (bs : List Byte) : (hostWrite s a bs).mgmtSess = s.mgmtSess := by simp only [hostWrite]; split <;> rfl
@[simp] theorem hostWrite_mgmtCount (s : State) (a : Nat) (bs : List Byte) : (hostWrite s a bs).mgmtCount = s.mgmtCount := by simp only [hostWrite]; split <;> rfl
@[simp] theorem hostWrite_ivtu (s : State) (a : Nat) (bs : List Byte) : (hostWrite s a bs).ivtu = s.ivtu := by simp only [hostWrite]; split <;> rfl
@[simp] theorem hostWrite_mem (s : State) (a : Nat) (bs : List Byte) : (hostWrite s a bs).mem = s.mem := by simp only [hostWrite]; split <;> rfl
@[simp] theorem hostWrite_used (s : State) (a : Nat) (bs : List Byte) : (hostWrite s a bs).used = s.used := by simp only [hostWrite]; split <;> rfl
@[simp] theorem hostWrite_poison (s : State) (a : Nat) (bs : List Byte) : (hostWrite s a bs).poison = s.poison := by simp only [hostWrite]; split <;> rfl
@[simp] theorem hostWrite_hbm (s : State) (a : Nat) (bs : List Byte) : (hostWrite s a bs).hbm = s.hbm := by simp only [hostWrite]; split <;> rfl
@[simp] theorem hostWrite_cxl (s : State) (a : Nat) (bs : List Byte) : (hostWrite s a bs).cxl = s.cxl := by simp only [hostWrite]; split <;> rfl
@[simp] theorem hostWrite_fab (s : State) (a : Nat) (bs : List Byte) : (hostWrite s a bs).fab = s.fab := by simp only [hostWrite]; split <;> rfl
@[simp] theorem hostWrite_devSeq (s : State) (a : Nat) (bs : List Byte) : (hostWrite s a bs).devSeq = s.devSeq := by simp only [hostWrite]; split <;> rfl
@[simp] theorem hostWrite_votes (s : State) (a : Nat) (bs : List Byte) : (hostWrite s a bs).votes = s.votes := by simp only [hostWrite]; split <;> rfl
@[simp] theorem hostWrite_sec (s : State) (a : Nat) (bs : List Byte) : (hostWrite s a bs).sec = s.sec := by simp only [hostWrite]; split <;> rfl
@[simp] theorem hostWrite_mi (s : State) (a : Nat) (bs : List Byte) : (hostWrite s a bs).mi = s.mi := by simp only [hostWrite]; split <;> rfl
@[simp] theorem hostWrite_relia (s : State) (a : Nat) (bs : List Byte) : (hostWrite s a bs).relia = s.relia := by simp only [hostWrite]; split <;> rfl
@[simp] theorem hostWrite_power (s : State) (a : Nat) (bs : List Byte) : (hostWrite s a bs).power = s.power := by simp only [hostWrite]; split <;> rfl
@[simp] theorem hostWrite_pins (s : State) (a : Nat) (bs : List Byte) : (hostWrite s a bs).pins = s.pins := by simp only [hostWrite]; split <;> rfl
@[simp] theorem hostWrite_ready (s : State) (a : Nat) (bs : List Byte) : (hostWrite s a bs).ready = s.ready := by simp only [hostWrite]; split <;> rfl

/-! ### notify -/

@[simp] theorem notify_pending (s : State) (a : Nat) : (notify s a).pending = s.pending := by simp only [notify]; split <;> rfl
@[simp] theorem notify_work (s : State) (a : Nat) : (notify s a).work = s.work := by simp only [notify]; split <;> rfl
@[simp] theorem notify_freeIx (s : State) (a : Nat) : (notify s a).freeIx = s.freeIx := by simp only [notify]; split <;> rfl
@[simp] theorem notify_nextId (s : State) (a : Nat) : (notify s a).nextId = s.nextId := by simp only [notify]; split <;> rfl
@[simp] theorem notify_starting (s : State) (a : Nat) : (notify s a).starting = s.starting := by simp only [notify]; split <;> rfl
@[simp] theorem notify_waiting (s : State) (a : Nat) : (notify s a).waiting = s.waiting := by simp only [notify]; split <;> rfl
@[simp] theorem notify_cores (s : State) (a : Nat) : (notify s a).cores = s.cores := by simp only [notify]; split <;> rfl
@[simp] theorem notify_dies (s : State) (a : Nat) : (notify s a).dies = s.dies := by simp only [notify]; split <;> rfl
@[simp] theorem notify_eyelets (s : State) (a : Nat) : (notify s a).eyelets = s.eyelets := by simp only [notify]; split <;> rfl
@[simp] theorem notify_laces (s : State) (a : Nat) : (notify s a).laces = s.laces := by simp only [notify]; split <;> rfl
@[simp] theorem notify_tallies (s : State) (a : Nat) : (notify s a).tallies = s.tallies := by simp only [notify]; split <;> rfl
@[simp] theorem notify_btn (s : State) (a : Nat) : (notify s a).btn = s.btn := by simp only [notify]; split <;> rfl
@[simp] theorem notify_pages (s : State) (a : Nat) : (notify s a).pages = s.pages := by simp only [notify]; split <;> rfl
@[simp] theorem notify_ctxs (s : State) (a : Nat) : (notify s a).ctxs = s.ctxs := by simp only [notify]; split <;> rfl
@[simp] theorem notify_parts (s : State) (a : Nat) : (notify s a).parts = s.parts := by simp only [notify]; split <;> rfl
@[simp] theorem notify_mgmtSeq (s : State) (a : Nat) : (notify s a).mgmtSeq = s.mgmtSeq := by simp only [notify]; split <;> rfl
@[simp] theorem notify_mgmtFwq (s : State) (a : Nat) : (notify s a).mgmtFwq = s.mgmtFwq := by simp only [notify]; split <;> rfl
@[simp] theorem notify_mgmtSess (s : State) (a : Nat) : (notify s a).mgmtSess = s.mgmtSess := by simp only [notify]; split <;> rfl
@[simp] theorem notify_mgmtCount (s : State) (a : Nat) : (notify s a).mgmtCount = s.mgmtCount := by simp only [notify]; split <;> rfl
@[simp] theorem notify_ivtu (s : State) (a : Nat) : (notify s a).ivtu = s.ivtu := by simp only [notify]; split <;> rfl
@[simp] theorem notify_mem (s : State) (a : Nat) : (notify s a).mem = s.mem := by simp only [notify]; split <;> rfl
@[simp] theorem notify_hostMem (s : State) (a : Nat) : (notify s a).hostMem = s.hostMem := by simp only [notify]; split <;> rfl
@[simp] theorem notify_used (s : State) (a : Nat) : (notify s a).used = s.used := by simp only [notify]; split <;> rfl
@[simp] theorem notify_poison (s : State) (a : Nat) : (notify s a).poison = s.poison := by simp only [notify]; split <;> rfl
@[simp] theorem notify_hbm (s : State) (a : Nat) : (notify s a).hbm = s.hbm := by simp only [notify]; split <;> rfl
@[simp] theorem notify_cxl (s : State) (a : Nat) : (notify s a).cxl = s.cxl := by simp only [notify]; split <;> rfl
@[simp] theorem notify_fab (s : State) (a : Nat) : (notify s a).fab = s.fab := by simp only [notify]; split <;> rfl
@[simp] theorem notify_devSeq (s : State) (a : Nat) : (notify s a).devSeq = s.devSeq := by simp only [notify]; split <;> rfl
@[simp] theorem notify_votes (s : State) (a : Nat) : (notify s a).votes = s.votes := by simp only [notify]; split <;> rfl
@[simp] theorem notify_sec (s : State) (a : Nat) : (notify s a).sec = s.sec := by simp only [notify]; split <;> rfl
@[simp] theorem notify_mi (s : State) (a : Nat) : (notify s a).mi = s.mi := by simp only [notify]; split <;> rfl
@[simp] theorem notify_relia (s : State) (a : Nat) : (notify s a).relia = s.relia := by simp only [notify]; split <;> rfl
@[simp] theorem notify_power (s : State) (a : Nat) : (notify s a).power = s.power := by simp only [notify]; split <;> rfl
@[simp] theorem notify_pins (s : State) (a : Nat) : (notify s a).pins = s.pins := by simp only [notify]; split <;> rfl
@[simp] theorem notify_ready (s : State) (a : Nat) : (notify s a).ready = s.ready := by simp only [notify]; split <;> rfl

/-! ### breakQuag -/

@[simp] theorem breakQuag_pending (s : State) (p : Nat) : (breakQuag s p).pending = s.pending := by simp only [breakQuag]; split <;> rfl
@[simp] theorem breakQuag_work (s : State) (p : Nat) : (breakQuag s p).work = s.work := by simp only [breakQuag]; split <;> rfl
@[simp] theorem breakQuag_sent (s : State) (p : Nat) : (breakQuag s p).sent = s.sent := by simp only [breakQuag]; split <;> rfl
@[simp] theorem breakQuag_freeIx (s : State) (p : Nat) : (breakQuag s p).freeIx = s.freeIx := by simp only [breakQuag]; split <;> rfl
@[simp] theorem breakQuag_nextId (s : State) (p : Nat) : (breakQuag s p).nextId = s.nextId := by simp only [breakQuag]; split <;> rfl
@[simp] theorem breakQuag_starting (s : State) (p : Nat) : (breakQuag s p).starting = s.starting := by simp only [breakQuag]; split <;> rfl
@[simp] theorem breakQuag_waiting (s : State) (p : Nat) : (breakQuag s p).waiting = s.waiting := by simp only [breakQuag]; split <;> rfl
@[simp] theorem breakQuag_cores (s : State) (p : Nat) : (breakQuag s p).cores = s.cores := by simp only [breakQuag]; split <;> rfl
@[simp] theorem breakQuag_dies (s : State) (p : Nat) : (breakQuag s p).dies = s.dies := by simp only [breakQuag]; split <;> rfl
@[simp] theorem breakQuag_eyelets (s : State) (p : Nat) : (breakQuag s p).eyelets = s.eyelets := by simp only [breakQuag]; split <;> rfl
@[simp] theorem breakQuag_laces (s : State) (p : Nat) : (breakQuag s p).laces = s.laces := by simp only [breakQuag]; split <;> rfl
@[simp] theorem breakQuag_tallies (s : State) (p : Nat) : (breakQuag s p).tallies = s.tallies := by simp only [breakQuag]; split <;> rfl
@[simp] theorem breakQuag_btn (s : State) (p : Nat) : (breakQuag s p).btn = s.btn := by simp only [breakQuag]; split <;> rfl
@[simp] theorem breakQuag_pages (s : State) (p : Nat) : (breakQuag s p).pages = s.pages := by simp only [breakQuag]; split <;> rfl
@[simp] theorem breakQuag_ctxs (s : State) (p : Nat) : (breakQuag s p).ctxs = s.ctxs := by simp only [breakQuag]; split <;> rfl
@[simp] theorem breakQuag_mgmtSeq (s : State) (p : Nat) : (breakQuag s p).mgmtSeq = s.mgmtSeq := by simp only [breakQuag]; split <;> rfl
@[simp] theorem breakQuag_mgmtFwq (s : State) (p : Nat) : (breakQuag s p).mgmtFwq = s.mgmtFwq := by simp only [breakQuag]; split <;> rfl
@[simp] theorem breakQuag_mgmtSess (s : State) (p : Nat) : (breakQuag s p).mgmtSess = s.mgmtSess := by simp only [breakQuag]; split <;> rfl
@[simp] theorem breakQuag_mgmtCount (s : State) (p : Nat) : (breakQuag s p).mgmtCount = s.mgmtCount := by simp only [breakQuag]; split <;> rfl
@[simp] theorem breakQuag_ivtu (s : State) (p : Nat) : (breakQuag s p).ivtu = s.ivtu := by simp only [breakQuag]; split <;> rfl
@[simp] theorem breakQuag_mem (s : State) (p : Nat) : (breakQuag s p).mem = s.mem := by simp only [breakQuag]; split <;> rfl
@[simp] theorem breakQuag_hostMem (s : State) (p : Nat) : (breakQuag s p).hostMem = s.hostMem := by simp only [breakQuag]; split <;> rfl
@[simp] theorem breakQuag_used (s : State) (p : Nat) : (breakQuag s p).used = s.used := by simp only [breakQuag]; split <;> rfl
@[simp] theorem breakQuag_poison (s : State) (p : Nat) : (breakQuag s p).poison = s.poison := by simp only [breakQuag]; split <;> rfl
@[simp] theorem breakQuag_hbm (s : State) (p : Nat) : (breakQuag s p).hbm = s.hbm := by simp only [breakQuag]; split <;> rfl
@[simp] theorem breakQuag_cxl (s : State) (p : Nat) : (breakQuag s p).cxl = s.cxl := by simp only [breakQuag]; split <;> rfl
@[simp] theorem breakQuag_fab (s : State) (p : Nat) : (breakQuag s p).fab = s.fab := by simp only [breakQuag]; split <;> rfl
@[simp] theorem breakQuag_devSeq (s : State) (p : Nat) : (breakQuag s p).devSeq = s.devSeq := by simp only [breakQuag]; split <;> rfl
@[simp] theorem breakQuag_votes (s : State) (p : Nat) : (breakQuag s p).votes = s.votes := by simp only [breakQuag]; split <;> rfl
@[simp] theorem breakQuag_sec (s : State) (p : Nat) : (breakQuag s p).sec = s.sec := by simp only [breakQuag]; split <;> rfl
@[simp] theorem breakQuag_mi (s : State) (p : Nat) : (breakQuag s p).mi = s.mi := by simp only [breakQuag]; split <;> rfl
@[simp] theorem breakQuag_relia (s : State) (p : Nat) : (breakQuag s p).relia = s.relia := by simp only [breakQuag]; split <;> rfl
@[simp] theorem breakQuag_power (s : State) (p : Nat) : (breakQuag s p).power = s.power := by simp only [breakQuag]; split <;> rfl
@[simp] theorem breakQuag_pins (s : State) (p : Nat) : (breakQuag s p).pins = s.pins := by simp only [breakQuag]; split <;> rfl
@[simp] theorem breakQuag_ready (s : State) (p : Nat) : (breakQuag s p).ready = s.ready := by simp only [breakQuag]; split <;> rfl

/-! ### dropEvent -/

@[simp] theorem dropEvent_pending (s : State) (q : Nat) : (dropEvent s q).pending = s.pending := by simp only [dropEvent]; rw [apply_ite State.pending]; simp
@[simp] theorem dropEvent_work (s : State) (q : Nat) : (dropEvent s q).work = s.work := by simp only [dropEvent]; rw [apply_ite State.work]; simp
@[simp] theorem dropEvent_freeIx (s : State) (q : Nat) : (dropEvent s q).freeIx = s.freeIx := by simp only [dropEvent]; rw [apply_ite State.freeIx]; simp
@[simp] theorem dropEvent_nextId (s : State) (q : Nat) : (dropEvent s q).nextId = s.nextId := by simp only [dropEvent]; rw [apply_ite State.nextId]; simp
@[simp] theorem dropEvent_starting (s : State) (q : Nat) : (dropEvent s q).starting = s.starting := by simp only [dropEvent]; rw [apply_ite State.starting]; simp
@[simp] theorem dropEvent_waiting (s : State) (q : Nat) : (dropEvent s q).waiting = s.waiting := by simp only [dropEvent]; rw [apply_ite State.waiting]; simp
@[simp] theorem dropEvent_cores (s : State) (q : Nat) : (dropEvent s q).cores = s.cores := by simp only [dropEvent]; rw [apply_ite State.cores]; simp
@[simp] theorem dropEvent_dies (s : State) (q : Nat) : (dropEvent s q).dies = s.dies := by simp only [dropEvent]; rw [apply_ite State.dies]; simp
@[simp] theorem dropEvent_eyelets (s : State) (q : Nat) : (dropEvent s q).eyelets = s.eyelets := by simp only [dropEvent]; rw [apply_ite State.eyelets]; simp
@[simp] theorem dropEvent_laces (s : State) (q : Nat) : (dropEvent s q).laces = s.laces := by simp only [dropEvent]; rw [apply_ite State.laces]; simp
@[simp] theorem dropEvent_tallies (s : State) (q : Nat) : (dropEvent s q).tallies = s.tallies := by simp only [dropEvent]; rw [apply_ite State.tallies]; simp
@[simp] theorem dropEvent_btn (s : State) (q : Nat) : (dropEvent s q).btn = s.btn := by simp only [dropEvent]; rw [apply_ite State.btn]; simp
@[simp] theorem dropEvent_ctxs (s : State) (q : Nat) : (dropEvent s q).ctxs = s.ctxs := by simp only [dropEvent]; rw [apply_ite State.ctxs]; simp
@[simp] theorem dropEvent_parts (s : State) (q : Nat) : (dropEvent s q).parts = s.parts := by simp only [dropEvent]; rw [apply_ite State.parts]; simp
@[simp] theorem dropEvent_mgmtSeq (s : State) (q : Nat) : (dropEvent s q).mgmtSeq = s.mgmtSeq := by simp only [dropEvent]; rw [apply_ite State.mgmtSeq]; simp
@[simp] theorem dropEvent_mgmtFwq (s : State) (q : Nat) : (dropEvent s q).mgmtFwq = s.mgmtFwq := by simp only [dropEvent]; rw [apply_ite State.mgmtFwq]; simp
@[simp] theorem dropEvent_mgmtSess (s : State) (q : Nat) : (dropEvent s q).mgmtSess = s.mgmtSess := by simp only [dropEvent]; rw [apply_ite State.mgmtSess]; simp
@[simp] theorem dropEvent_mgmtCount (s : State) (q : Nat) : (dropEvent s q).mgmtCount = s.mgmtCount := by simp only [dropEvent]; rw [apply_ite State.mgmtCount]; simp
@[simp] theorem dropEvent_ivtu (s : State) (q : Nat) : (dropEvent s q).ivtu = s.ivtu := by simp only [dropEvent]; rw [apply_ite State.ivtu]; simp
@[simp] theorem dropEvent_mem (s : State) (q : Nat) : (dropEvent s q).mem = s.mem := by simp only [dropEvent]; rw [apply_ite State.mem]; simp
@[simp] theorem dropEvent_used (s : State) (q : Nat) : (dropEvent s q).used = s.used := by simp only [dropEvent]; rw [apply_ite State.used]; simp
@[simp] theorem dropEvent_poison (s : State) (q : Nat) : (dropEvent s q).poison = s.poison := by simp only [dropEvent]; rw [apply_ite State.poison]; simp
@[simp] theorem dropEvent_hbm (s : State) (q : Nat) : (dropEvent s q).hbm = s.hbm := by simp only [dropEvent]; rw [apply_ite State.hbm]; simp
@[simp] theorem dropEvent_cxl (s : State) (q : Nat) : (dropEvent s q).cxl = s.cxl := by simp only [dropEvent]; rw [apply_ite State.cxl]; simp
@[simp] theorem dropEvent_fab (s : State) (q : Nat) : (dropEvent s q).fab = s.fab := by simp only [dropEvent]; rw [apply_ite State.fab]; simp
@[simp] theorem dropEvent_devSeq (s : State) (q : Nat) : (dropEvent s q).devSeq = s.devSeq := by simp only [dropEvent]; rw [apply_ite State.devSeq]; simp
@[simp] theorem dropEvent_votes (s : State) (q : Nat) : (dropEvent s q).votes = s.votes := by simp only [dropEvent]; rw [apply_ite State.votes]; simp
@[simp] theorem dropEvent_sec (s : State) (q : Nat) : (dropEvent s q).sec = s.sec := by simp only [dropEvent]; rw [apply_ite State.sec]; simp
@[simp] theorem dropEvent_mi (s : State) (q : Nat) : (dropEvent s q).mi = s.mi := by simp only [dropEvent]; rw [apply_ite State.mi]; simp
@[simp] theorem dropEvent_relia (s : State) (q : Nat) : (dropEvent s q).relia = s.relia := by simp only [dropEvent]; rw [apply_ite State.relia]; simp
@[simp] theorem dropEvent_power (s : State) (q : Nat) : (dropEvent s q).power = s.power := by simp only [dropEvent]; rw [apply_ite State.power]; simp
@[simp] theorem dropEvent_pins (s : State) (q : Nat) : (dropEvent s q).pins = s.pins := by simp only [dropEvent]; rw [apply_ite State.pins]; simp
@[simp] theorem dropEvent_ready (s : State) (q : Nat) : (dropEvent s q).ready = s.ready := by simp only [dropEvent]; rw [apply_ite State.ready]; simp

/-! ### postEvent -/

@[simp] theorem postEvent_pending (s : State) (q c r j t : Nat) (d : List Byte) : (postEvent s q c r j t d).pending = s.pending := by simp only [postEvent]; repeat (first | rfl | split | simp)
@[simp] theorem postEvent_work (s : State) (q c r j t : Nat) (d : List Byte) : (postEvent s q c r j t d).work = s.work := by simp only [postEvent]; repeat (first | rfl | split | simp)
@[simp] theorem postEvent_freeIx (s : State) (q c r j t : Nat) (d : List Byte) : (postEvent s q c r j t d).freeIx = s.freeIx := by simp only [postEvent]; repeat (first | rfl | split | simp)
@[simp] theorem postEvent_nextId (s : State) (q c r j t : Nat) (d : List Byte) : (postEvent s q c r j t d).nextId = s.nextId := by simp only [postEvent]; repeat (first | rfl | split | simp)
@[simp] theorem postEvent_starting (s : State) (q c r j t : Nat) (d : List Byte) : (postEvent s q c r j t d).starting = s.starting := by simp only [postEvent]; repeat (first | rfl | split | simp)
@[simp] theorem postEvent_waiting (s : State) (q c r j t : Nat) (d : List Byte) : (postEvent s q c r j t d).waiting = s.waiting := by simp only [postEvent]; repeat (first | rfl | split | simp)
@[simp] theorem postEvent_cores (s : State) (q c r j t : Nat) (d : List Byte) : (postEvent s q c r j t d).cores = s.cores := by simp only [postEvent]; repeat (first | rfl | split | simp)
@[simp] theorem postEvent_dies (s : State) (q c r j t : Nat) (d : List Byte) : (postEvent s q c r j t d).dies = s.dies := by simp only [postEvent]; repeat (first | rfl | split | simp)
@[simp] theorem postEvent_eyelets (s : State) (q c r j t : Nat) (d : List Byte) : (postEvent s q c r j t d).eyelets = s.eyelets := by simp only [postEvent]; repeat (first | rfl | split | simp)
@[simp] theorem postEvent_laces (s : State) (q c r j t : Nat) (d : List Byte) : (postEvent s q c r j t d).laces = s.laces := by simp only [postEvent]; repeat (first | rfl | split | simp)
@[simp] theorem postEvent_tallies (s : State) (q c r j t : Nat) (d : List Byte) : (postEvent s q c r j t d).tallies = s.tallies := by simp only [postEvent]; repeat (first | rfl | split | simp)
@[simp] theorem postEvent_btn (s : State) (q c r j t : Nat) (d : List Byte) : (postEvent s q c r j t d).btn = s.btn := by simp only [postEvent]; repeat (first | rfl | split | simp)
@[simp] theorem postEvent_ctxs (s : State) (q c r j t : Nat) (d : List Byte) : (postEvent s q c r j t d).ctxs = s.ctxs := by simp only [postEvent]; repeat (first | rfl | split | simp)
@[simp] theorem postEvent_mgmtSeq (s : State) (q c r j t : Nat) (d : List Byte) : (postEvent s q c r j t d).mgmtSeq = s.mgmtSeq := by simp only [postEvent]; repeat (first | rfl | split | simp)
@[simp] theorem postEvent_mgmtFwq (s : State) (q c r j t : Nat) (d : List Byte) : (postEvent s q c r j t d).mgmtFwq = s.mgmtFwq := by simp only [postEvent]; repeat (first | rfl | split | simp)
@[simp] theorem postEvent_mgmtSess (s : State) (q c r j t : Nat) (d : List Byte) : (postEvent s q c r j t d).mgmtSess = s.mgmtSess := by simp only [postEvent]; repeat (first | rfl | split | simp)
@[simp] theorem postEvent_mgmtCount (s : State) (q c r j t : Nat) (d : List Byte) : (postEvent s q c r j t d).mgmtCount = s.mgmtCount := by simp only [postEvent]; repeat (first | rfl | split | simp)
@[simp] theorem postEvent_ivtu (s : State) (q c r j t : Nat) (d : List Byte) : (postEvent s q c r j t d).ivtu = s.ivtu := by simp only [postEvent]; repeat (first | rfl | split | simp)
@[simp] theorem postEvent_mem (s : State) (q c r j t : Nat) (d : List Byte) : (postEvent s q c r j t d).mem = s.mem := by simp only [postEvent]; repeat (first | rfl | split | simp)
@[simp] theorem postEvent_used (s : State) (q c r j t : Nat) (d : List Byte) : (postEvent s q c r j t d).used = s.used := by simp only [postEvent]; repeat (first | rfl | split | simp)
@[simp] theorem postEvent_poison (s : State) (q c r j t : Nat) (d : List Byte) : (postEvent s q c r j t d).poison = s.poison := by simp only [postEvent]; repeat (first | rfl | split | simp)
@[simp] theorem postEvent_hbm (s : State) (q c r j t : Nat) (d : List Byte) : (postEvent s q c r j t d).hbm = s.hbm := by simp only [postEvent]; repeat (first | rfl | split | simp)
@[simp] theorem postEvent_cxl (s : State) (q c r j t : Nat) (d : List Byte) : (postEvent s q c r j t d).cxl = s.cxl := by simp only [postEvent]; repeat (first | rfl | split | simp)
@[simp] theorem postEvent_fab (s : State) (q c r j t : Nat) (d : List Byte) : (postEvent s q c r j t d).fab = s.fab := by simp only [postEvent]; repeat (first | rfl | split | simp)
@[simp] theorem postEvent_devSeq (s : State) (q c r j t : Nat) (d : List Byte) : (postEvent s q c r j t d).devSeq = s.devSeq := by simp only [postEvent]; repeat (first | rfl | split | simp)
@[simp] theorem postEvent_votes (s : State) (q c r j t : Nat) (d : List Byte) : (postEvent s q c r j t d).votes = s.votes := by simp only [postEvent]; repeat (first | rfl | split | simp)
@[simp] theorem postEvent_sec (s : State) (q c r j t : Nat) (d : List Byte) : (postEvent s q c r j t d).sec = s.sec := by simp only [postEvent]; repeat (first | rfl | split | simp)
@[simp] theorem postEvent_mi (s : State) (q c r j t : Nat) (d : List Byte) : (postEvent s q c r j t d).mi = s.mi := by simp only [postEvent]; repeat (first | rfl | split | simp)
@[simp] theorem postEvent_relia (s : State) (q c r j t : Nat) (d : List Byte) : (postEvent s q c r j t d).relia = s.relia := by simp only [postEvent]; repeat (first | rfl | split | simp)
@[simp] theorem postEvent_power (s : State) (q c r j t : Nat) (d : List Byte) : (postEvent s q c r j t d).power = s.power := by simp only [postEvent]; repeat (first | rfl | split | simp)
@[simp] theorem postEvent_pins (s : State) (q c r j t : Nat) (d : List Byte) : (postEvent s q c r j t d).pins = s.pins := by simp only [postEvent]; repeat (first | rfl | split | simp)
@[simp] theorem postEvent_ready (s : State) (q c r j t : Nat) (d : List Byte) : (postEvent s q c r j t d).ready = s.ready := by simp only [postEvent]; repeat (first | rfl | split | simp)

/-! ### postMgmt -/

@[simp] theorem postMgmt_pending (s : State) (c r : Nat) (d : List Byte) : (postMgmt s c r d).pending = s.pending := by simp [postMgmt]
@[simp] theorem postMgmt_work (s : State) (c r : Nat) (d : List Byte) : (postMgmt s c r d).work = s.work := by simp [postMgmt]
@[simp] theorem postMgmt_freeIx (s : State) (c r : Nat) (d : List Byte) : (postMgmt s c r d).freeIx = s.freeIx := by simp [postMgmt]
@[simp] theorem postMgmt_nextId (s : State) (c r : Nat) (d : List Byte) : (postMgmt s c r d).nextId = s.nextId := by simp [postMgmt]
@[simp] theorem postMgmt_starting (s : State) (c r : Nat) (d : List Byte) : (postMgmt s c r d).starting = s.starting := by simp [postMgmt]
@[simp] theorem postMgmt_waiting (s : State) (c r : Nat) (d : List Byte) : (postMgmt s c r d).waiting = s.waiting := by simp [postMgmt]
@[simp] theorem postMgmt_cores (s : State) (c r : Nat) (d : List Byte) : (postMgmt s c r d).cores = s.cores := by simp [postMgmt]
@[simp] theorem postMgmt_dies (s : State) (c r : Nat) (d : List Byte) : (postMgmt s c r d).dies = s.dies := by simp [postMgmt]
@[simp] theorem postMgmt_eyelets (s : State) (c r : Nat) (d : List Byte) : (postMgmt s c r d).eyelets = s.eyelets := by simp [postMgmt]
@[simp] theorem postMgmt_laces (s : State) (c r : Nat) (d : List Byte) : (postMgmt s c r d).laces = s.laces := by simp [postMgmt]
@[simp] theorem postMgmt_tallies (s : State) (c r : Nat) (d : List Byte) : (postMgmt s c r d).tallies = s.tallies := by simp [postMgmt]
@[simp] theorem postMgmt_btn (s : State) (c r : Nat) (d : List Byte) : (postMgmt s c r d).btn = s.btn := by simp [postMgmt]
@[simp] theorem postMgmt_ctxs (s : State) (c r : Nat) (d : List Byte) : (postMgmt s c r d).ctxs = s.ctxs := by simp [postMgmt]
@[simp] theorem postMgmt_mgmtSeq (s : State) (c r : Nat) (d : List Byte) : (postMgmt s c r d).mgmtSeq = s.mgmtSeq := by simp [postMgmt]
@[simp] theorem postMgmt_mgmtFwq (s : State) (c r : Nat) (d : List Byte) : (postMgmt s c r d).mgmtFwq = s.mgmtFwq := by simp [postMgmt]
@[simp] theorem postMgmt_mgmtSess (s : State) (c r : Nat) (d : List Byte) : (postMgmt s c r d).mgmtSess = s.mgmtSess := by simp [postMgmt]
@[simp] theorem postMgmt_mgmtCount (s : State) (c r : Nat) (d : List Byte) : (postMgmt s c r d).mgmtCount = s.mgmtCount := by simp [postMgmt]
@[simp] theorem postMgmt_ivtu (s : State) (c r : Nat) (d : List Byte) : (postMgmt s c r d).ivtu = s.ivtu := by simp [postMgmt]
@[simp] theorem postMgmt_mem (s : State) (c r : Nat) (d : List Byte) : (postMgmt s c r d).mem = s.mem := by simp [postMgmt]
@[simp] theorem postMgmt_used (s : State) (c r : Nat) (d : List Byte) : (postMgmt s c r d).used = s.used := by simp [postMgmt]
@[simp] theorem postMgmt_poison (s : State) (c r : Nat) (d : List Byte) : (postMgmt s c r d).poison = s.poison := by simp [postMgmt]
@[simp] theorem postMgmt_hbm (s : State) (c r : Nat) (d : List Byte) : (postMgmt s c r d).hbm = s.hbm := by simp [postMgmt]
@[simp] theorem postMgmt_cxl (s : State) (c r : Nat) (d : List Byte) : (postMgmt s c r d).cxl = s.cxl := by simp [postMgmt]
@[simp] theorem postMgmt_fab (s : State) (c r : Nat) (d : List Byte) : (postMgmt s c r d).fab = s.fab := by simp [postMgmt]
@[simp] theorem postMgmt_devSeq (s : State) (c r : Nat) (d : List Byte) : (postMgmt s c r d).devSeq = s.devSeq := by simp [postMgmt]
@[simp] theorem postMgmt_votes (s : State) (c r : Nat) (d : List Byte) : (postMgmt s c r d).votes = s.votes := by simp [postMgmt]
@[simp] theorem postMgmt_sec (s : State) (c r : Nat) (d : List Byte) : (postMgmt s c r d).sec = s.sec := by simp [postMgmt]
@[simp] theorem postMgmt_mi (s : State) (c r : Nat) (d : List Byte) : (postMgmt s c r d).mi = s.mi := by simp [postMgmt]
@[simp] theorem postMgmt_relia (s : State) (c r : Nat) (d : List Byte) : (postMgmt s c r d).relia = s.relia := by simp [postMgmt]
@[simp] theorem postMgmt_power (s : State) (c r : Nat) (d : List Byte) : (postMgmt s c r d).power = s.power := by simp [postMgmt]
@[simp] theorem postMgmt_pins (s : State) (c r : Nat) (d : List Byte) : (postMgmt s c r d).pins = s.pins := by simp [postMgmt]
@[simp] theorem postMgmt_ready (s : State) (c r : Nat) (d : List Byte) : (postMgmt s c r d).ready = s.ready := by simp [postMgmt]

end Sys2Proof.Machine
end

