-- ==== Sys2Proof/Laws/Tab.lean ====
section
/-! SUPPORT. The laws of the sparse tables: reading back, leaving other keys alone, and keeping the canonical form. -/
namespace Sys2Proof.Machine

-- One theorem after another: many side by side reserve more memory than the check allows.
set_option Elab.async false

variable {α : Type}

@[simp] theorem tget_nil (d : α) (k : Nat) : tget d k ([] : Tab α) = d := rfl

@[simp] theorem twf_nil [DecidableEq α] (d : α) : twf d ([] : Tab α) = true := rfl

/-- An inserted value reads back. -/
@[simp] theorem tget_tins (d : α) (k : Nat) (v : α) (t : Tab α) : tget d k (tins k v t) = v := by
  induction t with
  | nil => simp [tins, tget]
  | cons e t ih =>
    obtain ⟨j, w⟩ := e
    simp only [tins]
    split
    · simp [tget]
    · split
      · simp [tget]
      · simp [tget, *]

/-- Insertion leaves every other key alone. -/
theorem tget_tins_ne (d : α) {j k : Nat} (h : j ≠ k) (v : α) (t : Tab α) : tget d j (tins k v t) = tget d j t := by
  induction t with
  | nil =>
    simp only [tins, tget]
    split
    · exact absurd ‹k = j›.symm h
    · split <;> rfl
  | cons e t ih =>
    obtain ⟨i, w⟩ := e
    simp only [tins]
    split
    · rename_i hi
      subst hi
      have h1 : ¬ i = j := fun e => h e.symm
      simp only [tget, if_neg h1]
    · split
      · simp only [tget]
        by_cases h1 : k = j
        · exact absurd h1.symm h
        · rw [if_neg h1]
          by_cases h2 : j < k
          · rw [if_pos h2, if_neg (by omega), if_pos (by omega)]
          · rw [if_neg h2]
      · simp only [tget, ih]

/-- A lower bound on the keys of a rising table can be lowered. -/
theorem tsorted_mono {lo lo' : Nat} (h : lo' ≤ lo) {t : Tab α} (ht : tsorted lo t = true) : tsorted lo' t = true := by
  cases t with
  | nil => rfl
  | cons e t =>
    simp only [tsorted, Bool.and_eq_true, decide_eq_true_eq] at ht ⊢
    exact ⟨by omega, ht.2⟩

/-- A key below every key of a rising table reads as the default. -/
theorem tget_below (d : α) {k lo : Nat} (h : k < lo) {t : Tab α} (ht : tsorted lo t = true) : tget d k t = d := by
  cases t with
  | nil => rfl
  | cons e t =>
    obtain ⟨j, w⟩ := e
    simp only [tsorted, Bool.and_eq_true, decide_eq_true_eq] at ht
    simp only [tget]
    rw [if_neg (by omega), if_pos (by omega)]

/-- A removed key reads as the default. -/
theorem tget_tdel (d : α) {lo : Nat} (k : Nat) {t : Tab α} (ht : tsorted lo t = true) : tget d k (tdel k t) = d := by
  induction t generalizing lo with
  | nil => rfl
  | cons e t ih =>
    obtain ⟨j, w⟩ := e
    simp only [tsorted, Bool.and_eq_true, decide_eq_true_eq] at ht
    simp only [tdel]
    split
    · exact tget_below d (by omega) ht.2
    · split
      · simp only [tget]
        rw [if_neg ‹_›, if_pos ‹_›]
      · simp only [tget]
        rw [if_neg ‹_›, if_neg ‹_›]
        exact ih ht.2

/-- Removal leaves every other key alone. -/
theorem tget_tdel_ne (d : α) {j k lo : Nat} (h : j ≠ k) {t : Tab α} (ht : tsorted lo t = true) : tget d j (tdel k t) = tget d j t := by
  induction t generalizing lo with
  | nil => rfl
  | cons e t ih =>
    obtain ⟨i, w⟩ := e
    simp only [tsorted, Bool.and_eq_true, decide_eq_true_eq] at ht
    simp only [tdel]
    split
    · rename_i hi
      subst hi
      simp only [tget]
      by_cases h2 : j < i
      · rw [if_neg (fun e => h e.symm), if_pos h2]
        exact tget_below d (by omega) ht.2
      · rw [if_neg (fun e => h e.symm), if_neg h2]
    · split
      · rfl
      · simp only [tget, ih ht.2]

theorem twf_sorted [DecidableEq α] {d : α} {t : Tab α} (h : twf d t = true) : tsorted 0 t = true := by
  simp only [twf, Bool.and_eq_true] at h
  exact h.1

/-- A written value reads back. -/
theorem tget_tput [DecidableEq α] {d : α} {t : Tab α} (h : twf d t = true) (k : Nat) (v : α) : tget d k (tput d k v t) = v := by
  simp only [tput]
  split
  · subst_vars; exact tget_tdel v k (twf_sorted h)
  · exact tget_tins d k v t

/-- A written value other than the default reads back, whatever the table. -/
theorem tget_tput_ne_default [DecidableEq α] {d v : α} (h : v ≠ d) (k : Nat) (t : Tab α) : tget d k (tput d k v t) = v := by
  simp [tput, h]

/-- A write leaves every other key alone. -/
theorem tget_tput_ne [DecidableEq α] {d : α} {t : Tab α} (h : twf d t = true) {j k : Nat} (hj : j ≠ k) (v : α) :
    tget d j (tput d k v t) = tget d j t := by
  simp only [tput]
  split
  · exact tget_tdel_ne d hj (twf_sorted h)
  · exact tget_tins_ne d hj v t

theorem tsorted_tins {lo k : Nat} (h : lo ≤ k) (v : α) {t : Tab α} (ht : tsorted lo t = true) : tsorted lo (tins k v t) = true := by
  induction t generalizing lo with
  | nil => simp [tins, tsorted, h]
  | cons e t ih =>
    obtain ⟨j, w⟩ := e
    simp only [tsorted, Bool.and_eq_true, decide_eq_true_eq] at ht
    simp only [tins]
    split
    · subst_vars
      simp only [tsorted, Bool.and_eq_true, decide_eq_true_eq]
      exact ⟨h, ht.2⟩
    · split
      · simp only [tsorted, Bool.and_eq_true, decide_eq_true_eq]
        exact ⟨h, by omega, ht.2⟩
      · simp only [tsorted, Bool.and_eq_true, decide_eq_true_eq]
        exact ⟨ht.1, ih (by omega) ht.2⟩

theorem tsorted_tdel {lo : Nat} (k : Nat) {t : Tab α} (ht : tsorted lo t = true) : tsorted lo (tdel k t) = true := by
  induction t generalizing lo with
  | nil => rfl
  | cons e t ih =>
    obtain ⟨j, w⟩ := e
    have ht' := ht
    simp only [tsorted, Bool.and_eq_true, decide_eq_true_eq] at ht
    simp only [tdel]
    split
    · exact tsorted_mono (by omega) ht.2
    · split
      · exact ht'
      · simp only [tsorted, Bool.and_eq_true, decide_eq_true_eq]
        exact ⟨ht.1, ih ht.2⟩

theorem tsorted_filter (f : Nat × α → Bool) {lo : Nat} {t : Tab α} (ht : tsorted lo t = true) : tsorted lo (t.filter f) = true := by
  induction t generalizing lo with
  | nil => rfl
  | cons e t ih =>
    simp only [tsorted, Bool.and_eq_true, decide_eq_true_eq] at ht
    simp only [List.filter]
    split
    · simp only [tsorted, Bool.and_eq_true, decide_eq_true_eq]
      exact ⟨ht.1, ih ht.2⟩
    · exact tsorted_mono (by omega) (ih ht.2)

theorem mem_tins {k : Nat} {v : α} {t : Tab α} {e : Nat × α} (h : e ∈ tins k v t) : e = (k, v) ∨ e ∈ t := by
  induction t with
  | nil => simpa [tins] using h
  | cons x t ih =>
    obtain ⟨j, w⟩ := x
    simp only [tins] at h
    split at h
    · simp only [List.mem_cons] at h ⊢
      exact h.imp id .inr
    · split at h
      · simpa using h
      · simp only [List.mem_cons] at h ⊢
        rcases h with h | h
        · exact .inr (.inl h)
        · rcases ih h with h | h
          · exact .inl h
          · exact .inr (.inr h)

theorem mem_tdel {k : Nat} {t : Tab α} {e : Nat × α} (h : e ∈ tdel k t) : e ∈ t := by
  induction t with
  | nil => exact h
  | cons x t ih =>
    obtain ⟨j, w⟩ := x
    simp only [tdel] at h
    split at h
    · exact List.mem_cons_of_mem _ h
    · split at h
      · exact h
      · simp only [List.mem_cons] at h ⊢
        exact h.imp id ih

/-- A write keeps the canonical form. -/
theorem twf_tput [DecidableEq α] {d : α} {t : Tab α} (h : twf d t = true) (k : Nat) (v : α) : twf d (tput d k v t) = true := by
  simp only [twf, Bool.and_eq_true, List.all_eq_true, decide_eq_true_eq] at h ⊢
  simp only [tput]
  split
  · exact ⟨tsorted_tdel k h.1, fun e he => h.2 e (mem_tdel he)⟩
  · refine ⟨tsorted_tins (Nat.zero_le k) v h.1, fun e he => ?_⟩
    rcases mem_tins he with rfl | he
    · assumption
    · exact h.2 e he

/-- Dropping entries keeps the canonical form. -/
theorem twf_filter [DecidableEq α] {d : α} {t : Tab α} (h : twf d t = true) (f : Nat × α → Bool) : twf d (t.filter f) = true := by
  simp only [twf, Bool.and_eq_true, List.all_eq_true, decide_eq_true_eq] at h ⊢
  exact ⟨tsorted_filter f h.1, fun e he => h.2 e (List.mem_filter.mp he).1⟩

/-- Clearing a range keeps the canonical form. -/
theorem twf_tclear [DecidableEq α] {d : α} {t : Tab α} (h : twf d t = true) (lo hi : Nat) : twf d (tclear lo hi t) = true :=
  twf_filter h _

/-- Writing consecutive values keeps the canonical form. -/
theorem twf_tputs [DecidableEq α] {d : α} (k : Nat) (vs : List α) {t : Tab α} (h : twf d t = true) : twf d (tputs d k vs t) = true := by
  induction vs generalizing k t with
  | nil => exact h
  | cons v vs ih => exact ih (k + 1) (twf_tput h k v)

/-- A key outside the keys written reads as before. -/
theorem tget_tputs_out [DecidableEq α] {d : α} {j k : Nat} (vs : List α) {t : Tab α} (h : twf d t = true)
    (hj : j < k ∨ k + vs.length ≤ j) : tget d j (tputs d k vs t) = tget d j t := by
  induction vs generalizing k t with
  | nil => rfl
  | cons v vs ih =>
    simp only [List.length_cons] at hj
    simp only [tputs]
    rw [ih (twf_tput h k v) (by omega), tget_tput_ne h (by omega)]

/-- Consecutive values read back. -/
theorem tget_tputs_in [DecidableEq α] {d : α} {k : Nat} (i : Nat) (vs : List α) {t : Tab α} (h : twf d t = true)
    (hi : i < vs.length) : tget d (k + i) (tputs d k vs t) = vs[i] := by
  induction vs generalizing k t i with
  | nil => simp at hi
  | cons v vs ih =>
    simp only [tputs]
    cases i with
    | zero => rw [tget_tputs_out vs (twf_tput h k v) (by omega)]; exact tget_tput h k v
    | succ i =>
      rw [show k + (i + 1) = (k + 1) + i by omega]
      exact ih i (twf_tput h k v) (by simpa using hi)

@[simp] theorem tgets_length (d : α) (n k : Nat) (t : Tab α) : (tgets d n k t).length = n := by
  induction n generalizing k with
  | zero => rfl
  | succ n ih => simp [tgets, ih]

/-- The i-th of consecutive values is the value at its key. -/
theorem tgets_get (d : α) (n k i : Nat) (t : Tab α) (h : i < (tgets d n k t).length) : (tgets d n k t)[i] = tget d (k + i) t := by
  induction n generalizing k i with
  | zero => simp [tgets] at h
  | succ n ih =>
    cases i with
    | zero => rfl
    | succ i =>
      simp only [tgets, List.getElem_cons_succ]
      rw [ih (k + 1) i, show k + 1 + i = k + (i + 1) by omega]

/-- What is written over consecutive keys is what they then read as. -/
theorem tgets_tputs [DecidableEq α] {d : α} {t : Tab α} (h : twf d t = true) (k : Nat) (vs : List α) :
    tgets d vs.length k (tputs d k vs t) = vs := by
  apply List.ext_getElem
  · simp
  · intro i h1 h2
    rw [tgets_get, tget_tputs_in i vs h h2]

/-- Reading a filtered table at a key whose entries all stay. -/
theorem tget_filter_keep (d : α) (f : Nat × α → Bool) {k lo : Nat} {t : Tab α} (ht : tsorted lo t = true)
    (hk : ∀ v, f (k, v) = true) : tget d k (t.filter f) = tget d k t := by
  induction t generalizing lo with
  | nil => rfl
  | cons e t ih =>
    obtain ⟨j, w⟩ := e
    simp only [tsorted, Bool.and_eq_true, decide_eq_true_eq] at ht
    simp only [List.filter, tget]
    by_cases h1 : j = k
    · subst h1; simp [hk, tget]
    · rw [if_neg h1]
      by_cases h2 : k < j
      · rw [if_pos h2]
        split
        · simp [tget, h1, h2]
        · exact tget_below d (by omega) (tsorted_filter f ht.2)
      · rw [if_neg h2, ← ih ht.2]
        split
        · simp [tget, h1, h2]
        · rfl

/-- Reading a filtered table at a key whose entries all go. -/
theorem tget_filter_drop (d : α) (f : Nat × α → Bool) {k : Nat} (t : Tab α) (hk : ∀ v, f (k, v) = false) : tget d k (t.filter f) = d := by
  induction t with
  | nil => rfl
  | cons e t ih =>
    obtain ⟨j, w⟩ := e
    simp only [List.filter]
    split
    · simp only [tget]
      by_cases h1 : j = k
      · subst h1; simp_all
      · rw [if_neg h1, ih]
        split <;> rfl
    · exact ih

end Sys2Proof.Machine
end

