-- ==== Sys2Proof/Laws/Bittern.lean ====
section
/-! SUPPORT. The Bittern controllers (R376 to R383): reading back a changed controller or source, and what firing a source does. -/
namespace Sys2Proof.Machine

-- One theorem after another: many side by side reserve more memory than the check allows.
set_option Elab.async false

theorem modBtn_btn (s : State) (c : Nat) (f : Bittern → Bittern) : (modBtn s c f).btn = tput {} c (f (bittern s c)) s.btn := by
  simp only [modBtn]; split <;> rfl
/-- A changed controller reads back. -/
theorem bittern_modBtn (s : State) (c : Nat) (f) (h : BitternsCanonical s) : bittern (modBtn s c f) c = f (bittern s c) := by
  simp only [bittern, modBtn_btn]; exact tget_tput h.1 _ _
theorem bittern_modBtn_ne_default (s : State) (c : Nat) (f) (h : f (bittern s c) ≠ {}) : bittern (modBtn s c f) c = f (bittern s c) := by
  simp only [bittern, modBtn_btn]; exact tget_tput_ne_default h _ _
/-- The other controllers stay. -/
theorem bittern_modBtn_ne (s : State) (c d : Nat) (f) (h : BitternsCanonical s) (hd : d ≠ c) : bittern (modBtn s c f) d = bittern s d := by
  simp only [bittern, modBtn_btn]; exact tget_tput_ne h.1 hd _
theorem tins_ne_nil {α} (k : Nat) (v : α) (t : Tab α) : tins k v t ≠ [] := by
  cases t with
  | nil => simp [tins]
  | cons e t => obtain ⟨j, w⟩ := e; simp only [tins]; split <;> (try split) <;> simp
theorem btnSrc_setBtnSrc_ne (b : Bittern) (c k : Nat) (x) (h : x ≠ btnDefault c k) : btnSrc (setBtnSrc b c k x) c k = x := by
  simp [btnSrc, setBtnSrc, h, tget_tput_ne_default]
/-- A source that is set reads back. -/
theorem btnSrc_setBtnSrc (b : Bittern) (c k : Nat) (x) (h : twf none b.srcs = true) : btnSrc (setBtnSrc b c k x) c k = x := by
  by_cases hx : x = btnDefault c k
  · simp [btnSrc, setBtnSrc, hx, tget_tput h]
  · exact btnSrc_setBtnSrc_ne b c k x hx
theorem setBtnSrc_ne_nil (b : Bittern) (c k : Nat) (x) (h : x ≠ btnDefault c k) : (setBtnSrc b c k x).srcs ≠ [] := by
  simp [setBtnSrc, h, tput, tins_ne_nil]
theorem btnDefault_pend (c k : Nat) : (btnDefault c k).pend = false := by simp [btnDefault]
theorem btnDefault_active (c k : Nat) : (btnDefault c k).active = false := by simp [btnDefault]
/-- Firing a source pends it (R379). -/
theorem fire_pends (s : State) (c k : Nat) : (btnSrc (bittern (fire s c k) c) c k).pend = true := by
  have h : ({ btnSrc (bittern s c) c k with pend := true } : BtnSrc) ≠ btnDefault c k := by
    intro e; have := congrArg BtnSrc.pend e; simp [btnDefault_pend] at this
  rw [fire, bittern_modBtn_ne_default, btnSrc_setBtnSrc_ne _ _ _ _ h]
  intro e; exact setBtnSrc_ne_nil (bittern s c) c k _ h (congrArg Bittern.srcs e)
/-- Firing leaves the targets as they are. -/
theorem fire_tgts (s : State) (c k : Nat) : (bittern (fire s c k) c).tgts = (bittern s c).tgts := by
  have h : ({ btnSrc (bittern s c) c k with pend := true } : BtnSrc) ≠ btnDefault c k := by
    intro e; have := congrArg BtnSrc.pend e; simp [btnDefault_pend] at this
  rw [fire, bittern_modBtn_ne_default]; rfl
  intro e; exact setBtnSrc_ne_nil (bittern s c) c k _ h (congrArg Bittern.srcs e)
/-- A change keeps the canonical form if the new controller has it. -/
theorem bitternsCanonical_modBtn (s : State) (c : Nat) (f) (h : BitternsCanonical s)
    (hf : twf none (f (bittern s c)).srcs = true ∧ twf ({} : BtnGrp) (f (bittern s c)).grps = true ∧ twf ({} : BtnTgt) (f (bittern s c)).tgts = true) :
    BitternsCanonical (modBtn s c f) := by
  refine ⟨?_, fun d => ?_⟩
  · rw [modBtn_btn]; exact twf_tput h.1 _ _
  · by_cases hd : d = c
    · subst hd; rw [bittern_modBtn s d f h]; exact hf
    · rw [bittern_modBtn_ne s c d f h hd]; exact h.2 d
theorem setBtnSrc_twf (b : Bittern) (c k x) (h : twf none b.srcs = true) : twf none (setBtnSrc b c k x).srcs = true := twf_tput h _ _
/-- Firing keeps the canonical form. -/
theorem bitternsCanonical_fire (s : State) (c k : Nat) (h : BitternsCanonical s) : BitternsCanonical (fire s c k) :=
  bitternsCanonical_modBtn s c _ h ⟨setBtnSrc_twf _ _ _ _ (h.2 c).1, (h.2 c).2⟩

end Sys2Proof.Machine
end

