-- ==== Sys2Proof/Laws/Command.lean ====
section
/-! SUPPORT. What the shared operations of every command packet do: starting, the check lists, and how a meaning ends. -/
namespace Sys2Proof.Machine

-- One theorem after another: many side by side reserve more memory than the check allows.
set_option Elab.async false

/-- A command that its unit starts runs its own meaning behind the check of its eyelet, and ends as that meaning says. -/
theorem command_started (i : Instr) (sp : Spec) (h : Hdr) (b : List Byte) (body : State → Cmd → Res) (s : State) (q : QEntry)
    (hs : s.starting = none) :
    command i sp h b body (startOf s q) = .next (endsAs s q i (runBody (atStart s q) q.cmd body)) := by
  have e : ({ s with starting := none } : State) = s := by cases s; simp_all
  simp only [command, startOf, startNow, endsAs, atStart]
  rw [e]

/-- A command packet that arrives after host-visible ready goes through the header checks. -/
theorem command_arrives (i : Instr) (sp : Spec) (h : Hdr) (b : List Byte) (body : State → Cmd → Res) (s : State)
    (hs : s.starting = none) (hr : s.ready = true) (ho : unopened s h sp = false) :
    command i sp h b body s = .next (arrive s i sp h b body) := by
  simp [command, hs, hr, ho]

/-- A frame of a management interface that no session opens is ignored. -/
theorem command_unopened (i : Instr) (sp : Spec) (h : Hdr) (b : List Byte) (body : State → Cmd → Res) (s : State)
    (hs : s.starting = none) (ho : unopened s h sp = true) :
    command i sp h b body s = .next s := by
  simp [command, hs, ho]

/-- A command packet that arrives before host-visible ready is ignored. -/
theorem command_unready (i : Instr) (sp : Spec) (h : Hdr) (b : List Byte) (body : State → Cmd → Res) (s : State)
    (hs : s.starting = none) (hr : s.ready = false) :
    command i sp h b body s = .next s := by
  simp [command, hs, hr]

/-- Every command packet leads to a next state. -/
theorem command_next (i : Instr) (sp : Spec) (h : Hdr) (b : List Byte) (body : State → Cmd → Res) (s : State) :
    ∃ t, command i sp h b body s = .next t := by
  unfold command
  split
  · exact ⟨_, rfl⟩
  · split <;> exact ⟨_, rfl⟩

/-- A meaning whose eyelet check passes runs. -/
theorem runBody_free {s : State} {c : Cmd} {body : State → Cmd → Res} (h : sigCheck s c.h = none) :
    runBody s c body = body s c := by
  simp [runBody, h]

/-- A meaning whose eyelet check fails completes with that check's status and no effect. -/
theorem runBody_denied {s : State} {c : Cmd} {body : State → Cmd → Res} {st : Status} (h : sigCheck s c.h = some st) :
    runBody s c body = { s := s, st := st } := by
  simp [runBody, h]

/-- A check list with no failing check lets the command go on. -/
theorem checked_pass {s : State} {l : List (Bool × Status × Nat)} {go : Unit → Res} (h : firstFail l = none) :
    checked s l go = go () := by
  simp [checked, h]

/-- The first failing check decides the status and the detail, and the command has no effect. -/
theorem checked_fail {s : State} {l : List (Bool × Status × Nat)} {go : Unit → Res} {st : Status} {d : Nat}
    (h : firstFail l = some (st, d)) : checked s l go = { s := s, st := st, detail := d } := by
  simp [checked, h]

@[simp] theorem firstFail_nil : firstFail [] = none := rfl

@[simp] theorem firstFail_false (st : Status) (d : Nat) (l : List (Bool × Status × Nat)) :
    firstFail ((false, st, d) :: l) = firstFail l := rfl

@[simp] theorem firstFail_true (st : Status) (d : Nat) (l : List (Bool × Status × Nat)) :
    firstFail ((true, st, d) :: l) = some (st, d) := rfl

/-- A check list fails nowhere exactly when every check passes. -/
theorem firstFail_none_iff (l : List (Bool × Status × Nat)) : firstFail l = none ↔ ∀ x ∈ l, x.1 = false := by
  induction l with
  | nil => simp
  | cons x l ih =>
    obtain ⟨b, st, d⟩ := x
    cases b <;> simp [firstFail, ih]

/-- Descriptors that pass the checks of R225 are what the command's own body works on. -/
theorem withDescs_pass {s : State} {c : Cmd} {p : Nat} {l : List (Nat × Bool)} {go : List Desc → Res} {ds : List Desc}
    (hp : c.part = some p) (h : checkDescs s p l = .ok ds) : withDescs s c l go = go ds := by
  simp [withDescs, hp, h]

end Sys2Proof.Machine
end

