-- ==== Sys2Proof/Laws/Eyelet.lean ====
section
/-! SUPPORT. Eyelets (R352 to R362): what a scan, a signal, a wait and a unit that leaves do, and that each leaves every eyelet served. -/
namespace Sys2Proof.Machine

-- One theorem after another: many side by side reserve more memory than the check allows.
set_option Elab.async false

/-- The needs of the woken waiters, by the first waiter. -/
theorem wokenSum_cons (w : Waiter) (ws) : wokenSum (w :: ws) = (if w.woken then w.n else 0) + wokenSum ws := by
  simp only [wokenSum, List.filter]; cases w.woken <;> simp
/-- A scan of a semaphore leaves no sleeper that the count less the woken waiters would serve (R355). -/
theorem wakeList_serves (b : Nat) (ws : List Waiter) (W : Nat) : ∀ c, c - W = b → (∀ w ∈ (wakeList false b ws).1, w.woken = false → 
    c - (W + (wokenSum (wakeList false b ws).1 - wokenSum ws)) < w.n) ∧ wokenSum ws ≤ wokenSum (wakeList false b ws).1 := by
  induction ws generalizing b W with
  | nil => intro c h; simp [wakeList]
  | cons w ws ih =>
    intro c h
    simp only [wakeList]
    split
    · rename_i hw
      obtain ⟨i1, i2⟩ := ih b W c h
      simp only [wokenSum_cons, hw, if_true]
      refine ⟨?_, by omega⟩
      intro v hv hs
      simp only [List.mem_cons] at hv
      rcases hv with rfl | hv
      · simp [hw] at hs
      · have := i1 v hv hs; omega
    · rename_i hw
      split
      · rename_i hn
        simp at hn
        obtain ⟨i1, i2⟩ := ih (b - w.n) (W + w.n) c (by omega)
        simp only [wokenSum_cons, hw, if_true]
        refine ⟨?_, by simp; omega⟩
        intro v hv hs
        simp only [List.mem_cons] at hv
        rcases hv with rfl | hv
        · simp at hs
        · have := i1 v hv hs; simp; omega
      · rename_i hn
        simp at hn
        obtain ⟨i1, i2⟩ := ih b W c h
        simp only [wokenSum_cons, hw]
        refine ⟨?_, by simp; omega⟩
        intro v hv hs
        simp only [List.mem_cons] at hv
        rcases hv with rfl | hv
        · simp; omega
        · have := i1 v hv hs; simp; omega
/-- A scan of a set event wakes every waiter (R355). -/
theorem wakeList_event (b : Nat) (ws : List Waiter) : ∀ w ∈ (wakeList true b ws).1, w.woken = true := by
  induction ws generalizing b with
  | nil => simp [wakeList]
  | cons w ws ih =>
    simp only [wakeList]
    split
    · simp; exact ⟨by assumption, ih b⟩
    · simp; exact ih _
/-- After a scan an eyelet is served. -/
theorem scanEyelet_served (x : Eyelet) : eyeletServed (scanEyelet x).1 := by
  simp only [scanEyelet]
  split
  · rename_i h; simp at h
    intro w hw hs; simp [h]
  · rename_i h; simp at h
    cases he : x.event with
    | true =>
      intro w hw hs
      simp only [he] at hw
      have := wakeList_event _ _ w hw; simp [this] at hs
    | false =>
      intro w hw hs
      simp only [he] at hw ⊢
      have := (wakeList_serves (x.count.toNat - wokenSum x.waiters) x.waiters (wokenSum x.waiters) x.count.toNat rfl)
      have h1 := this.1 w hw hs
      have h2 := this.2
      simp only [Bool.false_eq_true, if_false]
      omega
/-- A break of the Quag watch by an eyelet's waiter changes no eyelet. -/
@[simp] theorem breakEyelet_eyelets (s : State) (e : Nat) : (breakEyelet s e).eyelets = s.eyelets := by
  simp only [breakEyelet]; split <;> simp
/-- Owed retries change no eyelet. -/
theorem foldl_owe_eyelets (us : List UnitId) (e : Nat) (f : UnitId → Work) (s : State) :
    (us.foldl (fun s u => owe (breakEyelet s e) (f u)) s).eyelets = s.eyelets := by
  induction us generalizing s with
  | nil => rfl
  | cons u us ih => simp [ih]
theorem scan_eyelets (s : State) (e : Nat) : (scan s e).eyelets = (setEyelet s e (scanEyelet (eyelet s e)).1).eyelets := by
  simp only [scan]; rw [foldl_owe_eyelets]
/-- What a scan leaves at each eyelet. -/
theorem eyelet_scan (s : State) (e f : Nat) (h : twf ({} : Eyelet) s.eyelets = true) : eyelet (scan s e) f = if f = e then (scanEyelet (eyelet s e)).1 else eyelet s f := by
  simp only [eyelet, scan_eyelets, setEyelet]
  split
  · subst_vars; exact tget_tput h _ _
  · exact tget_tput_ne h (by assumption) _
/-- A write of one eyelet reads back and leaves the others. -/
theorem eyelet_set (s : State) (e f : Nat) (x) (h : twf ({} : Eyelet) s.eyelets = true) : eyelet (setEyelet s e x) f = if f = e then x else eyelet s f := by
  simp only [eyelet, setEyelet]
  split
  · subst_vars; exact tget_tput h _ _
  · exact tget_tput_ne h (by assumption) _
theorem eyeletsServed_congr {s t : State} (h : EyeletsServed s) (e : t.eyelets = s.eyelets) : EyeletsServed t := by
  simpa [EyeletsServed, eyelet, e] using h
/-- A served value may be written. -/
theorem eyeletsServed_set {s : State} (h : EyeletsServed s) (e : Nat) (x) (hx : eyeletServed x) : EyeletsServed (setEyelet s e x) := by
  refine ⟨twf_tput h.1 _ _, fun f => ?_⟩
  rw [eyelet_set _ _ _ _ h.1]; split
  · exact hx
  · exact h.2 f
theorem eyeletsServed_scan {s : State} (h : twf ({} : Eyelet) s.eyelets = true) (e : Nat) (ho : ∀ f, f ≠ e → eyeletServed (eyelet s f)) : EyeletsServed (scan s e) := by
  refine ⟨by rw [scan_eyelets]; exact twf_tput h _ _, fun f => ?_⟩
  rw [eyelet_scan _ _ _ h]; split
  · exact scanEyelet_served _
  · exact ho f (by assumption)
/-- Any value may be written if a scan follows. -/
theorem eyeletsServed_setScan {s : State} (h : EyeletsServed s) (e : Nat) (x) : EyeletsServed (scan (setEyelet s e x) e) := by
  apply eyeletsServed_scan (twf_tput h.1 _ _)
  intro f hf; rw [eyelet_set _ _ _ _ h.1, if_neg hf]; exact h.2 f
theorem eyeletsServed_abandonEyelet {s : State} (h : EyeletsServed s) (e u) : EyeletsServed (abandonEyelet s e u) := by
  simp only [abandonEyelet]; split
  · exact eyeletsServed_setScan h _ _
  · exact h
theorem foldl_abandonLace_eyelets (l : List (Nat × Lace)) (u) (s : State) : (l.foldl (fun s l => abandonLace s l.1 u) s).eyelets = s.eyelets := by
  induction l generalizing s with
  | nil => rfl
  | cons a l ih => rw [List.foldl_cons, ih]; rfl
/-- A unit that leaves its waits leaves the eyelets served. -/
theorem eyeletsServed_abandonUnit {s : State} (h : EyeletsServed s) (u) : EyeletsServed (abandonUnit s u) := by
  simp only [abandonUnit]
  refine eyeletsServed_congr ?_ (foldl_abandonLace_eyelets _ _ _)
  generalize s.eyelets.filter _ = l
  induction l generalizing s with
  | nil => exact h
  | cons a l ih => exact ih (eyeletsServed_abandonEyelet h _ _)
theorem retAwl_eyelets (s c a v) : (retAwl s c a v).eyelets = s.eyelets := by
  simp only [retAwl]; split <;> simp
theorem eyeFault_eyelets (s d b e) : (eyeFault s d b e).eyelets = s.eyelets := by simp [eyeFault]
theorem refuseEyelet_eyelets (s c e) : (refuseEyelet s c e).eyelets = s.eyelets := by simp [refuseEyelet, eyeFault]
/-- A signal keeps every eyelet served (R354). -/
theorem eyeletsServed_signal {s : State} (h : EyeletsServed s) (e k) : EyeletsServed (signalEyelet s e k).1 := by
  simp only [signalEyelet]
  split
  · exact eyeletsServed_setScan h _ _
  · split
    · apply eyeletsServed_scan
      · simp [eyeFault]; exact twf_tput h.1 _ _
      · intro f hf
        have : ∀ t : State, eyelet t f = tget {} f t.eyelets := fun _ => rfl
        rw [this, eyeFault_eyelets, fireDie_eyelets, setEyelet_eyelets]
        rw [tget_tput_ne h.1 hf]; exact h.2 f
    · exact eyeletsServed_setScan h _ _
/-- A wait that takes leaves the eyelet served (R354). -/
theorem takeEyelet_served (x y : Eyelet) (n) (h : eyeletServed x) (ht : takeEyelet x n = some y) : eyeletServed y := by
  simp only [takeEyelet] at ht
  split at ht
  · split at ht
    · cases ht
    · cases ht; exact h
  · split at ht
    · rename_i he hn
      cases ht
      intro w hw hs
      have := h w hw hs
      simp only [he, Bool.false_eq_true, if_false] at this ⊢
      have : (x.count - BitVec.ofNat 32 n).toNat ≤ x.count.toNat := by
        have := x.count.isLt
        rw [BitVec.toNat_sub_of_le]
        · omega
        · rw [BitVec.le_def, BitVec.toNat_ofNat, Nat.mod_eq_of_lt (by omega)]; exact hn
      omega
    · cases ht
/-- A waiter that found too little may sleep (R355). -/
theorem sleep_served (x : Eyelet) (n t u) (h : eyeletServed x) (ht : takeEyelet x n = none) :
    eyeletServed { x with nextTicket := t, waiters := x.waiters ++ [{ unit := u, ticket := x.nextTicket, n := n }] } := by
  have hsum : wokenSum (x.waiters ++ [{ unit := u, ticket := x.nextTicket, n := n }]) = wokenSum x.waiters := by simp [wokenSum]
  intro w hw hs
  simp only [List.mem_append, List.mem_singleton] at hw
  simp only [hsum]
  simp only [takeEyelet] at ht
  rcases hw with hw | rfl
  · exact h w hw hs
  · split at ht
    · rename_i he; simp only [he, if_true]; split at ht
      · assumption
      · cases ht
    · rename_i he; simp only [he, if_false]
      split at ht
      · cases ht
      · simp; omega

/-! ### Users of the direct windows -/

/-- A user is the one of its number in its cluster, so that a row of the windows may name every user. -/
@[simp] theorem cluster_user (u : WinUser) : u.cluster.user u.number = u := by cases u <;> rfl

@[simp] theorem userSilent_ctl (s : State) (d : Fin 2) (k : Fin 4) : userSilent s (.ctl d k) = false := rfl

@[simp] theorem userSilent_awl (s : State) (c : Fin 16) (a : Fin 4) : userSilent s (.awl c a) = !inService s c.val := rfl

/-- What a window row does when its user is not silent. -/
theorem userActs_serving (s t : State) (u : WinUser) (h : userSilent s u = false) : userActs s u t = t := by simp [userActs, h]

end Sys2Proof.Machine
end

