-- ==== Sys2Proof/Laws/Memory.lean ====
section
/-! SUPPORT. Every operation over device or host memory keeps the canonical form, and what a write of one sector leaves alone. -/
namespace Sys2Proof.Machine

-- One theorem after another: many side by side reserve more memory than the check allows.
set_option Elab.async false

theorem reset_memoryCanonical : MemoryCanonical State.reset := by decide

/-- The canonical form speaks of four tables only. -/
theorem MemoryCanonical.of_eq {s t : State} (h : MemoryCanonical s) (h1 : t.mem = s.mem) (h2 : t.hostMem = s.hostMem)
    (h3 : t.used = s.used) (h4 : t.poison = s.poison) : MemoryCanonical t := by
  simpa [MemoryCanonical, h1, h2, h3, h4] using h

theorem countIntegrity_memoryCanonical {s : State} (h : MemoryCanonical s) (a : Nat) : MemoryCanonical (countIntegrity s a) :=
  h.of_eq (by simp) (by simp) (by simp) (by simp)

theorem poisonSector_memoryCanonical {s : State} (h : MemoryCanonical s) (a : Nat) : MemoryCanonical (poisonSector s a) := by
  have hp : twf false (tput false (a / 512) true s.poison) = true := twf_tput h.2.2.2 _ _
  have hs : MemoryCanonical { s with poison := tput false (a / 512) true s.poison } := ⟨h.1, h.2.1, h.2.2.1, hp⟩
  exact countIntegrity_memoryCanonical hs a

theorem devWriteSector_memoryCanonical {s : State} (h : MemoryCanonical s) (a : Nat) (bs : List Byte) :
    MemoryCanonical (devWriteSector s a bs) := by
  have hm := twf_tputs a bs h.1
  have hu : twf false (tput false (a / 2 ^ 21) true s.used) = true := twf_tput h.2.2.1 _ _
  have hp : twf false (tput false (a / 512) false s.poison) = true := twf_tput h.2.2.2 _ _
  have hc := countIntegrity_memoryCanonical h a
  unfold devWriteSector
  split
  · split
    · exact hc
    · exact ⟨hm, h.2.1, hu, hp⟩
  · split
    · exact hc
    · exact ⟨hm, h.2.1, hu, hp⟩
  · split
    · exact ⟨hm, h.2⟩
    · exact h
  · split
    · exact ⟨hm, h.2⟩
    · exact h.of_eq (by simp) (by simp) (by simp) (by simp)
  · exact h.of_eq (by simp) (by simp) (by simp) (by simp)
  · exact h
  · exact h

theorem devWriteGo_memoryCanonical (n : Nat) {s : State} (h : MemoryCanonical s) (a : Nat) (bs : List Byte) :
    MemoryCanonical (devWriteGo n s a bs) := by
  induction n generalizing s a bs with
  | zero => exact h
  | succ n ih =>
    simp only [devWriteGo]
    split
    · exact h
    · exact ih (devWriteSector_memoryCanonical h a _) _ _

theorem devWrite_memoryCanonical {s : State} (h : MemoryCanonical s) (a : Nat) (bs : List Byte) : MemoryCanonical (devWrite s a bs) :=
  devWriteGo_memoryCanonical _ h a bs

theorem partWriteGo_memoryCanonical (n : Nat) {s : State} (h : MemoryCanonical s) (p a : Nat) (bs : List Byte) :
    MemoryCanonical (partWriteGo n s p a bs) := by
  induction n generalizing s a bs with
  | zero => exact h
  | succ n ih =>
    simp only [partWriteGo]
    split
    · exact h
    · apply ih
      split
      · split
        · exact h.of_eq (by simp) (by simp) (by simp) (by simp)
        · split
          · exact h
          · exact devWrite_memoryCanonical h _ _
      · exact h

theorem partWrite_memoryCanonical {s : State} (h : MemoryCanonical s) (p a : Nat) (bs : List Byte) :
    MemoryCanonical (partWrite s p a bs) :=
  partWriteGo_memoryCanonical _ h p a bs

theorem noteRead_memoryCanonical {s : State} (h : MemoryCanonical s) (p a n : Nat) : MemoryCanonical (noteRead s p a n) := by
  unfold noteRead
  split
  · exact h
  · rename_i hne
    clear hne
    generalize List.range _ = l
    induction l generalizing s with
    | nil => exact h
    | cons i l ih =>
      simp only [List.foldl_cons]
      apply ih
      split
      · split
        · exact poisonSector_memoryCanonical h _
        · exact h
      · exact h

theorem devForget_memoryCanonical {s : State} (h : MemoryCanonical s) (lo hi : Nat) : MemoryCanonical (devForget s lo hi) :=
  ⟨twf_tclear h.1 _ _, h.2.1, twf_tclear h.2.2.1 _ _, twf_tclear h.2.2.2 _ _⟩

theorem hostWrite_memoryCanonical {s : State} (h : MemoryCanonical s) (a : Nat) (bs : List Byte) : MemoryCanonical (hostWrite s a bs) := by
  unfold hostWrite
  split
  · exact ⟨h.1, twf_tputs a bs h.2.1, h.2.2⟩
  · exact h

theorem freshPages_memoryCanonical {s : State} (h : MemoryCanonical s) (p : Nat) : MemoryCanonical (freshPages s p) :=
  ⟨twf_filter h.1 _, h.2.1, twf_filter h.2.2.1 _, twf_filter h.2.2.2 _⟩

/-! ### What a write of one sector does to HBM -/

theorem addrKind_hbm {a : Nat} (h : a < 0xC000000000) : addrKind a = .hbm := by simp [addrKind, h]

/-- A write to a sector of HBM that is not poisoned writes its bytes and marks its page used. -/
theorem devWriteSector_hbm {s : State} {a : Nat} (bs : List Byte) (h : a < 0xC000000000) (hp : tget false (a / 512) s.poison = false) :
    devWriteSector s a bs =
      { s with mem := tputs 0 a bs s.mem, used := tput false (a / 2 ^ 21) true s.used, poison := tput false (a / 512) false s.poison } := by
  simp [devWriteSector, addrKind_hbm h, farFails, hp]

end Sys2Proof.Machine
end

