-- ==== Sys2Proof/Laws/Packet.lean ====
section
/-! SUPPORT. The laws of the byte fields of packets: what is written little-endian reads back, and where each field of a packet
stands. -/
namespace Sys2Proof.Machine

-- One theorem after another: many side by side reserve more memory than the check allows.
set_option Elab.async false

@[simp] theorem leBytes_length (n v : Nat) : (leBytes n v).length = n := by
  induction n generalizing v with
  | zero => rfl
  | succ n ih => simp [leBytes, ih]

/-- Little-endian bytes read back as the value, as far as they hold it. -/
theorem leNat_leBytes (n v : Nat) : leNat (leBytes n v) = v % 256 ^ n := by
  induction n generalizing v with
  | zero => simp [leBytes, leNat, Nat.mod_one]
  | succ n ih =>
    simp only [leBytes, leNat, ih, BitVec.toNat_ofNat]
    rw [show (2 : Nat) ^ 8 = 256 from rfl, Nat.pow_succ, Nat.mul_comm (256 ^ n) 256, Nat.mod_mul]

/-- The first field of a list of bytes. -/
theorem at_head (n v : Nat) (r : List Byte) : at_ (leBytes n v ++ r) 0 n = v % 256 ^ n := by
  simp [at_, slice, zeros, leNat_leBytes]

/-- A field beyond the first bytes is a field of the rest. -/
theorem at_skip (l r : List Byte) (o n : Nat) (h : l.length ≤ o) : at_ (l ++ r) o n = at_ r (o - l.length) n := by
  simp [at_, slice, List.drop_append, List.drop_eq_nil_of_le h]

theorem pfld_step (m v : Nat) (r : List Byte) (o n : Nat) (h : m ≤ o) : pfld (leBytes m v ++ r) o n = pfld r (o - m) n := by
  simp only [pfld]
  rw [at_skip _ _ _ _ (by rw [leBytes_length]; exact h), leBytes_length]

/-- A field reads back whole. -/
theorem pfld_head (n : Nat) (v : BitVec (8 * n)) (r : List Byte) : pfld (leBytes n v.toNat ++ r) 0 n = v := by
  simp only [pfld, at_head]
  apply BitVec.eq_of_toNat_eq
  rw [BitVec.toNat_ofNat, show 256 ^ n = 2 ^ (8 * n) by rw [Nat.pow_mul]]
  simp [Nat.mod_eq_of_lt v.isLt]

theorem drop_leBytes (m v n : Nat) (r : List Byte) (h : m ≤ n) : (leBytes m v ++ r).drop n = r.drop (n - m) := by
  rw [List.drop_append, leBytes_length, List.drop_eq_nil_of_le (by rw [leBytes_length]; exact h), List.nil_append]

/-- After the 64 bytes of a header come the parameters, their tail and the objects. -/
theorem packetBytes_drop (op : Nat) (h : Hdr) (ps : List Byte) : (packetBytes op h ps).drop 64 = ps ++ (h.tail ++ h.objs) := by
  simp only [packetBytes, List.append_assoc]
  simp [drop_leBytes]

/-- A packet's first two bytes are its opcode. -/
theorem packetBytes_op (op : Nat) (h : Hdr) (ps : List Byte) (ho : op < 65536) : at_ (packetBytes op h ps) 0 2 = op := by
  simp only [packetBytes, List.append_assoc, at_head]
  omega

end Sys2Proof.Machine
end

