-- ==== Sys2Proof/Tests/Slice0.lean ====
section
/-! SUPPORT. Tests of single steps on small states, the checks of WellFormed on ill-formed commands, words of the opcode table, and
for each statement operands and states that meet its hypotheses. -/
namespace Sys2Proof.Machine.Tests
open Sys2Proof.Machine

-- One theorem after another: evaluating many of them side by side takes more memory than the check allows.
set_option Elab.async false

/-! ### States and packets that the tests use -/

/-- A header of the tests: a path, a context and a parameter length; nothing else asked for. -/
def hdrOf (via : Via) (context : BitVec 32) (n : BitVec 16) : Hdr :=
  { via := via, flags := 0, context := context, seq := 1, plen := n, ring := 0, rsvdA := 0, replyAddr := 0, resultAddr := 0, signal := 0xFFFFFFFF, timeout := 0, rsvdB := 0, tail := [], objs := [], upsets := [] }
/-- Headers of page 0's ring 0 that name the stream context 2 and the control context, and one of the management page. -/
def hS : Hdr := hdrOf (.ring 0 0 0) 2 0
def hC : Hdr := hdrOf (.ring 0 0 0) 0x10001 0
def hM : Hdr := hdrOf (.ring 16 0 0) 0x10000 0
/-- The commands that carry them. -/
def cS : Cmd := { op := 0, h := hS, part := some 0, win := none }
def cC : Cmd := { op := 0, h := hC, part := some 0, win := none }
def cM : Cmd := { op := 0, h := hM, part := none, win := none }
def qS : QEntry := { instr := .nop hS, cmd := cS }
def qC : QEntry := { instr := .nop hC, cmd := cC }
def qM : QEntry := { instr := .nop hM, cmd := cM }

/-- The binding record of a partition that holds every granule, slice, port and context, and of one that holds the given ones. -/
def bindOf (cores mire hbm ports ctxBase ctxCount : Nat) : Binding :=
  { record := leBytes 1 0 ++ leBytes 1 8 ++ leBytes 2 cores ++ leBytes 4 mire ++ leBytes 16 hbm ++ leBytes 4 ports ++ zeros 4 ++ leBytes 4 ctxBase ++ leBytes 4 ctxCount ++ zeros 24, far := [] }
def allOf : Binding := bindOf 0xFFFF 0xFFFFFFFF (2 ^ 128 - 1) 0xFFFFFFFF 0 0x10000
/-- Die registers with every logical core in service and the spares free. -/
def dieW : Die := { map := 0x8786858483828180, cst := 0x10000 }
def dieE : Die := { map := 0x8F8E8D8C8B8A8988, cst := 0x10000 }
/-- A ready device: partition 0 is bound and holds everything, the cores run, context 2 is stream 0 of core 0. -/
def p0 : Part := { pstate := .active, binding := some allOf, session := 1 }
def dev : State :=
  { State.reset with ready := true, parts := [(0, p0)], dies := [(0, dieW), (1, dieE)], cores := (List.range 18).map (fun k => (k, { power := .run })), ctxs := [(2, { isOpen := true })], fab := { mode := .active, addr := 5 }, ivtu := { State.reset.ivtu with up := true } }
/-- The same with partition 0 changed. -/
def devPart (f : Part → Part) : State := { dev with parts := [(0, f p0)] }

/-- A controller table in canonical form, alone in the state. -/
theorem canonical_one (b : Bittern) (h : twf none b.srcs = true ∧ twf ({} : BtnGrp) b.grps = true ∧ twf ({} : BtnTgt) b.tgts = true ∧ b ≠ {}) :
    BitternsCanonical { dev with btn := [(0, b)] } := by
  refine ⟨by simp [twf, tsorted, h.2.2.2], fun c => ?_⟩
  cases c with
  | zero => exact ⟨h.1, h.2.1, h.2.2.1⟩
  | succ n => exact ⟨rfl, rfl, rfl⟩
theorem canonical_dev : BitternsCanonical dev := ⟨rfl, fun _ => ⟨rfl, rfl, rfl⟩⟩

/-- A check that answers these values, by evaluation. -/
theorem okIs {ε α : Type} [DecidableEq α] {e : Except ε α} {v : α}
    (h : (match e with | .ok x => decide (x = v) | .error _ => false) = true) : e = .ok v := by
  cases e with
  | ok x => simpa using h
  | error x => simp at h

/-- What holds of every value of an option that holds none. -/
theorem noSome {α : Type} {o : Option α} {P : α → Prop} (h : o.isNone = true) : ∀ x, o = some x → P x := by
  cases o with
  | none => intro x hx; cases hx
  | some x => simp at h

/-- A unit that nothing holds, by evaluation. -/
theorem freeIs {s : State} {u : CoreUnit} {c : Cmd}
    (h : (match streamOfHdr s c.h with | some (k, i) => (pausedOn s k u).isEmpty && !saveHolds s k i u | none => true) = true) : unitFree s u c := by
  intro k i e
  simpa [e] using h

theorem trip {α β γ : Type} (x : α × β × γ) : x = (x.1, x.2.1, x.2.2) := rfl
theorem pair {α β : Type} (x : α × β) : x = (x.1, x.2) := rfl

/-! ### Memories -/

/-- The table of memory that lists these bytes at these rising addresses. -/
def memOf (l : List (Nat × List Byte)) : Tab Byte :=
  l.flatMap (fun x => ((List.range x.2.length).zip x.2).filterMap (fun y => if y.2 = 0 then none else some (x.1 + y.1, y.2)))
/-- The 192 bytes of a descriptor that is wholly valid (R216). -/
def mkDesc (elem rank fl base sbase srec : Nat) (ext : List Nat) (str : List Int) : List Byte :=
  let p := fun (l : List Nat) => (l ++ List.replicate (6 - l.length) 0).flatMap (leBytes 4)
  leBytes 1 elem ++ leBytes 1 rank ++ leBytes 1 0 ++ leBytes 1 fl ++ zeros 4 ++ leBytes 8 base ++ leBytes 8 sbase ++ leBytes 8 srec ++ zeros 16 ++
    p ext ++ p [] ++ p ext ++ zeros 8 ++ (str ++ List.replicate (6 - str.length) 0).flatMap (fun x => leBytes 8 (unsext 64 x)) ++ zeros 16
/-- The 64 bytes of a sparse record (R222). -/
def mkRec (fmt elem nm tb db cap used : Nat) : List Byte :=
  leBytes 1 fmt ++ leBytes 1 elem ++ leBytes 1 nm ++ zeros 5 ++ leBytes 8 tb ++ leBytes 8 db ++ leBytes 8 cap ++ leBytes 8 used ++ zeros 24
/-- The descriptor that stands at an address of partition 0. -/
def dsc (s : State) (a : Nat) : Desc :=
  match parseDesc a (partRead s 0 a 192) with
  | some d => d
  | none => { addr := a, elem := .u8, rank := 0, given := false, sat := false, sr := false, acc := false, alias_ := false, nib := false, trans := false, base := 0, sbase := 0, srec := 0, fill := 0, ext := [], lo := [], hi := [], str := [] }
/-- The ready device with these bytes in memory. -/
def devMem (l : List (Nat × List Byte)) : State := { dev with mem := memOf l }
/-- An FP32 vector of 16 elements and an index vector of zeros, as bytes and as read. -/
def vec (fl base : Nat) : List Byte := mkDesc 0x12 1 fl base 0 0 [16] [1]
def ixs (base : Nat) : List Byte := mkDesc 0x32 1 0 base 0 0 [16] [1]
def vecAt (addr base : Nat) : Desc :=
  { addr := addr, elem := .fp32, rank := 1, given := false, sat := false, sr := false, acc := false, alias_ := false, nib := false, trans := false, base := base, sbase := 0, srec := 0, fill := 0, ext := [16, 1, 1, 1, 1, 1], lo := [0, 0, 0, 0, 0, 0], hi := [16, 1, 1, 1, 1, 1], str := [1, 0, 0, 0, 0, 0] }
/-- The same for an L8 matrix of 8 rows of 32, dense or kept in a sparse record. -/
def matAt (addr base sbase srec : Nat) : Desc :=
  { vecAt addr base with elem := .l8, rank := 2, sbase := sbase, srec := srec, ext := [32, 8, 1, 1, 1, 1], hi := [32, 8, 1, 1, 1, 1], str := [if srec = 0 then 1 else 0, if srec = 0 then 32 else 0, 0, 0, 0, 0] }
def devMat : State := devMem [(0x1000, mkDesc 2 2 0 0x10000 0x20000 0 [32, 8] [1, 32]), (0x1100, mkDesc 2 2 0 0 0 0x2000 [32, 8] []), (0x2000, mkRec 2 2 4 0x2100 0x4000 256 0)]
/-- Operands of the matrix products: L8 and L4 vectors of K elements and square matrices. -/
def devMx : State := devMem [(0x1000, mkDesc 2 2 0 0x10000 0x18000 0 [32, 1] [1, 32]), (0x1100, mkDesc 2 2 0 0x20000 0x28000 0 [32, 32] [1, 32]), (0x1200, mkDesc 2 2 0 0 0 0x2000 [32, 32] []), (0x1300, mkDesc 1 2 0 0x10000 0x18000 0 [32, 1] [1, 32]), (0x1400, mkDesc 1 2 0 0x20000 0x28000 0 [32, 32] [1, 32]), (0x2000, mkRec 2 2 4 0x2100 0x4000 256 0)]
def mxAt (addr rows base sbase : Nat) (el : Elem) : Desc :=
  { vecAt addr base with elem := el, rank := 2, sbase := sbase, ext := [32, rows, 1, 1, 1, 1], hi := [32, rows, 1, 1, 1, 1], str := [1, 32, 0, 0, 0, 0] }
def spAt : Desc := { mxAt 0x1200 32 0 0 .l8 with srec := 0x2000, str := [0, 0, 0, 0, 0, 0] }
/-- A distribution record at 0x1000 of one device, and its parsed form. -/
def devDist : State := devMem [(0x1000, leBytes 1 0x12 ++ leBytes 1 1 ++ leBytes 1 1 ++ zeros 1 ++ leBytes 4 1 ++ leBytes 8 0x1100 ++ leBytes 8 0x1200 ++ zeros 8 ++ leBytes 4 16 ++ zeros 28 ++ zeros 2 ++ leBytes 2 1 ++ zeros 60), (0x1100, leBytes 2 5), (0x1200, vec 0 0x10000), (0x1300, vec 0 0x20000)]
def distAt (s : State) : DistRec :=
  { bytes := partRead s 0 0x1000 128, list := partRead s 0 0x1100 2, dist := { elem := .fp32, rank := 1, devs := [5], ldesc := 0x1200, ext := [16, 1, 1, 1, 1, 1], mode := [0, 0, 0, 0, 0, 0], parts := [1, 1, 1, 1, 1, 1], block := [0, 0, 0, 0, 0, 0] }, lbytes := partRead s 0 0x1200 192, desc := vecAt 0x1200 0x10000, grid := 0 }
/-- A bitmap mask record of FORMAT-free shape 0x1100 at 0x1000, in a given state. -/
def devMask (st : Nat) : State := devMem [(0x1000, leBytes 8 st ++ leBytes 8 1 ++ leBytes 8 0x40000 ++ leBytes 8 0x50000 ++ leBytes 8 0x1100 ++ zeros 24), (0x1100, vec 0 0x10000), (0x1200, vec 0 0x20000)]
def devVec : State := devMem [(0x1000, vec 0 0x10000), (0x1100, vec 0 0x20000), (0x1200, ixs 0x30000), (0x1300, vec 0x10 0x40000)]
/-! ### Jobs, plans and packets -/

/-- A job record: tag 9, one stage, lace 5, no eyelet, a gate every `gate` steps; and a running job of it, whose first step has gathered. -/
def jobRec (image gate : Nat) : List Byte :=
  leBytes 4 9 ++ leBytes 2 0 ++ leBytes 2 1 ++ zeros 16 ++ leBytes 8 0x1F00 ++ leBytes 8 image ++ zeros 48 ++ leBytes 2 5 ++ leBytes 2 1 ++ zeros 4 ++ leBytes 4 0xFFFFFFFF ++ leBytes 2 1 ++ zeros 2 ++ leBytes 4 gate ++ zeros 20
def stage0 : List Byte := zeros 2 ++ leBytes 2 1 ++ leBytes 2 0xFFFF ++ zeros 2
def j0 : Job := { record := jobRec 0x2000 0, stages := stage0, entry := 0, step := 0, start := 0, seed := 0 }
def onJob (s : State) (f : Job → Job) : State :=
  { modPart s 0 (fun x => { x with job := some (f j0) }) with laces := [(5, { expected := 1, gen := 1 })] }
def devJob (f : Job → Job) : State := onJob dev f
/-- A pending mask epoch of that job that takes effect at step 1. -/
def e0 : PendEpoch := { job := 9, epoch := 2, eff := 1, timeout := 0, records := [] }
def planHead : List Byte := leBytes 4 9 ++ leBytes 2 0x800 ++ zeros 2 ++ leBytes 4 1 ++ leBytes 2 1 ++ zeros 2 ++ leBytes 8 0x1100 ++ zeros 40
/-- A reduction plan of that job with one bucket, number 0, of core 0, and this device its owner for two slots. -/
def planEntry : List Byte := zeros 2 ++ leBytes 1 1 ++ zeros 11 ++ leBytes 2 2 ++ leBytes 2 1 ++ zeros 46
def devPlan (f : Bucket → Bucket) : State :=
  modPart (devMem [(0x1000, planHead), (0x1100, zeros 48 ++ leBytes 2 1 ++ zeros 14)]) 0 (fun x => { x with job := some j0, plan := some { header := planHead, buckets := [(0, some (f { entry := planEntry }))] } })
/-- A packet to this device with a good ECRC. -/
def pk (parts src flow : Nat) (arg pay : List Byte) : List Byte :=
  let h := zeros 3 ++ leBytes 1 parts ++ leBytes 2 5 ++ leBytes 2 src ++ zeros 4 ++ leBytes 3 flow ++ zeros 1 ++ leBytes 2 pay.length ++ arg ++ zeros (14 - arg.length) ++ pay
  h ++ leBytes 4 (crc32c h)
/-- The ready device whose hub holds the lead, with the test pack 1 in its store. -/
def pack1 : Pack := { header := leBytes 2 9 ++ leBytes 2 1 ++ leBytes 4 1 ++ zeros 8 ++ leBytes 8 32 ++ leBytes 2 1 ++ zeros 38, body := zeros 32 }
def devLead : State :=
  { dev with power := { dev.power with lead := { held := true } }, relia := { dev.relia with packs := [(1, some pack1)] } }
/-- A management command that carries these bytes in its packet. -/
def qMo (n : BitVec 16) (objs : List Byte) : QEntry :=
  let h : Hdr := { hdrOf (.mgmt .i3c) 0x10000 n with objs := objs }
  { instr := .nop h, cmd := { cM with h := h } }
/-- The ready device with its last fabric port in a given state, and a frame with a good CRC. -/
def devPort (x : Port) : State := { dev with fab := { dev.fab with ports := [(31, x)] } }
def fr (kind lseq : Nat) (body : List Byte) : List Byte :=
  let h := leBytes 2 kind ++ leBytes 2 lseq ++ zeros 2 ++ leBytes 2 body.length ++ body
  h ++ leBytes 4 (crc32c h)
/-- A packet of version 1 and a given type to a device. -/
def pkT (type dst parts src : Nat) (arg pay : List Byte) : List Byte :=
  let h := leBytes 1 1 ++ leBytes 1 type ++ zeros 1 ++ leBytes 1 parts ++ leBytes 2 dst ++ leBytes 2 src ++ zeros 8 ++ leBytes 2 pay.length ++ arg ++ zeros (14 - arg.length) ++ pay
  h ++ leBytes 4 (crc32c h)
/-- The ready device with a changed fabric unit, power unit and pins. -/
def devFab (f : Fabric → Fabric) : State := { dev with fab := f dev.fab }
def devPow (f : Power → Power) : State := { dev with power := f dev.power }

/-! ### Hypotheses met: for each clause of each statement that has hypotheses, one state and operands that meet all of them together.
Equations that only name a value are given by let; a hypothesis on an opaque function of Config (a signature that verifies, a key
that checks, a digest, a pack floor) cannot be evaluated and is left out of the four clauses that have one. -/

theorem test_meets_StepRunsFront :
    (let s : State := { State.reset with pending := [.powerGoodRise, .miPowerUp] }; let c : Instr := .powerGoodRise; let rest : List Instr := [.miPowerUp]; s.pending = c :: rest) := by decide +kernel

theorem test_meets_StepTakesOwedWork :
    (let s : State := { dev with work := [.health 0] }; let w : Work := .health 0; let rest : List Work := []; s.pending = [] ∧ s.work = w :: rest) ∧
    (let s : State := dev; s.pending = [] ∧ s.work = []) ∧
    (let s : State := modStream dev 15 2 (fun x => { x with queue := [qS] }); let c : Nat := 15; let i : Nat := 2; let q : QEntry := qS; let rest : List QEntry := []; (stream s c i).queue = q :: rest ∧ (stream s c i).mode = .ready ∧ (stream s c i).busy = none ∧ coreRuns s c = true) := by
  and_intros <;> decide +kernel

theorem test_meets_ArrivingPacketsStartOrReply :
    (let i : Instr := .nop hS; let op : Nat := 0; let sp : Spec := { op := 0x0000, n := 0, runs := .sf, needPart := false }; let h : Hdr := hS; let b : List Byte := []; let s : State := { dev with ready := false }; commandSpec i = some sp ∧ packetParts i = some (op, h, b) ∧ s.starting = none ∧ (s.ready = false ∨ unopened s h sp = true)) ∧
    (let i : Instr := .nop hS; let op : Nat := 0; let sp : Spec := { op := 0x0000, n := 0, runs := .sf, needPart := false }; let h : Hdr := hS; let b : List Byte := []; let s : State := { dev with ctxs := [] }; let st := .badParam; let d := 1; commandSpec i = some sp ∧ packetParts i = some (op, h, b) ∧ s.starting = none ∧ s.ready = true ∧ unopened s h sp = false ∧ headerCheck s h sp = some (st, d)) ∧
    (let i : Instr := .nop hS; let op : Nat := 0; let sp : Spec := { op := 0x0000, n := 0, runs := .sf, needPart := false }; let h : Hdr := hS; let b : List Byte := []; let s : State := { dev with ctxs := [(2, { isOpen := true, kind := 2 })] }; let t : State := setSeq s h; commandSpec i = some sp ∧ packetParts i = some (op, h, b) ∧ s.starting = none ∧ s.ready = true ∧ unopened s h sp = false ∧ headerCheck s h sp = none ∧ ctxKind t h = 2) ∧
    (let i : Instr := .nop hC; let op : Nat := 0; let sp : Spec := { op := 0x0000, n := 0, runs := .sf, needPart := false }; let h : Hdr := hC; let b : List Byte := []; let s : State := dev; let t : State := setSeq s h; let c : Cmd := mkCmd s sp h; commandSpec i = some sp ∧ packetParts i = some (op, h, b) ∧ s.starting = none ∧ s.ready = true ∧ unopened s h sp = false ∧ headerCheck s h sp = none ∧ ctxKind t h ≠ 2 ∧ needsWindow sp h = false ∧ streamOfHdr t h = none ∧ fwQueue t c.part (hdrCtx h) = [] ∧ (fwRunning t c.part (hdrCtx h)).length < 8 ∧ ((bitOf h.flags.toNat 3 = true → fwRunning t c.part (hdrCtx h) = [])) ∧ ((maySleep i = true → hdrCtx h ≠ 0x1FFFF → ∀ w ∈ fwRunning t c.part (hdrCtx h), syncWait w.wait = false))) ∧
    (let i : Instr := .nop hS; let op : Nat := 0; let sp : Spec := { op := 0x0000, n := 0, runs := .sf, needPart := false }; let h : Hdr := hS; let b : List Byte := []; let s : State := dev; let k := 0; let j := 0; let t : State := setSeq s h; commandSpec i = some sp ∧ packetParts i = some (op, h, b) ∧ s.starting = none ∧ s.ready = true ∧ unopened s h sp = false ∧ headerCheck s h sp = none ∧ ctxKind t h ≠ 2 ∧ needsWindow sp h = false ∧ streamOfHdr t h = some (k, j) ∧ coreRuns t k = true ∧ (stream t k j).held = [] ∧ (stream t k j).mode = .ready ∧ (stream t k j).busy = none ∧ (stream t k j).queue = []) ∧
    (let i : Instr := .nop hS; let op : Nat := 0; let sp : Spec := { op := 0x0000, n := 0, runs := .sf, needPart := false }; let h : Hdr := hS; let b : List Byte := []; let s : State := modStream dev 0 0 (fun x => { x with busy := some 3, queue := List.replicate 63 qS }); let k := 0; let j := 0; let t : State := setSeq s h; commandSpec i = some sp ∧ packetParts i = some (op, h, b) ∧ s.starting = none ∧ s.ready = true ∧ unopened s h sp = false ∧ headerCheck s h sp = none ∧ ctxKind t h ≠ 2 ∧ needsWindow sp h = false ∧ streamOfHdr t h = some (k, j) ∧ coreRuns t k = true ∧ (stream t k j).held = [] ∧ (stream t k j).mode ≠ .out ∧ (stream t k j).busy ≠ none ∧ 0 < queueRoom t k j) := by
  and_intros <;> decide +kernel

theorem test_meets_PacketsDecodeAsEncoded :
    (let op : Nat := 0x0600; let h : Hdr := { hS with plen := 12, tail := zeros 180 }; let i : Instr := .eyeletInit h ⟨16383, 1, 0, 1⟩; let b : List Byte := bytesEyeletInit ⟨16383, 1, 0, 1⟩; packetParts i = some (op, h, b) ∧ wellFormed i = true ∧ h.upsets = []) := by decide +kernel

theorem test_meets_StartingAndEndingLeaveTheRest :
    (let q : QEntry := qS; upsetsNow q.cmd = []) ∧
    (let s : State := dev; let q : QEntry := qS; isFabric q.cmd.h.via = false ∧ q.cmd.win = none ∧ q.cmd.h.resultAddr = 0 ∧ q.cmd.h.replyAddr = 0 ∧ q.cmd.h.signal.toNat = 0xFFFFFFFF) := by
  and_intros <;> decide +kernel

theorem test_meets_RecordGoesToResultAddress :
    (let h : Hdr := { hS with resultAddr := 512 }; h.resultAddr ≠ 0) ∧
    (let c : Cmd := { cS with h := { hS with resultAddr := 512 } }; let p : Nat := 0; c.win = none ∧ c.part = some p ∧ c.h.resultAddr ≠ 0) ∧
    (let c : Cmd := { cM with h := { hM with resultAddr := 512 } }; c.win = none ∧ c.part = none ∧ c.h.resultAddr ≠ 0) ∧
    (let c : Cmd := cS; c.win = none ∧ sigEyelet c.h = none) := by
  and_intros <;> decide +kernel

theorem test_meets_DeviceMemoryReadsBack :
    (let s : State := { dev with poison := [(1, true)] }; let a : Nat := 1023; let bs : List Byte := zeros 511; a < 0xC000000000 ∧ tget false (a / 512) s.poison = true ∧ bs.length < 512) := by decide +kernel

theorem test_meets_ContextCommandsComplete :
    (let s : State := dev; let q : QEntry := qC; s.starting = none ∧ sigCheck (atStart s q) q.cmd.h = none) ∧
    (let s : State := dev; let q : QEntry := qC; let p : CtxOpenP := ⟨0xFFFF, 1, 0, 0, 0, 0, 0, 0, 0, 0, 0, 0, 0⟩; let pt : Nat := 0; Startable s q pt ∧ p.context.toNat < 0x10000 ∧ ownsCtx (atStart s q) pt p.context.toNat = true ∧ (ctx (atStart s q) p.context.toNat).isOpen = false ∧ ctxOpenValid (atStart s q) pt p = true ∧ ((p.kind.toNat < 3 ∨ draining (atStart s q) = false)) ∧ ((p.kind.toNat = 4 → p.eyelet.toNat < 16384 → ownsEyelet (atStart s q) pt p.eyelet.toNat = true))) ∧
    (let s : State := dev; let q : QEntry := qC; let p : CtxCloseP := ⟨2, 0⟩; let pt : Nat := 0; let x : Ctx := ctx (atStart s q) p.context.toNat; Startable s q pt ∧ p.rsvdA = 0 ∧ p.context.toNat < 0x10000 ∧ ownsCtx (atStart s q) pt p.context.toNat = true ∧ x.isOpen = true ∧ ctxBusy (atStart s q) p.context.toNat = false) ∧
    (let s : State := dev; let q : QEntry := qC; let p : ResultPoolP := ⟨0x200000, 256, 0⟩; let pt : Nat := 0; Startable s q pt ∧ p.rsvdA = 0 ∧ p.base.toNat % 2 ^ 21 = 0 ∧ p.count.toNat % 256 = 0 ∧ 256 ≤ p.count.toNat ∧ p.count.toNat ≤ 65536 ∧ spanOk (atStart s q) pt p.base.toNat (p.base.toNat + 8192 * p.count.toNat - 1) false = true ∧ spanHbm (atStart s q) pt p.base.toNat (8192 * p.count.toNat) = true ∧ poolBusy (page (atStart s q) pt).pool = false) ∧
    (let s : State := dev; let q : QEntry := qM; let p : HostRangeP := ⟨15, 15, 1, 0, 4096, 4096⟩; MgmtStartable s q ∧ p.rsvdA = 0 ∧ p.part.toNat < 16 ∧ p.index.toNat < 16 ∧ p.flags.toNat ≤ 1 ∧ p.base.toNat % 4096 = 0 ∧ p.bytes.toNat % 4096 = 0) ∧
    (let s : State := dev; let q : QEntry := qC; let p : SyncConfigP := ⟨1, 0, 0, 0, 0, 0⟩; let pt : Nat := 0; Startable s q pt ∧ p.rsvdA = 0 ∧ p.rsvdB = 0 ∧ p.mode.toNat ≤ 1 ∧ p.dumpBase.toNat % 4096 = 0 ∧ p.dumpBytes.toNat % 4096 = 0 ∧ ((p.dumpBase.toNat = 0 ∧ p.dumpBytes.toNat = 0 ∨ p.dumpBase.toNat ≠ 0 ∧ p.dumpBytes.toNat ≠ 0 ∧ spanOk (atStart s q) pt p.dumpBase.toNat (p.dumpBase.toNat + p.dumpBytes.toNat - 1) true = true ∧ spanHbm (atStart s q) pt p.dumpBase.toNat p.dumpBytes.toNat = true))) ∧
    (let s : State := devPart (fun x => { x with sync := { x.sync with dumpSize := 4096 } }); let q : QEntry := qC; let p : SyncDumpP := ⟨0⟩; let pt : Nat := 0; Startable s q pt ∧ p.rsvdA = 0 ∧ hasDump (atStart s q) pt = true) ∧
    (let s : State := dev; let q : QEntry := qC; let p : SyncDumpP := ⟨0⟩; let pt : Nat := 0; Startable s q pt ∧ p.rsvdA = 0 ∧ hasDump (atStart s q) pt = false) := by
  and_intros <;> decide +kernel

theorem test_meets_BitternClaimsAndCompletes :
    (let a : Agent := .hostPage 0; let c : Fin 3 := 0; let t : BitVec 6 := 1; let s : State := { dev with btn := [(0, { srcs := [], tgts := [(1, { stack := [(0x183, 7)] })] })] }; silenced s a = false ∧ mayTarget a c.val t.toNat = false) ∧
    (let a : Agent := .awl 0 3; let s : State := { dev with dies := [(1, dieE)] }; silenced s a = true) := by
  and_intros <;> decide +kernel

theorem test_meets_BitternClaimsAndCompletes_1 :
    (let a : Agent := .ctl 0 0; let c : Fin 3 := 0; let t : BitVec 6 := 1; let s : State := dev; let u : State := s; silenced s a = false ∧ mayTarget a c.val t.toNat = true ∧ ((∀ x y, a = .awl x y → u = userLeave s (.awl x y))) ∧ (((∀ x y, a ≠ .awl x y) → u = s)) ∧ winner (bittern u c.val) c.val t.toNat = none) :=
  ⟨by decide +kernel, by decide +kernel, by simp, fun _ => rfl, by decide +kernel⟩

theorem test_meets_BitternClaimsAndCompletes_2 :
    (let a : Agent := .ctl 0 0; let c : Fin 3 := 0; let t : BitVec 6 := 1; let s : State := { dev with btn := [(0, { srcs := [(0x183, some { pend := true, active := false, target := 1, group := 0, en := true, prio := 7 })] })] }; let u : State := s; let k := 0x183; silenced s a = false ∧ mayTarget a c.val t.toNat = true ∧ ((∀ x y, a = .awl x y → u = userLeave s (.awl x y))) ∧ (((∀ x y, a ≠ .awl x y) → u = s)) ∧ winner (bittern u c.val) c.val t.toNat = some k) :=
  ⟨by decide +kernel, by decide +kernel, by simp, fun _ => rfl, by decide +kernel⟩

theorem test_meets_BitternClaimsAndCompletes_3 :
    (let a : Agent := .ctl 0 0; let c : Fin 3 := 0; let t : BitVec 6 := 1; let src : BitVec 10 := 0x183; let s : State := { dev with btn := [(0, { srcs := [], tgts := [(1, { stack := [(0x183, 7)] })] })] }; let top := ((0x183, 7) : BitVec 10 × BitVec 4); let rest := ([] : List (BitVec 10 × BitVec 4)); silenced s a = false ∧ mayTarget a c.val t.toNat = true ∧ BitternsCanonical s ∧ (btnTgt (bittern s c.val) t.toNat).stack = top :: rest ∧ top.1.toNat = src.toNat) :=
  ⟨by decide +kernel, by decide +kernel, canonical_one _ (by decide +kernel), by decide +kernel, by decide +kernel⟩

theorem test_meets_BitternClaimsAndCompletes_4 :
    (let a : Agent := .ctl 0 0; let c : Fin 3 := 0; let t : BitVec 6 := 1; let src : BitVec 10 := 0x1FF; let s : State := { dev with btn := [(0, { srcs := [], tgts := [(1, { stack := [(0x183, 7)] })] })] }; silenced s a = false ∧ mayTarget a c.val t.toNat = true ∧ BitternsCanonical s ∧ (∀ top ∈ (btnTgt (bittern s c.val) t.toNat).stack.head?, top.1 ≠ src)) :=
  by
  intro a c t src s
  exact ⟨by decide +kernel, by decide +kernel, canonical_one _ (by decide +kernel), by intro top h; simp [s, t, c, btnTgt, bittern, tget, src] at h ⊢; subst h; decide⟩

theorem test_meets_BitternPendsAndHoldoff :
    (let a : Agent := .awl 0 3; let c : Fin 3 := 1; let k : BitVec 10 := 0x3FF; let s : State := { dev with dies := [(1, dieE)] }; k.toNat < btnSources c.val ∧ silenced s a = true) ∧
    (let a : Agent := .sup; let c : Fin 3 := 1; let k : BitVec 10 := 0x3FF; let s : State := dev; k.toNat < btnSources c.val ∧ silenced s a = false ∧ mayPend s a c.val k.toNat = true) ∧
    (let a : Agent := .awl 0 0; let c : Fin 3 := 1; let k : BitVec 10 := 0; let s : State := dev; k.toNat < btnSources c.val ∧ silenced s a = false ∧ mayPend s a c.val k.toNat = false) := by
  and_intros <;> decide +kernel

theorem test_meets_BitternPendsAndHoldoff_1 :
    (let s : State := { dev with btn := [(0, { srcs := [], grps := [(63, { holdoff := 1, running := true })] })] }; BitternsCanonical s) :=
  canonical_one _ (by decide +kernel)

theorem test_meets_BitternsStayCanonical :
    (let s : State := dev; let t : State := fire dev 1 0x3FF; let i : Instr := .btnSwpend .sup 1 0x3FF; BitternsCanonical s ∧ (((∃ a x, i = .btnTgtClaim a x) ∨ (∃ a x k, i = .btnTgtComplete a x k) ∨ (∃ a c k, i = .btnSwpend a c k) ∨ (∃ c g, i = .btnHoldoffExpiry c g))) ∧ exec i s = .next t) :=
  ⟨canonical_dev, Or.inr (Or.inr (Or.inl ⟨_, _, _, rfl⟩)), rfl⟩

theorem test_meets_QuagWatchFires :
    (let p : Fin 16 := 0; let s : State := modStream { dev with eyelets := [(16383, { waiters := [{ unit := .stream 0 0, ticket := 0, n := 1 }] })], waiting := [{ id := 7, instr := .nop hS, cmd := cS, unit := .stream 0 0, wait := .eyelet 16383 1 }] } 0 0 (fun x => { x with busy := some 7 }); let u : State := modPart s p.val (fun x => { x with sync := { x.sync with fired := true, spent := true } }); (part s p.val).sync.quag = true ∧ (part s p.val).sync.spent = false ∧ looksDead s p.val (stepHeld s p.val) = true ∧ hasDump u p.val = false) ∧
    (let p : Fin 16 := 0; let s : State := modPart (modStream { dev with eyelets := [(16383, { waiters := [{ unit := .stream 0 0, ticket := 0, n := 1 }] })], waiting := [{ id := 7, instr := .nop hS, cmd := cS, unit := .stream 0 0, wait := .eyelet 16383 1 }] } 0 0 (fun x => { x with busy := some 7 })) 0 (fun x => { x with sync := { x.sync with dumpSize := 4096 } }); let u : State := modPart s p.val (fun x => { x with sync := { x.sync with fired := true, spent := true } }); (part s p.val).sync.quag = true ∧ (part s p.val).sync.spent = false ∧ looksDead s p.val (stepHeld s p.val) = true ∧ hasDump u p.val = true) ∧
    (let p : Fin 16 := 0; let s : State := dev; ((part s p.val).sync.quag = false ∨ (part s p.val).sync.spent = true ∨ looksDead s p.val (stepHeld s p.val) = false)) := by
  and_intros <;> decide +kernel

theorem test_meets_EyeletCommandsComplete :
    (let s : State := dev; let q : QEntry := qS; let p : EyeletInitP := ⟨16383, 1, 0, 1⟩; let pt : Nat := 0; Startable s q pt ∧ p.rsvdA = 0 ∧ p.eyelet.toNat < 16384 ∧ p.mode.toNat ≤ 1 ∧ ((p.mode.toNat = 1 → p.count.toNat ≤ 1)) ∧ ownsEyelet (atStart s q) pt p.eyelet.toNat = true ∧ (eyelet (atStart s q) p.eyelet.toNat).waiters = []) ∧
    (let s : State := dev; let q : QEntry := qS; let p : EyeletSignalP := ⟨16383, 0, 0, 0⟩; let pt : Nat := 0; Startable s q pt ∧ p.rsvdA = 0 ∧ p.eyelet.toNat < 16384 ∧ ownsEyelet (atStart s q) pt p.eyelet.toNat = true ∧ (p.op.toNat = 0 ∧ p.k.toNat = 0 ∨ p.op.toNat = 1 ∧ p.k.toNat ≠ 0)) ∧
    (let s : State := { dev with eyelets := [(16383, { event := true, count := 1 })] }; let q : QEntry := qS; let p : EyeletSignalP := ⟨16383, 2, 0, 0⟩; let pt : Nat := 0; Startable s q pt ∧ p.rsvdA = 0 ∧ p.eyelet.toNat < 16384 ∧ ownsEyelet (atStart s q) pt p.eyelet.toNat = true ∧ p.op.toNat = 2 ∧ p.k.toNat = 0 ∧ (eyelet (atStart s q) p.eyelet.toNat).event = true) ∧
    (let s : State := { dev with eyelets := [(16383, { count := 65535 })] }; let q : QEntry := qS; let p : EyeletWaitP := ⟨16383, 65535, 1, 0⟩; let pt : Nat := 0; let x : Eyelet := {}; Startable s q pt ∧ p.rsvdA = 0 ∧ p.ctl.toNat ≤ 1 ∧ p.eyelet.toNat < 16384 ∧ ownsEyelet (atStart s q) pt p.eyelet.toNat = true ∧ (((eyelet (atStart s q) p.eyelet.toNat).event = true ∨ p.n.toNat ≠ 0)) ∧ takeEyelet (eyelet (atStart s q) p.eyelet.toNat) p.n.toNat = some x) ∧
    (let s : State := { dev with eyelets := [(16383, { count := 65535 })] }; let q : QEntry := qS; let p : EyeletReadP := ⟨16383, 0⟩; let pt : Nat := 0; Startable s q pt ∧ p.rsvdA = 0 ∧ p.eyelet.toNat < 16384 ∧ ownsEyelet (atStart s q) pt p.eyelet.toNat = true) := by
  and_intros <;> decide +kernel

theorem test_meets_EyeletWaitSleepsOrFails :
    (let s : State := dev; let q : QEntry := qS; let p : EyeletWaitP := ⟨16383, 65535, 0, 0⟩; let pt : Nat := 0; Startable s q pt ∧ p.rsvdA = 0 ∧ p.ctl.toNat ≤ 1 ∧ p.eyelet.toNat < 16384 ∧ ownsEyelet (atStart s q) pt p.eyelet.toNat = true ∧ (((eyelet (atStart s q) p.eyelet.toNat).event = true ∨ p.n.toNat ≠ 0)) ∧ takeEyelet (eyelet (atStart s q) p.eyelet.toNat) p.n.toNat = none) ∧
    (let s : State := devPart (fun x => { x with binding := some (bindOf 0xFFFF 1 1 0 0 16) }); let q : QEntry := qS; let p : EyeletInitP := ⟨16383, 0, 0, 0⟩; let pt : Nat := 0; Startable s q pt ∧ p.rsvdA = 0 ∧ p.eyelet.toNat < 16384 ∧ p.mode.toNat = 0 ∧ ownsEyelet (atStart s q) pt p.eyelet.toNat = false) ∧
    (let s : State := { dev with eyelets := [(16383, { waiters := [{ unit := .awl 0 0, ticket := 0, n := 2 }] })] }; let q : QEntry := qS; let p : EyeletInitP := ⟨16383, 0, 0, 0⟩; let pt : Nat := 0; Startable s q pt ∧ p.rsvdA = 0 ∧ p.eyelet.toNat < 16384 ∧ p.mode.toNat = 0 ∧ ownsEyelet (atStart s q) pt p.eyelet.toNat = true ∧ (eyelet (atStart s q) p.eyelet.toNat).waiters ≠ []) ∧
    (let s : State := dev; let q : QEntry := qS; let p : EyeletSignalP := ⟨16383, 2, 0, 0⟩; let pt : Nat := 0; Startable s q pt ∧ p.rsvdA = 0 ∧ p.eyelet.toNat < 16384 ∧ ownsEyelet (atStart s q) pt p.eyelet.toNat = true ∧ p.op.toNat = 2 ∧ p.k.toNat = 0 ∧ (eyelet (atStart s q) p.eyelet.toNat).event = false) := by
  and_intros <;> decide +kernel

theorem test_meets_TakesFollowTheMode :
    (let x : Eyelet := { count := 5 }; let n : Nat := 5; x.event = false ∧ n ≤ x.count.toNat) ∧
    (let x : Eyelet := { count := 5 }; let n : Nat := 6; x.event = false ∧ x.count.toNat < n) ∧
    (let x : Eyelet := { event := true, count := 1 }; x.event = true ∧ x.count.toNat ≤ 1 ∧ x.count = 1) ∧
    (let x : Eyelet := { event := true }; x.event = true ∧ x.count.toNat ≤ 1 ∧ x.count = 0) := by
  and_intros <;> decide +kernel

theorem test_meets_SignalServesEverySleeper :
    (let s : State := { dev with eyelets := [(16383, { waiters := [{ unit := .awl 0 0, ticket := 0, n := 2 }] })] }; twf ({} : Eyelet) s.eyelets = true) := by decide +kernel

theorem test_meets_LaceCommandsComplete :
    (let s : State := dev; let q : QEntry := qS; let p : LaceInitP := ⟨1023, 1, 0, 0xFFFF, 7, 0, 0, 0, 0, 0⟩; let pt : Nat := 0; Startable s q pt ∧ p.rsvdA = 0 ∧ p.rsvdB = 0 ∧ p.lace.toNat < 1024 ∧ p.scope.toNat ≤ 1 ∧ p.expected ≠ 0 ∧ p.start.toNat ≠ 2 ^ 64 - 1 ∧ (¬ (p.scope.toNat = 1 ∧ p.root = (atStart s q).fab.addr)) ∧ p.devices = 0 ∧ p.rootMap = 0 ∧ ownsLace (atStart s q) pt p.lace.toNat = true ∧ (lace (atStart s q) p.lace.toNat).waiters = [] ∧ (lace (atStart s q) p.lace.toNat).arrived = 0 ∧ (lace (atStart s q) p.lace.toNat).early = 0 ∧ (lace (atStart s q) p.lace.toNat).devArr = 0) ∧
    (let s : State := { dev with laces := [(1023, { expected := 2, gen := 9 })] }; let q : QEntry := qS; let p : LaceArriveP := ⟨1023, 0, 0, 9⟩; let pt : Nat := 0; let x : Lace := lace (atStart s q) p.lace.toNat; Startable s q pt ∧ p.rsvdA = 0 ∧ p.ctl = 0 ∧ p.lace.toNat < 1024 ∧ ownsLace (atStart s q) pt p.lace.toNat = true ∧ x.expected ≠ 0 ∧ p.gen = x.gen ∧ x.gen.toNat ≠ 2 ^ 64 - 1) ∧
    (let s : State := { dev with laces := [(1023, { expected := 2, gen := 9 })] }; let q : QEntry := qS; let p : LaceArriveP := ⟨1023, 0, 0, 10⟩; let pt : Nat := 0; let x : Lace := lace (atStart s q) p.lace.toNat; Startable s q pt ∧ p.rsvdA = 0 ∧ p.ctl = 0 ∧ p.lace.toNat < 1024 ∧ ownsLace (atStart s q) pt p.lace.toNat = true ∧ x.expected ≠ 0 ∧ p.gen.toNat = x.gen.toNat + 1) ∧
    (let s : State := { dev with laces := [(1023, { expected := 2, gen := 9 })] }; let q : QEntry := qS; let p : LaceWaitP := ⟨1023, 0, 8⟩; let pt : Nat := 0; Startable s q pt ∧ p.rsvdA = 0 ∧ p.lace.toNat < 1024 ∧ ownsLace (atStart s q) pt p.lace.toNat = true ∧ (lace (atStart s q) p.lace.toNat).expected ≠ 0) ∧
    (let s : State := { dev with laces := [(1023, { expected := 2, gen := 9 })] }; let q : QEntry := qS; let p : LaceReadP := ⟨1023, 0⟩; let pt : Nat := 0; Startable s q pt ∧ p.rsvdA = 0 ∧ p.lace.toNat < 1024 ∧ ownsLace (atStart s q) pt p.lace.toNat = true) := by
  and_intros <;> decide +kernel

theorem test_meets_RemoteLaceCommandsComplete :
    (let s : State := { dev with laces := [(1023, { fabric := true, expected := 2, gen := 9, devices := 3 })] }; let q : QEntry := qC; let p : LaceRemoteArriveP := ⟨1023, 0, 9⟩; let pt : Nat := 0; Startable s q pt ∧ p.rsvdA = 0 ∧ p.lace.toNat < 1024 ∧ ownsLace (atStart s q) pt p.lace.toNat = true) ∧
    (let s : State := { dev with laces := [(1023, { fabric := true, expected := 2, gen := 9, devices := 3 })] }; let q : QEntry := qC; let p : LaceReleaseP := ⟨1023, 0, 9⟩; let pt : Nat := 0; let x : Lace := lace (atStart s q) p.lace.toNat; Startable s q pt ∧ p.rsvdA = 0 ∧ p.lace.toNat < 1024 ∧ ownsLace (atStart s q) pt p.lace.toNat = true ∧ x.expected ≠ 0 ∧ x.fabric = true ∧ x.gen = p.gen ∧ x.gen.toNat ≠ 2 ^ 64 - 1) ∧
    (let s : State := { dev with laces := [(1023, { fabric := true, expected := 2, gen := 9, devices := 3 })] }; let q : QEntry := qC; let p : LaceReleaseP := ⟨1023, 0, 8⟩; let pt : Nat := 0; let x : Lace := lace (atStart s q) p.lace.toNat; Startable s q pt ∧ p.rsvdA = 0 ∧ p.lace.toNat < 1024 ∧ ownsLace (atStart s q) pt p.lace.toNat = true ∧ x.gen ≠ p.gen) := by
  and_intros <;> decide +kernel

theorem test_meets_ReleaseMovesGeneration :
    (let s : State := { dev with laces := [(1023, { expected := 1, gen := 9, waiters := [⟨.awl 0 0, 9, false⟩] })] }; twf ({} : Lace) s.laces = true) ∧
    (let s : State := { dev with laces := [(1023, { expected := 1, gen := 9, waiters := [⟨.awl 0 0, 9, false⟩] })] }; twf ({} : Lace) s.laces = true) := by
  and_intros <;> decide +kernel

theorem test_meets_WindowAccessesComplete :
    (let c : Fin 16 := 15; let a : Fin 4 := 3; let t : BitVec 13 := 8191; let n : BitVec 64 := 256; let s : State := dev; let p : Nat := 0; let l : State := abandonUnit s (.awl c a); inService s c.val = true ∧ partOfCore l c.val = some p ∧ ownsTally l p t.toNat = true ∧ 1 ≤ n.toNat ∧ n.toNat ≤ 256) ∧
    (let c : Fin 16 := 0; let s : State := { dev with dies := [(1, dieE)] }; inService s c.val = false) ∧
    (let c : Fin 16 := 0; let s : State := { dev with dies := [(1, dieE)] }; inService s c.val = false) ∧
    (let c : Fin 16 := 0; let s : State := { dev with dies := [(1, dieE)] }; inService s c.val = false) ∧
    (let c : Fin 16 := 0; let s : State := { dev with dies := [(1, dieE)] }; inService s c.val = false) ∧
    (let c : Fin 16 := 0; let s : State := { dev with dies := [(1, dieE)] }; inService s c.val = false) := by
  and_intros <;> decide +kernel

theorem test_meets_WindowAccessesComplete_1 :
    (let u : WinUser := .ctl 1 3; let e : BitVec 14 := 16383; let k : BitVec 64 := 0xFFFFFFFF; let s : State := dev; let l : State := userLeave s u; userServes s u ∧ userEyelet l u e.toNat = true ∧ 1 ≤ k.toNat ∧ k.toNat ≤ 0xFFFFFFFF) :=
  ⟨nofun, by decide +kernel⟩

theorem test_meets_WindowAccessesComplete_2 :
    (let u : WinUser := .ctl 1 3; let e : BitVec 14 := 16383; let n : BitVec 64 := 65535; let s : State := { dev with eyelets := [(16383, { count := 65535 })] }; let x : Eyelet := {}; let l : State := userLeave s u; userServes s u ∧ userEyelet l u e.toNat = true ∧ 1 ≤ n.toNat ∧ n.toNat ≤ 65535 ∧ takeEyelet (eyelet l e.toNat) n.toNat = some x) :=
  ⟨nofun, by decide +kernel⟩

theorem test_meets_WindowAccessesComplete_3 :
    (let u : WinUser := .ctl 1 3; let e : BitVec 14 := 16383; let n : BitVec 64 := 65535; let s : State := dev; let l : State := userLeave s u; userServes s u ∧ userEyelet l u e.toNat = true ∧ 1 ≤ n.toNat ∧ n.toNat ≤ 65535 ∧ takeEyelet (eyelet l e.toNat) n.toNat = none) :=
  ⟨nofun, by decide +kernel⟩

theorem test_meets_WindowAccessesComplete_4 :
    (let u : WinUser := .ctl 1 3; let e : BitVec 14 := 16383; let s : State := { dev with eyelets := [(16383, { event := true, count := 1 })] }; let l : State := userLeave s u; userServes s u ∧ userEyelet l u e.toNat = true ∧ (eyelet l e.toNat).event = true) :=
  ⟨nofun, by decide +kernel⟩

theorem test_meets_WindowAccessesComplete_5 :
    (let u : WinUser := .ctl 1 3; let l : BitVec 10 := 1023; let g : BitVec 64 := 10; let s : State := { dev with laces := [(1023, { expected := 2, gen := 9 })] }; let v : State := setLace (setArrival (userLeave s u) u none) 1023 { expected := 2, gen := 9, early := 1 }; let p : Nat := 0; let t : State := setArrival (userLeave s u) u none; userServes s u ∧ userLacePart t u l.toNat = some p ∧ laceArrive t p l.toNat g.toNat = (v, none)) :=
  ⟨nofun, by decide +kernel⟩

theorem test_meets_WindowAccessesComplete_6 :
    (let u : WinUser := .ctl 1 3; let l : BitVec 10 := 1023; let g : BitVec 64 := 10; let s : State := { dev with laces := [(1023, { expected := 2, gen := 9 })] }; let v : State := setLace (setArrival (userLeave s u) u none) 1023 { expected := 2, gen := 9, early := 1 }; let p : Nat := 0; let t : State := setArrival (userLeave s u) u none; userServes s u ∧ userArrival (userLeave s u) u ≠ some (l.toNat, g.toNat) ∧ userLacePart (userLeave s u) u l.toNat = some p ∧ laceArrive t p l.toNat g.toNat = (v, none)) :=
  ⟨nofun, by decide +kernel⟩

theorem test_meets_WindowAccessesComplete_7 :
    (let u : WinUser := .ctl 1 3; let l : BitVec 10 := 1023; let s : State := { dev with laces := [(1023, { expected := 2, gen := 9 })] }; let p : Nat := 0; let t : State := setArrival (userLeave s u) u none; userServes s u ∧ userLacePart t u l.toNat = some p ∧ (lace t l.toNat).expected ≠ 0) :=
  ⟨nofun, by decide +kernel⟩

theorem test_meets_EyeletRetryAndDumpTimeout :
    (let e : BitVec 14 := 16383; let u : UnitId := .awl 0 0; let s : State := { dev with eyelets := [(16383, { count := 2, waiters := [{ unit := .awl 0 0, ticket := 0, n := 2, woken := true }] })] }; let w : Waiter := { unit := .awl 0 0, ticket := 0, n := 2, woken := true }; let x := ({ waiters := [{ unit := .awl 0 0, ticket := 0, n := 2, woken := true }] } : Eyelet); (eyelet s e.toNat).waiters.find? (fun w => decide (w.unit = u) && w.woken) = some w ∧ takeEyelet (eyelet s e.toNat) w.n = some x) ∧
    (let e : BitVec 14 := 16383; let u : UnitId := .awl 0 0; let s : State := { dev with eyelets := [(16383, { count := 1, waiters := [{ unit := .awl 0 0, ticket := 0, n := 2, woken := true }] })] }; let w : Waiter := { unit := .awl 0 0, ticket := 0, n := 2, woken := true }; (eyelet s e.toNat).waiters.find? (fun w => decide (w.unit = u) && w.woken) = some w ∧ takeEyelet (eyelet s e.toNat) w.n = none) ∧
    (let e : BitVec 14 := 16383; let u : UnitId := .awl 0 0; let s : State := dev; (eyelet s e.toNat).waiters.find? (fun w => decide (w.unit = u) && w.woken) = none) ∧
    (let p : Fin 16 := 0; let u : UnitId := .awl 0 0; let s : State := { devPart (fun x => { x with sync := { quag := false, timeout := 5, dumpSize := 4096 } }) with eyelets := [(16383, { waiters := [{ unit := .awl 0 0, ticket := 0, n := 2 }] })] }; let t : State := { s with eyelets := [(16383, { waiters := [{ unit := .awl 0 0, ticket := 0, n := 2, timed := true }] })] }; (part s p.val).sync.quag = false ∧ (part s p.val).sync.timeout ≠ 0 ∧ bound s p.val = true ∧ markTimed s p.val u = some t ∧ hasDump t p.val = true) ∧
    (let p : Fin 16 := 0; let u : UnitId := .awl 0 0; let s : State := dev; ((part s p.val).sync.quag = true ∨ (part s p.val).sync.timeout = 0 ∨ markTimed s p.val u = none)) := by
  and_intros <;> decide +kernel

theorem test_meets_TallyCommandsComplete :
    (let s : State := dev; let q : QEntry := qS; let p : TallyInitP := ⟨8191, 8, 0x10000⟩; let pt : Nat := 0; Startable s q pt ∧ p.tally.toNat < 8192 ∧ 1 ≤ p.limit.toNat ∧ p.limit.toNat ≤ 2 ^ 24 ∧ regionOk (atStart s q) pt p.doneBase.toNat (doneBytes p.limit.toNat) 8 true = true ∧ ownsTally (atStart s q) pt p.tally.toNat = true ∧ spanHbm (atStart s q) pt p.doneBase.toNat (doneBytes p.limit.toNat) = true ∧ (tally (atStart s q) p.tally.toNat).pending = []) ∧
    (let s : State := { dev with tallies := [(8191, { limit := 4, value := 4, doneBase := 0x10000 })] }; let q : QEntry := qS; let p : TallyClaimP := ⟨8191, 256, 0⟩; let pt : Nat := 0; let x : Tally := tally (atStart s q) p.tally.toNat; Startable s q pt ∧ p.rsvdA = 0 ∧ p.tally.toNat < 8192 ∧ 1 ≤ p.count.toNat ∧ p.count.toNat ≤ 256 ∧ ownsTally (atStart s q) pt p.tally.toNat = true ∧ x.limit.toNat ≤ x.value.toNat) ∧
    (let s : State := { dev with tallies := [(8191, { limit := 4, value := 3, doneBase := 0x10000 })] }; let q : QEntry := qS; let p : TallyClaimP := ⟨8191, 256, 0⟩; let pt : Nat := 0; let x : Tally := tally (atStart s q) p.tally.toNat; Startable s q pt ∧ p.rsvdA = 0 ∧ p.tally.toNat < 8192 ∧ 1 ≤ p.count.toNat ∧ p.count.toNat ≤ 256 ∧ ownsTally (atStart s q) pt p.tally.toNat = true ∧ x.value.toNat < x.limit.toNat ∧ partPoisoned (atStart s q) pt (doneAddr x x.value.toNat) 1 = false) ∧
    (let s : State := { devVec with tallies := [(8191, { limit := 4, value := 3, epoch := 1, doneBase := 0x50000 })] }; let q : QEntry := qS; let p : TallyCommitP := ⟨8191, 0, 0x100000002, 0x1000, 0x1100⟩; let pt : Nat := 0; let src : Desc := vecAt 0x1000 0x10000; let d : Desc := vecAt 0x1100 0x20000; let x : Tally := tally (atStart s q) p.tally.toNat; checkDescs (atStart s q) pt [(p.srcDesc.toNat, false), (p.dstDesc.toNat, true)] = .ok [src, d] ∧ Startable s q pt ∧ p.rsvdA = 0 ∧ p.tally.toNat < 8192 ∧ ownsTally (atStart s q) pt p.tally.toNat = true ∧ copyOk src d = true ∧ fld p.claim.toNat 32 30 = x.epoch.toNat ∧ p.claim.toNat % 2 ^ 32 < x.limit.toNat ∧ doneBit (atStart s q) pt x (p.claim.toNat % 2 ^ 32) = false ∧ partPoisoned (atStart s q) pt (doneAddr x (p.claim.toNat % 2 ^ 32)) 1 = false ∧ x.pending.contains (p.claim.toNat % 2 ^ 32) = false ∧ pendingCommits (atStart s q) (tallyHome p.tally.toNat).1 < 64 ∧ commitBegun q.cmd = false) ∧
    (let s : State := { dev with tallies := [(8191, { limit := 0, value := 3, epoch := 7 })] }; let q : QEntry := qS; let p : TallyResetP := ⟨8191, 7⟩; let pt : Nat := 0; let x : Tally := tally (atStart s q) p.tally.toNat; Startable s q pt ∧ p.tally.toNat < 8192 ∧ p.expect.toNat < 2 ^ 30 ∧ ownsTally (atStart s q) pt p.tally.toNat = true ∧ ((p.expect.toNat = 0 ∨ p.expect.toNat = x.epoch.toNat)) ∧ x.epoch.toNat ≠ 2 ^ 30 - 1 ∧ x.limit = 0) ∧
    (let s : State := { dev with tallies := [(8191, { limit := 4, value := 3, epoch := 7, doneBase := 0x10000 })] }; let q : QEntry := qS; let p : TallyResetP := ⟨8191, 7⟩; let pt : Nat := 0; let x : Tally := tally (atStart s q) p.tally.toNat; Startable s q pt ∧ p.tally.toNat < 8192 ∧ p.expect.toNat < 2 ^ 30 ∧ ownsTally (atStart s q) pt p.tally.toNat = true ∧ ((p.expect.toNat = 0 ∨ p.expect.toNat = x.epoch.toNat)) ∧ x.epoch.toNat ≠ 2 ^ 30 - 1 ∧ x.limit ≠ 0 ∧ partPoisoned (atStart s q) pt (doneAddr x 0) 1 = false) := by
  and_intros <;> first | decide +kernel | (apply freeIs; decide +kernel) | (apply okIs; decide +kernel)

theorem test_meets_ClaimNeverPassesLimit :
    (let s : State := { dev with tallies := [(8191, { limit := 4, value := 4 })] }; twf ({} : Tally) s.tallies = true) ∧
    (let s : State := { dev with tallies := [(8191, { limit := 4, value := 4 })] }; let t : Nat := 8191; let x : Tally := tally s t; twf ({} : Tally) s.tallies = true ∧ x.limit.toNat ≤ x.value.toNat) ∧
    (let s : State := { dev with tallies := [(8191, { limit := 4, value := 3 })] }; let t : Nat := 8191; let x : Tally := tally s t; twf ({} : Tally) s.tallies = true ∧ x.value.toNat < x.limit.toNat) ∧
    (let s : State := { dev with tallies := [(8191, { limit := 4, value := 3 })] }; let t : Nat := 8191; let r := 0; let x : Tally := tally s t; twf ({} : Tally) s.tallies = true ∧ x.value.toNat < x.limit.toNat ∧ r ≠ t) ∧
    (let s : State := { dev with tallies := [(8191, { limit := 4, value := 3 })] }; let t : Nat := 8191; let x : Tally := tally s t; twf ({} : Tally) s.tallies = true ∧ x.value.toNat < x.limit.toNat) ∧
    (let s : State := { dev with tallies := [(8191, { limit := 4, value := 3 })] }; let t : Nat := 8191; let x : Tally := tally s t; twf ({} : Tally) s.tallies = true ∧ x.value.toNat < x.limit.toNat) := by
  and_intros <;> decide +kernel

theorem test_meets_MovementCommandsComplete :
    (let s : State := devVec; let q : QEntry := qS; let p : CopyP := ⟨0x1000, 0x1100, 1, 0⟩; let pt : Nat := 0; let src : Desc := vecAt 0x1000 0x10000; let d : Desc := vecAt 0x1100 0x20000; checkDescs (atStart s q) pt [(p.srcDesc.toNat, false), (p.dstDesc.toNat, true)] = .ok [src, d] ∧ Startable s q pt ∧ unitFree (atStart s q) .move q.cmd ∧ p.ctl.toNat ≤ 1 ∧ p.rsvdA = 0 ∧ copyOk src d = true) ∧
    (let s : State := devVec; let q : QEntry := qS; let p : GatherP := ⟨0x1000, 0x1200, 0x1100, 0, 0, 0⟩; let pt : Nat := 0; let src : Desc := vecAt 0x1000 0x10000; let idx : Desc := { vecAt 0x1200 0x30000 with elem := .u32 }; let d : Desc := vecAt 0x1100 0x20000; checkAll (atStart s q) pt [(p.srcDesc.toNat, false), (p.idxDesc.toNat, false), (p.dstDesc.toNat, true)] [] = .ok [src, idx, d] ∧ Startable s q pt ∧ unitFree (atStart s q) .move q.cmd ∧ firstFail (indexedChecks (atStart s q) pt p.axis.toNat p.ctl.toNat (decide (p.rsvdA ≠ 0)) false src idx d) = none) ∧
    (let s : State := devVec; let q : QEntry := qS; let p : ScatterP := ⟨0x1000, 0x1200, 0x1300, 0, 0, 0⟩; let pt : Nat := 0; let src : Desc := vecAt 0x1000 0x10000; let idx : Desc := { vecAt 0x1200 0x30000 with elem := .u32 }; let d : Desc := { vecAt 0x1300 0x40000 with acc := true }; checkAll (atStart s q) pt [(p.srcDesc.toNat, false), (p.idxDesc.toNat, false), (p.dstDesc.toNat, true)] [] = .ok [src, idx, d] ∧ Startable s q pt ∧ unitFree (atStart s q) .move q.cmd ∧ firstFail (indexedChecks (atStart s q) pt p.axis.toNat p.ctl.toNat (decide (p.rsvdA ≠ 0)) true src idx d) = none) ∧
    (let s : State := devVec; let q : QEntry := qS; let p : MemFillP := ⟨0x1100⟩; let pt : Nat := 0; let d : Desc := vecAt 0x1100 0x20000; checkDescs (atStart s q) pt [(p.dstDesc.toNat, true)] = .ok [d] ∧ Startable s q pt ∧ isDense d = true) ∧
    (let s : State := modPart devVec 0 (fun x => { x with hosts := [(0, { base := 0x100, bytes := 64, write := true })] }); let q : QEntry := qS; let p : HostCopyP := ⟨0x100, 0x1100, 1, 0⟩; let pt : Nat := 0; let d : Desc := vecAt 0x1100 0x20000; checkDescs (atStart s q) pt [(p.desc.toNat, decide (p.dir.toNat ≠ 1))] = .ok [d] ∧ Startable s q pt ∧ p.dir.toNat ≤ 1 ∧ p.rsvdA = 0 ∧ isDense d = true ∧ hostSpanOk (atStart s q) pt p.hostAddr.toNat (tensorLen d) (decide (p.dir.toNat = 1)) = true) ∧
    (let s : State := { devVec with ctxs := [(2, { isOpen := true }), (3, { isOpen := true, kind := 3 })] }; let q : QEntry := qS; let p : FlowSendP := ⟨3, 0, 0x1100, 0⟩; let pt : Nat := 0; let d : Desc := vecAt 0x1100 0x20000; checkDescs (atStart s q) pt [(p.srcDesc.toNat, false)] = .ok [d] ∧ Startable s q pt ∧ p.rsvdA = 0 ∧ p.context.toNat < 0x10000 ∧ ownsCtx (atStart s q) pt p.context.toNat = true ∧ (ctx (atStart s q) p.context.toNat).isOpen = true ∧ (ctx (atStart s q) p.context.toNat).kind = 3 ∧ isDense d = true ∧ (ctx (atStart s q) p.context.toNat).tx.lost = false ∧ departed (atStart s q) (ctx (atStart s q) p.context.toNat).peer = false) ∧
    (let s : State := devMat; let q : QEntry := qS; let p : CompressP := ⟨0x1000, 0x1100, 1, 0⟩; let pt : Nat := 0; let src : Desc := matAt 0x1000 0x10000 0x20000 0; let d : Desc := matAt 0x1100 0 0 0x2000; checkDescs (atStart s q) pt [(p.srcDesc.toNat, false), (p.dstDesc.toNat, true)] = .ok [src, d] ∧ Startable s q pt ∧ unitFree (atStart s q) .move q.cmd ∧ p.mode.toNat ≤ 7 ∧ fld p.mode.toNat 0 2 ≤ 1 ∧ p.rsvdA = 0 ∧ isDense d = false ∧ src.rank = d.rank ∧ seenExt src = seenExt d ∧ badConv src.elem d.elem = false) ∧
    (let s : State := dev; let q : QEntry := qS; let p : DescCheckP := ⟨0x1000, 1, 0⟩; let pt : Nat := 0; Startable s q pt ∧ p.role.toNat ≤ 1 ∧ p.rsvdA = 0 ∧ checkDesc (atStart s q) pt p.desc.toNat (decide (p.role.toNat = 1)) ≠ .no .integrityFail 0) := by
  and_intros <;> first | decide +kernel | (apply freeIs; decide +kernel) | (apply okIs; decide +kernel)

theorem test_meets_MemAtomicCompletes :
    (let s : State := dev; let q : QEntry := qS; let p : MemAtomicP := ⟨0x10008, 9, 8, 0, 1, 2⟩; let pt : Nat := 0; let w : Nat := 8; let a : Nat := p.addr.toNat; Startable s q pt ∧ p.rsvdA = 0 ∧ p.op.toNat ≤ 9 ∧ ((w = 4 ∨ w = 8)) ∧ p.width.toNat = w ∧ a % w = 0 ∧ pageOk (atStart s q) pt a true = true ∧ partPoisoned (atStart s q) pt a w = false) := by decide +kernel

theorem test_meets_MatrixCommandsComplete :
    (let s : State := devMx; let q : QEntry := qS; let p : GemmP := ⟨0x1000, 0x1100, 0, 0, 0, 0⟩; let pt : Nat := 0; let core : Nat := 0; let i : Nat := 0; let a : Desc := mxAt 0x1000 1 0x10000 0x18000 .l8; let b : Desc := mxAt 0x1100 32 0x20000 0x28000 .l8; let rest : List Desc := []; checkDescs (atStart s q) pt (gemmList p) = .ok (a :: b :: rest) ∧ Startable s q pt ∧ unitFree (atStart s q) .sole q.cmd ∧ streamOfHdr (atStart s q) q.cmd.h = some (core, i) ∧ firstFail (gemmChecks (atStart s q) (physOf (atStart s q) core) i p a b rest.head?) = none ∧ accOut p.ctl.toNat ≠ 2) ∧
    (let s : State := modStream (modPart devMx 0 (fun x => { x with plan := some { header := leBytes 4 9, buckets := [(0, some { entry := zeros 16 ++ leBytes 2 1 ++ zeros 46 })] } })) 0 0 (fun x => { x with target := some { job := 9, bucket := 0, baseElem := 0, rowPitch := 32, stageAddr := 0 } }); let q : QEntry := qS; let p : GemmP := ⟨0x1000, 0x1100, 0, 8, 0, 0⟩; let pt : Nat := 0; let core : Nat := 0; let i : Nat := 0; let a : Desc := mxAt 0x1000 1 0x10000 0x18000 .l8; let b : Desc := mxAt 0x1100 32 0x20000 0x28000 .l8; let rest : List Desc := []; let t := some { job := 9, bucket := 0, baseElem := 0, rowPitch := 32, stageAddr := 0 }; checkDescs (atStart s q) pt (gemmList p) = .ok (a :: b :: rest) ∧ Startable s q pt ∧ unitFree (atStart s q) .sole q.cmd ∧ streamOfHdr (atStart s q) q.cmd.h = some (core, i) ∧ firstFail (gemmChecks (atStart s q) (physOf (atStart s q) core) i p a b rest.head?) = none ∧ accOut p.ctl.toNat = 2 ∧ deliverReady (atStart s q) pt core i = .go t) ∧
    (let s : State := devMx; let q : QEntry := qS; let p : SpmmP := ⟨0x1000, 0x1200, 0, 0, 0, 0, 0, 0⟩; let pt : Nat := 0; let core : Nat := 0; let i : Nat := 0; let a : Desc := mxAt 0x1000 1 0x10000 0x18000 .l8; let x : Desc := spAt; let rest : List Desc := []; checkDescs (atStart s q) pt (sparseList (spmmOf p)) = .ok (a :: x :: rest) ∧ Startable s q pt ∧ unitFree (atStart s q) .sole q.cmd ∧ streamOfHdr (atStart s q) q.cmd.h = some (core, i) ∧ firstFail (sparseFirst (atStart s q) pt (spmmOf p)) = none ∧ firstFail (sparseChecks false (atStart s q) pt (physOf (atStart s q) core) i (spmmOf p) a x rest.head?) = none ∧ accOut p.ctl.toNat ≠ 2) ∧
    (let s : State := devMx; let q : QEntry := qS; let p : SpmmTP := ⟨0x1000, 0x1200, 0, 0, 0, 0, 0, 0⟩; let pt : Nat := 0; let core : Nat := 0; let i : Nat := 0; let a : Desc := mxAt 0x1000 1 0x10000 0x18000 .l8; let x : Desc := spAt; let rest : List Desc := []; checkDescs (atStart s q) pt (sparseList (spmmTOf p)) = .ok (a :: x :: rest) ∧ Startable s q pt ∧ unitFree (atStart s q) .sole q.cmd ∧ streamOfHdr (atStart s q) q.cmd.h = some (core, i) ∧ firstFail (sparseFirst (atStart s q) pt (spmmTOf p)) = none ∧ firstFail (sparseChecks true (atStart s q) pt (physOf (atStart s q) core) i (spmmTOf p) a x rest.head?) = none ∧ accOut p.ctl.toNat ≠ 2) ∧
    (let s : State := devMx; let q : QEntry := qS; let p : SoundingP := ⟨0x1300, 0x1400, 0x60000, 0, 0, 0, 15, 1, 0⟩; let pt : Nat := 0; let a : Desc := mxAt 0x1300 1 0x10000 0x18000 .l4; let b : Desc := mxAt 0x1400 32 0x20000 0x28000 .l4; let rest : List Desc := []; checkDescs (atStart s q) pt (soundList p) = .ok (a :: b :: rest) ∧ Startable s q pt ∧ unitFree (atStart s q) .sole q.cmd ∧ regionOk (atStart s q) pt p.bitmap.toNat 1 1 true = true ∧ firstFail (soundChecks (atStart s q) pt p a b rest.head?) = none) ∧
    (let s : State := devMem [(0x1000, vec 0 0x10000), (0x1100, mkDesc 0x12 1 0 0x20000 0 0 [4] [1]), (0x1200, mkDesc 0x32 1 0 0x30000 0 0 [4] [1])]; let q : QEntry := qS; let p : TopkP := ⟨0x1000, 0x1100, 0x1200, 0, 4, 0, 0⟩; let pt : Nat := 0; let src : Desc := vecAt 0x1000 0x10000; let vd : Desc := { vecAt 0x1100 0x20000 with ext := [4, 1, 1, 1, 1, 1], hi := [4, 1, 1, 1, 1, 1] }; let pd : Desc := { vecAt 0x1200 0x30000 with elem := .u32, ext := [4, 1, 1, 1, 1, 1], hi := [4, 1, 1, 1, 1, 1] }; checkDescs (atStart s q) pt [(p.srcDesc.toNat, false), (p.valDesc.toNat, true), (p.posDesc.toNat, true)] = .ok [src, vd, pd] ∧ Startable s q pt ∧ unitFree (atStart s q) .welt q.cmd ∧ ((topkMasked p = true → regionOk (atStart s q) pt p.maskAddr.toNat 1 1 false = true)) ∧ firstFail (topkChecks (atStart s q) pt p src vd pd) = none) ∧
    (let s : State := { dev with waiting := [{ id := 7, instr := .nop hS, cmd := { cS with op := 0x300 }, unit := .stream 0 1, wait := .units 3 }] }; let q : QEntry := qS; let pt : Nat := 0; let k : Nat := 0; let i : Nat := 0; Startable s q pt ∧ streamOfHdr (atStart s q) q.cmd.h = some (k, i) ∧ q.cmd.grant = none ∧ (pausedOn (atStart s q) k .sole ≠ [] ∨ saveHolds (atStart s q) k i .sole = true)) ∧
    (let s : State := { dev with waiting := [{ id := 7, instr := .nop hS, cmd := { cS with op := 0x305 }, unit := .stream 0 1, wait := .units 3 }] }; let q : QEntry := qS; let pt : Nat := 0; let k : Nat := 0; let i : Nat := 0; Startable s q pt ∧ streamOfHdr (atStart s q) q.cmd.h = some (k, i) ∧ q.cmd.grant = none ∧ pausedOn (atStart s q) k .welt ≠ []) ∧
    (let s : State := { dev with waiting := [{ id := 7, instr := .nop hS, cmd := { cS with op := 0x200 }, unit := .stream 0 1, wait := .units 3 }] }; let q : QEntry := qS; let pt : Nat := 0; let k : Nat := 0; let i : Nat := 0; Startable s q pt ∧ streamOfHdr (atStart s q) q.cmd.h = some (k, i) ∧ q.cmd.grant = none ∧ pausedOn (atStart s q) k .move ≠ []) := by
  and_intros <;> first | decide +kernel | (apply freeIs; decide +kernel) | (apply okIs; decide +kernel)

theorem test_meets_FenAndOptimizerComplete :
    (let s : State := devVec; let q : QEntry := qS; let p : FenMergeP := ⟨0x2000, 0x1100, 1, 0⟩; let pt : Nat := 0; let core : Nat := 0; let i : Nat := 0; let ds : List Desc := [vecAt 0x1100 0x20000]; checkDescs (atStart s q) pt (if fld p.mode.toNat 0 2 = 1 then [(p.dstDesc.toNat, true)] else []) = .ok ds ∧ Startable s q pt ∧ streamOfHdr (atStart s q) q.cmd.h = some (core, i) ∧ fenAddrOk (atStart s q) pt p.tableDesc.toNat = true ∧ fenDescHurt (atStart s q) pt p.tableDesc.toNat = false ∧ fenDescOk (atStart s q) pt p.tableDesc.toNat = true ∧ p.mode.toNat < 8 ∧ fld p.mode.toNat 0 2 ≠ 3 ∧ p.rsvdA = 0 ∧ (fld p.mode.toNat 0 2 = 1 ↔ p.dstDesc ≠ 0) ∧ ((∀ d ∈ ds, isDense d = true ∧ (d.elem = .a48 ∨ d.elem = .fp32 ∨ d.elem = .l16))) ∧ fenConflict (atStart s q) pt (physOf (atStart s q) core) p.tableDesc.toNat = false) ∧
    (let s : State := devVec; let q : QEntry := qS; let p : FenScatterP := ⟨0x2000, 0x1200, 0x1000, 1, 0⟩; let pt : Nat := 0; let core : Nat := 0; let i : Nat := 0; let kd : Desc := { vecAt 0x1200 0x30000 with elem := .u32 }; let vd : Desc := vecAt 0x1000 0x10000; checkDescs (atStart s q) pt [(p.keyDesc.toNat, false), (p.valDesc.toNat, false)] = .ok [kd, vd] ∧ Startable s q pt ∧ streamOfHdr (atStart s q) q.cmd.h = some (core, i) ∧ fenAddrOk (atStart s q) pt p.fenDesc.toNat = true ∧ fenDescHurt (atStart s q) pt p.fenDesc.toNat = false ∧ fenDescOk (atStart s q) pt p.fenDesc.toNat = true ∧ p.ctl.toNat ≤ 1 ∧ p.rsvdA = 0 ∧ fenConflict (atStart s q) pt (physOf (atStart s q) core) p.fenDesc.toNat = false ∧ isDense kd = true ∧ ((kd.elem = .u32 ∨ kd.elem = .s32 ∨ kd.elem = .u64)) ∧ isDense vd = true ∧ elemInt vd.elem = false ∧ seenExt kd = seenExt vd) ∧
    (let s : State := devVec; let q : QEntry := qS; let p : OptUpdateP := ⟨0x1000, 0x1100, 0, 0, 0, 0, 0, 0, 0, 0, 0, 0, 0, 0, 0, 1, 0⟩; let pt : Nat := 0; let gd : Desc := vecAt 0x1000 0x10000; let wd : Desc := vecAt 0x1100 0x20000; let rest : List Desc := []; let md : Option Desc := (if optHasM p then rest[0]? else none); let vd : Option Desc := (if optHasV p then rest[b2n (optHasM p)]? else none); let od : Option Desc := (if optHasO p then rest[b2n (optHasM p) + b2n (optHasV p)]? else none); checkAll (atStart s q) pt (optList p) [] = .ok (gd :: wd :: rest) ∧ Startable s q pt ∧ firstFail (optFirst (atStart s q) pt p) = none ∧ firstFail (optChecks (atStart s q) pt p gd wd md vd od) = none ∧ ckptHoldsDescs (atStart s q) pt ([some wd, md, vd, od].filterMap id) = false) := by
  and_intros <;> first | decide +kernel | (apply freeIs; decide +kernel) | (apply okIs; decide +kernel)

theorem test_meets_MaskCommandsComplete :
    (let s : State := devMask 0; let q : QEntry := qS; let p : PruneP := ⟨0x1000, 0x1200, 1, 1, 0, 0, 0⟩; let pt : Nat := 0; let m : MaskRec := { addr := 0x1000, state := 0, epoch := 1, cur := 0x40000, next := 0x50000, ext := [16, 1, 1, 1, 1, 1] }; let d : Desc := vecAt 0x1200 0x20000; recordOf (atStart s q) pt p.record.toNat (pruneBad p) acceptEdit = .ok m ∧ checkDescs (atStart s q) pt [(p.wDesc.toNat, false)] = .ok [d] ∧ Startable s q pt ∧ unitFree (atStart s q) .welt q.cmd ∧ regionOk (atStart s q) pt p.record.toNat 64 64 true = true ∧ recordHeld (atStart s q) pt p.record.toNat = false ∧ elemInt d.elem = false ∧ seenExt d = m.ext) ∧
    (let s : State := devMask 0; let q : QEntry := qS; let p : RegrowP := ⟨0x1000, 0x1200, 0, 1, 1, 0, 0, 0, 0, 0⟩; let pt : Nat := 0; let m : MaskRec := { addr := 0x1000, state := 0, epoch := 1, cur := 0x40000, next := 0x50000, ext := [16, 1, 1, 1, 1, 1] }; let d : Desc := vecAt 0x1200 0x20000; let rest : List Desc := []; recordOf (atStart s q) pt p.record.toNat (regrowBad p) acceptEdit = .ok m ∧ checkDescs (atStart s q) pt (regrowList p) = .ok (d :: rest) ∧ Startable s q pt ∧ unitFree (atStart s q) .welt q.cmd ∧ regionOk (atStart s q) pt p.record.toNat 64 64 true = true ∧ recordHeld (atStart s q) pt p.record.toNat = false ∧ regrowShape m d rest.head? = true) ∧
    (let s : State := devMask 1; let q : QEntry := qS; let p : RemaskP := ⟨0x1000, 0x60000, 1, 1, 0, 9, 5, 0, 1, 0, 0, 0xFFFFFFFF, 0⟩; let pt : Nat := 0; let m : MaskRec := { addr := 0x1000, state := 1, epoch := 1, cur := 0x40000, next := 0x50000, ext := [16, 1, 1, 1, 1, 1] }; recordOf (atStart s q) pt p.record.toNat false acceptAbort = .ok m ∧ Startable s q pt ∧ recordHeld (atStart s q) pt p.record.toNat = false ∧ p.ctl.toNat = 1) ∧
    (let s : State := devMask 1; let q : QEntry := qS; let p : RemaskP := ⟨0x1000, 0x60000, 1, 0, 0, 9, 5, 0, 1, 0, 0, 0xFFFFFFFF, 0⟩; let pt : Nat := 0; let m : MaskRec := { addr := 0x1000, state := 1, epoch := 1, cur := 0x40000, next := 0x50000, ext := [16, 1, 1, 1, 1, 1] }; recordOf (atStart s q) pt p.record.toNat false acceptStage = .ok m ∧ Startable s q pt ∧ recordHeld (atStart s q) pt p.record.toNat = false ∧ p.ctl.toNat = 0 ∧ firstFail (stageChecks (atStart s q) pt p) = none) ∧
    (let s : State := dev; let q : QEntry := qS; let p : MaskVoteP := ⟨9, 0, 1, 0, 2, 5, 1, 0, 0, 0⟩; let pt : Nat := 0; Startable s q pt ∧ p.vote.toNat ≤ 1 ∧ p.rsvdA = 0 ∧ p.rsvdB = 0 ∧ p.voters ≠ 0) ∧
    (let s : State := dev; let q : QEntry := qS; let p : MaskDecideP := ⟨9, 1, 0, 2, 5⟩; let pt : Nat := 0; Startable s q pt ∧ p.decision.toNat ≤ 1 ∧ p.rsvdA = 0) := by
  and_intros <;> first | decide +kernel | (apply freeIs; decide +kernel) | (apply okIs; decide +kernel)

theorem test_meets_ReductionCommandsComplete :
    (let s : State := modPart (devPlan id) 0 (fun x => { x with plan := none }); let q : QEntry := qC; let p : ReduceSetupP := ⟨0x1000, 0, 0⟩; let pt : Nat := 0; let hd : List Byte := partRead (atStart s q) pt p.plan.toNat 64; let es : List (List Byte) := planEntries (atStart s q) pt hd; Startable s q pt ∧ p.rsvdA = 0 ∧ regionOk (atStart s q) pt p.plan.toNat 64 64 false = true ∧ p.op = 0 ∧ planPoisoned (atStart s q) pt p.plan.toNat hd es = false ∧ jobPlanned (atStart s q) (at_ hd 0 4) = false ∧ draining (atStart s q) = false ∧ planOk (atStart s q) pt hd es = true ∧ planRegionsOk (atStart s q) pt hd es = true ∧ reservedSlots (setPlan (atStart s q) pt none) + (es.map entryWindow).sum ≤ 768) ∧
    (let s : State := devPlan id; let q : QEntry := qC; let p : ReduceSetupP := ⟨0x1000, 1, 0⟩; let pt : Nat := 0; let x := { header := planHead, buckets := [(0, some { entry := planEntry })] }; let hd : List Byte := partRead (atStart s q) pt p.plan.toNat 64; Startable s q pt ∧ p.rsvdA = 0 ∧ regionOk (atStart s q) pt p.plan.toNat 64 64 false = true ∧ planOf (atStart s q) pt = some x ∧ at_ x.header 0 4 = at_ hd 0 4 ∧ p.op = 1 ∧ planOpen x = false) ∧
    (let s : State := devPlan id; let q : QEntry := qC; let p : ReduceSetupP := ⟨0x1000, 2, 0⟩; let pt : Nat := 0; let x := { header := planHead, buckets := [(0, some { entry := planEntry })] }; let hd : List Byte := partRead (atStart s q) pt p.plan.toNat 64; Startable s q pt ∧ p.rsvdA = 0 ∧ regionOk (atStart s q) pt p.plan.toNat 64 64 false = true ∧ planOf (atStart s q) pt = some x ∧ at_ x.header 0 4 = at_ hd 0 4 ∧ p.op = 2) ∧
    (let s : State := devPlan id; let q : QEntry := qS; let p : ReduceTargetP := ⟨9, 0, 0, 0, 0, 0⟩; let pt : Nat := 0; let core : Nat := 0; let i : Nat := 0; Startable s q pt ∧ streamOfHdr (atStart s q) q.cmd.h = some (core, i) ∧ p.rsvdA = 0 ∧ contributes (atStart s q) pt p.job.toNat p.bucket.toNat core = true ∧ (if modeOf (atStart s q) pt = 1 then inInsole p.stageAddr.toNat core = true else p.stageAddr = 0)) ∧
    (let s : State := devPlan id; let q : QEntry := qS; let p : ReduceContribP := ⟨9, 0, 1, 0, 0, 0, 0⟩; let pt : Nat := 0; let core : Nat := 0; let i : Nat := 0; let ds : List Desc := []; let x : Bucket := { entry := planEntry }; checkDescs (atStart s q) pt (if bitOf p.ctl.toNat 1 then [(p.srcDesc.toNat, false)] else []) = .ok ds ∧ Startable s q pt ∧ streamOfHdr (atStart s q) q.cmd.h = some (core, i) ∧ 1 ≤ p.ctl.toNat ∧ p.ctl.toNat ≤ 3 ∧ p.rsvdA = 0 ∧ p.rsvdB = 0 ∧ ((bitOf p.ctl.toNat 1 = false → p.srcDesc = 0)) ∧ contributes (atStart s q) pt p.job.toNat p.bucket.toNat core = true ∧ ((∀ d ∈ ds, isDense d = true ∧ elemInt d.elem = false)) ∧ bucketOf (atStart s q) pt p.bucket.toNat = some x ∧ x.lost = false ∧ mustHold (atStart s q) pt x core = false) ∧
    (let q : QEntry := qC; let p : ReduceWaitP := ⟨9, 0, 0, 5⟩; let pt : Nat := 0; let x : Bucket := { entry := planEntry, lost := true }; let s : State := devPlan (fun x => { x with lost := true }); let st := .missingContribution; Startable s q pt ∧ p.rsvdA = 0 ∧ ownsBucket (atStart s q) pt p.job.toNat p.bucket.toNat = true ∧ bucketOf (atStart s q) pt p.bucket.toNat = some x ∧ waitNow x (BitVec.ofNat 32 p.step.toNat) = some st) ∧
    (let q : QEntry := qC; let p : ReduceWaitP := ⟨9, 0, 0, 5⟩; let pt : Nat := 0; let x : Bucket := { entry := planEntry, lost := false }; let s : State := devPlan (fun x => { x with lost := false }); Startable s q pt ∧ p.rsvdA = 0 ∧ ownsBucket (atStart s q) pt p.job.toNat p.bucket.toNat = true ∧ bucketOf (atStart s q) pt p.bucket.toNat = some x ∧ waitNow x (BitVec.ofNat 32 p.step.toNat) = none) ∧
    (let q : QEntry := qC; let p : ReduceReleaseP := ⟨9, 0, 0⟩; let pt : Nat := 0; let x : Bucket := { entry := planEntry, win := .complete 5 }; let s : State := devPlan (fun x => { x with win := .complete 5 }); let tag : BitVec 32 := 5; Startable s q pt ∧ p.rsvdA = 0 ∧ ownsBucket (atStart s q) pt p.job.toNat p.bucket.toNat = true ∧ bucketOf (atStart s q) pt p.bucket.toNat = some x ∧ x.win = .complete tag) ∧
    (let q : QEntry := qC; let p : ReduceExcludeP := ⟨9, 0, 0, 5⟩; let pt : Nat := 0; let x : Bucket := { entry := planEntry, red := some { tag := 5, missing := [1] } }; let s : State := devPlan (fun x => { x with red := some { tag := 5, missing := [1] } }); let r : Reduction := { tag := 5, missing := [1] }; Startable s q pt ∧ p.rsvdA = 0 ∧ ownsBucket (atStart s q) pt p.job.toNat p.bucket.toNat = true ∧ bucketOf (atStart s q) pt p.bucket.toNat = some x ∧ x.red = some r ∧ r.tag = BitVec.ofNat 32 p.step.toNat ∧ r.isOpen = true ∧ r.missing ≠ [] ∧ r.missing.length + r.excluded.length < beSlots x) := by
  and_intros <;> first | decide +kernel | (apply freeIs; decide +kernel) | (apply okIs; decide +kernel)

theorem test_meets_ParamMcastAndJobStartComplete :
    (let s : State := devDist; let q : QEntry := qS; let p : ParamMcastP := ⟨0x1300, 0x1000, 4095, 1, 0, 7⟩; let pt : Nat := 0; let d : Desc := vecAt 0x1300 0x20000; let x : DistRec := distAt s; checkDescs (atStart s q) pt [(p.srcDesc.toNat, false)] = .ok [d] ∧ checkDist (atStart s q) pt p.dist.toNat = .ok x ∧ Startable s q pt ∧ regionOk (atStart s q) pt p.dist.toNat 128 64 false = true ∧ p.ctl.toNat ≤ 1 ∧ p.rsvdA = 0 ∧ p.mcast.toNat < 4096 ∧ d.rank = x.dist.rank ∧ seenExt d = localExt x.dist x.grid ∧ elemInt d.elem = false ∧ isOwner x.dist x.grid = true ∧ paramHolds (atStart s q) pt (mcastStep (atStart s q) pt p) = false) ∧
    (let s : State := { devDist with parts := [(0, { p0 with pend := [{ job := 9, epoch := 2, eff := 7, timeout := 0, records := [] }] })] }; let q : QEntry := qS; let p : ParamMcastP := ⟨0x1300, 0x1000, 4095, 1, 0, 7⟩; let pt : Nat := 0; let d : Desc := vecAt 0x1300 0x20000; let x : DistRec := distAt s; checkDescs (atStart s q) pt [(p.srcDesc.toNat, false)] = .ok [d] ∧ checkDist (atStart s q) pt p.dist.toNat = .ok x ∧ Startable s q pt ∧ regionOk (atStart s q) pt p.dist.toNat 128 64 false = true ∧ p.ctl.toNat ≤ 1 ∧ p.rsvdA = 0 ∧ p.mcast.toNat < 4096 ∧ d.rank = x.dist.rank ∧ seenExt d = localExt x.dist x.grid ∧ elemInt d.elem = false ∧ isOwner x.dist x.grid = true ∧ paramHolds (atStart s q) pt (mcastStep (atStart s q) pt p) = true) ∧
    (let s : State := devMem [(0x1000, jobRec 0x2000 0), (0x1F00, stage0), (0x2000, leBytes 8 0x10102464C457F ++ zeros 8 ++ leBytes 2 2 ++ leBytes 2 243)]; let q : QEntry := qC; let p : JobStartP := ⟨0x1000, 0⟩; let pt : Nat := 0; let gs : List GatherCfg := []; let b : List Byte := partRead (atStart s q) pt p.jobRec.toNat 128; let x : JobSubs := jobSubs (atStart s q) pt b; gatherEntries (atStart s q) pt x.gathers (List.range (x.gathers.length / 64)) = .ok gs ∧ Startable s q pt ∧ job (atStart s q) pt = none ∧ draining (atStart s q) = false ∧ regionOk (atStart s q) pt p.jobRec.toNat 128 64 false = true ∧ p.rsvdA = 0 ∧ partPoisoned (atStart s q) pt p.jobRec.toNat 128 = false ∧ firstFail (jobChecks (atStart s q) pt b x) = none ∧ restoreFails (atStart s q) pt b (ckptServiceOf (atStart s q) pt x) = none) := by
  and_intros <;> first | decide +kernel | (apply freeIs; decide +kernel) | (apply okIs; decide +kernel)

theorem test_meets_JobCtlAndCkptFetchComplete :
    (let s : State := devJob id; let q : QEntry := qC; let p : JobCtlP := ⟨9, 0, 0, 0⟩; let pt : Nat := 0; let j : Job := j0; Startable s q pt ∧ job (atStart s q) pt = some j ∧ jTag j = p.job.toNat ∧ p.rsvdA = 0 ∧ p.op.toNat = 0) ∧
    (let s : State := devJob id; let q : QEntry := qC; let p : JobCtlP := ⟨9, 1, 0, 0⟩; let pt : Nat := 0; let j : Job := j0; Startable s q pt ∧ job (atStart s q) pt = some j ∧ jTag j = p.job.toNat ∧ p.rsvdA = 0 ∧ p.op.toNat = 1) ∧
    (let s : State := devJob id; let q : QEntry := qC; let p : JobCtlP := ⟨9, 2, 0, 0⟩; let pt : Nat := 0; let j : Job := j0; Startable s q pt ∧ job (atStart s q) pt = some j ∧ jTag j = p.job.toNat ∧ p.rsvdA = 0 ∧ p.op.toNat = 2) ∧
    (let s : State := devJob id; let q : QEntry := qC; let p : JobCtlP := ⟨9, 3, 0, 0⟩; let pt : Nat := 0; let j : Job := j0; Startable s q pt ∧ job (atStart s q) pt = some j ∧ jTag j = p.job.toNat ∧ p.rsvdA = 0 ∧ p.op.toNat = 3) ∧
    (let q : QEntry := qC; let p : JobCtlP := ⟨9, 4, 0, 4⟩; let pt : Nat := 0; let j : Job := { j0 with record := jobRec 0x2000 4 }; let s : State := devJob (fun j => { j with record := jobRec 0x2000 4 }); Startable s q pt ∧ job (atStart s q) pt = some j ∧ jTag j = p.job.toNat ∧ p.rsvdA = 0 ∧ p.op.toNat = 4 ∧ jGateEvery j ≠ 0 ∧ p.step.toNat % jGateEvery j = 0 ∧ j.step.toNat < p.step.toNat ∧ j.gates.contains p.step.toNat = false) ∧
    (let q : QEntry := qC; let p : JobCtlP := ⟨9, 5, 0, 0⟩; let pt : Nat := 0; let j : Job := { j0 with ckpt := { cfg := [1] } }; let s : State := devJob (fun j => { j with ckpt := { cfg := [1] } }); Startable s q pt ∧ job (atStart s q) pt = some j ∧ jTag j = p.job.toNat ∧ p.rsvdA = 0 ∧ p.op.toNat = 5 ∧ ckOn j.ckpt = true) ∧
    (let s : State := dev; let q : QEntry := qC; let p : CkptFetchP := ⟨6, 1, 0, 9, 5, 0x200000, 0x200000, 3, 0⟩; let pt : Nat := 0; Startable s q pt ∧ p.slot.toNat ≤ 1 ∧ p.rsvdA = 0 ∧ p.rsvdB = 0 ∧ p.dstBytes.toNat % 2 ^ 21 = 0 ∧ 2 ^ 21 ≤ p.dstBytes.toNat ∧ p.dstBytes.toNat < 2 ^ 48 ∧ regionOk (atStart s q) pt p.dst.toNat p.dstBytes.toNat (2 ^ 21) true = true ∧ ((spanHbm (atStart s q) pt p.dst.toNat p.dstBytes.toNat = true ∨ spanFar (atStart s q) pt p.dst.toNat p.dstBytes.toNat = true)) ∧ p.context.toNat < 0x10000 ∧ ownsCtx (atStart s q) pt p.context.toNat = true ∧ (ctx (atStart s q) p.context.toNat).isOpen = false ∧ draining (atStart s q) = false ∧ departed (atStart s q) p.peer = false) := by
  and_intros <;> decide +kernel

theorem test_meets_JobEventsComplete :
    (let p : Fin 16 := 0; let s : State := devJob id; let j : Job := j0; job s p.val = some j ∧ j.stopping = false ∧ j.paused = false ∧ laceDone s j = true ∧ epochHolds s p.val = false ∧ gateHolds j = false ∧ evalHolds j = false) ∧
    (let p : Fin 16 := 0; let j : Job := { j0 with paused := true }; let s : State := devJob (fun j => { j with paused := true }); job s p.val = some j ∧ (j.stopping = true ∨ j.paused = true ∨ laceDone s j = false ∨ epochHolds s p.val = true ∨ gateHolds j = true ∨ evalHolds j = true)) ∧
    (let p : Fin 16 := 0; let s : State := devJob id; let j : Job := j0; job s p.val = some j) ∧
    (let p : Fin 16 := 0; let j : Job := { j0 with eval := some { hold := true } }; let s : State := devJob (fun j => { j with eval := some { hold := true } }); let e : EvalRun := { hold := true }; job s p.val = some j ∧ j.eval = some e) ∧
    (let p : Fin 16 := 0; let j : Job := { j0 with stopping := true }; let s : State := devJob (fun j => { j with stopping := true }); job s p.val = some j ∧ j.stopping = true ∧ j.ckpt.run = none ∧ j.ckpt.onStop = false ∧ (∀ c ∈ jCores j, ∀ i < 3, streamQuiet s (stream s c i) = true)) ∧
    (let p : Fin 16 := 0; let e : Bool := false; let s : State := devJob id; let j : Job := j0; job s p.val = some j ∧ (dsOn (dsGet j e) = false ∨ j.stopping = true ∨ (dsGet j e).halted = true)) ∧
    (let p : Fin 16 := 0; let j : Job := { j0 with data := { cfg := [1] } }; let s : State := devJob (fun j => { j with data := { cfg := [1] } }); job s p.val = some j) ∧
    (let p : Fin 16 := 0; let tag : BitVec 32 := 9; let s : State := dev; let c := true; dueEpochs s p.val tag c = []) ∧
    (let p : Fin 16 := 0; let tag : BitVec 32 := 9; let s : State := modPart (devJob id) 0 (fun x => { x with pend := [e0] }); let j : Job := j0; let e : PendEpoch := e0; job s p.val = some j ∧ laceDone s j = true ∧ (part s p.val).pend.find? (fun e => decide (e.job = tag) && pendDue s p.val e && e.decision.isNone && !e.told) = some e) ∧
    (let tag : BitVec 32 := 9; let epoch : BitVec 64 := 2; let s : State := { dev with votes := [{ job := 9, epoch := 2, eff := 1, voters := 3, mcast := 0, timeout := 0, part := 0 }] }; let v : MaskVote := { job := 9, epoch := 2, eff := 1, voters := 3, mcast := 0, timeout := 0, part := 0 }; s.votes.find? (fun x => decide (x.job = tag) && decide (x.epoch = epoch)) = some v) := by
  and_intros <;> decide +kernel

theorem test_meets_AdvanceCountsOneStep :
    (let p : Fin 16 := 0; let s : State := devJob id; let j : Job := j0; job s p.val = some j ∧ j.stopping = false ∧ j.paused = false ∧ laceDone s j = true ∧ epochHolds s p.val = false ∧ gateHolds j = false ∧ evalHolds j = false) := by decide +kernel

theorem test_meets_CheckpointEventsComplete :
    (let p : Fin 16 := 0; let j : Job := { j0 with ckpt := { cfg := [1], run := some { step := 1, slot := 0, phase := .reading, epoch := 0, pos := 0 } } }; let s : State := devJob (fun j => { j with ckpt := { cfg := [1], run := some { step := 1, slot := 0, phase := .reading, epoch := 0, pos := 0 } } }); let r : CkptRun := { step := 1, slot := 0, phase := .reading, epoch := 0, pos := 0 }; job s p.val = some j ∧ j.ckpt.run = some r ∧ r.phase = .reading) ∧
    (let p : Fin 16 := 0; let j : Job := { j0 with ckpt := { cfg := [1], run := some { step := 1, slot := 0, phase := .writing, epoch := 0, pos := 0 } } }; let s : State := devJob (fun j => { j with ckpt := { cfg := [1], run := some { step := 1, slot := 0, phase := .writing, epoch := 0, pos := 0 } } }); let r : CkptRun := { step := 1, slot := 0, phase := .writing, epoch := 0, pos := 0 }; job s p.val = some j ∧ j.ckpt.run = some r ∧ r.phase = .writing) ∧
    (let p : Fin 16 := 0; let x : CkptSend := { job := 9, slot := 0, step := 1, peer := 6, flow := 0x10000, len := 0, ended := true }; let s : State := modPart dev 0 (fun x => { x with sends := [{ job := 9, slot := 0, step := 1, peer := 6, flow := 0x10000, len := 0, ended := true }] }); (part s p.val).sends.find? (·.ended) = some x) ∧
    (let b : List Byte := zeros 36; pkGood b = false) ∧
    (let b : List Byte := pk 0 6 8 [] []; let s : State := { dev with ctxs := [(3, { isOpen := true, kind := 3, peer := 6, peerCtx := 8 })] }; let n : Nat := 3; pkGood b = true ∧ tackCtx s b = some n) ∧
    (let b : List Byte := pk 0 6 3 [] [1]; let s : State := { dev with ctxs := [(3, { isOpen := true, kind := 4, bufBytes := 4096, packets := 1, rx := { since := 1 } })] }; let n : Nat := 3; pkGood b = true ∧ rxCtx s b = some n) ∧
    (let b : List Byte := pk 0 6 3 [] [1]; let s : State := { dev with ctxs := [(3, { isOpen := true, kind := 4, bufBytes := 4096, packets := 1, rx := { since := 1 } })] }; let n : Nat := 3; pkGood b = true ∧ rxCtx s b = some n ∧ fetches (rxPacket s (pkDpart b) n (at_ (pkArg b) 0 8) false b) (pkDpart b) = []) ∧
    (let b : List Byte := pk 0 6 0 [] (leBytes 4 9 ++ leBytes 2 0x201); let s : State := { dev with waiting := [{ id := 7, instr := .ckptFetch hC ⟨6, 1, 0, 9, 5, 0x200000, 0x200000, 3, 0⟩, cmd := cC, unit := .stream 0 0, wait := .fetch 3 none }] }; let w : Waiting := { id := 7, instr := .ckptFetch hC ⟨6, 1, 0, 9, 5, 0x200000, 0x200000, 3, 0⟩, cmd := cC, unit := .stream 0 0, wait := .fetch 3 none }; let n : Nat := 3; let l : Option Nat := none; let q : CkptFetchP := ⟨6, 1, 0, 9, 5, 0x200000, 0x200000, 3, 0⟩; pkGood b = true ∧ fetchNamed s b = some (w, n, l, q)) ∧
    (let b : List Byte := pk 0 6 0 [] (leBytes 4 9 ++ leBytes 2 0x201); let s : State := { dev with waiting := [{ id := 7, instr := .ckptFetch hC ⟨6, 1, 0, 9, 5, 0x200000, 0x200000, 3, 0⟩, cmd := cC, unit := .stream 0 0, wait := .fetch 3 none }] }; let w : Waiting := { id := 7, instr := .ckptFetch hC ⟨6, 1, 0, 9, 5, 0x200000, 0x200000, 3, 0⟩, cmd := cC, unit := .stream 0 0, wait := .fetch 3 none }; let n : Nat := 3; let l : Option Nat := none; let q : CkptFetchP := ⟨6, 1, 0, 9, 5, 0x200000, 0x200000, 3, 0⟩; pkGood b = true ∧ fetchNamed s b = some (w, n, l, q) ∧ ((at_ (pkPayload b) 5 1 = 2 ∨ at_ (pkPayload b) 5 1 = 3))) ∧
    (let b : List Byte := pk 0 6 0 [] (leBytes 4 9 ++ leBytes 2 0x201); pkGood b = true) ∧
    (let p : Fin 16 := 0; let s : State := { dev with waiting := [{ id := 7, instr := .ckptFetch hC ⟨6, 1, 0, 9, 5, 0x200000, 0x200000, 3, 0⟩, cmd := cC, unit := .stream 0 0, wait := .fetch 3 none }] }; let w : Waiting := { id := 7, instr := .ckptFetch hC ⟨6, 1, 0, 9, 5, 0x200000, 0x200000, 3, 0⟩, cmd := cC, unit := .stream 0 0, wait := .fetch 3 none }; let n : Nat := 3; let l : Option Nat := none; let q : CkptFetchP := ⟨6, 1, 0, 9, 5, 0x200000, 0x200000, 3, 0⟩; (fetches s p.val).find? (fun x => x.2.2.1.isNone) = some (w, n, l, q)) ∧
    (let p : Fin 16 := 0; let n : BitVec 16 := 3; let s : State := { dev with ctxs := [(3, { isOpen := true, kind := 3 })] }; (ctx s n.toNat).isOpen = true ∧ (ctx s n.toNat).kind = 3 ∧ ownsCtx s p.val n.toNat = true) ∧
    (let p : Fin 16 := 0; let n : BitVec 16 := 3; let s : State := { dev with ctxs := [(3, { isOpen := true, kind := 4, bufBytes := 4096, packets := 1, rx := { since := 1 } })] }; (ctx s n.toNat).isOpen = true ∧ (ctx s n.toNat).kind = 4 ∧ (((ctx s n.toNat).packets ≠ 0 ∨ (ctx s n.toNat).overruns ≠ 0)) ∧ (List.range 16).find? (fun p => ownsCtx s p n.toNat) = some p.val) := by
  and_intros <;> decide +kernel

theorem test_meets_CoreRegistersComplete :
    (let c : Fin 16 := 0; let s : State := dev; inService s c.val = true ∧ (core s c.val).accBusy = false) ∧
    (let c : Fin 16 := 0; let s : State := { dev with cores := [(0, { power := .run, accBusy := true })] }; inService s c.val = true ∧ (core s c.val).accBusy = true) ∧
    (let k : Fin 18 := 0; let s : State := { dev with cores := [(0, { power := .run, accBusy := true, accOp := some (2, false) })] }; let i : Nat := 2; let c : Nat := 0; (coreP s k.val).accOp = some (i, false) ∧ logicalOf s k.val = some c) ∧
    (let k : Fin 18 := 16; let s : State := { dev with cores := [(16, { accBusy := true, accOp := some (2, false) })] }; let i : Nat := 2; (coreP s k.val).accOp = some (i, false) ∧ logicalOf s k.val = none) ∧
    (let k : Fin 18 := 16; let s : State := dev; (coreP s k.val).accOp = none) ∧
    (let c : Fin 16 := 0; let s : State := dev; inService s c.val = true) ∧
    (let c : Fin 16 := 0; let s : State := { dev with dies := [(1, dieE)] }; inService s c.val = false) ∧
    (let c : Fin 16 := 0; let a : Fin 4 := 3; let i : Fin 3 := 2; let s : State := { dev with cores := [(0, { power := .run, awls := [(3, { resv := 4 })] })] }; inService s c.val = true ∧ (stream s c.val i.val).mode ≠ .out ∧ (stream s c.val i.val).mode ≠ .fenced ∧ bitOf (awlOf (core s c.val) a.val).resv.toNat i.val = true) ∧
    (let c : Fin 16 := 0; let a : Fin 4 := 3; let i : Fin 3 := 2; let s : State := modStream dev 0 2 (fun x => { x with queue := List.replicate 64 qS }); inService s c.val = true ∧ (stream s c.val i.val).mode ≠ .out ∧ (stream s c.val i.val).mode ≠ .fenced ∧ bitOf (awlOf (core s c.val) a.val).resv.toNat i.val = false ∧ queueRoom s c.val i.val = 0) ∧
    (let c : Fin 16 := 0; let a : Fin 4 := 3; let i : Fin 3 := 2; let s : State := dev; inService s c.val = true ∧ (stream s c.val i.val).mode ≠ .out ∧ (stream s c.val i.val).mode ≠ .fenced ∧ bitOf (awlOf (core s c.val) a.val).resv.toNat i.val = false ∧ queueRoom s c.val i.val ≠ 0) ∧
    (let c : Fin 16 := 0; let i : Fin 3 := 2; let s : State := modStream dev 0 2 (fun x => { x with mode := .out }); inService s c.val = true ∧ (((stream s c.val i.val).mode = .out ∨ (stream s c.val i.val).mode = .fenced))) ∧
    (let c : Fin 16 := 0; let a : Fin 4 := 3; let i : Fin 3 := 2; let s : State := { dev with cores := [(0, { power := .run, awls := [(3, { resv := 4 })] })] }; inService s c.val = true ∧ bitOf (awlOf (core s c.val) a.val).resv.toNat i.val = true) ∧
    (let c : Fin 16 := 0; let a : Fin 4 := 3; let i : Fin 3 := 2; let s : State := dev; inService s c.val = true ∧ bitOf (awlOf (core s c.val) a.val).resv.toNat i.val = false) ∧
    (let c : Fin 16 := 0; let s : State := { dev with dies := [(1, dieE)] }; inService s c.val = false) ∧
    (let c : Fin 16 := 0; let s : State := dev; inService s c.val = true) := by
  and_intros <;> decide +kernel

theorem test_meets_StreamSwitchesAndMigrationsComplete :
    (let c : Fin 16 := 0; let s : State := { dev with cores := [(0, { power := .run, ctlBusy := true })] }; inService s c.val = true ∧ (core s c.val).ctlBusy = true) ∧
    (let c : Fin 16 := 0; let i : BitVec 2 := 3; let a : BitVec 48 := 64; let s : State := { dev with cores := [(0, { power := .run, ctlStream := 2 })] }; let j : Nat := (if i = 3 then (core s c.val).ctlStream.toNat else i.toNat); let u : State := modCore s c.val (fun k => { k with ctlBusy := true, ctlStream := BitVec.ofNat 2 j, ctlAddr := BitVec.ofNat 48 (a.toNat / 64 * 64), ctlRun := (j, a.toNat / 64 * 64) }); inService s c.val = true ∧ (core s c.val).ctlBusy = false ∧ (stream u c.val j).mode = .ready) ∧
    (let c : Fin 16 := 0; let i : BitVec 2 := 2; let a : BitVec 48 := 64; let s : State := modStream dev 0 2 (fun x => { x with mode := .out }); let j : Nat := (if i = 3 then (core s c.val).ctlStream.toNat else i.toNat); let u : State := modCore s c.val (fun k => { k with ctlBusy := true, ctlStream := BitVec.ofNat 2 j, ctlAddr := BitVec.ofNat 48 (a.toNat / 64 * 64), ctlRun := (j, a.toNat / 64 * 64) }); inService s c.val = true ∧ (core s c.val).ctlBusy = false ∧ (stream u c.val j).mode ≠ .ready) ∧
    (let c : Fin 16 := 0; let i : BitVec 2 := 2; let a : BitVec 48 := 64; let s : State := dev; let j : Nat := (if i = 3 then (core s c.val).ctlStream.toNat else i.toNat); let u : State := modCore s c.val (fun k => { k with ctlStream := BitVec.ofNat 2 j, ctlAddr := BitVec.ofNat 48 (a.toNat / 64 * 64) }); inService s c.val = true ∧ (core s c.val).ctlBusy = false ∧ (stream u c.val j).mode ≠ .out) ∧
    (let c : Fin 16 := 0; let s : State := { dev with dies := [(1, dieE)] }; inService s c.val = false) ∧
    (let c : Fin 16 := 0; let s : State := { dev with waiting := [{ id := 7, instr := .nop hS, cmd := cS, unit := .stream 0 0, wait := .flow 3 0 }], cores := [(0, { power := .run, streams := [(0, { busy := some 7 }), (1, { busy := some 7 }), (2, { busy := some 7 })] })] }; ((∀ j, j < 3 → atResume s c.val j = false)) ∧ (die s (dieOfCore c.val)).migration = none) ∧
    (let s : State := dev; let q : QEntry := qM; let p : CoreMigrateP := ⟨0, 5, 0, 100, 0⟩; let k : Nat := 16; let c : Nat := p.logical.toNat; MgmtStartable s q ∧ c < 16 ∧ p.ctl.toNat ≤ 7 ∧ p.ctl.toNat % 4 ≤ 1 ∧ p.rsvdA = 0 ∧ p.rsvdB = 0 ∧ inService (atStart s q) c = true ∧ coreRebinding (atStart s q) c = false ∧ (die (atStart s q) (dieOfCore c)).migration = none ∧ freeSpare (atStart s q) (dieOfCore c) = some k) ∧
    (let d : Fin 2 := 0; let s : State := { devLead with dies := [(0, { dieW with migration := some { logical := 0, source := 0, spare := 16, after := 1, waitStage := true, limit := 9, stopped := false } }), (1, dieE)] }; let m : Migration := ({ logical := 0, source := 0, spare := 16, after := 1, waitStage := true, limit := 9, stopped := false } : Migration); (die s d.val).migration = some m ∧ m.stopped = false ∧ m.waitStage = true ∧ m.limit ≠ 0) ∧
    (let d : Fin 2 := 0; let s : State := { devLead with dies := [(0, { dieW with migration := some { logical := 0, source := 0, spare := 16, after := 1, waitStage := false, stopped := true } }), (1, dieE)] }; let m : Migration := ({ logical := 0, source := 0, spare := 16, after := 1, waitStage := false, stopped := true } : Migration); (die s d.val).migration = some m ∧ (m.stopped = true ∨ m.waitStage = false ∨ m.limit = 0)) ∧
    (let d : Fin 2 := 0; let s : State := dev; (die s d.val).migration = none) := by
  and_intros <;> decide +kernel

theorem test_meets_StreamSwitchesAndMigrationsComplete_1 :
    (let c : Fin 16 := 0; let i : Nat := 2; let s : State := { (modStream ({ devLead with dies := [(0, { dieW with migration := some { logical := 0, source := 0, spare := 16, after := 1, waitStage := false, stopped := true } }), (1, dieE)] }) 0 2 (fun x => { x with mode := .stopping })) with waiting := [{ id := 7, instr := .nop hS, cmd := cS, unit := .stream 0 0, wait := .flow 3 0 }, { id := 8, instr := .nop hS, cmd := cS, unit := .stream 0 1, wait := .flow 3 0 }], cores := [(0, { power := .run, streams := [(0, { busy := some 7 }), (1, { busy := some 8 }), (2, { mode := .stopping })] })] }; let t : State := migrationOut s c.val i; ((switching s c.val i = true ∧ t = switchOut s c.val i ∨ switching s c.val i = false ∧ (stream s c.val i).mode = .stopping ∧ t = migrationOut s c.val i)) ∧ i < 3 ∧ ((∀ j, j < 3 → j ≠ i → atResume s c.val j = false)) ∧ atResume s c.val i = true ∧ ((∀ j, j < 3 → j ≠ i → atResume t c.val j = false))) :=
  ⟨Or.inr ⟨by decide +kernel, by decide +kernel, rfl⟩, by decide +kernel⟩

theorem test_meets_PartitionCommandsComplete :
    (let s : State := { devLead with parts := [] }; let q : QEntry := qM; let p : PartBindP := ⟨3, 8, 1, 1, 1, 1, 0, 0, 256, 256, 7, 0, 0⟩; let list : List Byte := mgmtRead (atStart s q) q.cmd p.farList.toNat (16 * min 32 p.farCount.toNat); let far : List FarEntry := farEntries (min 32 p.farCount.toNat) list; MgmtStartable s q ∧ leadOk (atStart s q) = true ∧ (atStart s q).fab.departing = false ∧ bindFieldsOk (atStart s q) p far list = true ∧ bound (atStart s q) p.part.toNat = false ∧ (part (atStart s q) p.part.toNat).pstate = .unbound ∧ ((∀ k, k < 16 → claims (atStart s q) p far k = false)) ∧ movingDie (atStart s q) p.cores.toNat = none) ∧
    (let s : State := { devLead with parts := [], dies := [(0, { dieW with map := 0x87868584838281C0 }), (1, dieE)] }; let q : QEntry := qM; let p : PartBindP := ⟨3, 8, 1, 1, 1, 1, 0, 0, 256, 256, 7, 0, 0⟩; let d := 0; let list : List Byte := mgmtRead (atStart s q) q.cmd p.farList.toNat (16 * min 32 p.farCount.toNat); let far : List FarEntry := farEntries (min 32 p.farCount.toNat) list; MgmtStartable s q ∧ leadOk (atStart s q) = true ∧ (atStart s q).fab.departing = false ∧ bindFieldsOk (atStart s q) p far list = true ∧ bound (atStart s q) p.part.toNat = false ∧ (part (atStart s q) p.part.toNat).pstate = .unbound ∧ ((∀ k, k < 16 → claims (atStart s q) p far k = false)) ∧ movingDie (atStart s q) p.cores.toNat = some d) ∧
    (let s : State := devLead; let q : QEntry := qM; let p : PartUnbindP := ⟨0, 0⟩; let n : Nat := p.part.toNat; MgmtStartable s q ∧ n < 16 ∧ p.rsvdA = 0 ∧ leadOk (atStart s q) = true ∧ (part (atStart s q) n).pstate ≠ .scrubbing ∧ bindWaits (atStart s q) n = false ∧ bound (atStart s q) n = true ∧ movingDie (atStart s q) (bCores (atStart s q) n) = none) ∧
    (let s : State := devLead; let q : QEntry := qM; let p : PartRebindP := ⟨0, 0, 9⟩; let n : Nat := p.part.toNat; MgmtStartable s q ∧ n < 16 ∧ p.rsvdA = 0 ∧ leadOk (atStart s q) = true ∧ (part (atStart s q) n).pstate ≠ .scrubbing ∧ bindWaits (atStart s q) n = false ∧ bound (atStart s q) n = true ∧ movingDie (atStart s q) (bCores (atStart s q) n) = none) ∧
    (let s : State := dev; let q : QEntry := qC; let p : PartQueryP := ⟨0xFF, 0⟩; let pt : Nat := 0; Startable s q pt ∧ pt < 16 ∧ p.rsvdA = 0 ∧ (p.part.toNat = 0xFF ∨ p.part.toNat = pt)) ∧
    (let s : State := dev; let q : QEntry := qM; let p : PartQueryP := ⟨0, 0⟩; MgmtStartable s q ∧ p.rsvdA = 0 ∧ p.part.toNat < 16) ∧
    (let p : Fin 16 := 0; let s : State := dev; (part s p.val).pstate = .active) ∧
    (let p : Fin 16 := 0; let s : State := { dev with parts := [] }; (part s p.val).pstate ≠ .active) := by
  and_intros <;> decide +kernel

theorem test_meets_FreshPagesReadZero :
    (let s : State := dev; let p : Nat := 0; let a := 0; MemoryCanonical s ∧ ownsDev s p a = true) ∧
    (let s : State := dev; let p : Nat := 1; let a := 0; MemoryCanonical s ∧ ownsDev s p a = false) := by
  and_intros <;> decide +kernel

theorem test_meets_SecurityCommandsComplete :
    (let s : State := dev; let q : QEntry := qMo 40 []; let p : SessionAgreeP := ⟨64, 5⟩; let m : MgmtIface := .i3c; MgmtStartable s q ∧ q.cmd.h.via = .mgmt m) ∧
    (let s : State := dev; let q : QEntry := qMo 24 (leBytes 2 7 ++ leBytes 1 1 ++ zeros 13 ++ zeros 8 ++ zeros 32 ++ zeros 8 ++ zeros 2420); let p : FwStageP := ⟨1, 0, 0x8000000000000000, 2484⟩; let i : Nat := p.image.toNat; let n : Nat := p.bytes.toNat; let hd : List Byte := mgmtRead (atStart s q) q.cmd p.src.toNat 64; MgmtStartable s q ∧ 1 ≤ i ∧ i ≤ 3 ∧ p.rsvdA = 0 ∧ imageHeaderOk hd i n = true ∧ slotRuns (atStart s q) i = false ∧ floorOf (atStart s q) i ≤ hdrSvn hd ∧ n ≤ slotSize i) ∧
    (let s : State := { dev with sec := { dev.sec with supStaged := true } }; let q : QEntry := qM; let p : FwActivateP := ⟨1, 0, 0⟩; MgmtStartable s q ∧ p.images.toNat ≤ 3 ∧ p.rsvdA = 0 ∧ ((bitOf p.images.toNat 0 = true → (atStart s q).sec.supStaged = true)) ∧ ((bitOf p.images.toNat 1 = true → (atStart s q).sec.ctlStaged = true)) ∧ p.when.toNat = 0) ∧
    (let s : State := { dev with sec := { dev.sec with supStaged := true } }; let q : QEntry := qM; let p : FwActivateP := ⟨1, 1, 0⟩; MgmtStartable s q ∧ p.images.toNat ≤ 3 ∧ p.rsvdA = 0 ∧ ((bitOf p.images.toNat 0 = true → (atStart s q).sec.supStaged = true)) ∧ ((bitOf p.images.toNat 1 = true → (atStart s q).sec.ctlStaged = true)) ∧ p.when.toNat = 1) ∧
    (let s : State := { dev with sec := { dev.sec with supStaged := true } }; let q : QEntry := qMo 16 (leBytes 2 0x205 ++ leBytes 2 4 ++ leBytes 4 1600 ++ zeros 4); let p : ConfigWriteP := ⟨0, 0, 12, 0x8000000000000000⟩; let l : List (Nat × List Byte) := [(0x205, leBytes 4 1600)]; MgmtStartable s q ∧ p.op.toNat = 0 ∧ p.rsvdA = 0 ∧ p.bytes.toNat ≤ 2 ^ 18 ∧ parseItems p.bytes.toNat (mgmtRead (atStart s q) q.cmd p.src.toNat p.bytes.toNat) = some l ∧ ((∀ e ∈ l, 0x0200 ≤ e.1 ∧ e.1 ≤ 0x02FF))) ∧
    (let s : State := { dev with sec := { dev.sec with supStaged := true } }; let q : QEntry := qMo 16 (leBytes 2 5 ++ leBytes 2 4 ++ leBytes 4 1600 ++ zeros 4 ++ zeros 2420); let p : ConfigWriteP := ⟨1, 0, 2432, 0x8000000000000000⟩; let l : List (Nat × List Byte) := [(5, leBytes 4 1600)]; let n : Nat := p.bytes.toNat; let b : List Byte := mgmtRead (atStart s q) q.cmd p.src.toNat n; MgmtStartable s q ∧ p.op.toNat = 1 ∧ p.rsvdA = 0 ∧ 2420 ≤ n ∧ n ≤ 2 ^ 18 ∧ parseItems n (b.take (n - 2420)) = some l ∧ ((∀ e ∈ l, 0 < e.1 ∧ e.1 ≤ 0x00FF))) := by
  and_intros <;> decide +kernel

theorem test_meets_SecurityCommandsComplete_1 :
    (let s : State := dev; let q : QEntry := qM; let p : AttestP := ⟨1, 3, 0, 5⟩; let n : Nat := p.part.toNat; ((∀ k, q.cmd.part = some k → n = k)) ∧ s.starting = none ∧ sigCheck (atStart s q) q.cmd.h = none ∧ p.rsvdA = 0 ∧ ((n < 16 ∨ n = 0xFF)) ∧ p.op.toNat = 1) :=
  ⟨noSome (by decide +kernel), by decide +kernel⟩

theorem test_meets_SecurityCommandsComplete_2 :
    (let s : State := dev; let q : QEntry := qM; let p : AttestP := ⟨0, 3, 0, 5⟩; let n : Nat := p.part.toNat; ((∀ k, q.cmd.part = some k → n = k)) ∧ s.starting = none ∧ sigCheck (atStart s q) q.cmd.h = none ∧ p.rsvdA = 0 ∧ ((n < 16 ∨ n = 0xFF)) ∧ p.op.toNat = 0 ∧ ((n < 16 → (part (atStart s q) n).busy = false ∧ bindWaits (atStart s q) n = false)) ∧ measChanging (atStart s q) = false) :=
  ⟨noSome (by decide +kernel), by decide +kernel⟩

theorem test_meets_SecurityCommandsComplete_3 :
    (let s : State := dev; let q : QEntry := qC; let p : SessionAgreeP := ⟨64, 5⟩; let pt : Nat := 0; ((∃ x y l, q.cmd.h.via = .ring x y l ∨ q.cmd.h.via = .slot x y l)) ∧ Startable s q pt ∧ hdrCtx q.cmd.h = 0x10001 ∧ regionOk (atStart s q) pt p.ekAddr.toNat 1184 1 false = true ∧ (part (atStart s q) pt).agreement = none ∧ partPoisoned (atStart s q) pt p.ekAddr.toNat 1184 = false) :=
  ⟨⟨_, _, _, Or.inl rfl⟩, by decide +kernel⟩

theorem test_meets_ReliabilityCommandsComplete :
    (let s : State := devLead; let q : QEntry := qM; let p : TestPackLoadP := ⟨1, 0, 1, 0, 0⟩; MgmtStartable s q ∧ p.op.toNat = 1 ∧ p.rsvdA = 0 ∧ p.packId.toNat ≠ 0 ∧ packUsed (atStart s q) p.packId.toNat = false) ∧
    (let s : State := { devLead with relia := { devLead.relia with log := [{ seq := 4, bytes := [], fatal := true }] } }; let q : QEntry := qM; let p : FaultReadP := ⟨0, 0, 0⟩; let f : FaultFrame := { seq := 4, bytes := [], fatal := true }; MgmtStartable s q ∧ p.rsvdA = 0 ∧ p.op.toNat = 0 ∧ (atStart s q).relia.log.find? (fun f => !f.acked) = some f) ∧
    (let s : State := { devLead with relia := { devLead.relia with log := [{ seq := 4, bytes := [], fatal := true }] } }; let q : QEntry := qM; let p : FaultReadP := ⟨1, 0, 4⟩; let f : FaultFrame := { seq := 4, bytes := [], fatal := true }; MgmtStartable s q ∧ p.rsvdA = 0 ∧ p.op.toNat = 1 ∧ (atStart s q).relia.log.find? (fun f => decide (f.seq = p.seq.toNat)) = some f) ∧
    (let s : State := { devLead with relia := { devLead.relia with log := [{ seq := 4, bytes := [], fatal := true }] } }; let q : QEntry := qM; let p : FaultReadP := ⟨2, 0, 4⟩; let f : FaultFrame := { seq := 4, bytes := [], fatal := true }; MgmtStartable s q ∧ p.rsvdA = 0 ∧ p.op.toNat = 2 ∧ (atStart s q).relia.log.find? (fun f => decide (f.seq = p.seq.toNat)) = some f) ∧
    (let s : State := devLead; let q : QEntry := qM; let p : CounterReadP := ⟨15, 0, 0⟩; MgmtStartable s q ∧ p.ctl.toNat ≤ 1 ∧ p.rsvdA = 0 ∧ p.ctl.toNat = 0 ∧ p.core.toNat < 16 ∧ inService (atStart s q) p.core.toNat = true) ∧
    (let s : State := devLead; let q : QEntry := qM; let p : CounterReadP := ⟨17, 1, 0⟩; MgmtStartable s q ∧ p.ctl.toNat ≤ 1 ∧ p.rsvdA = 0 ∧ p.ctl.toNat = 1 ∧ p.core.toNat < 18 ∧ (coreP (atStart s q) p.core.toNat).power ≠ .off) ∧
    (let s : State := { devLead with cores := [] }; let q : QEntry := qM; let p : CounterReadP := ⟨17, 1, 0⟩; MgmtStartable s q ∧ p.ctl.toNat ≤ 1 ∧ p.rsvdA = 0 ∧ p.ctl.toNat = 1 ∧ p.core.toNat < 18 ∧ (coreP (atStart s q) p.core.toNat).power = .off) ∧
    (let s : State := dev; let q : QEntry := qC; let p : CounterReadP := ⟨15, 0, 0⟩; let pt : Nat := 0; Startable s q pt ∧ p.ctl = 0 ∧ p.rsvdA = 0 ∧ p.core.toNat < 16 ∧ holdsCore (atStart s q) pt p.core.toNat = true ∧ inService (atStart s q) p.core.toNat = true) := by
  and_intros <;> decide +kernel

theorem test_meets_ReliabilityCommandsComplete_1 :
    (let s : State := devLead; let q : QEntry := qM; let p : TestRunP := ⟨16, 5, 0, 1, 1, 100, 0⟩; let x : Pack := pack1; let n : Nat := p.core.toNat; let k : Nat := (if bitOf p.ctl.toNat 0 then n else physOf (atStart s q) n); ((∀ l, logicalOf (atStart s q) k = some l → coreRebinding (atStart s q) l = false)) ∧ MgmtStartable s q ∧ p.ctl.toNat ≤ 7 ∧ p.rsvdA = 0 ∧ p.rsvdB = 0 ∧ n ≤ (if bitOf p.ctl.toNat 0 then 17 else 15) ∧ packOf (atStart s q) p.packId.toNat = some x ∧ p.testMask.toNat / 2 ^ packTests x = 0 ∧ ((bitOf p.ctl.toNat 0 = true ∨ inService (atStart s q) n = true)) ∧ testBusy (atStart s q) k = false ∧ (((logicalOf (atStart s q) k).isSome = true → (freeSpare (atStart s q) (dieOfPhys k)).isSome = true))) :=
  ⟨noSome (by decide +kernel), by decide +kernel⟩

theorem test_meets_ReliabilityCommandsComplete_2 :
    (let s : State := devLead; let q : QEntry := qMo 24 (leBytes 2 9 ++ leBytes 2 1 ++ leBytes 4 2 ++ zeros 8 ++ leBytes 8 32 ++ leBytes 2 1 ++ zeros 6 ++ zeros 32 ++ zeros 32 ++ zeros 2420); let p : TestPackLoadP := ⟨0, 0, 2, 0x8000000000000000, 2516⟩; let id : Nat := p.packId.toNat; let n : Nat := p.bytes.toNat; let hd : List Byte := mgmtRead (atStart s q) q.cmd p.src.toNat 64; ((∀ x, packOf (atStart s q) id = some x → at_ x.header 8 4 < at_ hd 8 4)) ∧ MgmtStartable s q ∧ p.op = 0 ∧ p.rsvdA = 0 ∧ packHeaderOk hd id n = true ∧ (storeUse (atStart s q) id).2 < 8 ∧ (storeUse (atStart s q) id).1 + n ≤ 2 ^ 23) :=
  ⟨noSome (by decide +kernel), by decide +kernel⟩

theorem test_meets_ReliabilityEventsComplete :
    (let k : Fin 18 := 16; let s : State := { devLead with dies := [(0, { dieW with requests := [{ core := 16, packId := 1 }] }), (1, dieE)] }; let r : TestReq := { core := 16, packId := 1 }; let pk : Pack := pack1; let d : Nat := dieOfPhys k.val; let u : State := modDie s d (fun x => { x with requests := x.requests.filter (fun y => decide (y.core ≠ k.val)) }); (die s d).requests.find? (fun r => !requestWaits s r) = some r ∧ packOf s r.packId = some pk ∧ r.core = k.val ∧ (die s d).test = none ∧ logicalOf u k.val = none) ∧
    (let k : Fin 18 := 0; let s : State := { devLead with dies := [(0, { dieW with requests := [{ core := 0, packId := 1 }] }), (1, dieE)] }; let r : TestReq := { core := 0, packId := 1 }; let pk : Pack := pack1; let c : Nat := 0; let d : Nat := dieOfPhys k.val; let u : State := modDie s d (fun x => { x with requests := x.requests.filter (fun y => decide (y.core ≠ k.val)) }); (die s d).requests.find? (fun r => !requestWaits s r) = some r ∧ packOf s r.packId = some pk ∧ r.core = k.val ∧ (die s d).test = none ∧ logicalOf u k.val = some c) ∧
    (let k : Fin 18 := 0; let s : State := { devLead with dies := [(0, { dieW with test := some { req := { core := 0, packId := 1 }, pack := pack1, phase := 1 } }), (1, dieE)] }; let t : TestRun := { req := { core := 0, packId := 1 }, pack := pack1, phase := 1 }; (die s (dieOfPhys k.val)).test = some t ∧ t.req.core = k.val ∧ t.phase ≠ 2 ∧ (coreP s k.val).power = .run) ∧
    (let k : Fin 18 := 0; let s : State := { devLead with dies := [(0, { dieW with test := some { req := { core := 0, packId := 1 }, pack := pack1, phase := 2 } }), (1, dieE)] }; let t : TestRun := { req := { core := 0, packId := 1 }, pack := pack1, phase := 2 }; (die s (dieOfPhys k.val)).test = some t ∧ t.req.core = k.val ∧ t.phase = 2 ∧ (die s (dieOfPhys k.val)).migration = none) ∧
    (let s : State := { devLead with relia := { devLead.relia with log := [{ seq := 4, bytes := [], fatal := true, acked := true }] } }; ((∀ f ∈ s.relia.log, f.fatal = false ∨ f.acked = true))) ∧
    (let s : State := { devLead with relia := { devLead.relia with log := [{ seq := 4, bytes := [], fatal := true }] } }; let f : FaultFrame := { seq := 4, bytes := [], fatal := true }; s.relia.log.filter (fun f => f.fatal && !f.acked) = [f]) ∧
    (let p : Fin 2 := 1; let s : State := { dev with cxl := [(1, { linkUp := true })] }; let x : CxlPort := tget {} p.val s.cxl; x.linkUp = true) ∧
    (let p : Fin 2 := 1; let s : State := { dev with cxl := [(1, { linkUp := false })] }; let x : CxlPort := tget {} p.val s.cxl; x.linkUp = false) := by
  and_intros <;> decide +kernel

theorem test_meets_ReliabilityEventsComplete_1 :
    (let s : State := dev; let u : State := (freeNat s).2; let v : Nat := (freeNat s).1; freeNat s = (v, u)) :=
  rfl

theorem test_meets_MeteringCommandsComplete :
    (let s : State := dev; let q : QEntry := qM; let p : MiIdentP := ⟨0⟩; s.starting = none ∧ sigCheck (atStart s q) q.cmd.h = none ∧ p.rsvdA = 0) ∧
    (let s : State := dev; let q : QEntry := qM; let p : MiReadP := ⟨0⟩; MgmtStartable s q ∧ p.rsvdA = 0) ∧
    (let s : State := dev; let q : QEntry := qM; let p : MiSessionOpenP := ⟨0, 0⟩; MgmtStartable s q ∧ p.rsvdA = 0 ∧ p.part.toNat < 16 ∧ miBound (atStart s q) p.part.toNat = true ∧ tget none p.part.toNat (atStart s q).mi.sessions = none) ∧
    (let s : State := { dev with mi := { dev.mi with powered := true, sessions := [(0, some { session := 1 })] } }; let q : QEntry := qM; let p : MiSessionCloseP := ⟨0, 0, 0⟩; MgmtStartable s q ∧ p.rsvdA = 0 ∧ p.part.toNat < 16 ∧ miBound (atStart s q) p.part.toNat = true ∧ (tget none p.part.toNat (atStart s q).mi.sessions).isSome = true ∧ p.ctl.toNat = 0) ∧
    (let s : State := { dev with mi := { dev.mi with powered := true, sessions := [(0, some { session := 1 })] } }; let q : QEntry := qM; let p : MiSessionCloseP := ⟨0, 1, 0⟩; MgmtStartable s q ∧ p.rsvdA = 0 ∧ p.part.toNat < 16 ∧ miBound (atStart s q) p.part.toNat = true ∧ (tget none p.part.toNat (atStart s q).mi.sessions).isSome = true ∧ p.ctl.toNat = 1) ∧
    (let s : State := { dev with parts := [(0, { p0 with session := 0 })], mi := { dev.mi with powered := true, log := [(5, zeros 32 ++ leBytes 1 1 ++ zeros 63)] } }; let q : QEntry := qC; let p : MiRecordGetP := ⟨5, 0, 0⟩; let r : Nat × List Byte := (5, zeros 32 ++ leBytes 1 1 ++ zeros 63); s.starting = none ∧ sigCheck (atStart s q) q.cmd.h = none ∧ p.rsvdA = 0 ∧ mayRead (atStart s q) q.cmd.part r.2 = true ∧ p.op.toNat = 0 ∧ (atStart s q).mi.log.find? (fun x => decide (x.1 = p.recordNo.toNat)) = some r) ∧
    (let s : State := { dev with parts := [(0, { p0 with session := 0 })], mi := { dev.mi with powered := true, log := [(5, zeros 32 ++ leBytes 1 1 ++ zeros 63)] } }; let q : QEntry := qC; let p : MiRecordGetP := ⟨0, 2, 0⟩; let r : Nat × List Byte := (5, zeros 32 ++ leBytes 1 1 ++ zeros 63); s.starting = none ∧ sigCheck (atStart s q) q.cmd.h = none ∧ p.rsvdA = 0 ∧ mayRead (atStart s q) q.cmd.part r.2 = true ∧ p.op.toNat = 2 ∧ ((atStart s q).mi.log.filter (fun x => mayRead (atStart s q) q.cmd.part x.2)).getLast? = some r) ∧
    (let s : State := { dev with parts := [(0, { p0 with session := 0 })], mi := { dev.mi with powered := true, log := [(5, zeros 32 ++ leBytes 1 1 ++ zeros 63)] } }; let q : QEntry := qM; let p : MiRecordGetP := ⟨5, 1, 0⟩; let r : Nat × List Byte := (5, zeros 32 ++ leBytes 1 1 ++ zeros 63); s.starting = none ∧ sigCheck (atStart s q) q.cmd.h = none ∧ p.rsvdA = 0 ∧ mayRead (atStart s q) q.cmd.part r.2 = true ∧ p.op.toNat = 1 ∧ q.cmd.part = none ∧ (atStart s q).mi.log.find? (fun x => decide (x.1 = p.recordNo.toNat)) = some r) := by
  and_intros <;> decide +kernel

theorem test_meets_MeteringEventsComplete :
    (let s : State := { dev with mi := { dev.mi with powered := true, holdup := true } }; s.mi.powered = true ∧ s.mi.powerFail = false) ∧
    (let s : State := { dev with mi := { dev.mi with powered := true, holdup := true } }; s.mi.powered = true ∧ s.mi.powerFail = false) ∧
    (let s : State := { dev with mi := { dev.mi with powered := true, holdup := true } }; s.mi.powered = true ∧ s.mi.powerFail = false ∧ s.mi.holdup = true) ∧
    (let s : State := { dev with mi := { dev.mi with powered := true, holdup := false } }; s.mi.powered = true ∧ s.mi.powerFail = false ∧ s.mi.holdup = false) ∧
    (let s : State := { dev with mi := { dev.mi with powered := true, holdup := false } }; let u : State := fireHub { s with mi := miShow { s.mi with powerFail := true } } 0x1C4; s.mi.powered = true ∧ s.mi.powerFail = false ∧ u.mi.holdup = false) ∧
    (let s : State := { dev with mi := { dev.mi with powered := true, holdup := true } }; let u : State := fireHub { s with mi := miShow { s.mi with powerFail := true } } 0x1C4; s.mi.powered = true ∧ s.mi.powerFail = false ∧ u.mi.holdup = true) ∧
    (let s : State := { dev with mi := { dev.mi with powered := false } }; (s.mi.powered = false ∨ s.mi.powerFail = true)) ∧
    (let s : State := { dev with mi := { dev.mi with powered := false } }; (s.mi.powered = false ∨ s.mi.powerFail = true)) := by
  and_intros <;> decide +kernel

theorem test_meets_MeteringEventsComplete_1 :
    (let s : State := { dev with mi := { dev.mi with powered := true, holdup := true } }; let t : State := (miFrameNow s).2; let f : MiFrame := (miFrameNow s).1; miFrameNow s = (f, t) ∧ s.mi.powered = true ∧ s.mi.powerFail = false ∧ t.mi = s.mi) :=
  ⟨pair _, by decide +kernel⟩

theorem test_meets_FabricCommandsComplete :
    (let s : State := devLead; let q : QEntry := qM; let p : FabricRouteP := ⟨0, 0, 0, 256, 0, 0⟩; let n : Nat := p.count.toNat; MgmtStartable s q ∧ p.rsvdA = 0 ∧ p.rsvdB = 0 ∧ 1 ≤ n ∧ n ≤ 4096 ∧ p.table.toNat = 0 ∧ p.first.toNat + n ≤ 256) ∧
    (let s : State := devLead; let q : QEntry := qM; let p : FabricRouteP := ⟨1, 0, 255, 1, 0, 0⟩; let n : Nat := p.count.toNat; MgmtStartable s q ∧ p.rsvdA = 0 ∧ p.rsvdB = 0 ∧ 1 ≤ n ∧ n ≤ 4096 ∧ p.table.toNat = 1 ∧ p.first.toNat + n ≤ 256) ∧
    (let s : State := devLead; let q : QEntry := qM; let p : FabricRouteP := ⟨2, 0, 0, 4096, 0, 0⟩; let n : Nat := p.count.toNat; MgmtStartable s q ∧ p.rsvdA = 0 ∧ p.rsvdB = 0 ∧ 1 ≤ n ∧ n ≤ 4096 ∧ p.table.toNat = 2 ∧ p.first.toNat + n ≤ 4096) ∧
    (let s : State := devFab (fun x => { x with mode := .unassigned }); let q : QEntry := qM; let p : FabricAddrP := ⟨9, 1, 0⟩; MgmtStartable s q ∧ p.rsvdA = 0 ∧ p.ctl.toNat ≤ 1 ∧ (atStart s q).fab.mode = .unassigned) ∧
    (let s : State := devLead; let q : QEntry := qM; let p : FabricDepartP := ⟨100, 0⟩; MgmtStartable s q ∧ leadOk (atStart s q) = true ∧ p.rsvdA = 0 ∧ draining (atStart s q) = false) ∧
    (let s : State := { devLead with fab := { devLead.fab with mode := .draining } }; let q : QEntry := qM; let p : FabricDepartP := ⟨100, 0⟩; MgmtStartable s q ∧ leadOk (atStart s q) = true ∧ p.rsvdA = 0 ∧ draining (atStart s q) = true) ∧
    (let s : State := dev; let q : QEntry := qM; let p : FabricDiscoverP := ⟨6, 15, 0⟩; s.starting = none ∧ sigCheck (atStart s q) q.cmd.h = none ∧ p.part.toNat < 16 ∧ p.rsvdA = 0 ∧ departed (atStart s q) p.addr = false) ∧
    (let s : State := devFab (fun x => { x with known := [{ addr := 6, departed := true }] }); let q : QEntry := qM; let p : FabricDiscoverP := ⟨6, 15, 0⟩; s.starting = none ∧ sigCheck (atStart s q) q.cmd.h = none ∧ p.part.toNat < 16 ∧ p.rsvdA = 0 ∧ departed (atStart s q) p.addr = true) := by
  and_intros <;> decide +kernel

theorem test_meets_LinkEventsComplete :
    (let q : Fin 32 := 31; let r : BitVec 2 := 1; let s : State := devPort { ready := true, lstate := .training }; (portOf s q.val).lstate = .training ∧ r ≠ 0) ∧
    (let q : Fin 32 := 31; let r : BitVec 2 := 0; let s : State := devPort { ready := true, lstate := .training }; ((portOf s q.val).lstate ≠ .training ∨ r = 0)) ∧
    (let q : Fin 32 := 31; let s : State := devPort { ready := true, lstate := .training }; let x : Port := portOf s q.val; (x.lstate = .down ∨ x.lstate = .training)) ∧
    (let q : Fin 32 := 31; let s : State := devPort { ready := true, lstate := .up }; let x : Port := portOf s q.val; (x.lstate = .hello ∨ x.lstate = .caps ∨ x.lstate = .up ∧ x.peerValid = false)) ∧
    (let q : Fin 32 := 31; let s : State := devPort { ready := true, lstate := .up, peerValid := true }; let x : Port := portOf s q.val; x.lstate = .up ∧ x.peerValid = true) ∧
    (let q : Fin 32 := 31; let s : State := devPort { ready := true, restart := true }; let x : Port := portOf s q.val; x.ready = true ∧ x.restart = true ∧ x.lstate = .down) ∧
    (let q : Fin 32 := 31; let s : State := devPort { ready := true, restart := false }; let x : Port := portOf s q.val; (x.ready = false ∨ x.restart = false ∨ x.lstate ≠ .down)) ∧
    (let q : Fin 32 := 31; let s : State := devPort { ready := true, lstate := .hello }; let x : Port := portOf s q.val; x.lstate = .hello) ∧
    (let q : Fin 32 := 31; let s : State := devPort { ready := true, lstate := .caps }; let x : Port := portOf s q.val; x.lstate = .caps) ∧
    (let q : Fin 32 := 31; let s : State := devPort { ready := true, lstate := .up }; let x : Port := portOf s q.val; (x.lstate = .down ∨ x.lstate = .training ∨ x.lstate = .up)) ∧
    (let s : State := { dev with ready := false }; (s.ready = false ∨ draining s = true)) ∧
    (let s : State := dev; s.ready = true ∧ draining s = false) := by
  and_intros <;> decide +kernel

theorem test_meets_LinkFramesComplete :
    (let q : Fin 32 := 31; let s : State := devPort { ready := true, lstate := .training }; pcsIsUp (portOf s q.val) = false) ∧
    (let q : Fin 32 := 31; let f : List Byte := zeros 12; let s : State := devPort { ready := true, lstate := .hello }; pcsIsUp (portOf s q.val) = true ∧ frameOk f = false) ∧
    (let q : Fin 32 := 31; let f : List Byte := fr 2 0 []; let s : State := devPort { ready := true, lstate := .up }; pcsIsUp (portOf s q.val) = true ∧ frameOk f = true ∧ frKind f = kAck) ∧
    (let q : Fin 32 := 31; let f : List Byte := fr 3 0 []; let s : State := devPort { ready := true, lstate := .up }; pcsIsUp (portOf s q.val) = true ∧ frameOk f = true ∧ frKind f = kNak) ∧
    (let q : Fin 32 := 31; let f : List Byte := fr 1 0 (zeros 16); let s : State := devPort { ready := true, lstate := .up }; let u : State := carriedAck s q.val f; let x : Port := portOf u q.val; pcsIsUp (portOf s q.val) = true ∧ frameOk f = true ∧ frKind f = kCredit ∧ x.lstate = .up) ∧
    (let q : Fin 32 := 31; let f : List Byte := fr 4 0 (leBytes 8 1 ++ zeros 8); let s : State := devPort { ready := true, lstate := .up, peerId := 7 }; let b : List Byte := frBody f; let u : State := carriedAck s q.val f; let x : Port := portOf u q.val; pcsIsUp (portOf s q.val) = true ∧ frameOk f = true ∧ frKind f = kMaint ∧ at_ b 0 1 = 1 ∧ 16 ≤ b.length ∧ (x.lstate = .caps ∨ x.lstate = .up) ∧ x.peerId ≠ BitVec.ofNat 64 (at_ b 8 8)) ∧
    (let q : Fin 32 := 31; let f : List Byte := fr 4 0 (leBytes 8 1 ++ leBytes 8 7); let s : State := devPort { ready := true, lstate := .up, peerId := 7 }; let b : List Byte := frBody f; let u : State := carriedAck s q.val f; let x : Port := portOf u q.val; pcsIsUp (portOf s q.val) = true ∧ frameOk f = true ∧ frKind f = kMaint ∧ at_ b 0 1 = 1 ∧ 16 ≤ b.length ∧ ((x.lstate = .hello ∨ x.peerId = BitVec.ofNat 64 (at_ b 8 8))) ∧ at_ b 3 1 = 0) ∧
    (let q : Fin 32 := 31; let f : List Byte := fr 4 0 (leBytes 8 0x1000001 ++ leBytes 8 7); let s : State := devPort { ready := true, lstate := .up, peerId := 7 }; let b : List Byte := frBody f; let u : State := carriedAck s q.val f; let x : Port := portOf u q.val; pcsIsUp (portOf s q.val) = true ∧ frameOk f = true ∧ frKind f = kMaint ∧ at_ b 0 1 = 1 ∧ 16 ≤ b.length ∧ ((x.lstate = .hello ∨ x.peerId = BitVec.ofNat 64 (at_ b 8 8))) ∧ at_ b 3 1 ≠ 0) ∧
    (let q : Fin 32 := 31; let f : List Byte := fr 4 0 (leBytes 2 2 ++ leBytes 2 4 ++ zeros 4); let s : State := devPort { ready := true, lstate := .caps }; let b : List Byte := frBody f; let u : State := carriedAck s q.val f; let x : Port := portOf u q.val; let got := (if at_ b 1 1 = 0 then [] else x.capsGot); pcsIsUp (portOf s q.val) = true ∧ frameOk f = true ∧ frKind f = kMaint ∧ at_ b 0 1 = 2 ∧ x.lstate ≠ .up ∧ at_ b 2 2 ≤ 4080 ∧ got.length = 1024 * at_ b 1 1 ∧ got.length + (b.length - 4) ≤ at_ b 2 2) ∧
    (let q : Fin 32 := 31; let f : List Byte := zeros 48; let s : State := devPort { ready := true, lstate := .up }; (portOf s q.val).lstate = .up ∧ frameOk f = false) ∧
    (let q : Fin 32 := 31; let f : List Byte := fr 16 0 (zeros 36); let s : State := devPort { ready := true, lstate := .up }; let n := ((portOf s q.val).rxLast.map (fun l => (l + 1) % 4096)).getD 0; (portOf s q.val).lstate = .up ∧ frameOk f = true ∧ frKind f = kData ∧ frLseq f = n) ∧
    (let q : Fin 32 := 31; let f : List Byte := fr 16 5 (zeros 36); let s : State := devPort { ready := true, lstate := .up }; let n := ((portOf s q.val).rxLast.map (fun l => (l + 1) % 4096)).getD 0; (portOf s q.val).lstate = .up ∧ frameOk f = true ∧ frKind f = kData ∧ frLseq f ≠ n) ∧
    (let q : Fin 32 := 31; let s : State := devPort { ready := true, lstate := .up, ackDue := true }; let x : Port := portOf s q.val; x.lstate = .up ∧ x.ackDue = true) ∧
    (let q : Fin 32 := 31; let s : State := devPort { ready := true, lstate := .up }; let x : Port := portOf s q.val; (x.lstate ≠ .up ∨ x.ackDue = false)) ∧
    (let q : Fin 32 := 31; let s : State := devPort { ready := true, lstate := .up }; let x : Port := portOf s q.val; x.lstate = .up) ∧
    (let q : Fin 32 := 31; let s : State := devPort { ready := true, lstate := .caps }; let x : Port := portOf s q.val; x.lstate ≠ .up) ∧
    (let q : Fin 32 := 31; let s : State := devPort { ready := true, lstate := .caps }; let x : Port := portOf s q.val; carriesData s x = false) ∧
    (let q : Fin 32 := 31; let s : State := devPort { ready := true, lstate := .up, replay := [{ lseq := 0, packet := [], sends := 8 }] }; let x : Port := portOf s q.val; carriesData s x = true ∧ (∃ f ∈ x.replay, 8 ≤ f.sends)) ∧
    (let q : Fin 32 := 31; let s : State := devPort { ready := true, lstate := .up, replay := [{ lseq := 0, packet := [], sends := 7 }] }; let x : Port := portOf s q.val; carriesData s x = true ∧ (∀ f ∈ x.replay, f.sends < 8)) := by
  and_intros <;> decide +kernel

theorem test_meets_PacketsAreRouted :
    (let o : Option (Fin 32) := none; let b : List Byte := zeros 35; (b.length < 36 ∨ (o.isSome = true ∧ pkHops b = 31) ∨ (pkMc b = true ∧ mayMulticast (pkType b) = false))) ∧
    (let o : Option (Fin 32) := none; let b : List Byte := zeros 4 ++ leBytes 2 5 ++ zeros 30; let s : State := dev; 36 ≤ b.length ∧ ((o = none ∨ pkHops b ≠ 31)) ∧ pkMc b = false ∧ hasAddr s = true ∧ pkDst b = s.fab.addr.toNat ∧ pkGood b = false) ∧
    (let o : Option (Fin 32) := none; let b : List Byte := pkT 2 5 0 6 [] []; let s : State := dev; let i := .reply (pkT 2 5 0 6 [] []); 36 ≤ b.length ∧ ((o = none ∨ pkHops b ≠ 31)) ∧ pkMc b = false ∧ hasAddr s = true ∧ pkDst b = s.fab.addr.toNat ∧ pkGood b = true ∧ 1 ≤ pkVersion b ∧ pkVersion b ≤ 3 ∧ (part s (pkDpart b)).pstate ≠ .scrubbing ∧ packetEvent o (pkDpart b) b = some i) ∧
    (let b : List Byte := pkT 2 7 0 6 [] []; let s : State := dev; let o : Option (Fin 32) := none; 36 ≤ b.length ∧ ((o = none ∨ pkHops b ≠ 31)) ∧ pkMc b = false ∧ (hasAddr s = false ∨ pkDst b ≠ s.fab.addr.toNat)) ∧
    (let b : List Byte := pkT 2 7 0 6 [] []; let s : State := devPort { dedicated := true }; let q := 31; let o : Option (Fin 32) := some q; 36 ≤ b.length ∧ ((o = none ∨ pkHops b ≠ 31)) ∧ pkMc b = false ∧ (hasAddr s = false ∨ pkDst b ≠ s.fab.addr.toNat) ∧ (portOf s q.val).dedicated = true) ∧
    (let b : List Byte := pkT 2 7 0 6 [] []; let s : State := dev; let q := 31; let o : Option (Fin 32) := some q; 36 ≤ b.length ∧ ((o = none ∨ pkHops b ≠ 31)) ∧ pkMc b = false ∧ (hasAddr s = false ∨ pkDst b ≠ s.fab.addr.toNat) ∧ (portOf s q.val).dedicated = false) := by
  and_intros <;> decide +kernel

theorem test_meets_DeliveredPacketsComplete :
    (let b : List Byte := zeros 36; let s : State := dev; pkGood b = false ∧ s.ready = true) ∧
    (let b : List Byte := zeros 36; pkGood b = false) ∧
    (let b : List Byte := pkT 1 5 0 6 [] []; let s : State := dev; pkGood b = true ∧ s.ready = true) ∧
    (let b : List Byte := pkT 2 5 0 6 [] (leBytes 8 9 ++ leBytes 4 2); let s : State := { dev with waiting := [{ id := 7, instr := .nop hC, cmd := { cC with part := some 0 }, unit := .stream 0 0, wait := .remote 3 9 }], ctxs := [(3, { isOpen := true, kind := 1, peer := 6, peerCtx := 2 })] }; let w := { id := 7, instr := .nop hC, cmd := { cC with part := some 0 }, unit := .stream 0 0, wait := .remote 3 9 }; pkGood b = true ∧ remoteOf s b = some w) ∧
    (let b : List Byte := pkT 2 5 0 6 [] (leBytes 8 9 ++ leBytes 4 2); let s : State := dev; pkGood b = true ∧ remoteOf s b = none) ∧
    (let b : List Byte := pkT 16 5 0 6 [] []; let s : State := devPlan id; let x : Bucket := { entry := planEntry }; pkGood b = true ∧ bucketOf s (pkDpart b) (at_ (pkArg b) 0 2) = some x ∧ x.lost = false) ∧
    (let b : List Byte := pkT 16 5 0 6 [] []; let s : State := dev; pkGood b = true ∧ bucketOf s (pkDpart b) (at_ (pkArg b) 0 2) = none) ∧
    (let p : Fin 16 := 0; let b : List Byte := pkT 17 0x1005 0 6 [] []; let s : State := dev; pkGood b = true ∧ job s p.val = none) ∧
    (let p : Fin 16 := 0; let b : List Byte := pkT 17 0x1005 0 6 [] []; let j := { j0 with stopping := true }; let s : State := onJob dev (fun j => { j with stopping := true }); pkGood b = true ∧ job s p.val = some j ∧ j.stopping = true) ∧
    (let p : Fin 16 := 0; let b : List Byte := pkT 17 0x1005 0 6 (leBytes 4 0x80000000) []; let j := { j0 with gathers := [{ entry := zeros 38 ++ leBytes 2 0x1005, dist := [], devs := [], bufs := [], local_ := [] }] }; let s : State := onJob dev (fun j => { j with gathers := [{ entry := zeros 38 ++ leBytes 2 0x1005, dist := [], devs := [], bufs := [], local_ := [] }] }); let k := 0; pkGood b = true ∧ job s p.val = some j ∧ j.stopping = false ∧ j.gathers.findIdx? (fun g => decide (gaMcast g = pkDst b)) = some k ∧ at_ (pkArg b) 13 1 < 2 ∧ tagStep j.step.toNat (at_ (pkArg b) 0 4) = none) ∧
    (let p : Fin 16 := 0; let b : List Byte := pkT 17 0x1005 0 6 (leBytes 4 2) []; let j := { j0 with gathers := [{ entry := zeros 38 ++ leBytes 2 0x1005, dist := [], devs := [], bufs := [], local_ := [] }] }; let s : State := onJob dev (fun j => { j with gathers := [{ entry := zeros 38 ++ leBytes 2 0x1005, dist := [], devs := [], bufs := [], local_ := [] }] }); let k := 0; let t := 2; pkGood b = true ∧ job s p.val = some j ∧ j.stopping = false ∧ j.gathers.findIdx? (fun g => decide (gaMcast g = pkDst b)) = some k ∧ at_ (pkArg b) 13 1 < 2 ∧ tagStep j.step.toNat (at_ (pkArg b) 0 4) = some t ∧ j.step.toNat + 2 ≤ t) ∧
    (let p : Fin 16 := 0; let b : List Byte := pkT 17 0x1005 0 6 (leBytes 4 1) []; let j := { j0 with gathers := [{ entry := zeros 38 ++ leBytes 2 0x1005, dist := [], devs := [], bufs := [], local_ := [] }] }; let s : State := onJob dev (fun j => { j with gathers := [{ entry := zeros 38 ++ leBytes 2 0x1005, dist := [], devs := [], bufs := [], local_ := [] }] }); let k := 0; let t := 1; let g := { entry := zeros 38 ++ leBytes 2 0x1005, dist := [], devs := [], bufs := [], local_ := [] }; pkGood b = true ∧ job s p.val = some j ∧ j.stopping = false ∧ j.gathers.findIdx? (fun g => decide (gaMcast g = pkDst b)) = some k ∧ at_ (pkArg b) 13 1 < 2 ∧ tagStep j.step.toNat (at_ (pkArg b) 0 4) = some t ∧ t < j.step.toNat + 2 ∧ j.gathers[k]? = some g) ∧
    (let b : List Byte := pkT 64 5 0 6 [] []; pkGood b = true) ∧
    (let b : List Byte := pkT 65 5 0 6 [] (zeros 64); let s : State := { dev with waiting := [{ id := 7, instr := .fabricDiscover hM ⟨6, 0, 0⟩, cmd := cM, unit := .stream 0 0, wait := .discover 6 }] }; let k : Known := { addr := 6 }; let w : Waiting := { id := 7, instr := .fabricDiscover hM ⟨6, 0, 0⟩, cmd := cM, unit := .stream 0 0, wait := .discover 6 }; let v : State := noteHello s (BitVec.ofNat 16 (pkSrc b)) (BitVec.ofNat 64 (at_ (pkPayload b) 0 8)) (BitVec.ofNat 8 (at_ (pkPayload b) 10 1)); let u : State := checkConflict (setKnown v { k with caps := slice (pkPayload b) 16 (at_ (pkPayload b) 12 2) }) (BitVec.ofNat 16 (pkSrc b)).toNat (BitVec.ofNat 64 (at_ (pkPayload b) 0 8)).toNat (at_ (pkPayload b) 8 1); pkGood b = true ∧ knownOf v (BitVec.ofNat 16 (pkSrc b)) = some k ∧ discoverOf u (BitVec.ofNat 16 (pkSrc b)).toNat (some (pkSpart b)) = some w) ∧
    (let q : Fin 32 := 31; let f : List Byte := fr 4 0 (leBytes 8 3 ++ zeros 8); let s : State := devPort { lstate := .up }; pcsIsUp (portOf s q.val) = true ∧ frameOk f = true ∧ frKind f = kMaint ∧ at_ (frBody f) 0 1 = 3 ∧ 15 ≤ frLen f) ∧
    (let c : BitVec 16 := 3; let n : BitVec 32 := 9; let s : State := { dev with waiting := [{ id := 7, instr := .nop hC, cmd := { cC with part := some 0 }, unit := .stream 0 0, wait := .remote 3 9 }] }; let w := { id := 7, instr := .nop hC, cmd := { cC with part := some 0 }, unit := .stream 0 0, wait := .remote 3 9 }; s.waiting.find? (fun w => decide (w.wait = .remote c.toNat n.toNat)) = some w) ∧
    (let c : BitVec 16 := 3; let n : BitVec 32 := 9; let s : State := dev; s.waiting.find? (fun w => decide (w.wait = .remote c.toNat n.toNat)) = none) ∧
    (let a : BitVec 16 := 6; let s : State := { dev with waiting := [{ id := 7, instr := .fabricDiscover hM ⟨6, 0, 0⟩, cmd := cM, unit := .stream 0 0, wait := .discover 6 }] }; let w := { id := 7, instr := .fabricDiscover hM ⟨6, 0, 0⟩, cmd := cM, unit := .stream 0 0, wait := .discover 6 }; discoverOf s a.toNat none = some w) ∧
    (let a : BitVec 16 := 6; let s : State := dev; discoverOf s a.toNat none = none) ∧
    (let p : Fin 16 := 0; let n : BitVec 16 := 0; let pl : Plan := { header := planHead, buckets := [(0, some { entry := planEntry, red := some { tag := 5, timer := true } })] }; let x : Bucket := { entry := planEntry, red := some { tag := 5, timer := true } }; let s : State := devPlan (fun x => { x with red := some { tag := 5, timer := true } }); let r : Reduction := { tag := 5, timer := true }; planOf s p.val = some pl ∧ bucketOf s p.val n.toNat = some x ∧ x.red = some r ∧ r.timer = true ∧ r.isOpen = true ∧ silentSlots (plMode pl) x r ≠ []) ∧
    (let p : Fin 16 := 0; let n : BitVec 16 := 0; let pl : Plan := { header := planHead, buckets := [(0, some { entry := planEntry, red := some { tag := 5, timer := true, excluded := [0, 1] } })] }; let x : Bucket := { entry := planEntry, red := some { tag := 5, timer := true, excluded := [0, 1] } }; let s : State := devPlan (fun x => { x with red := some { tag := 5, timer := true, excluded := [0, 1] } }); let r : Reduction := { tag := 5, timer := true, excluded := [0, 1] }; planOf s p.val = some pl ∧ bucketOf s p.val n.toNat = some x ∧ x.red = some r ∧ r.timer = true ∧ r.isOpen = true ∧ silentSlots (plMode pl) x r = []) := by
  and_intros <;> decide +kernel

theorem test_meets_MembershipEventsComplete :
    (let s : State := devFab (fun x => { x with mode := .joining }); s.fab.mode = .joining) ∧
    (let s : State := dev; s.fab.mode ≠ .joining) ∧
    (let s : State := devFab (fun x => { x with mode := .draining }); s.fab.mode = .draining ∧ s.fab.departing = false ∧ jobParts s = []) ∧
    (let s : State := { devJob id with fab := { dev.fab with mode := .draining, drain := some 4 } }; s.fab.mode = .draining ∧ s.fab.departing = false ∧ jobParts s ≠ [] ∧ s.fab.drain.isSome = true) ∧
    (let s : State := { devJob id with fab := { dev.fab with mode := .draining } }; s.fab.mode = .draining ∧ s.fab.departing = false ∧ jobParts s ≠ [] ∧ s.fab.drain = none) ∧
    (let s : State := dev; (s.fab.mode ≠ .draining ∨ s.fab.departing = true)) ∧
    (let s : State := devFab (fun x => { x with departing := true }); s.fab.departing = true) ∧
    (let s : State := dev; s.fab.departing = false) ∧
    (let a : BitVec 16 := 6; let s : State := devFab (fun x => { x with probing := [{ addr := 6, id := 8, sent := false }] }); s.fab.probing.any (fun x => decide (x.addr = a) && !x.sent) = true) ∧
    (let a : BitVec 16 := 6; let s : State := devFab (fun x => { x with probing := [{ addr := 6, id := 8, sent := true }] }); s.fab.probing.any (fun x => decide (x.addr = a) && !x.sent) = false) ∧
    (let a : BitVec 16 := 6; let x := { addr := 6, id := 8, sent := true }; let s : State := devFab (fun x => { x with probing := [{ addr := 6, id := 8, sent := true }] }); s.fab.probing.find? (fun x => decide (x.addr = a) && x.sent) = some x) ∧
    (let a : BitVec 16 := 6; let s : State := dev; s.fab.probing.find? (fun x => decide (x.addr = a) && x.sent) = none) := by
  and_intros <;> decide +kernel

theorem test_meets_ControlPageRegistersComplete :
    (let q : Fin 17 := 16; let r : Fin 16 := 15; let s : State := { dev with pages := [(16, { rings := [(15, { enable := true })] })] }; let x : Ring := ring s q.val r.val; x.enable = true ∧ s.ivtu.up = true) ∧
    (let q : Fin 17 := 16; let r : Fin 16 := 15; let s : State := dev; let x : Ring := ring s q.val r.val; (x.enable = false ∨ s.ivtu.up = false)) ∧
    (let v : BitVec 32 := 0; bitOf v.toNat 31 = false) ∧
    (let v : BitVec 32 := 0x80000000; bitOf v.toNat 31 = true) ∧
    (let q : Fin 17 := 16; let i : BitVec 4 := 15; let s : State := { dev with pages := [(16, { slots := [(15, { busy := true })] })] }; let x : Slot := slot s q.val i.toNat; x.busy = true) ∧
    (let q : Fin 17 := 16; let i : BitVec 4 := 15; let s : State := dev; let x : Slot := slot s q.val i.toNat; x.busy = false ∧ x.heldM = []) ∧
    (let q : Fin 17 := 16; let i : BitVec 4 := 15; let s : State := { dev with pages := [(16, { slots := [(15, { heldM := [(0, true)] })] })] }; let x : Slot := slot s q.val i.toNat; x.busy = false ∧ x.heldM ≠ [] ∧ x.notifyWait = false) ∧
    (let q : Fin 17 := 16; let n : BitVec 16 := 1; let g : BitVec 32 := 4; let s : State := { dev with pages := [(16, { pool := some { base := 0, count := 2, windows := [(1, { state := .ready, gen := 4, inUse := true })] } })] }; let k : Pool := { base := 0, count := 2, windows := [(1, { state := .ready, gen := 4, inUse := true })] }; let w : Window := poolWindow k n.toNat; (page s q.val).pool = some k ∧ n.toNat < k.count ∧ w.state = .ready ∧ w.inUse = true ∧ w.gen.toNat = g.toNat) ∧
    (let q : Fin 17 := 16; let n : BitVec 16 := 1; let g : BitVec 32 := 5; let s : State := { dev with pages := [(16, { pool := some { base := 0, count := 2, windows := [(1, { state := .ready, gen := 4, inUse := true })] } })] }; let k : Pool := { base := 0, count := 2, windows := [(1, { state := .ready, gen := 4, inUse := true })] }; let w : Window := poolWindow k n.toNat; (page s q.val).pool = some k ∧ (k.count ≤ n.toNat ∨ w.state ≠ .ready ∨ w.inUse = false ∨ w.gen.toNat ≠ g.toNat)) := by
  and_intros <;> decide +kernel

theorem test_meets_HostLinesAndRegistersComplete :
    (let s : State := { dev with ivtu := { dev.ivtu with up := false } }; s.ivtu.up = false) ∧
    (let a : BitVec 52 := 0x11290; let s : State := dev; let q := 0; let i := 1; let l := 2; s.ivtu.up = true ∧ slotLine (lineOf a.toNat) = some (q, i, l) ∧ tget false l (slot s q i).heldM = false) ∧
    (let a : BitVec 52 := 0x11290; let s : State := { dev with pages := [(0, { slots := [(1, { heldM := [(2, true)] })] })] }; let q := 0; let i := 1; let l := 2; s.ivtu.up = true ∧ slotLine (lineOf a.toNat) = some (q, i, l) ∧ tget false l (slot s q i).heldM = true ∧ (slot s q i).snooped = false ∧ (∀ e ∈ (slot s q i).later, e.1 ≠ l)) ∧
    (let a : BitVec 52 := 0x11290; let s : State := { dev with pages := [(0, { slots := [(1, { heldM := [(2, true)], snooped := true })] })] }; let q := 0; let i := 1; let l := 2; s.ivtu.up = true ∧ slotLine (lineOf a.toNat) = some (q, i, l) ∧ tget false l (slot s q i).heldM = true ∧ (((slot s q i).snooped = true ∨ ∃ e ∈ (slot s q i).later, e.1 = l))) ∧
    (let a : BitVec 52 := 0x11290; let s : State := { dev with pages := [(0, { slots := [(1, { heldM := [(2, true)] })] })] }; let q := 0; let i := 1; let l := 2; s.ivtu.up = true ∧ slotLine (lineOf a.toNat) = some (q, i, l) ∧ tget false l (slot s q i).heldM = true) ∧
    (let a : BitVec 52 := 0x11290; let s : State := dev; let q := 0; let i := 1; let l := 2; s.ivtu.up = true ∧ slotLine (lineOf a.toNat) = some (q, i, l) ∧ tget false l (slot s q i).heldM = false) ∧
    (let a : BitVec 52 := 64; let s : State := dev; s.ivtu.up = true ∧ slotLine (lineOf a.toNat) = none) ∧
    (let a : BitVec 52 := 0x11280; let m : BitVec 64 := 1; let s : State := { dev with pages := [(0, { slots := [(1, { heldM := [(2, true)] })] })] }; s.ivtu.up = true ∧ selectedBytes m.toNat ≠ [] ∧ (selectedBytes m.toNat).any (fun i => hostHolds s (a.toNat + i)) = true) ∧
    (let a : BitVec 52 := 0x11280; let m : BitVec 64 := 1; let s : State := dev; s.ivtu.up = true ∧ selectedBytes m.toNat ≠ [] ∧ (selectedBytes m.toNat).any (fun i => hostHolds s (a.toNat + i)) = false) ∧
    (let a : BitVec 52 := 0x11290; let s : State := { dev with pages := [(0, { slots := [(1, { heldM := [(2, true)] })] })] }; let q := 0; let i := 1; let l := 2; slotLine a.toNat = some (q, i, l) ∧ tget false l (slot s q i).heldM = true) ∧
    (let a : BitVec 52 := 0x11290; let s : State := dev; let q := 0; let i := 1; let l := 2; slotLine a.toNat = some (q, i, l) ∧ tget false l (slot s q i).heldM = false) ∧
    (let a : BitVec 52 := 64; slotLine a.toNat = none) ∧
    (let q : Fin 17 := 3; let a : BitVec 48 := 0x104; let n : BitVec 8 := 8; let s : State := dev; wrongPage s q.val a.toNat n.toNat = true) ∧
    (let q : Fin 17 := 3; let a : BitVec 48 := 0x4C8; let n : BitVec 8 := 8; let s : State := dev; let r := 15; let o := 8; wrongPage s q.val a.toNat n.toNat = false ∧ r < 16 ∧ o < 0x40 ∧ a.toNat = 0x100 + 0x40 * r + o) := by
  and_intros <;> decide +kernel

theorem test_meets_HostLinesAndRegistersComplete_1 :
    (let a : BitVec 52 := 64; let s : State := dev; let u : State := (apertureRead s (lineOf a.toNat) 64).2; let d : List Byte := (apertureRead s (lineOf a.toNat) 64).1; apertureRead s (lineOf a.toNat) 64 = (d, u) ∧ s.ivtu.up = true ∧ slotLine (lineOf a.toNat) = none) :=
  ⟨pair _, by decide +kernel⟩

theorem test_meets_HostLinesAndRegistersComplete_2 :
    (let a : BitVec 52 := 4; let n : BitVec 7 := 8; let s : State := dev; let u : State := (apertureRead s a.toNat (min 64 n.toNat)).2; let d : List Byte := (apertureRead s a.toNat (min 64 n.toNat)).1; apertureRead s a.toNat (min 64 n.toNat) = (d, u) ∧ s.ivtu.up = true) :=
  ⟨pair _, by decide +kernel⟩

theorem test_meets_HostLinesAndRegistersComplete_3 :
    (let s : State := dev; ((∀ q r, q < 17 → r < 16 → (ring s q r).lineS = false))) :=
  fun _ _ _ _ => rfl

theorem test_meets_HostLinesAndRegistersComplete_4 :
    (let w : Agent := .awl 0 0; let s : State := { dev with dies := [(1, dieE)] }; (∀ q, w ≠ .hostPage q) ∧ silenced s w = true) :=
  ⟨fun _ h => (nomatch h), by decide +kernel⟩

theorem test_meets_HostLinesAndRegistersComplete_5 :
    (let w : Agent := .awl 0 0; let a : BitVec 48 := 0x0E0100000020; let s : State := dev; let u := .awl 0 0; (∀ q, w ≠ .hostPage q) ∧ silenced s w = false ∧ (objectAt a.toNat).isSome = true ∧ winUser w = some u) :=
  ⟨fun _ h => (nomatch h), by decide +kernel⟩

theorem test_meets_HostLinesAndRegistersComplete_6 :
    (let w : Agent := .sup; let a : BitVec 48 := 0x0E0100000020; let s : State := dev; (∀ q, w ≠ .hostPage q) ∧ silenced s w = false ∧ (objectAt a.toNat).isSome = true ∧ winUser w = none) :=
  ⟨fun _ h => (nomatch h), by decide +kernel⟩

theorem test_meets_HostLinesAndRegistersComplete_7 :
    (let w : Agent := .awl 0 0; let a : BitVec 48 := 0x0F0000040000; let s : State := dev; let b : RegBlock := .fab; let o : Nat := 0; (∀ q, w ≠ .hostPage q) ∧ silenced s w = false ∧ objectAt a.toNat = none ∧ blockOf a.toNat = (b, o) ∧ reaches s w b = false) :=
  ⟨fun _ h => (nomatch h), by decide +kernel⟩

theorem test_meets_HostLinesAndRegistersComplete_8 :
    (let w : Agent := .sup; let a : BitVec 48 := 0x0F0010000000; let s : State := { dev with dies := [] }; let o : Nat := 0; let c := 0; let b : RegBlock := .logical c; (∀ q, w ≠ .hostPage q) ∧ silenced s w = false ∧ objectAt a.toNat = none ∧ blockOf a.toNat = (b, o) ∧ reaches s w b = true ∧ inService s c = false) :=
  ⟨fun _ h => (nomatch h), by decide +kernel⟩

theorem test_meets_HostLinesAndRegistersComplete_9 :
    (let w : Agent := .sup; let a : BitVec 48 := 0x0F0010000000; let s : State := dev; let o : Nat := 0; let c := 0; let b : RegBlock := .logical c; (∀ q, w ≠ .hostPage q) ∧ silenced s w = false ∧ objectAt a.toNat = none ∧ blockOf a.toNat = (b, o) ∧ reaches s w b = true ∧ inService s c = true) :=
  ⟨fun _ h => (nomatch h), by decide +kernel⟩

theorem test_meets_HostLinesAndRegistersComplete_10 :
    (let w : Agent := .sup; let a : BitVec 48 := 0x0F0020110000; let s : State := { dev with cores := [] }; let o : Nat := 0; let k := 17; let b : RegBlock := .physical k; (∀ q, w ≠ .hostPage q) ∧ silenced s w = false ∧ objectAt a.toNat = none ∧ blockOf a.toNat = (b, o) ∧ reaches s w b = true ∧ (coreP s k).power = .off) :=
  ⟨fun _ h => (nomatch h), by decide +kernel⟩

theorem test_meets_HostLinesAndRegistersComplete_11 :
    (let w : Agent := .sup; let a : BitVec 48 := 0x0F0020110000; let s : State := dev; let o : Nat := 0; let k := 17; let b : RegBlock := .physical k; (∀ q, w ≠ .hostPage q) ∧ silenced s w = false ∧ objectAt a.toNat = none ∧ blockOf a.toNat = (b, o) ∧ reaches s w b = true ∧ (coreP s k).power ≠ .off) :=
  ⟨fun _ h => (nomatch h), by decide +kernel⟩

theorem test_meets_HostLinesAndRegistersComplete_12 :
    (let w : Agent := .sup; let a : BitVec 48 := 0x0F0000071000; let n : BitVec 8 := 1; let s : State := dev; let b : RegBlock := .pwr; let o : Nat := 0; (∀ q, w ≠ .hostPage q) ∧ (∀ c, b ≠ .logical c) ∧ (∀ k, b ≠ .physical k) ∧ silenced s w = false ∧ objectAt a.toNat = none ∧ blockOf a.toNat = (b, o) ∧ reaches s w b = true ∧ wrongAccess s b o n.toNat = true) :=
  ⟨fun _ h => (nomatch h), fun _ h => (nomatch h), fun _ h => (nomatch h), by decide +kernel⟩

theorem test_meets_HostLinesAndRegistersComplete_13 :
    (let w : Agent := .sup; let a : BitVec 48 := 0x0F0000071000; let n : BitVec 8 := 4; let s : State := dev; let b : RegBlock := .pwr; let o : Nat := 0; (∀ q, w ≠ .hostPage q) ∧ (∀ c, b ≠ .logical c) ∧ (∀ k, b ≠ .physical k) ∧ silenced s w = false ∧ objectAt a.toNat = none ∧ blockOf a.toNat = (b, o) ∧ reaches s w b = true ∧ wrongAccess s b o n.toNat = false ∧ (regAt s b o).isSome = true) :=
  ⟨fun _ h => (nomatch h), fun _ h => (nomatch h), fun _ h => (nomatch h), by decide +kernel⟩

theorem test_meets_HostLinesAndRegistersComplete_14 :
    (let w : Agent := .awl 0 0; let a : BitVec 48 := 0x0F0000023F00; let n : BitVec 8 := 4; let s : State := dev; let b : RegBlock := .btn 0; let o : Nat := 0x3F00; (∀ q, w ≠ .hostPage q) ∧ (∀ c, b ≠ .logical c) ∧ (∀ k, b ≠ .physical k) ∧ silenced s w = false ∧ objectAt a.toNat = none ∧ blockOf a.toNat = (b, o) ∧ reaches s w b = true ∧ wrongAccess s b o n.toNat = false ∧ (regAt s b o).isSome = false ∧ isAwlAgent w = true) :=
  ⟨fun _ h => (nomatch h), fun _ h => (nomatch h), fun _ h => (nomatch h), by decide +kernel⟩

theorem test_meets_HostLinesAndRegistersComplete_15 :
    (let w : Agent := .sup; let a : BitVec 48 := 0x0F0000023F00; let n : BitVec 8 := 4; let s : State := dev; let b : RegBlock := .btn 0; let o : Nat := 0x3F00; (∀ q, w ≠ .hostPage q) ∧ (∀ c, b ≠ .logical c) ∧ (∀ k, b ≠ .physical k) ∧ silenced s w = false ∧ objectAt a.toNat = none ∧ blockOf a.toNat = (b, o) ∧ reaches s w b = true ∧ wrongAccess s b o n.toNat = false ∧ (regAt s b o).isSome = false ∧ isAwlAgent w = false) :=
  ⟨fun _ h => (nomatch h), fun _ h => (nomatch h), fun _ h => (nomatch h), by decide +kernel⟩

theorem test_meets_LeadTokenCommandsComplete :
    (let d : Fin 2 := 1; let g : BitVec 64 := 9; let s : State := devPow (fun x => { x with lead := { held := true, gen := 9 } }); equalClaim s d.val g.toNat = true) ∧
    (let d : Fin 2 := 0; let g : BitVec 64 := 9; let s : State := devPow (fun x => { x with lead := { offered := true, gen := 9 } }); equalClaim s d.val g.toNat = false ∧ s.power.lead.offered = true ∧ s.power.lead.die = d.val ∧ s.power.lead.gen = g) ∧
    (let d : Fin 2 := 0; let g : BitVec 64 := 9; let s : State := dev; equalClaim s d.val g.toNat = false ∧ s.power.lead.offered = false) ∧
    (let d : Fin 2 := 0; let g : BitVec 64 := 9; let s : State := devPow (fun x => { x with lead := { held := true, gen := 9 } }); s.power.lead.held = true ∧ s.power.lead.die = d.val ∧ s.power.lead.gen = g) ∧
    (let d : Fin 2 := 0; let g : BitVec 64 := 8; let s : State := devPow (fun x => { x with lead := { held := true, gen := 9 } }); (s.power.lead.held = false ∨ s.power.lead.die ≠ d.val ∨ s.power.lead.gen ≠ g)) ∧
    (let s : State := { dev with ready := false }; s.ready = false) ∧
    (let d : Fin 2 := 0; let g : BitVec 64 := 0; let s : State := { dev with parts := [], cores := [], power := { dev.power with lead := { held := true } } }; s.ready = true ∧ equalClaim s d.val g.toNat = false ∧ s.power.lead.held = true ∧ s.power.lead.frozen = false ∧ s.power.lead.die = d.val ∧ s.power.lead.gen = g ∧ ((∀ p, p < 16 → bound s p = false)) ∧ coresRest s = true ∧ draining s = false ∧ s.fab.departing = false) ∧
    (let s : State := devPow (fun x => { x with lead := { offered := true } }); s.power.lead.offered = true) ∧
    (let s : State := dev; s.power.lead.offered = false) ∧
    (let s : State := devPow (fun x => { x with lead := { held := true } }); s.power.lead.held = true) ∧
    (let s : State := dev; s.power.lead.held = false) := by
  and_intros <;> decide +kernel

theorem test_meets_LeadTokenCommandsComplete_1 :
    (let d : Fin 2 := 0; let g : BitVec 64 := 0; let s : State := devPow (fun x => { x with lead := { held := true } }); ((∃ p, p < 16 ∧ bound s p = true) ∨ coresRest s = false ∨ draining s = true ∨ s.fab.departing = true) ∧ s.ready = true ∧ equalClaim s d.val g.toNat = false ∧ s.power.lead.held = true ∧ s.power.lead.frozen = false ∧ s.power.lead.die = d.val ∧ s.power.lead.gen = g) :=
  ⟨Or.inl ⟨0, by decide, by decide +kernel⟩, by decide +kernel⟩

theorem test_meets_ClockAndPowerEventsComplete :
    (let s : State := devPow (fun x => { x with bootStep := 6, device := .active, limitW := 1600, tLimit := 100 }); 6 ≤ s.power.bootStep.toNat ∧ s.power.device ≠ .off ∧ s.power.device ≠ .standby) ∧
    (let s : State := devPow (fun x => { x with bootStep := 6, device := .active, limitW := 1600, tLimit := 100 }); 6 ≤ s.power.bootStep.toNat ∧ s.power.device ≠ .off ∧ s.power.device ≠ .standby ∧ (s.power.limiting = true ∨ s.power.since + 1 < 10)) ∧
    (let w : BitVec 16 := 1700; let c : BitVec 8 := 50; let s : State := devPow (fun x => { x with bootStep := 6, device := .active, limitW := 1600, tLimit := 100, since := 9 }); 6 ≤ s.power.bootStep.toNat ∧ s.power.device ≠ .off ∧ s.power.device ≠ .standby ∧ s.power.limiting = false ∧ 10 ≤ s.power.since + 1 ∧ (s.power.limitW.toNat < w.toNat ∨ s.power.tLimit.toNat ≤ c.toNat) ∧ divTarget s.power ≠ 8) ∧
    (let s : State := devPow (fun x => { x with bootStep := 5 }); (s.power.bootStep.toNat < 6 ∨ s.power.device = .off ∨ s.power.device = .standby)) ∧
    (let s : State := devPow (fun x => { x with good := true }); s.power.good = true) ∧
    (let s : State := dev; s.power.good = false) ∧
    (let s : State := devPow (fun x => { x with next := some 5 }); let d := 5; s.power.next = some d) ∧
    (let s : State := dev; s.power.next = none) ∧
    (let s : State := devPow (fun x => { x with ctlNext := some 2 }); let d := 2; s.power.ctlNext = some d) ∧
    (let s : State := dev; s.power.ctlNext = none) ∧
    (let k : Fin 18 := 0; let s : State := devPow (fun x => { x with retainAfter := 25000 }); let l : Nat := 0; (coreP s k.val).power = .run ∧ logicalOf s k.val = some l ∧ (partOfCore s l).isSome = true ∧ s.power.retainAfter ≠ 0 ∧ ((∀ i, i < 3 → streamRests (streamOf (coreP s k.val) i) = true)) ∧ ((∀ a, a < 4 → awlRests s l a = true))) ∧
    (let k : Fin 18 := 0; let s : State := modStream (devPow (fun x => { x with retainAfter := 25000 })) 0 2 (fun x => { x with busy := some 4 }); let l : Nat := 0; (coreP s k.val).power = .run ∧ logicalOf s k.val = some l ∧ (partOfCore s l).isSome = true ∧ s.power.retainAfter ≠ 0 ∧ ((∃ i, i < 3 ∧ streamRests (streamOf (coreP s k.val) i) = false) ∨ (∃ a, a < 4 ∧ awlRests s l a = false))) ∧
    (let s : State := { dev with cores := [], power := { dev.power with device := .active, retainAfter := 25000 } }; s.power.device = .active ∧ coresRest s = true ∧ s.power.retainAfter ≠ 0 ∧ s.ready = true) ∧
    (let s : State := dev; (s.power.device ≠ .active ∨ coresRest s = false ∨ s.power.retainAfter = 0 ∨ s.ready = false)) ∧
    (let s : State := devPow (fun x => { x with stagger := [3, 4] }); let k := 3; let rest := [4]; s.power.stagger = k :: rest) ∧
    (let s : State := dev; s.power.stagger = []) ∧
    (let s : State := devPow (fun x => { x with refresh := true }); s.power.refresh = true) ∧
    (let s : State := dev; s.power.refresh = false) ∧
    (let k : Fin 18 := 16; let s : State := { dev with cores := [(16, { power := .waking })] }; let u : State := modCoreP s k.val (fun c => { c with power := .run }); (coreP s k.val).power = .waking ∧ k.val ∉ s.power.stagger ∧ logicalOf u k.val = none) ∧
    (let k : Fin 18 := 0; let s : State := { dev with cores := [(0, { power := .waking })] }; let c := 0; let u : State := modCoreP s k.val (fun c => { c with power := .run }); (coreP s k.val).power = .waking ∧ k.val ∉ s.power.stagger ∧ logicalOf u k.val = some c) := by
  and_intros <;> decide +kernel

theorem test_meets_StartupAndPinsComplete :
    (let s : State := { devPow (fun x => { x with good := true }) with ready := true }; s.power.good = true) ∧
    (let s : State := State.reset; s.power.good = false) ∧
    (let s : State := { devPow (fun x => { x with good := true, device := .active }) with ready := false }; s.power.good = true ∧ s.ready = false ∧ s.power.device ≠ .standby) ∧
    (let s : State := dev; (s.power.good = false ∨ s.ready = true ∨ s.power.device = .standby)) ∧
    (let s : State := State.reset; s.power.good = false) ∧
    (let s : State := { devPow (fun x => { x with good := true, device := .active }) with ready := true }; s.power.good = true) ∧
    (let s : State := { devPow (fun x => { x with good := true, device := .active }) with ready := true }; s.power.good = true ∧ s.power.device ≠ .standby) ∧
    (let s : State := { devPow (fun x => { x with good := true, device := .active }) with ready := true }; s.power.device ≠ .standby) ∧
    (let s : State := { devPow (fun x => { x with good := true, device := .standby }) with ready := false }; s.power.device = .standby) ∧
    (let x : Bool := true; let s : State := { devPow (fun x => { x with good := true, bootStep := 8, device := .active }) with pins := { dev.pins with ivtRst := true } }; s.power.good = true ∧ s.pins.ivtRst = true ∧ 7 ≤ s.power.bootStep.toNat ∧ s.power.device ≠ .standby ∧ s.ready = true) ∧
    (let x : Bool := true; let s : State := { devPow (fun x => { x with good := true, bootStep := 7, device := .active }) with pins := { dev.pins with ivtRst := true }, ready := false }; s.power.good = true ∧ s.pins.ivtRst = true ∧ 7 ≤ s.power.bootStep.toNat ∧ s.power.device ≠ .standby ∧ s.ready = false ∧ s.power.bootStep.toNat = 7) ∧
    (let s : State := State.reset; (s.power.good = false ∨ s.pins.ivtRst = false ∨ s.power.bootStep.toNat < 7 ∨ s.power.device = .standby)) ∧
    (let s : State := State.reset; s.ivtu.up = false) ∧
    (let s : State := dev; s.ivtu.up = true) ∧
    (let s : State := { dev with pins := { dev.pins with removeReq := false } }; s.pins.removeReq = false) ∧
    (let s : State := dev; s.pins.removeReq = true ∧ s.ready = true) ∧
    (let s : State := State.reset; s.pins.removeReq = true ∧ s.ready = false) := by
  and_intros <;> decide +kernel

/-! ### The remaining witnesses -/

theorem test_meets_DeviceMemoryReadsBack_write :
    let s : State := { dev with mem := [(99, 1), (102, 1)], used := [(2, true)], poison := [(9000, true)] }; let a := 100; let bs : List Byte := [7, 0]
    MemoryCanonical s ∧ PoisonInUse s ∧ a + bs.length ≤ 0xC000000000 ∧ ∀ i, i < bs.length → tget false ((a + i) / 512) s.poison = false := by
  refine ⟨by decide +kernel, fun k h => ?_, by decide, by decide +kernel⟩
  have hk : 9000 = k := by simpa [tget] using h
  subst hk; rfl

theorem test_meets_SignalAddsOrSaturates :
    (let s : State := { dev with eyelets := [(16383, { count := 5 })] }; let e := 16383
     twf ({} : Eyelet) s.eyelets = true ∧ (eyelet s e).event = false ∧ 2 ^ 32 ≤ (eyelet s e).count.toNat + 0xFFFFFFFB) ∧
    (let s : State := { dev with eyelets := [(16383, { count := 5 })] }; let e := 16383
     twf ({} : Eyelet) s.eyelets = true ∧ (eyelet s e).event = false ∧ (eyelet s e).count.toNat + 0xFFFFFFFA < 2 ^ 32) := by
  decide +kernel

/-- A state whose eyelet 16383 has one sleeper that needs two. -/
def devServed : State := { dev with eyelets := [(16383, { waiters := [{ unit := .awl 0 0, ticket := 0, n := 2 }] })] }
theorem devServed_served : EyeletsServed devServed := by
  refine ⟨rfl, fun e => ?_⟩
  by_cases he : 16383 = e
  · subst he
    intro w hw _
    have : w = { unit := .awl 0 0, ticket := 0, n := 2 } := by simpa [eyelet, devServed, tget] using hw
    subst this; decide +kernel
  · have h : eyelet devServed e = {} := by simp [eyelet, devServed, tget, he]
    rw [h]; intro w hw; cases hw
theorem test_meets_WindowStepsKeepEyeletsServed :
    ∃ s' : State, EyeletsServed devServed ∧ step { devServed with pending := .eyeletWindowSignal (.awl 0) 3 16383 2 :: devServed.pending } = .next s' :=
  ⟨_, devServed_served, rfl⟩

/-- A core whose stream 2 has stopped between commands, the others within one. -/
def devStop : State :=
  { dev with waiting := [{ id := 7, instr := .nop hS, cmd := cS, unit := .stream 0 0, wait := .flow 3 0 }, { id := 8, instr := .nop hS, cmd := cS, unit := .stream 0 1, wait := .flow 3 0 }], cores := [(0, { power := .run, ctlBusy := true, ctlStream := 2, ctlRun := (2, 0), streams := [(0, { busy := some 7 }), (1, { busy := some 8 }), (2, { mode := .stopping })] })] }
theorem switchOut_form {s : State} {c i : Nat} (h : abandonInProgress (if (stream s c i).busy = none then boundary s c i else s) c i = (none, s))
    (hf : flushStaging s (physOf s c) = s) :
    ∃ p a b r1 r2, switchOut s c i = lookBoundary (fireCore (modCore (modStream (partWrite (partWrite s p a r1) p b r2) c i (fun y => { y with mode := .out, queue := [], saved := [] ++ (stream s c i).queue })) c (fun y => { y with ctlBusy := false, ctlDone := true })) (physOf s c) 3) c := by
  simp only [switchOut, h, hf]
  exact ⟨_, _, _, _, _, rfl⟩
theorem switchOut_devStop : (switchOut devStop 0 2).cores = (modCore (modStream devStop 0 2 (fun y => { y with mode := .out, queue := [], saved := [] })) 0 (fun y => { y with ctlBusy := false, ctlDone := true })).cores ∧
    (switchOut devStop 0 2).waiting = devStop.waiting ∧ (switchOut devStop 0 2).dies = devStop.dies := by
  have h0 : physOf devStop 0 = 0 := by decide +kernel
  have hp : ∀ (t : State), t.dies = devStop.dies → physOf t 0 = 0 := by
    intro t h
    have : physOf t 0 = physOf devStop 0 := by simp only [physOf, mapByte, die, h]
    rw [this, h0]
  obtain ⟨p, a, b, r1, r2, e⟩ := switchOut_form (s := devStop) (c := 0) (i := 2) rfl (by rw [h0]; rfl)
  have hq : (stream devStop 0 2).queue = [] := by decide +kernel
  rw [hq] at e
  have hl : ∀ (t : State), t.dies = devStop.dies → lookBoundary t 0 = t := by
    intro t h
    have : (die t (dieOfCore 0)).migration = none := by rw [die, h]; rfl
    rw [lookBoundary, this]
  rw [hl _ (by simp [modStream, modCore, modCoreP, setCoreP, partWrite])] at e
  refine ⟨?_, ?_, ?_⟩ <;> rw [e] <;> simp [modStream, modCore, modCoreP, setCoreP, coreP, partWrite, hp]
theorem resume_of {t : State} (h1 : t.cores = (modCore (modStream devStop 0 2 (fun y => { y with mode := .out, queue := [], saved := [] })) 0 (fun y => { y with ctlBusy := false, ctlDone := true })).cores) (h2 : t.waiting = devStop.waiting) (h3 : t.dies = devStop.dies) :
    (∀ j, j < 3 → j ≠ 2 → atResume t 0 j = false) ∧ (die t (dieOfCore 0)).migration = none := by
  have hb : ∀ j, atResume t 0 j = atResume (modCore (modStream devStop 0 2 (fun y => { y with mode := .out, queue := [], saved := [] })) 0 (fun y => { y with ctlBusy := false, ctlDone := true })) 0 j := by
    intro j
    have hd : (modCore (modStream devStop 0 2 (fun y => { y with mode := .out, queue := [], saved := [] })) 0 (fun y => { y with ctlBusy := false, ctlDone := true })).dies = devStop.dies := rfl
    have hw : (modCore (modStream devStop 0 2 (fun y => { y with mode := .out, queue := [], saved := [] })) 0 (fun y => { y with ctlBusy := false, ctlDone := true })).waiting = devStop.waiting := rfl
    simp only [atResume, inProgress, stream, core, physOf, mapByte, die, coreP, h1, h2, h3, hd, hw]
  refine ⟨fun j hj hn => ?_, ?_⟩
  · rw [hb]
    have : j = 0 ∨ j = 1 := by omega
    rcases this with rfl | rfl <;> decide +kernel
  · rw [die, h3]; rfl
theorem test_meets_StreamSwitchesAndMigrationsComplete_out :
    (∀ j, j < 3 → j ≠ 2 → atResume devStop 0 j = false) ∧ atResume devStop 0 2 = true ∧ switching devStop 0 2 = true ∧
    (die devStop (dieOfCore 0)).migration = none ∧ (∀ j, j < 3 → j ≠ 2 → atResume (switchOut devStop 0 2) 0 j = false) ∧
    (die (switchOut devStop 0 2) (dieOfCore 0)).migration = none := by
  have h := switchOut_devStop
  have r := resume_of h.1 h.2.1 h.2.2
  exact ⟨by decide +kernel, by decide +kernel, by decide +kernel, by decide +kernel, r.1, r.2⟩

/-! A stream record and an accumulator record in memory, whose CRC fields hold what their bytes give. -/

theorem crcByte_lt (l : List Nat) : ∀ c, c < 2 ^ 32 → l.foldl (fun c _ => if c % 2 == 1 then (c / 2) ^^^ 0x82F63B78 else c / 2) c < 2 ^ 32 := by
  induction l with
  | nil => exact fun c h => h
  | cons a l ih =>
    intro c h
    refine ih _ ?_
    show (if (c % 2 == 1) = true then (c / 2) ^^^ 0x82F63B78 else c / 2) < 2 ^ 32
    split
    · exact Nat.xor_lt_two_pow (by omega) (by decide)
    · omega
theorem crc_lt (bs : List Byte) : crc32c bs < 2 ^ 32 := by
  have h : ∀ (l : List Byte) c, c < 2 ^ 32 → l.foldl (fun c b => crc32cByte c b.toNat) c < 2 ^ 32 := by
    intro l
    induction l with
    | nil => exact fun c h => h
    | cons b l ih => exact fun c hc => ih _ (crcByte_lt _ _ (Nat.xor_lt_two_pow hc (by have := b.isLt; omega)))
  exact Nat.xor_lt_two_pow (h _ _ (by decide)) (by decide)
theorem slice_read (f : Nat → Byte) (n o k : Nat) (h : o + k ≤ n) :
    slice ((List.range n).map f) o k = (List.range k).map (fun i => f (o + i)) := by
  have hl : (((List.range n).map f).drop o |>.take k).length = k := by simp; omega
  simp only [slice]
  rw [hl, Nat.sub_self]
  simp only [zeros, List.replicate_zero, List.append_nil]
  apply List.ext_getElem (by simp; omega)
  intro i h1 h2
  simp

/-- The CRC of an accumulator region of zeros. -/
def recCrc : Nat := crc32c (zeros 1310720)
/-- Memory with a stream record at 64 and an accumulator record at 0x10040, but for the stream record's CRC. -/
def recMem (c : Nat) : Tab Byte :=
  [(88, 0x40), (90, 1), (0x10040, 1), (0x10050, BitVec.ofNat 8 c), (0x10051, BitVec.ofNat 8 (c / 256)), (0x10052, BitVec.ofNat 8 (c / 65536)), (0x10053, BitVec.ofNat 8 (c / 16777216))]
def recMems (c d : Nat) : Tab Byte :=
  [(64, 2), (84, BitVec.ofNat 8 d), (85, BitVec.ofNat 8 (d / 256)), (86, BitVec.ofNat 8 (d / 65536)), (87, BitVec.ofNat 8 (d / 16777216))] ++ recMem c
def devRec (m : Tab Byte) (k : Core) : State := { dev with mem := m, cores := [(0, k)] }
theorem xlate_parts {s t : State} (h : s.parts = t.parts) (p a : Nat) : xlate s p a = xlate t p a := by
  simp only [xlate, bound, sliceMap, bHbm, bFar, bindRec, holdsCore, bCores, part, h]
  rfl
theorem read_plain {s : State} (a n : Nat) (ha : a + n ≤ 2 ^ 21) (hn : 0 < n) (hx : xlate s 0 a = some a) (ho : ownScratch s 0 a = true) (hu : s.used = []) :
    partRead s 0 a n = (List.range n).map (fun i => tget 0 (a + i) s.mem) := by
  have hk : min n (2 ^ 21 - a % 2 ^ 21) = n := by omega
  rw [partRead]
  simp only [partReadGo, if_neg (by omega : ¬n = 0), hx, hk, Nat.sub_self, if_true, List.append_nil, devRead, ho]
  apply List.map_congr_left
  intro i hi
  have hi := List.mem_range.1 hi
  have h1 : addrKind (a + i) = .hbm := by rw [addrKind, if_pos (by omega)]
  simp [devByte, h1, poisoned, hu, tget]
theorem read_devRec (m : Tab Byte) (k : Core) (a n : Nat) (ha : a + n ≤ 2 ^ 21) (hn : 0 < n) :
    partRead (devRec m k) 0 a n = (List.range n).map (fun i => tget 0 (a + i) m) := by
  have hb : bound dev 0 = true := by decide +kernel
  have hs : (sliceMap dev 0)[0]? = some 0 := by decide +kernel
  have hx : xlate dev 0 a = some a := by
    have h0 : a / 0x180000000 = 0 := Nat.div_eq_of_lt (by omega)
    have h1 : sliceAddr 0 a = a := by
      rw [sliceAddr, Nat.div_eq_of_lt (by omega : a < 2 ^ 21), Nat.mod_eq_of_lt (by omega : a < 2 ^ 21)]; simp
    simp only [xlate, hb, h0, hs, Nat.mod_eq_of_lt (by omega : a < 0x180000000), h1]
    rw [if_neg (by simp), if_pos (by omega)]
  have ho : ownScratch (devRec m k) 0 a = true := by rw [ownScratch, addrKind, if_pos (by omega)]
  exact read_plain a n ha hn (Eq.trans (xlate_parts (s := devRec m k) (t := dev) rfl 0 a) hx) ho rfl
theorem get4 (f : Nat → Byte) (v : Nat) (h0 : f 0 = BitVec.ofNat 8 v) (h1 : f 1 = BitVec.ofNat 8 (v / 256)) (h2 : f 2 = BitVec.ofNat 8 (v / 65536))
    (h3 : f 3 = BitVec.ofNat 8 (v / 16777216)) (hv : v < 2 ^ 32) : leNat ((List.range 4).map f) = v := by
  simp [List.range_succ, leNat, h0, h1, h2, h3]; omega
theorem at_read (f : Nat → Byte) (n o k : Nat) (h : o + k ≤ n) : at_ ((List.range n).map f) o k = leNat ((List.range k).map (fun i => f (o + i))) := by
  rw [at_, slice_read f n o k h]

/-- The accumulator record restores. -/
theorem rec_restores (d : Nat) (k : Core) : ∃ g, restoreRecord (partRead (devRec (recMems recCrc d) k) 0 0x10040 1310784) = some g := by
  obtain ⟨c, hc⟩ : ∃ c, c = recCrc := ⟨_, rfl⟩
  rw [← hc]
  have hlt : c < 2 ^ 32 := by rw [hc]; exact crc_lt _
  have he : slice ((List.range 1310784).map (fun i => tget 0 (0x10040 + i) (recMems c d))) 64 1310720 = zeros 1310720 := by
    rw [slice_read _ _ _ _ (by decide), zeros]
    refine List.eq_replicate_iff.2 ⟨by rw [List.length_map, List.length_range], fun b hb => ?_⟩
    obtain ⟨i, hi, rfl⟩ := List.mem_map.1 hb
    have e : ∀ k, 64 ≤ k → k < 64 + 1310720 → tget 0 (0x10040 + k) (recMems c d) = 0 := by
      intro k h1 h2
      simp only [recMems, recMem, tget, List.cons_append, List.nil_append]
      repeat rw [if_neg (by omega)]
    exact e _ (by omega) (by have := List.mem_range.1 hi; omega)
  have hr : (restoreRecord (partRead (devRec (recMems c d) k) 0 0x10040 1310784)).isSome = true := by
    rw [read_devRec _ _ _ _ (by omega) (by omega), restoreRecord, he, at_read _ _ _ _ (by omega), at_read _ _ _ _ (by omega), at_read _ _ _ _ (by omega)]
    rw [get4 (fun i => tget 0 (0x10040 + (16 + i)) (recMems c d)) c (by simp [recMems, recMem, tget]) (by simp [recMems, recMem, tget]) (by simp [recMems, recMem, tget]) (by simp [recMems, recMem, tget]) hlt]
    rw [if_neg (by simp [show crc32c (zeros 1310720) = c from hc.symm, recMems, recMem, tget, List.range_succ, leNat])]
    rfl
  exact Option.isSome_iff_exists.1 hr
theorem partOfCore_devRec (m : Tab Byte) (k : Core) : partOfCore (devRec m k) 0 = some 0 := by
  have h : partOfCore dev 0 = some 0 := by decide +kernel
  have e : ∀ p, holdsCore (devRec m k) p 0 = holdsCore dev p 0 := by
    intro p
    have hp : (devRec m k).parts = dev.parts := rfl
    simp only [holdsCore, bound, bCores, bindRec, part, hp]
  simp only [partOfCore, e]
  exact h
theorem core_devRec (m : Tab Byte) (k : Core) : core (devRec m k) 0 = k := by
  have h : physOf dev 0 = 0 := by decide +kernel
  have e : physOf (devRec m k) 0 = physOf dev 0 := rfl
  rw [core, e, h]; rfl

/-- A restore of the accumulator record, and one of a record that does not check. -/
theorem accRead_devRec (m : Tab Byte) (k : Core) (a : Nat) : accRead (devRec m k) (logicalOf (devRec m k) 0) a 1310784 = partRead (devRec m k) 0 a 1310784 := by
  have h : logicalOf (devRec m k) 0 = some 0 := (by decide +kernel : logicalOf dev 0 = some 0)
  simp only [accRead, h, Option.bind_some, partOfCore_devRec]
theorem test_meets_CoreRegistersComplete_restore :
    ∃ s g, (coreP s 0).accOp = some (0, true) ∧ restoreRecord (accRead s (logicalOf s 0) (coreP s 0).accAddr.toNat 1310784) = some g := by
  obtain ⟨g, h⟩ := rec_restores 0 { accBusy := true, accOp := some (0, true), accAddr := 0x10040 }
  exact ⟨devRec (recMems recCrc 0) { accBusy := true, accOp := some (0, true), accAddr := 0x10040 }, g, rfl, (accRead_devRec _ _ _).symm ▸ h⟩
theorem test_meets_CoreRegistersComplete_bad :
    ∃ s, (coreP s 0).accOp = some (0, true) ∧ restoreRecord (accRead s (logicalOf s 0) (coreP s 0).accAddr.toNat 1310784) = none := by
  refine ⟨devRec [] { accOp := some (0, true), accAddr := 0x10040 }, rfl, ?_⟩
  refine (congrArg restoreRecord ((accRead_devRec _ _ _).trans (read_devRec _ _ _ _ (by decide) (by decide)))).trans ?_
  rw [restoreRecord, at_read _ _ _ _ (by omega), if_pos (Or.inl (by decide))]

/-- The stream record that its own bytes but the CRC's give. -/
def recBytes (d : Nat) (k : Core) : List Byte := partRead (devRec (recMems recCrc d) k) 0 64 24896
theorem recBytes_eq (d : Nat) (k : Core) : recBytes d k = (List.range 24896).map (fun i => tget 0 (64 + i) (recMems recCrc d)) :=
  read_devRec _ _ _ _ (by omega) (by omega)
theorem tget_skip {j k : Nat} {v d : Byte} {t : Tab Byte} (h : j < k) : tget d k ((j, v) :: t) = tget d k t := by
  rw [tget, if_neg (by omega), if_neg (by omega)]
theorem tget_lt {j k : Nat} {v d : Byte} {t : Tab Byte} (h : k < j) : tget d k ((j, v) :: t) = d := by
  rw [tget, if_neg (by omega), if_pos h]
theorem rec_crc (k : Core) : ∃ d, d < 2 ^ 32 ∧ ∀ e, e < 2 ^ 32 → crcHolds (recBytes e k) = decide (d = e) := by
  obtain ⟨c, hc⟩ : ∃ c, c = recCrc := ⟨_, rfl⟩
  obtain ⟨l, hl⟩ : ∃ l, l = (List.range 20).map (fun i => tget 0 (64 + (0 + i)) (recMems c 0)) ++ (List.range 24872).map (fun i => tget 0 (64 + (24 + i)) (recMems c 0)) := ⟨_, rfl⟩
  refine ⟨crc32c l, crc_lt _, fun e he => ?_⟩
  have h0 : ∀ i, i < 20 → tget 0 (64 + (0 + i)) (recMems c e) = tget 0 (64 + (0 + i)) (recMems c 0) := by
    intro i hi
    by_cases h : i = 0
    · subst h; rfl
    · simp only [recMems, List.cons_append]
      rw [tget_skip (by omega), tget_lt (by omega), tget_skip (by omega), tget_lt (by omega)]
  have h1 : ∀ i, tget 0 (64 + (24 + i)) (recMems c e) = tget 0 (64 + (24 + i)) (recMems c 0) := by
    intro i
    simp only [recMems, List.cons_append]
    iterate 10 rw [tget_skip (by omega)]
  rw [recBytes_eq, ← hc, crcHolds, at_read _ _ _ _ (by omega)]
  rw [get4 (fun i => tget 0 (64 + (20 + i)) (recMems c e)) e (by simp [recMems, recMem, tget]) (by simp [recMems, recMem, tget]) (by simp [recMems, recMem, tget]) (by simp [recMems, recMem, tget]) he]
  rw [slice_read _ _ _ _ (by omega), slice_read _ _ _ _ (by omega)]
  rw [List.map_congr_left (fun i hi => h0 i (List.mem_range.1 hi)), List.map_congr_left (fun i _ => h1 i), ← hl]
theorem rec_head (e : Nat) (k : Core) : at_ (recBytes e k) 0 2 = 2 ∧ at_ (recBytes e k) 2 1 = 0 ∧ at_ (recBytes e k) 3 1 = 0 ∧ at_ (recBytes e k) 24 8 = 0x10040 := by
  refine ⟨?_, ?_, ?_, ?_⟩ <;> rw [recBytes_eq, at_read _ _ _ _ (by omega)] <;> simp [recMems, recMem, tget, List.range_succ, leNat]

/-- The state before a switch-in of stream `i` from that record, and what the command has set when it looks at the record. -/
def inCore : Core := { streams := [(0, { mode := .out }), (1, { mode := .out })] }
def inSet (i : Nat) : Core := { inCore with ctlStream := BitVec.ofNat 2 i, ctlAddr := BitVec.ofNat 48 ((64 : BitVec 48).toNat / 64 * 64) }
theorem in_state (e i : Nat) : modCore (devRec (recMems recCrc e) inCore) 0 (fun k => { k with ctlStream := BitVec.ofNat 2 i, ctlAddr := BitVec.ofNat 48 ((64 : BitVec 48).toNat / 64 * 64) }) = devRec (recMems recCrc e) (inSet i) := by
  have h : physOf dev 0 = 0 := by decide +kernel
  have e1 : physOf (devRec (recMems recCrc e) inCore) 0 = physOf dev 0 := rfl
  have hc : coreP (devRec (recMems recCrc e) inCore) 0 = inCore := rfl
  rw [modCore, modCoreP, setCoreP, e1, h, hc]
  rfl
theorem in_begins (e i : Nat) (hi : i < 2) : inService (devRec (recMems recCrc e) inCore) 0 = true ∧ (core (devRec (recMems recCrc e) inCore) 0).ctlBusy = false ∧
    (stream (devRec (recMems recCrc e) (inSet i)) 0 i).mode = .out := by
  refine ⟨(by decide +kernel : inService dev 0 = true), ?_, ?_⟩
  · rw [core_devRec]; rfl
  · rw [stream, core_devRec]
    have : i = 0 ∨ i = 1 := by omega
    rcases this with rfl | rfl <;> rfl

/-- A switch-in of that record, whose accumulator record restores. -/
theorem test_meets_StreamSwitchesAndMigrationsComplete_in :
    ∃ s u g, inService s 0 = true ∧ (core s 0).ctlBusy = false ∧
      u = modCore s 0 (fun k => { k with ctlStream := BitVec.ofNat 2 0, ctlAddr := BitVec.ofNat 48 ((64 : BitVec 48).toNat / 64 * 64) }) ∧
      (partOfCore u 0).getD 16 = 0 ∧ (stream u 0 0).mode = .out ∧ recordOk 0 0 (partRead u 0 64 24896) = true ∧ partPoisoned u 0 64 24896 = false ∧
      partPoisoned u 0 (at_ (partRead u 0 64 24896) 24 8) 1310784 = false ∧
      restoreRecord (partRead u 0 (at_ (partRead u 0 64 24896) 24 8) 1310784) = some g := by
  obtain ⟨d, hd, h⟩ := rec_crc (inSet 0)
  obtain ⟨g, h3⟩ := rec_restores d (inSet 0)
  have hh := rec_head d (inSet 0)
  have b := in_begins d 0 (by decide)
  have hp : partOfCore (devRec (recMems recCrc d) (inSet 0)) 0 = some 0 := partOfCore_devRec _ _
  have hr : recordOk 0 0 (recBytes d (inSet 0)) = true := by rw [recordOk, h d hd, hh.1, hh.2.1, hh.2.2.1]; simp
  refine ⟨devRec (recMems recCrc d) inCore, devRec (recMems recCrc d) (inSet 0), g, b.1, b.2.1, (in_state d 0).symm, by rw [hp]; rfl, b.2.2, hr, rfl, rfl, ?_⟩
  rw [show at_ (partRead (devRec (recMems recCrc d) (inSet 0)) 0 64 24896) 24 8 = 0x10040 from hh.2.2.2]; exact h3
/-- A switch-in of stream 1 from the record of stream 0, and one from a record whose CRC fails. -/
theorem test_meets_StreamSwitchesAndMigrationsComplete_other :
    ∃ s u, inService s 0 = true ∧ (core s 0).ctlBusy = false ∧
      u = modCore s 0 (fun k => { k with ctlStream := BitVec.ofNat 2 1, ctlAddr := BitVec.ofNat 48 ((64 : BitVec 48).toNat / 64 * 64) }) ∧
      (stream u 0 1).mode = .out ∧ crcHolds (partRead u 0 64 24896) = true ∧ recordOk 0 1 (partRead u 0 64 24896) = false := by
  obtain ⟨d, hd, h⟩ := rec_crc (inSet 1)
  have hh := rec_head d (inSet 1)
  have b := in_begins d 1 (by decide)
  have hr : recordOk 0 1 (recBytes d (inSet 1)) = false := by rw [recordOk, hh.2.1]; simp
  refine ⟨devRec (recMems recCrc d) inCore, devRec (recMems recCrc d) (inSet 1), b.1, b.2.1, (in_state d 1).symm, b.2.2, ?_, hr⟩
  exact (h d hd).trans (by simp)
theorem test_meets_StreamSwitchesAndMigrationsComplete_crc :
    ∃ s u, inService s 0 = true ∧ (core s 0).ctlBusy = false ∧
      u = modCore s 0 (fun k => { k with ctlStream := BitVec.ofNat 2 0, ctlAddr := BitVec.ofNat 48 ((64 : BitVec 48).toNat / 64 * 64) }) ∧
      (stream u 0 0).mode = .out ∧ crcHolds (partRead u 0 64 24896) = false := by
  obtain ⟨d, hd, h⟩ := rec_crc (inSet 0)
  have b := in_begins ((d + 1) % 2 ^ 32) 0 (by decide)
  refine ⟨devRec (recMems recCrc ((d + 1) % 2 ^ 32)) inCore, devRec (recMems recCrc ((d + 1) % 2 ^ 32)) (inSet 0), b.1, b.2.1, (in_state _ 0).symm, b.2.2, ?_⟩
  exact (h _ (Nat.mod_lt _ (by decide))).trans (by simp; omega)

theorem test_meets_MemAtomicCompletes_results :
    (let w : Nat := 8; let old : Nat := 2 ^ 64 - 1; (w = 4 ∨ w = 8) ∧ old < 2 ^ (8 * w)) := by decide

/-- BitternClaimsAndCompletes for an Awl core that claims its own target. -/
theorem test_meets_BitternClaimsAndCompletes_own :
    (let a : Agent := .awl 0 0; let c : Fin 3 := 1; let t : BitVec 6 := 4; let s : State := dev; let u : State := userLeave dev (.awl 0 0); silenced s a = false ∧ mayTarget a c.val t.toNat = true ∧ u = userLeave s (.awl 0 0) ∧ winner (bittern u c.val) c.val t.toNat = none) := by
  decide +kernel

/-! ### Well-formedness: one ill-formed command for each check, and the well-formed one beside it -/

/-- A header whose packet ends as R485 says for `n` parameter bytes. -/
def hN (n : Nat) : Hdr := { hC with tail := zeros (192 - n) }
theorem test_wf_packet_length : wellFormed (.ctxClose (hN 8) ⟨0, 0⟩) = true ∧ wellFormed (.ctxClose (hN 9) ⟨0, 0⟩) = false := by decide +kernel
theorem test_wf_objects : wellFormed (.nop { hN 0 with objs := [1] }) = false ∧ wellFormed (.nop { hN 0 with via := .mgmt .i3c, objs := [1] }) = true := by decide +kernel
theorem test_wf_register_width : wellFormed (.registerWrite .sup 0x0F0000071000 3 0) = false ∧ wellFormed (.registerWrite .sup 0x0F0000071000 4 0) = true := by decide
theorem test_wf_register_value : wellFormed (.registerWrite .sup 0x0F0000071000 1 256) = false ∧ wellFormed (.registerWrite .sup 0x0F0000071000 1 255) = true := by decide
theorem test_wf_line : wellFormed (.rds 65) = false ∧ wellFormed (.rdm 65) = false ∧ wellFormed (.snpinv 65) = false ∧ wellFormed (.rds 64) = true := by decide
theorem test_wf_line_data : wellFormed (.wbm 64 (zeros 63)) = false ∧ wellFormed (.wrcur 64 1 (zeros 65)) = false ∧ wellFormed (.invdata 0 []) = false ∧
    wellFormed (.wbm 64 (zeros 64)) = true := by decide +kernel
theorem test_wf_read_length : wellFormed (.rdcur 5 0) = false ∧ wellFormed (.rdcur 5 65) = false ∧ wellFormed (.rdcur 5 64) = true := by decide

/-! ### Words, packets and steps -/

/-- The opcode table gives no row any bits. -/
theorem test_no_words : decodeTableWord 16 0x0600 = none ∧ State.reset.withFetchWord 16 0x0600 = State.reset := ⟨rfl, rfl⟩
/-- The first words of R485's header in a packet of EYELET_SIGNAL (R361). -/
theorem test_packet_header :
    ((encode (.eyeletSignal { hN 12 with context := 0x12345, seq := 7, plen := 12 } ⟨5, 1, 0, 3⟩)).map (·.take 14)) =
      some [0x02, 0x06, 0, 0, 0x45, 0x23, 0x01, 0, 7, 0, 0, 0, 12, 0] := by decide
theorem test_idle_step : step State.reset = .next State.reset := rfl
/-- R652: the level of IVT_RST_N is held, and the command has left the queue. -/
theorem test_reset_pin : (match step { State.reset with pending := [.ivtRstN true] } with
    | .next t => t.pins.ivtRst && t.pending.isEmpty
    | _ => false) = true := by decide +kernel
/-- R355, R356, R362: a signal of 2 through the window wakes the sleeper that needs 2, and leaves COUNT 2 for its retry. -/
theorem test_window_signal_adds : (match exec (.eyeletWindowSignal (.awl 0) 0 16383 2) devServed with
    | .next t => decide ((eyelet t 16383).count = 2) && (eyelet t 16383).waiters.all (·.woken)
    | _ => false) = true := by decide +kernel

/-! ### Worked examples of the spec -/

/-- The Stitched worked example: groups 0 to 3 of row 0, under PRUNE_EXCESS. -/
theorem test_stitched_groups :
    stitchGroup .l8 2 [(0, 0x00, true), (1, 0x52, true), (2, 0x00, true), (3, 0xC9, true)] = ([(1, 0x52), (3, 0xC9)], false, 0) ∧
    stitchGroup .l8 2 [(0, 0x47, true), (1, 0x00, true), (2, 0xBA, true), (3, 0x4E, true)] = ([(0, 0x47), (3, 0x4E)], true, 1) ∧
    stitchGroup .l8 2 [(0, 0x00, true), (1, 0x00, true), (2, 0x00, true), (3, 0x3F, true)] = ([(0, 0x00), (3, 0x3F)], false, 0) ∧
    stitchGroup .l8 2 [(0, 0x00, true), (1, 0x00, true), (2, 0x00, true), (3, 0x00, true)] = ([(0, 0x00), (1, 0x00)], false, 0) := by decide
theorem test_stitched_size : stitchedSize .l8 4 = 2688 := by decide
/-- The index bytes of that example. -/
theorem test_stitched_index : packBits 2 [1, 3, 0, 3, 0, 3, 0, 1] = [0xCD, 0x4C] := by decide
/-- R226's example: EXTENT 8 by 4 with STRIDE[1] 6 may collide, with 8 it does not. -/
theorem test_collision_rule :
    mayCollide { vecAt 0 0 with rank := 2, ext := [8, 4, 1, 1, 1, 1], hi := [8, 4, 1, 1, 1, 1], str := [1, 6, 0, 0, 0, 0] } = true ∧
    mayCollide { vecAt 0 0 with rank := 2, ext := [8, 4, 1, 1, 1, 1], hi := [8, 4, 1, 1, 1, 1], str := [1, 8, 0, 0, 0, 0] } = false := by decide

end Sys2Proof.Machine.Tests
end

section
/-! PROOFS. The product of a processing element (R47, R80): one equation per case of its operands, and why the significand that the
conversion table gives a product of two log values never rounds to zero. -/
namespace Sys2Proof.Machine

/-! ### No entry of the conversion table is zero (R55) -/

/-- Each factor is 2^(2^-i) with 96 fraction bits, so at least 1. -/
theorem two_pow_le_of_mem_expFactors : ∀ f ∈ expFactors, 2 ^ 96 ≤ f := by decide

/-- The truncated fixed-point product of two numbers that are at least 1 is at least 1. -/
theorem two_pow_le_fixedMul {a b k : Nat} (ha : 2 ^ k ≤ a) (hb : 2 ^ k ≤ b) : 2 ^ k ≤ (a * b) >>> k := by
  rw [Nat.shiftRight_eq_div_pow, Nat.le_div_iff_mul_le (Nat.two_pow_pos k)]
  exact Nat.mul_le_mul ha hb

/-- The running product of the factors starts at 1 and never falls below it. -/
theorem two_pow_le_exp2Frac (n : Nat) : 2 ^ 96 ≤ exp2Frac n := by
  unfold exp2Frac
  refine List.foldlRecOn (motive := (2 ^ 96 ≤ ·)) _ _ (Nat.le_refl _) fun p hp fi hfi => ?_
  have hf : 2 ^ 96 ≤ fi.1 := two_pow_le_of_mem_expFactors _ (List.of_mem_zip hfi).1
  split
  · exact two_pow_le_fixedMul hp hf
  · exact hp

theorem tableT_pos (j : Nat) : 0 < tableT j := by
  have h := two_pow_le_exp2Frac (j * 65536)
  rw [tableT, Nat.shiftRight_eq_div_pow]
  exact Nat.div_pos (by omega) (Nat.two_pow_pos 48)

/-! ### Rounding without subnormals keeps a significand above zero (R45, R80) -/

/-- A positive significand stays positive when the last place takes its carry, also where that carry makes a new leading bit. -/
theorem carried_pos {lo c frac : Nat} {q : Int} {b : Bool} (h : 0 < lo) :
    0 < (if lo + c = 2 ^ (frac + 1) then (2 ^ frac, q + 1, b) else (lo + c, q, b)).1 := by
  split
  · exact Nat.two_pow_pos frac
  · exact Nat.add_pos_left h c

/-- The shift that rounding takes stops at the leading bit, and rounding up only adds to what is left. -/
theorem roundMan_pos (frac : Nat) (emin : Int) (sr : Option Nat) {man : Nat} (exp : Int) (h : 0 < man) :
    0 < (roundMan frac emin false sr man exp).1 := by
  have hlead : 0 < man >>> (finExp man exp - frac - exp).toNat := by
    have hs : (finExp man exp - frac - exp).toNat ≤ man.log2 := by simp only [finExp]; omega
    rw [Nat.shiftRight_eq_div_pow]
    have hpow : 2 ^ (finExp man exp - frac - exp).toNat ≤ man :=
      Nat.le_trans (Nat.pow_le_pow_right Nat.two_pos hs) (Nat.log2_self_le (Nat.ne_of_gt h))
    exact Nat.div_pos hpow (Nat.two_pow_pos _)
  simp only [roundMan, Bool.false_and, Bool.false_eq_true, if_false]
  split
  · rw [Nat.shiftLeft_eq]
    exact Nat.mul_pos h (Nat.two_pow_pos _)
  · cases sr <;> exact carried_pos hlead

/-- `roundMan` is made a variable before the two sides are compared: the kernel would otherwise evaluate it on a table entry. -/
theorem t36_fst (sr : Option Nat) (j : Nat) : (t36 sr j).1 = (roundMan 36 0 false sr (tableT j) (-48)).1 := by
  generalize hF : t36 = F
  delta t36 at hF
  obtain ⟨R, hR⟩ : ∃ R, roundMan = R := ⟨_, rfl⟩
  rw [hR] at hF ⊢
  subst hF
  rfl

theorem t36_pos (sr : Option Nat) (j : Nat) : 0 < (t36 sr j).1 := by
  rw [t36_fst]
  exact roundMan_pos 36 0 sr (-48) (tableT_pos j)

/-! ### The cases of a product (R47, R80) -/

@[simp] theorem peProduct_nan_left (l : Bool) (v : Val) : peProduct (.nan l) v = (.nan false, false) := by
  cases v <;> rfl

@[simp] theorem peProduct_nan_right (v : Val) (l : Bool) : peProduct v (.nan l) = (.nan false, false) := by
  cases v <;> rfl

@[simp] theorem peProduct_zero_log (x y : Bool) (t : Int) : peProduct (.zero x) (.log y t) = (.zero (xor x y), false) := rfl

@[simp] theorem peProduct_log_zero (x y : Bool) (t : Int) : peProduct (.log y t) (.zero x) = (.zero (xor y x), false) := rfl

@[simp] theorem peProduct_zero_zero (x y : Bool) : peProduct (.zero x) (.zero y) = (.zero (xor x y), false) := rfl

/-- `t36` is made a variable before the two sides are compared, for the reason given at `t36_fst`. -/
theorem peProduct_log_log (x y : Bool) (t u : Int) :
    peProduct (.log x t) (.log y u) =
      (.fin (xor x y) (t36 none ((t + u) % 256).toNat).1 ((t36 none ((t + u) % 256).toNat).2 + (t + u) / 256),
        decide ((t + u) % 256 ≠ 0)) := by
  generalize hP : peProduct = P
  delta peProduct at hP
  obtain ⟨T, hT⟩ : ∃ T, t36 = T := ⟨_, rfl⟩
  rw [hT] at hP ⊢
  subst hP
  rfl

/-- Settles O15, by the cases of the operands: the significand of a product of two log values is a rounded table entry, which is
positive. -/
theorem productsFollowTheirOperands : Obligations.ProductsFollowTheirOperands := by
  refine ⟨fun v l => ⟨?_, ?_⟩, fun x y t => ⟨?_, ?_, ?_⟩, fun x y t u => ?_⟩
  · rw [peProduct_nan_left]
  · rw [peProduct_nan_right]
  · rw [peProduct_zero_log]
  · rw [peProduct_log_zero]
  · rw [peProduct_zero_zero]
  · rw [peProduct_log_log]
    exact ⟨_, _, rfl, t36_pos none _⟩

end Sys2Proof.Machine
end

section
/-! PROOFS. A claim of a tally (R272): the fields of a claim word, a tally after a write of it, and the two cases of a claim. -/
namespace Sys2Proof.Machine

/-! ### The fields of a claim word -/

section
variable {epoch value : Nat} (he : epoch < 2 ^ 30) (hv : value < 2 ^ 32) (done exhausted : Bool)

theorem b2n_le_one (b : Bool) : b2n b ≤ 1 := by cases b <;> decide

theorem b2n_beq_one (b : Bool) : (b2n b == 1) = b := by cases b <;> rfl

include he hv

/-- The four fields of a claim word lie in their own bits, so none of them carries into the next. -/
theorem claimWord_fields :
    claimWord done exhausted epoch value % 2 ^ 32 = value ∧ claimWord done exhausted epoch value / 2 ^ 32 % 2 ^ 30 = epoch ∧
      claimWord done exhausted epoch value / 2 ^ 62 % 2 = b2n exhausted ∧
      claimWord done exhausted epoch value / 2 ^ 63 = b2n done := by
  have hd := b2n_le_one done
  have hx := b2n_le_one exhausted
  unfold claimWord
  omega

theorem claimWord_value : claimWord done exhausted epoch value % 2 ^ 32 = value := (claimWord_fields he hv done exhausted).1

theorem claimWord_epoch : claimWord done exhausted epoch value / 2 ^ 32 % 2 ^ 30 = epoch := (claimWord_fields he hv done exhausted).2.1

theorem claimWord_lt : claimWord done exhausted epoch value < 2 ^ 64 := by
  obtain ⟨-, -, -, hdone⟩ := claimWord_fields he hv done exhausted
  have hd := b2n_le_one done
  omega

theorem bitOf_claimWord_exhausted : bitOf (claimWord done exhausted epoch value) 62 = exhausted := by
  obtain ⟨-, -, hexhausted, -⟩ := claimWord_fields he hv done exhausted
  rw [bitOf, Nat.shiftRight_eq_div_pow, hexhausted, b2n_beq_one]

theorem bitOf_claimWord_done : bitOf (claimWord done exhausted epoch value) 63 = done := by
  obtain ⟨-, -, -, hdone⟩ := claimWord_fields he hv done exhausted
  rw [bitOf, Nat.shiftRight_eq_div_pow, hdone, Nat.mod_eq_of_lt (Nat.lt_succ_of_le (b2n_le_one done)), b2n_beq_one]

end

/-! ### A tally after a write of a tally -/

theorem tally_setTally {s : State} (h : twf ({} : Tally) s.tallies = true) (t : Nat) (x : Tally) : tally (setTally s t x) t = x :=
  tget_tput h t x

theorem tally_setTally_ne {s : State} (h : twf ({} : Tally) s.tallies = true) {r t : Nat} (hr : r ≠ t) (x : Tally) :
    tally (setTally s t x) r = tally s r :=
  tget_tput_ne h hr x

/-! ### The two cases of a claim -/

/-- The tally that a claim of `n` of its values leaves while values are left. -/
def claimedTally (x : Tally) (n : Nat) : Tally := { x with value := BitVec.ofNat 32 (min (x.value.toNat + n) x.limit.toNat) }

/-- The new VALUE is at most LIMIT, so it fits its 32 bits. -/
theorem claimedTally_value (x : Tally) (n : Nat) : (claimedTally x n).value.toNat = min (x.value.toNat + n) x.limit.toNat := by
  rw [claimedTally, BitVec.toNat_ofNat]
  exact Nat.mod_eq_of_lt (Nat.lt_of_le_of_lt (Nat.min_le_right _ _) x.limit.isLt)

section
variable (s : State) (p t n : Nat)

theorem tallyClaim_of_limit_le (h : (tally s t).limit.toNat ≤ (tally s t).value.toNat) :
    tallyClaim s p t n = (claimWord false true (tally s t).epoch.toNat (tally s t).value.toNat, s) :=
  if_pos h

theorem tallyClaim_of_lt_limit (h : (tally s t).value.toNat < (tally s t).limit.toNat) :
    tallyClaim s p t n =
      (claimWord (doneBit s p (tally s t) (tally s t).value.toNat) false (tally s t).epoch.toNat (tally s t).value.toNat,
        setTally s t (claimedTally (tally s t) n)) :=
  if_neg (Nat.not_le.mpr h)

/-- In both cases the claim word carries EPOCH and VALUE. -/
theorem tallyClaim_word : ∃ done exhausted,
    (tallyClaim s p t n).1 = claimWord done exhausted (tally s t).epoch.toNat (tally s t).value.toNat := by
  by_cases h : (tally s t).limit.toNat ≤ (tally s t).value.toNat
  · exact ⟨_, _, congrArg Prod.fst (tallyClaim_of_limit_le s p t n h)⟩
  · exact ⟨_, _, congrArg Prod.fst (tallyClaim_of_lt_limit s p t n (Nat.not_le.mp h))⟩

theorem tallyClaim_value : (tallyClaim s p t n).1 % 2 ^ 32 = (tally s t).value.toNat := by
  obtain ⟨done, exhausted, hw⟩ := tallyClaim_word s p t n
  rw [hw, claimWord_value (tally s t).epoch.isLt (tally s t).value.isLt]

end

/-- Settles O29, by the two cases of a claim. The next claim returns the VALUE of the tally that the first one leaves, which is the
first VALUE moved on by n up to LIMIT. -/
theorem claimNeverPassesLimit : Obligations.ClaimNeverPassesLimit := by
  rintro s u p t n w x hs rfl rfl rfl
  have he := (tally s t).epoch.isLt
  have hv := (tally s t).value.isLt
  obtain ⟨done, exhausted, hw⟩ := tallyClaim_word s p t n
  refine ⟨tallyClaim_value s p t n, ?epoch, ?width, fun hlimit => ?exhausted, fun hlimit => ?claimed⟩
  case epoch => rw [hw, claimWord_epoch he hv]
  case width => exact hw ▸ claimWord_lt he hv done exhausted
  case exhausted =>
    rw [tallyClaim_of_limit_le s p t n hlimit]
    exact ⟨bitOf_claimWord_exhausted he hv false true, bitOf_claimWord_done he hv false true, rfl⟩
  case claimed =>
    rw [tallyClaim_of_lt_limit s p t n hlimit]
    have hleft : tally (setTally s t (claimedTally (tally s t) n)) t = claimedTally (tally s t) n := tally_setTally hs t _
    refine ⟨bitOf_claimWord_exhausted he hv _ false, bitOf_claimWord_done he hv _ false, ?_, ?_,
      fun r hr => tally_setTally_ne hs hr _, rfl, rfl, rfl, fun q m => ?_⟩
    · rw [hleft, claimedTally_value]
    · rw [hleft]
      rfl
    · rw [tallyClaim_value, hleft, claimedTally_value]

end Sys2Proof.Machine
end

section
/-! PROOFS. Claims and completions at a Bittern controller (R381, R385): the controller that a claim and a completion leave, and the
cases of an access by an agent. -/
namespace Sys2Proof.Machine

/-! ### A controller after a change of one target or one group -/

theorem btnSrc_congr {b b' : Bittern} (h : b.srcs = b'.srcs) (c k : Nat) : btnSrc b c k = btnSrc b' c k := by
  rw [btnSrc, btnSrc, h]

theorem btnTgt_congr {b b' : Bittern} (h : b.tgts = b'.tgts) (t : Nat) : btnTgt b t = btnTgt b' t := by
  rw [btnTgt, btnTgt, h]

@[simp] theorem btnTgt_setBtnSrc (b : Bittern) (c k : Nat) (x : BtnSrc) (t : Nat) : btnTgt (setBtnSrc b c k x) t = btnTgt b t := rfl

/-- A controller with one target changed. -/
def modTgt (b : Bittern) (t : Nat) (f : BtnTgt → BtnTgt) : Bittern := { b with tgts := tmod {} t f b.tgts }

@[simp] theorem modTgt_srcs (b : Bittern) (t : Nat) (f : BtnTgt → BtnTgt) : (modTgt b t f).srcs = b.srcs := rfl

theorem btnTgt_modTgt {b : Bittern} (h : twf ({} : BtnTgt) b.tgts = true) (t : Nat) (f : BtnTgt → BtnTgt) :
    btnTgt (modTgt b t f) t = f (btnTgt b t) :=
  tget_tput h t _

theorem btnTgt_modTgt_ne_default {b : Bittern} {t : Nat} {f : BtnTgt → BtnTgt} (h : f (btnTgt b t) ≠ {}) :
    btnTgt (modTgt b t f) t = f (btnTgt b t) :=
  tget_tput_ne_default h t _

/-- A controller after the start of a group's hold-off timer, where the group has one (R383). -/
def startHoldoff (b : Bittern) (g : Nat) : Bittern :=
  if (btnGrp b g).holdoff = 0 then b else { b with grps := tmod {} g (fun y => { y with running := true }) b.grps }

@[simp] theorem startHoldoff_srcs (b : Bittern) (g : Nat) : (startHoldoff b g).srcs = b.srcs := by
  unfold startHoldoff; split <;> rfl

@[simp] theorem startHoldoff_tgts (b : Bittern) (g : Nat) : (startHoldoff b g).tgts = b.tgts := by
  unfold startHoldoff; split <;> rfl

theorem btnGrp_startHoldoff_running {b : Bittern} {g : Nat} (h : (btnGrp b g).holdoff ≠ 0) :
    (btnGrp (startHoldoff b g) g).running = true := by
  have hne : ({ btnGrp b g with running := true } : BtnGrp) ≠ {} := fun e => Bool.noConfusion (congrArg BtnGrp.running e)
  rw [startHoldoff, if_neg h]
  exact congrArg BtnGrp.running (tget_tput_ne_default hne g b.grps)

/-! ### The controller that a claim leaves -/

/-- A controller after a claim of source `k` for target `t`. -/
def claimedBittern (b : Bittern) (c t k : Nat) : Bittern :=
  startHoldoff
    (modTgt (setBtnSrc b c k { btnSrc b c k with pend := false, active := true }) t
      (fun y => { y with stack := (BitVec.ofNat 10 k, (btnSrc b c k).prio) :: y.stack }))
    (btnSrc b c k).group.toNat

section
variable (b : Bittern) (c t k : Nat)

/-- No source starts up ACTIVE, so a claimed source is always listed. -/
theorem claimedSrc_ne_btnDefault (x : BtnSrc) : ({ x with pend := false, active := true } : BtnSrc) ≠ btnDefault c k := fun e =>
  Bool.noConfusion ((congrArg BtnSrc.active e).trans (btnDefault_active c k))

theorem claimedBittern_ne_default : claimedBittern b c t k ≠ {} := fun e =>
  setBtnSrc_ne_nil b c k _ (claimedSrc_ne_btnDefault c k (btnSrc b c k)) (by simpa [claimedBittern] using congrArg Bittern.srcs e)

theorem btnSrc_claimedBittern :
    btnSrc (claimedBittern b c t k) c k = { btnSrc b c k with pend := false, active := true } :=
  (btnSrc_congr (by simp [claimedBittern]) c k).trans (btnSrc_setBtnSrc_ne b c k _ (claimedSrc_ne_btnDefault c k _))

theorem stack_claimedBittern :
    (btnTgt (claimedBittern b c t k) t).stack = (BitVec.ofNat 10 k, (btnSrc b c k).prio) :: (btnTgt b t).stack := by
  rw [claimedBittern, btnTgt_congr (startHoldoff_tgts _ _), btnTgt_modTgt_ne_default]
  · rw [btnTgt_setBtnSrc]
  · exact fun e => List.cons_ne_nil _ _ (congrArg BtnTgt.stack e)

theorem running_claimedBittern (h : (btnGrp b (btnSrc b c k).group.toNat).holdoff ≠ 0) :
    (btnGrp (claimedBittern b c t k) (btnSrc b c k).group.toNat).running = true :=
  btnGrp_startHoldoff_running h

end

/-! ### Claims (R381) -/

theorem btnClaim_of_winner_none {s : State} {c t : Nat} (h : winner (bittern s c) c t = none) : btnClaim s c t = (0, s) := by
  simp only [btnClaim, h]

theorem btnClaim_of_winner_some {s : State} {c t k : Nat} (h : winner (bittern s c) c t = some k) :
    btnClaim s c t = (2 ^ 31 + k, modBtn s c (claimedBittern · c t k)) := by
  simp only [btnClaim, h]
  rfl

theorem bittern_modBtn_claimedBittern (s : State) (c t k : Nat) :
    bittern (modBtn s c (claimedBittern · c t k)) c = claimedBittern (bittern s c) c t k :=
  bittern_modBtn_ne_default s c _ (claimedBittern_ne_default (bittern s c) c t k)

/-- The state in which an agent's claim is answered: an Awl core that claims ends its window wait (R359). -/
def claimState (s : State) (a : Agent) : State :=
  match a with
  | .awl x y => userLeave s (.awl x y)
  | _ => s

theorem eq_claimState {a : Agent} {s u : State} (hawl : ∀ x y, a = .awl x y → u = userLeave s (.awl x y))
    (hother : (∀ x y, a ≠ .awl x y) → u = s) : u = claimState s a := by
  cases a with
  | awl x y => exact hawl x y rfl
  | hostMgmt => exact hother nofun
  | hostPage q => exact hother nofun
  | ctl d k => exact hother nofun
  | sup => exact hother nofun

/-! ### Completions (R381) -/

/-- A controller after the completion of source `k`, which leaves `rest` on the stack of target `t`. -/
def completedBittern (b : Bittern) (c t k : Nat) (rest : List (BitVec 10 × BitVec 4)) : Bittern :=
  setBtnSrc (modTgt b t (fun y => { y with stack := rest })) c k { btnSrc b c k with active := false }

theorem stack_completedBittern {b : Bittern} (h : twf ({} : BtnTgt) b.tgts = true) (c t k : Nat)
    (rest : List (BitVec 10 × BitVec 4)) : (btnTgt (completedBittern b c t k rest) t).stack = rest := by
  rw [completedBittern, btnTgt_setBtnSrc, btnTgt_modTgt h]

theorem active_completedBittern {b : Bittern} (h : twf none b.srcs = true) (c t k : Nat)
    (rest : List (BitVec 10 × BitVec 4)) : (btnSrc (completedBittern b c t k rest) c k).active = false :=
  congrArg BtnSrc.active (btnSrc_setBtnSrc _ c k _ h)

/-- A target after a completion out of order. -/
def orderErrTgt (src : Nat) (y : BtnTgt) : BtnTgt := { y with orderErr := true, orderSrc := BitVec.ofNat 10 src }

section
variable {s : State} {c t src : Nat}

theorem btnCompleteOp_of_top {top : BitVec 10 × BitVec 4} {rest : List (BitVec 10 × BitVec 4)}
    (hstack : (btnTgt (bittern s c) t).stack = top :: rest) (htop : top.1.toNat = src) :
    btnCompleteOp s c t src = modBtn s c (completedBittern · c t src rest) := by
  simp only [btnCompleteOp, hstack, htop, if_true]
  rfl

theorem btnCompleteOp_of_not_top (h : ∀ top ∈ (btnTgt (bittern s c) t).stack.head?, top.1.toNat ≠ src) :
    btnCompleteOp s c t src = fire (modBtn s c (modTgt · t (orderErrTgt src))) c (claimOrderSource c) := by
  cases hstack : (btnTgt (bittern s c) t).stack with
  | nil =>
    simp only [btnCompleteOp, hstack]
    rfl
  | cons top rest =>
    have htop : top.1.toNat ≠ src := h top (by rw [hstack]; rfl)
    simp only [btnCompleteOp, hstack, htop, if_false]
    rfl

theorem btnTgt_of_orderErr (hs : BitternsCanonical s) (n : Nat) :
    btnTgt (bittern (fire (modBtn s c (modTgt · t (orderErrTgt src))) c n) c) t = orderErrTgt src (btnTgt (bittern s c) t) := by
  obtain ⟨-, -, htgts⟩ := hs.2 c
  rw [btnTgt_congr (fire_tgts _ _ _), bittern_modBtn s c _ hs]
  exact btnTgt_modTgt htgts t _

end

/-! ### The cases of an agent's access (R287, R385) -/

section
variable {s : State} {a : Agent} {c t : Nat}

theorem exec_btnTgtClaim (s : State) (a : Agent) (p : BtnPlace) :
    exec (.btnTgtClaim a p) s = .next (btnTgtClaimOp s a p.ctrl.val p.target.toNat) := rfl

theorem exec_btnTgtComplete (s : State) (a : Agent) (p : BtnPlace) (src : BitVec 10) :
    exec (.btnTgtComplete a p src) s = .next (btnTgtCompleteOp s a p.ctrl.val p.target.toNat src.toNat) := rfl

theorem btnTgtClaimOp_of_mayTarget (hs : silenced s a = false) (hm : mayTarget a c t = true) :
    btnTgtClaimOp s a c t = retAgent (btnClaim (claimState s a) c t).2 a (btnClaim (claimState s a) c t).1 := by
  simp only [btnTgtClaimOp, hs, hm, Bool.false_eq_true, if_false, Bool.not_true]
  cases a <;> rfl

theorem btnTgtClaimOp_of_not_mayTarget (hs : silenced s a = false) (hm : mayTarget a c t = false) :
    btnTgtClaimOp s a c t = retAgent (regError s) a 0 := by
  simp only [btnTgtClaimOp, hs, hm, Bool.false_eq_true, if_false, Bool.not_false, if_true]

theorem btnTgtClaimOp_of_silenced (hs : silenced s a = true) : btnTgtClaimOp s a c t = s :=
  if_pos hs

theorem btnTgtCompleteOp_of_mayTarget (hs : silenced s a = false) (hm : mayTarget a c t = true) (src : Nat) :
    btnTgtCompleteOp s a c t src = btnCompleteOp s c t src := by
  simp only [btnTgtCompleteOp, hs, hm, Bool.false_eq_true, if_false, if_true]

theorem btnTgtCompleteOp_of_not_mayTarget (hs : silenced s a = false) (hm : mayTarget a c t = false) (src : Nat) :
    btnTgtCompleteOp s a c t src = regError s := by
  simp only [btnTgtCompleteOp, hs, hm, Bool.false_eq_true, if_false]

theorem btnTgtCompleteOp_of_silenced (hs : silenced s a = true) (src : Nat) : btnTgtCompleteOp s a c t src = s :=
  if_pos hs

end

/-- Settles O11, by the cases of an access: the agent may not use the target or is silenced, a claim finds a winner or none, and a
completion names the top of the stack or not. A claim needs no canonical form: what it writes is never at its default. -/
theorem bitternClaimsAndCompletes : Obligations.BitternClaimsAndCompletes := by
  refine ⟨fun a c t s u hs hm hawl hother => ?claim,
    fun a c t src s hs hm hcanon => ⟨fun top rest hstack htop => ?pop, fun htop => ?order⟩,
    fun a c t src s => ⟨fun hs hm => ?denied, fun hs => ?silenced⟩⟩
  case claim =>
    obtain rfl := eq_claimState hawl hother
    rw [exec_btnTgtClaim, btnTgtClaimOp_of_mayTarget hs hm]
    refine ⟨fun hw => ?_, fun k hw => ?_⟩
    · rw [btnClaim_of_winner_none hw]
    · rw [btnClaim_of_winner_some hw]
      refine ⟨modBtn _ c.val (claimedBittern · c.val t.toNat k), rfl, ?_⟩
      rw [bittern_modBtn_claimedBittern]
      exact ⟨btnSrc_claimedBittern _ _ _ _, stack_claimedBittern _ _ _ _, running_claimedBittern _ _ _ _,
        modBtn_mem _ _ _, modBtn_eyelets _ _ _, modBtn_cores _ _ _⟩
  case pop =>
    obtain ⟨hsrcs, -, htgts⟩ := hcanon.2 c.val
    rw [exec_btnTgtComplete, btnTgtCompleteOp_of_mayTarget hs hm, btnCompleteOp_of_top hstack htop]
    refine ⟨modBtn s c.val (completedBittern · c.val t.toNat src.toNat rest), rfl, ?_⟩
    rw [bittern_modBtn s c.val _ hcanon]
    exact ⟨stack_completedBittern htgts _ _ _ rest, active_completedBittern hsrcs _ _ _ rest, modBtn_mem _ _ _, modBtn_cores _ _ _⟩
  case order =>
    have hnot : ∀ top ∈ (btnTgt (bittern s c.val) t.toNat).stack.head?, top.1.toNat ≠ src.toNat := fun top hmem e =>
      htop top hmem (BitVec.eq_of_toNat_eq e)
    rw [exec_btnTgtComplete, btnTgtCompleteOp_of_mayTarget hs hm, btnCompleteOp_of_not_top hnot]
    refine ⟨_, rfl, ?_⟩
    rw [btnTgt_of_orderErr hcanon]
    exact ⟨rfl, rfl, by simp [orderErrTgt], fire_pends _ _ _, by simp, by simp⟩
  case denied =>
    rw [exec_btnTgtClaim, exec_btnTgtComplete, btnTgtClaimOp_of_not_mayTarget hs hm, btnTgtCompleteOp_of_not_mayTarget hs hm]
    exact ⟨rfl, rfl⟩
  case silenced =>
    rw [exec_btnTgtClaim, exec_btnTgtComplete, btnTgtClaimOp_of_silenced hs, btnTgtCompleteOp_of_silenced hs]
    exact ⟨rfl, rfl⟩

end Sys2Proof.Machine
end

section
/-! PROOFS. Command packets read back (R485, R501): the parameters of each command, the header around them, and the whole packet. -/
namespace Sys2Proof.Machine

-- One theorem after another: many side by side reserve more memory than the check allows.
set_option Elab.async false

/-! ### The parameters of each command -/

theorem bytesCtxOpen_length (p : CtxOpenP) : (bytesCtxOpen p).length = 40 := by simp [bytesCtxOpen]

theorem parseCtxOpen_bytesCtxOpen (p : CtxOpenP) (r : List Byte) : parseCtxOpen (bytesCtxOpen p ++ r) = p := by
  simp [parseCtxOpen, bytesCtxOpen, pfld_step, pfld_head]

theorem bytesCtxClose_length (p : CtxCloseP) : (bytesCtxClose p).length = 8 := by simp [bytesCtxClose]

theorem parseCtxClose_bytesCtxClose (p : CtxCloseP) (r : List Byte) : parseCtxClose (bytesCtxClose p ++ r) = p := by
  simp [parseCtxClose, bytesCtxClose, pfld_step, pfld_head]

theorem bytesResultPool_length (p : ResultPoolP) : (bytesResultPool p).length = 16 := by simp [bytesResultPool]

theorem parseResultPool_bytesResultPool (p : ResultPoolP) (r : List Byte) : parseResultPool (bytesResultPool p ++ r) = p := by
  simp [parseResultPool, bytesResultPool, pfld_step, pfld_head]

theorem bytesJobStart_length (p : JobStartP) : (bytesJobStart p).length = 16 := by simp [bytesJobStart]

theorem parseJobStart_bytesJobStart (p : JobStartP) (r : List Byte) : parseJobStart (bytesJobStart p ++ r) = p := by
  simp [parseJobStart, bytesJobStart, pfld_step, pfld_head]

theorem bytesJobCtl_length (p : JobCtlP) : (bytesJobCtl p).length = 16 := by simp [bytesJobCtl]

theorem parseJobCtl_bytesJobCtl (p : JobCtlP) (r : List Byte) : parseJobCtl (bytesJobCtl p ++ r) = p := by
  simp [parseJobCtl, bytesJobCtl, pfld_step, pfld_head]

theorem bytesCkptFetch_length (p : CkptFetchP) : (bytesCkptFetch p).length = 40 := by simp [bytesCkptFetch]

theorem parseCkptFetch_bytesCkptFetch (p : CkptFetchP) (r : List Byte) : parseCkptFetch (bytesCkptFetch p ++ r) = p := by
  simp [parseCkptFetch, bytesCkptFetch, pfld_step, pfld_head]

theorem bytesFabricRoute_length (p : FabricRouteP) : (bytesFabricRoute p).length = 16 := by simp [bytesFabricRoute]

theorem parseFabricRoute_bytesFabricRoute (p : FabricRouteP) (r : List Byte) : parseFabricRoute (bytesFabricRoute p ++ r) = p := by
  simp [parseFabricRoute, bytesFabricRoute, pfld_step, pfld_head]

theorem bytesFabricAddr_length (p : FabricAddrP) : (bytesFabricAddr p).length = 8 := by simp [bytesFabricAddr]

theorem parseFabricAddr_bytesFabricAddr (p : FabricAddrP) (r : List Byte) : parseFabricAddr (bytesFabricAddr p ++ r) = p := by
  simp [parseFabricAddr, bytesFabricAddr, pfld_step, pfld_head]

theorem bytesFabricDepart_length (p : FabricDepartP) : (bytesFabricDepart p).length = 8 := by simp [bytesFabricDepart]

theorem parseFabricDepart_bytesFabricDepart (p : FabricDepartP) (r : List Byte) : parseFabricDepart (bytesFabricDepart p ++ r) = p := by
  simp [parseFabricDepart, bytesFabricDepart, pfld_step, pfld_head]

theorem bytesFabricDiscover_length (p : FabricDiscoverP) : (bytesFabricDiscover p).length = 8 := by simp [bytesFabricDiscover]

theorem parseFabricDiscover_bytesFabricDiscover (p : FabricDiscoverP) (r : List Byte) : parseFabricDiscover (bytesFabricDiscover p ++ r) = p := by
  simp [parseFabricDiscover, bytesFabricDiscover, pfld_step, pfld_head]

theorem bytesMemFill_length (p : MemFillP) : (bytesMemFill p).length = 8 := by simp [bytesMemFill]

theorem parseMemFill_bytesMemFill (p : MemFillP) (r : List Byte) : parseMemFill (bytesMemFill p ++ r) = p := by
  simp [parseMemFill, bytesMemFill, pfld_head]

theorem bytesMemAtomic_length (p : MemAtomicP) : (bytesMemAtomic p).length = 32 := by simp [bytesMemAtomic]

theorem parseMemAtomic_bytesMemAtomic (p : MemAtomicP) (r : List Byte) : parseMemAtomic (bytesMemAtomic p ++ r) = p := by
  simp [parseMemAtomic, bytesMemAtomic, pfld_step, pfld_head]

theorem bytesHostCopy_length (p : HostCopyP) : (bytesHostCopy p).length = 24 := by simp [bytesHostCopy]

theorem parseHostCopy_bytesHostCopy (p : HostCopyP) (r : List Byte) : parseHostCopy (bytesHostCopy p ++ r) = p := by
  simp [parseHostCopy, bytesHostCopy, pfld_step, pfld_head]

theorem bytesHostRange_length (p : HostRangeP) : (bytesHostRange p).length = 24 := by simp [bytesHostRange]

theorem parseHostRange_bytesHostRange (p : HostRangeP) (r : List Byte) : parseHostRange (bytesHostRange p ++ r) = p := by
  simp [parseHostRange, bytesHostRange, pfld_step, pfld_head]

theorem bytesCopy_length (p : CopyP) : (bytesCopy p).length = 24 := by simp [bytesCopy]

theorem parseCopy_bytesCopy (p : CopyP) (r : List Byte) : parseCopy (bytesCopy p ++ r) = p := by
  simp [parseCopy, bytesCopy, pfld_step, pfld_head]

theorem bytesGather_length (p : GatherP) : (bytesGather p).length = 32 := by simp [bytesGather]

theorem parseGather_bytesGather (p : GatherP) (r : List Byte) : parseGather (bytesGather p ++ r) = p := by
  simp [parseGather, bytesGather, pfld_step, pfld_head]

theorem bytesScatter_length (p : ScatterP) : (bytesScatter p).length = 32 := by simp [bytesScatter]

theorem parseScatter_bytesScatter (p : ScatterP) (r : List Byte) : parseScatter (bytesScatter p ++ r) = p := by
  simp [parseScatter, bytesScatter, pfld_step, pfld_head]

theorem bytesDescCheck_length (p : DescCheckP) : (bytesDescCheck p).length = 16 := by simp [bytesDescCheck]

theorem parseDescCheck_bytesDescCheck (p : DescCheckP) (r : List Byte) : parseDescCheck (bytesDescCheck p ++ r) = p := by
  simp [parseDescCheck, bytesDescCheck, pfld_step, pfld_head]

theorem bytesFlowSend_length (p : FlowSendP) : (bytesFlowSend p).length = 24 := by simp [bytesFlowSend]

theorem parseFlowSend_bytesFlowSend (p : FlowSendP) (r : List Byte) : parseFlowSend (bytesFlowSend p ++ r) = p := by
  simp [parseFlowSend, bytesFlowSend, pfld_step, pfld_head]

theorem bytesGemm_length (p : GemmP) : (bytesGemm p).length = 32 := by simp [bytesGemm]

theorem parseGemm_bytesGemm (p : GemmP) (r : List Byte) : parseGemm (bytesGemm p ++ r) = p := by
  simp [parseGemm, bytesGemm, pfld_step, pfld_head]

theorem bytesSpmm_length (p : SpmmP) : (bytesSpmm p).length = 48 := by simp [bytesSpmm]

theorem parseSpmm_bytesSpmm (p : SpmmP) (r : List Byte) : parseSpmm (bytesSpmm p ++ r) = p := by
  simp [parseSpmm, bytesSpmm, pfld_step, pfld_head]

theorem bytesSpmmT_length (p : SpmmTP) : (bytesSpmmT p).length = 48 := by simp [bytesSpmmT]

theorem parseSpmmT_bytesSpmmT (p : SpmmTP) (r : List Byte) : parseSpmmT (bytesSpmmT p ++ r) = p := by
  simp [parseSpmmT, bytesSpmmT, pfld_step, pfld_head]

theorem bytesSounding_length (p : SoundingP) : (bytesSounding p).length = 48 := by simp [bytesSounding]

theorem parseSounding_bytesSounding (p : SoundingP) (r : List Byte) : parseSounding (bytesSounding p ++ r) = p := by
  simp [parseSounding, bytesSounding, pfld_step, pfld_head]

theorem bytesFenMerge_length (p : FenMergeP) : (bytesFenMerge p).length = 24 := by simp [bytesFenMerge]

theorem parseFenMerge_bytesFenMerge (p : FenMergeP) (r : List Byte) : parseFenMerge (bytesFenMerge p ++ r) = p := by
  simp [parseFenMerge, bytesFenMerge, pfld_step, pfld_head]

theorem bytesTopk_length (p : TopkP) : (bytesTopk p).length = 40 := by simp [bytesTopk]

theorem parseTopk_bytesTopk (p : TopkP) (r : List Byte) : parseTopk (bytesTopk p ++ r) = p := by
  simp [parseTopk, bytesTopk, pfld_step, pfld_head]

theorem bytesOptUpdate_length (p : OptUpdateP) : (bytesOptUpdate p).length = 96 := by simp [bytesOptUpdate]

theorem parseOptUpdate_bytesOptUpdate (p : OptUpdateP) (r : List Byte) : parseOptUpdate (bytesOptUpdate p ++ r) = p := by
  simp [parseOptUpdate, bytesOptUpdate, pfld_step, pfld_head]

theorem bytesFenScatter_length (p : FenScatterP) : (bytesFenScatter p).length = 32 := by simp [bytesFenScatter]

theorem parseFenScatter_bytesFenScatter (p : FenScatterP) (r : List Byte) : parseFenScatter (bytesFenScatter p ++ r) = p := by
  simp [parseFenScatter, bytesFenScatter, pfld_step, pfld_head]

theorem bytesCompress_length (p : CompressP) : (bytesCompress p).length = 24 := by simp [bytesCompress]

theorem parseCompress_bytesCompress (p : CompressP) (r : List Byte) : parseCompress (bytesCompress p ++ r) = p := by
  simp [parseCompress, bytesCompress, pfld_step, pfld_head]

theorem bytesPrune_length (p : PruneP) : (bytesPrune p).length = 32 := by simp [bytesPrune]

theorem parsePrune_bytesPrune (p : PruneP) (r : List Byte) : parsePrune (bytesPrune p ++ r) = p := by
  simp [parsePrune, bytesPrune, pfld_step, pfld_head]

theorem bytesRegrow_length (p : RegrowP) : (bytesRegrow p).length = 40 := by simp [bytesRegrow]

theorem parseRegrow_bytesRegrow (p : RegrowP) (r : List Byte) : parseRegrow (bytesRegrow p ++ r) = p := by
  simp [parseRegrow, bytesRegrow, pfld_step, pfld_head]

theorem bytesRemask_length (p : RemaskP) : (bytesRemask p).length = 48 := by simp [bytesRemask]

theorem parseRemask_bytesRemask (p : RemaskP) (r : List Byte) : parseRemask (bytesRemask p ++ r) = p := by
  simp [parseRemask, bytesRemask, pfld_step, pfld_head]

theorem bytesMaskVote_length (p : MaskVoteP) : (bytesMaskVote p).length = 32 := by simp [bytesMaskVote]

theorem parseMaskVote_bytesMaskVote (p : MaskVoteP) (r : List Byte) : parseMaskVote (bytesMaskVote p ++ r) = p := by
  simp [parseMaskVote, bytesMaskVote, pfld_step, pfld_head]

theorem bytesMaskDecide_length (p : MaskDecideP) : (bytesMaskDecide p).length = 24 := by simp [bytesMaskDecide]

theorem parseMaskDecide_bytesMaskDecide (p : MaskDecideP) (r : List Byte) : parseMaskDecide (bytesMaskDecide p ++ r) = p := by
  simp [parseMaskDecide, bytesMaskDecide, pfld_step, pfld_head]

theorem bytesReduceSetup_length (p : ReduceSetupP) : (bytesReduceSetup p).length = 16 := by simp [bytesReduceSetup]

theorem parseReduceSetup_bytesReduceSetup (p : ReduceSetupP) (r : List Byte) : parseReduceSetup (bytesReduceSetup p ++ r) = p := by
  simp [parseReduceSetup, bytesReduceSetup, pfld_step, pfld_head]

theorem bytesReduceTarget_length (p : ReduceTargetP) : (bytesReduceTarget p).length = 24 := by simp [bytesReduceTarget]

theorem parseReduceTarget_bytesReduceTarget (p : ReduceTargetP) (r : List Byte) : parseReduceTarget (bytesReduceTarget p ++ r) = p := by
  simp [parseReduceTarget, bytesReduceTarget, pfld_step, pfld_head]

theorem bytesReduceContrib_length (p : ReduceContribP) : (bytesReduceContrib p).length = 24 := by simp [bytesReduceContrib]

theorem parseReduceContrib_bytesReduceContrib (p : ReduceContribP) (r : List Byte) : parseReduceContrib (bytesReduceContrib p ++ r) = p := by
  simp [parseReduceContrib, bytesReduceContrib, pfld_step, pfld_head]

theorem bytesReduceWait_length (p : ReduceWaitP) : (bytesReduceWait p).length = 16 := by simp [bytesReduceWait]

theorem parseReduceWait_bytesReduceWait (p : ReduceWaitP) (r : List Byte) : parseReduceWait (bytesReduceWait p ++ r) = p := by
  simp [parseReduceWait, bytesReduceWait, pfld_step, pfld_head]

theorem bytesReduceRelease_length (p : ReduceReleaseP) : (bytesReduceRelease p).length = 8 := by simp [bytesReduceRelease]

theorem parseReduceRelease_bytesReduceRelease (p : ReduceReleaseP) (r : List Byte) : parseReduceRelease (bytesReduceRelease p ++ r) = p := by
  simp [parseReduceRelease, bytesReduceRelease, pfld_step, pfld_head]

theorem bytesReduceExclude_length (p : ReduceExcludeP) : (bytesReduceExclude p).length = 16 := by simp [bytesReduceExclude]

theorem parseReduceExclude_bytesReduceExclude (p : ReduceExcludeP) (r : List Byte) : parseReduceExclude (bytesReduceExclude p ++ r) = p := by
  simp [parseReduceExclude, bytesReduceExclude, pfld_step, pfld_head]

theorem bytesParamMcast_length (p : ParamMcastP) : (bytesParamMcast p).length = 32 := by simp [bytesParamMcast]

theorem parseParamMcast_bytesParamMcast (p : ParamMcastP) (r : List Byte) : parseParamMcast (bytesParamMcast p ++ r) = p := by
  simp [parseParamMcast, bytesParamMcast, pfld_step, pfld_head]

theorem bytesEyeletInit_length (p : EyeletInitP) : (bytesEyeletInit p).length = 12 := by simp [bytesEyeletInit]

theorem parseEyeletInit_bytesEyeletInit (p : EyeletInitP) (r : List Byte) : parseEyeletInit (bytesEyeletInit p ++ r) = p := by
  simp [parseEyeletInit, bytesEyeletInit, pfld_step, pfld_head]

theorem bytesEyeletWait_length (p : EyeletWaitP) : (bytesEyeletWait p).length = 8 := by simp [bytesEyeletWait]

theorem parseEyeletWait_bytesEyeletWait (p : EyeletWaitP) (r : List Byte) : parseEyeletWait (bytesEyeletWait p ++ r) = p := by
  simp [parseEyeletWait, bytesEyeletWait, pfld_step, pfld_head]

theorem bytesEyeletSignal_length (p : EyeletSignalP) : (bytesEyeletSignal p).length = 12 := by simp [bytesEyeletSignal]

theorem parseEyeletSignal_bytesEyeletSignal (p : EyeletSignalP) (r : List Byte) : parseEyeletSignal (bytesEyeletSignal p ++ r) = p := by
  simp [parseEyeletSignal, bytesEyeletSignal, pfld_step, pfld_head]

theorem bytesEyeletRead_length (p : EyeletReadP) : (bytesEyeletRead p).length = 8 := by simp [bytesEyeletRead]

theorem parseEyeletRead_bytesEyeletRead (p : EyeletReadP) (r : List Byte) : parseEyeletRead (bytesEyeletRead p ++ r) = p := by
  simp [parseEyeletRead, bytesEyeletRead, pfld_step, pfld_head]

theorem bytesLaceInit_length (p : LaceInitP) : (bytesLaceInit p).length = 32 := by simp [bytesLaceInit]

theorem parseLaceInit_bytesLaceInit (p : LaceInitP) (r : List Byte) : parseLaceInit (bytesLaceInit p ++ r) = p := by
  simp [parseLaceInit, bytesLaceInit, pfld_step, pfld_head]

theorem bytesLaceArrive_length (p : LaceArriveP) : (bytesLaceArrive p).length = 16 := by simp [bytesLaceArrive]

theorem parseLaceArrive_bytesLaceArrive (p : LaceArriveP) (r : List Byte) : parseLaceArrive (bytesLaceArrive p ++ r) = p := by
  simp [parseLaceArrive, bytesLaceArrive, pfld_step, pfld_head]

theorem bytesLaceWait_length (p : LaceWaitP) : (bytesLaceWait p).length = 16 := by simp [bytesLaceWait]

theorem parseLaceWait_bytesLaceWait (p : LaceWaitP) (r : List Byte) : parseLaceWait (bytesLaceWait p ++ r) = p := by
  simp [parseLaceWait, bytesLaceWait, pfld_step, pfld_head]

theorem bytesLaceRead_length (p : LaceReadP) : (bytesLaceRead p).length = 8 := by simp [bytesLaceRead]

theorem parseLaceRead_bytesLaceRead (p : LaceReadP) (r : List Byte) : parseLaceRead (bytesLaceRead p ++ r) = p := by
  simp [parseLaceRead, bytesLaceRead, pfld_step, pfld_head]

theorem bytesLaceRemoteArrive_length (p : LaceRemoteArriveP) : (bytesLaceRemoteArrive p).length = 16 := by simp [bytesLaceRemoteArrive]

theorem parseLaceRemoteArrive_bytesLaceRemoteArrive (p : LaceRemoteArriveP) (r : List Byte) : parseLaceRemoteArrive (bytesLaceRemoteArrive p ++ r) = p := by
  simp [parseLaceRemoteArrive, bytesLaceRemoteArrive, pfld_step, pfld_head]

theorem bytesLaceRelease_length (p : LaceReleaseP) : (bytesLaceRelease p).length = 16 := by simp [bytesLaceRelease]

theorem parseLaceRelease_bytesLaceRelease (p : LaceReleaseP) (r : List Byte) : parseLaceRelease (bytesLaceRelease p ++ r) = p := by
  simp [parseLaceRelease, bytesLaceRelease, pfld_step, pfld_head]

theorem bytesTallyInit_length (p : TallyInitP) : (bytesTallyInit p).length = 16 := by simp [bytesTallyInit]

theorem parseTallyInit_bytesTallyInit (p : TallyInitP) (r : List Byte) : parseTallyInit (bytesTallyInit p ++ r) = p := by
  simp [parseTallyInit, bytesTallyInit, pfld_step, pfld_head]

theorem bytesTallyClaim_length (p : TallyClaimP) : (bytesTallyClaim p).length = 8 := by simp [bytesTallyClaim]

theorem parseTallyClaim_bytesTallyClaim (p : TallyClaimP) (r : List Byte) : parseTallyClaim (bytesTallyClaim p ++ r) = p := by
  simp [parseTallyClaim, bytesTallyClaim, pfld_step, pfld_head]

theorem bytesTallyCommit_length (p : TallyCommitP) : (bytesTallyCommit p).length = 32 := by simp [bytesTallyCommit]

theorem parseTallyCommit_bytesTallyCommit (p : TallyCommitP) (r : List Byte) : parseTallyCommit (bytesTallyCommit p ++ r) = p := by
  simp [parseTallyCommit, bytesTallyCommit, pfld_step, pfld_head]

theorem bytesTallyReset_length (p : TallyResetP) : (bytesTallyReset p).length = 8 := by simp [bytesTallyReset]

theorem parseTallyReset_bytesTallyReset (p : TallyResetP) (r : List Byte) : parseTallyReset (bytesTallyReset p ++ r) = p := by
  simp [parseTallyReset, bytesTallyReset, pfld_step, pfld_head]

theorem bytesSyncConfig_length (p : SyncConfigP) : (bytesSyncConfig p).length = 32 := by simp [bytesSyncConfig]

theorem parseSyncConfig_bytesSyncConfig (p : SyncConfigP) (r : List Byte) : parseSyncConfig (bytesSyncConfig p ++ r) = p := by
  simp [parseSyncConfig, bytesSyncConfig, pfld_step, pfld_head]

theorem bytesSyncDump_length (p : SyncDumpP) : (bytesSyncDump p).length = 8 := by simp [bytesSyncDump]

theorem parseSyncDump_bytesSyncDump (p : SyncDumpP) (r : List Byte) : parseSyncDump (bytesSyncDump p ++ r) = p := by
  simp [parseSyncDump, bytesSyncDump, pfld_head]

theorem bytesPartBind_length (p : PartBindP) : (bytesPartBind p).length = 72 := by simp [bytesPartBind]

theorem parsePartBind_bytesPartBind (p : PartBindP) (r : List Byte) : parsePartBind (bytesPartBind p ++ r) = p := by
  simp [parsePartBind, bytesPartBind, pfld_step, pfld_head]

theorem bytesPartUnbind_length (p : PartUnbindP) : (bytesPartUnbind p).length = 8 := by simp [bytesPartUnbind]

theorem parsePartUnbind_bytesPartUnbind (p : PartUnbindP) (r : List Byte) : parsePartUnbind (bytesPartUnbind p ++ r) = p := by
  simp [parsePartUnbind, bytesPartUnbind, pfld_step, pfld_head]

theorem bytesPartRebind_length (p : PartRebindP) : (bytesPartRebind p).length = 16 := by simp [bytesPartRebind]

theorem parsePartRebind_bytesPartRebind (p : PartRebindP) (r : List Byte) : parsePartRebind (bytesPartRebind p ++ r) = p := by
  simp [parsePartRebind, bytesPartRebind, pfld_step, pfld_head]

theorem bytesPartQuery_length (p : PartQueryP) : (bytesPartQuery p).length = 8 := by simp [bytesPartQuery]

theorem parsePartQuery_bytesPartQuery (p : PartQueryP) (r : List Byte) : parsePartQuery (bytesPartQuery p ++ r) = p := by
  simp [parsePartQuery, bytesPartQuery, pfld_step, pfld_head]

theorem bytesAttest_length (p : AttestP) : (bytesAttest p).length = 40 := by simp [bytesAttest]

theorem parseAttest_bytesAttest (p : AttestP) (r : List Byte) : parseAttest (bytesAttest p ++ r) = p := by
  simp [parseAttest, bytesAttest, pfld_step, pfld_head]

theorem bytesSessionAgree_length (p : SessionAgreeP) : (bytesSessionAgree p).length = 40 := by simp [bytesSessionAgree]

theorem parseSessionAgree_bytesSessionAgree (p : SessionAgreeP) (r : List Byte) : parseSessionAgree (bytesSessionAgree p ++ r) = p := by
  simp [parseSessionAgree, bytesSessionAgree, pfld_step, pfld_head]

theorem bytesFwStage_length (p : FwStageP) : (bytesFwStage p).length = 24 := by simp [bytesFwStage]

theorem parseFwStage_bytesFwStage (p : FwStageP) (r : List Byte) : parseFwStage (bytesFwStage p ++ r) = p := by
  simp [parseFwStage, bytesFwStage, pfld_step, pfld_head]

theorem bytesFwActivate_length (p : FwActivateP) : (bytesFwActivate p).length = 8 := by simp [bytesFwActivate]

theorem parseFwActivate_bytesFwActivate (p : FwActivateP) (r : List Byte) : parseFwActivate (bytesFwActivate p ++ r) = p := by
  simp [parseFwActivate, bytesFwActivate, pfld_step, pfld_head]

theorem bytesConfigWrite_length (p : ConfigWriteP) : (bytesConfigWrite p).length = 16 := by simp [bytesConfigWrite]

theorem parseConfigWrite_bytesConfigWrite (p : ConfigWriteP) (r : List Byte) : parseConfigWrite (bytesConfigWrite p ++ r) = p := by
  simp [parseConfigWrite, bytesConfigWrite, pfld_step, pfld_head]

theorem bytesCoreMigrate_length (p : CoreMigrateP) : (bytesCoreMigrate p).length = 16 := by simp [bytesCoreMigrate]

theorem parseCoreMigrate_bytesCoreMigrate (p : CoreMigrateP) (r : List Byte) : parseCoreMigrate (bytesCoreMigrate p ++ r) = p := by
  simp [parseCoreMigrate, bytesCoreMigrate, pfld_step, pfld_head]

theorem bytesTestRun_length (p : TestRunP) : (bytesTestRun p).length = 24 := by simp [bytesTestRun]

theorem parseTestRun_bytesTestRun (p : TestRunP) (r : List Byte) : parseTestRun (bytesTestRun p ++ r) = p := by
  simp [parseTestRun, bytesTestRun, pfld_step, pfld_head]

theorem bytesTestPackLoad_length (p : TestPackLoadP) : (bytesTestPackLoad p).length = 24 := by simp [bytesTestPackLoad]

theorem parseTestPackLoad_bytesTestPackLoad (p : TestPackLoadP) (r : List Byte) : parseTestPackLoad (bytesTestPackLoad p ++ r) = p := by
  simp [parseTestPackLoad, bytesTestPackLoad, pfld_step, pfld_head]

theorem bytesFaultRead_length (p : FaultReadP) : (bytesFaultRead p).length = 16 := by simp [bytesFaultRead]

theorem parseFaultRead_bytesFaultRead (p : FaultReadP) (r : List Byte) : parseFaultRead (bytesFaultRead p ++ r) = p := by
  simp [parseFaultRead, bytesFaultRead, pfld_step, pfld_head]

theorem bytesCounterRead_length (p : CounterReadP) : (bytesCounterRead p).length = 8 := by simp [bytesCounterRead]

theorem parseCounterRead_bytesCounterRead (p : CounterReadP) (r : List Byte) : parseCounterRead (bytesCounterRead p ++ r) = p := by
  simp [parseCounterRead, bytesCounterRead, pfld_step, pfld_head]

theorem bytesMiIdent_length (p : MiIdentP) : (bytesMiIdent p).length = 8 := by simp [bytesMiIdent]

theorem parseMiIdent_bytesMiIdent (p : MiIdentP) (r : List Byte) : parseMiIdent (bytesMiIdent p ++ r) = p := by
  simp [parseMiIdent, bytesMiIdent, pfld_head]

theorem bytesMiRead_length (p : MiReadP) : (bytesMiRead p).length = 8 := by simp [bytesMiRead]

theorem parseMiRead_bytesMiRead (p : MiReadP) (r : List Byte) : parseMiRead (bytesMiRead p ++ r) = p := by
  simp [parseMiRead, bytesMiRead, pfld_head]

theorem bytesMiSessionOpen_length (p : MiSessionOpenP) : (bytesMiSessionOpen p).length = 8 := by simp [bytesMiSessionOpen]

theorem parseMiSessionOpen_bytesMiSessionOpen (p : MiSessionOpenP) (r : List Byte) : parseMiSessionOpen (bytesMiSessionOpen p ++ r) = p := by
  simp [parseMiSessionOpen, bytesMiSessionOpen, pfld_step, pfld_head]

theorem bytesMiSessionClose_length (p : MiSessionCloseP) : (bytesMiSessionClose p).length = 8 := by simp [bytesMiSessionClose]

theorem parseMiSessionClose_bytesMiSessionClose (p : MiSessionCloseP) (r : List Byte) : parseMiSessionClose (bytesMiSessionClose p ++ r) = p := by
  simp [parseMiSessionClose, bytesMiSessionClose, pfld_step, pfld_head]

theorem bytesMiRecordGet_length (p : MiRecordGetP) : (bytesMiRecordGet p).length = 16 := by simp [bytesMiRecordGet]

theorem parseMiRecordGet_bytesMiRecordGet (p : MiRecordGetP) (r : List Byte) : parseMiRecordGet (bytesMiRecordGet p ++ r) = p := by
  simp [parseMiRecordGet, bytesMiRecordGet, pfld_step, pfld_head]

/-! ### The header and the packet -/

section
variable {op n : Nat} {h : Hdr} {b : List Byte}

/-- Header, parameters and their tail fill the 256 bytes of a packet, and what follows are objects. -/
theorem packetBytes_drop_tail (hb : b.length = n) : (packetBytes op h b).drop (64 + n) = h.tail ++ h.objs := by
  rw [← List.drop_drop, packetBytes_drop, ← hb, List.drop_left]

theorem packetBytes_drop_objs (hb : b.length = n) (ht : h.tail.length + n = 192) : (packetBytes op h b).drop 256 = h.objs := by
  rw [show 256 = 64 + n + h.tail.length by omega, ← List.drop_drop, packetBytes_drop_tail hb, List.drop_left]

/-- A well-formed header reads back, with the parameter bytes beyond the command's own. -/
theorem parseHdr_packetBytes (hb : b.length = n) (hwf : h.wf n = true) (hu : h.upsets = []) :
    parseHdr h.via n (packetBytes op h b) = h := by
  have ht : h.tail.length + n = 192 := by simp only [Hdr.wf, Bool.and_eq_true, decide_eq_true_eq] at hwf; exact hwf.1
  have htail : ((packetBytes op h b).drop (64 + n)).take (192 - n) = h.tail := by
    rw [packetBytes_drop_tail hb, show 192 - n = h.tail.length by omega, List.take_left]
  simp only [parseHdr, htail, packetBytes_drop_objs hb ht, ← hu]
  simp [packetBytes, pfld_step, pfld_head]

/-- A packet of a command with `n` parameter bytes is read by its opcode, with its own header and parameters. -/
theorem parsePacket_packetBytes (hop : op < 65536) (hn : tableBytes op = some n) (hb : b.length = n) (hwf : h.wf n = true)
    (hu : h.upsets = []) : parsePacket h.via (packetBytes op h b) = parseOp op h (b ++ (h.tail ++ h.objs)) := by
  simp only [parsePacket, packetBytes_op op h b hop, hn, parseHdr_packetBytes hb hwf hu, packetBytes_drop]

end

/-- The packet of `i` reads back as `i`. -/
def ReadsBack (i : Instr) : Prop :=
  ∀ (op : Nat) (h : Hdr) (b : List Byte), packetParts i = some (op, h, b) → wellFormed i = true → h.upsets = [] →
    parsePacket h.via (packetBytes op h b) = some i

/-- A command packet reads back when its parameters do: `mk` makes the command of an opcode from its parameters. -/
theorem readsBack_of_params {P : Type} {op n : Nat} {h : Hdr} {p : P} {bytes : P → List Byte} {parse : List Byte → P}
    (mk : P → Instr) (hparts : packetParts (mk p) = some (op, h, bytes p)) (hwf : wellFormed (mk p) = h.wf n) (hop : op < 65536)
    (hn : tableBytes op = some n) (hread : ∀ b, parseOp op h b = some (mk (parse b))) (hlen : (bytes p).length = n)
    (hparse : ∀ r, parse (bytes p ++ r) = p) : ReadsBack (mk p) := by
  intro op' h' b hp hw hu
  obtain ⟨rfl, rfl, rfl⟩ : op = op' ∧ h = h' ∧ bytes p = b := by simpa [hparts] using hp
  rw [parsePacket_packetBytes hop hn hlen (hwf ▸ hw) hu, hread, hparse]

/-- Settles O5, by the rows of the parameter table: each command's parameters read back, and the header does for all of them. An
event has no packet. -/
theorem packetsDecodeAsEncoded : Obligations.PacketsDecodeAsEncoded := by
  intro i
  change ReadsBack i
  cases i
  case nop h =>
    intro op h' b hp hw hu
    cases hp
    exact parsePacket_packetBytes (by decide) rfl rfl hw hu
  case ctxOpen h p =>
    exact readsBack_of_params (.ctxOpen h) rfl rfl (by decide) rfl (fun _ => rfl) (bytesCtxOpen_length p) (parseCtxOpen_bytesCtxOpen p)
  case ctxClose h p =>
    exact readsBack_of_params (.ctxClose h) rfl rfl (by decide) rfl (fun _ => rfl) (bytesCtxClose_length p) (parseCtxClose_bytesCtxClose p)
  case resultPool h p =>
    exact readsBack_of_params (.resultPool h) rfl rfl (by decide) rfl (fun _ => rfl) (bytesResultPool_length p) (parseResultPool_bytesResultPool p)
  case jobStart h p =>
    exact readsBack_of_params (.jobStart h) rfl rfl (by decide) rfl (fun _ => rfl) (bytesJobStart_length p) (parseJobStart_bytesJobStart p)
  case jobCtl h p =>
    exact readsBack_of_params (.jobCtl h) rfl rfl (by decide) rfl (fun _ => rfl) (bytesJobCtl_length p) (parseJobCtl_bytesJobCtl p)
  case ckptFetch h p =>
    exact readsBack_of_params (.ckptFetch h) rfl rfl (by decide) rfl (fun _ => rfl) (bytesCkptFetch_length p) (parseCkptFetch_bytesCkptFetch p)
  case fabricRoute h p =>
    exact readsBack_of_params (.fabricRoute h) rfl rfl (by decide) rfl (fun _ => rfl) (bytesFabricRoute_length p) (parseFabricRoute_bytesFabricRoute p)
  case fabricAddr h p =>
    exact readsBack_of_params (.fabricAddr h) rfl rfl (by decide) rfl (fun _ => rfl) (bytesFabricAddr_length p) (parseFabricAddr_bytesFabricAddr p)
  case fabricDepart h p =>
    exact readsBack_of_params (.fabricDepart h) rfl rfl (by decide) rfl (fun _ => rfl) (bytesFabricDepart_length p) (parseFabricDepart_bytesFabricDepart p)
  case fabricDiscover h p =>
    exact readsBack_of_params (.fabricDiscover h) rfl rfl (by decide) rfl (fun _ => rfl) (bytesFabricDiscover_length p) (parseFabricDiscover_bytesFabricDiscover p)
  case memFill h p =>
    exact readsBack_of_params (.memFill h) rfl rfl (by decide) rfl (fun _ => rfl) (bytesMemFill_length p) (parseMemFill_bytesMemFill p)
  case memAtomic h p =>
    exact readsBack_of_params (.memAtomic h) rfl rfl (by decide) rfl (fun _ => rfl) (bytesMemAtomic_length p) (parseMemAtomic_bytesMemAtomic p)
  case hostCopy h p =>
    exact readsBack_of_params (.hostCopy h) rfl rfl (by decide) rfl (fun _ => rfl) (bytesHostCopy_length p) (parseHostCopy_bytesHostCopy p)
  case hostRange h p =>
    exact readsBack_of_params (.hostRange h) rfl rfl (by decide) rfl (fun _ => rfl) (bytesHostRange_length p) (parseHostRange_bytesHostRange p)
  case copy h p =>
    exact readsBack_of_params (.copy h) rfl rfl (by decide) rfl (fun _ => rfl) (bytesCopy_length p) (parseCopy_bytesCopy p)
  case gather h p =>
    exact readsBack_of_params (.gather h) rfl rfl (by decide) rfl (fun _ => rfl) (bytesGather_length p) (parseGather_bytesGather p)
  case scatter h p =>
    exact readsBack_of_params (.scatter h) rfl rfl (by decide) rfl (fun _ => rfl) (bytesScatter_length p) (parseScatter_bytesScatter p)
  case descCheck h p =>
    exact readsBack_of_params (.descCheck h) rfl rfl (by decide) rfl (fun _ => rfl) (bytesDescCheck_length p) (parseDescCheck_bytesDescCheck p)
  case flowSend h p =>
    exact readsBack_of_params (.flowSend h) rfl rfl (by decide) rfl (fun _ => rfl) (bytesFlowSend_length p) (parseFlowSend_bytesFlowSend p)
  case gemm h p =>
    exact readsBack_of_params (.gemm h) rfl rfl (by decide) rfl (fun _ => rfl) (bytesGemm_length p) (parseGemm_bytesGemm p)
  case spmm h p =>
    exact readsBack_of_params (.spmm h) rfl rfl (by decide) rfl (fun _ => rfl) (bytesSpmm_length p) (parseSpmm_bytesSpmm p)
  case spmmT h p =>
    exact readsBack_of_params (.spmmT h) rfl rfl (by decide) rfl (fun _ => rfl) (bytesSpmmT_length p) (parseSpmmT_bytesSpmmT p)
  case sounding h p =>
    exact readsBack_of_params (.sounding h) rfl rfl (by decide) rfl (fun _ => rfl) (bytesSounding_length p) (parseSounding_bytesSounding p)
  case fenMerge h p =>
    exact readsBack_of_params (.fenMerge h) rfl rfl (by decide) rfl (fun _ => rfl) (bytesFenMerge_length p) (parseFenMerge_bytesFenMerge p)
  case topk h p =>
    exact readsBack_of_params (.topk h) rfl rfl (by decide) rfl (fun _ => rfl) (bytesTopk_length p) (parseTopk_bytesTopk p)
  case optUpdate h p =>
    exact readsBack_of_params (.optUpdate h) rfl rfl (by decide) rfl (fun _ => rfl) (bytesOptUpdate_length p) (parseOptUpdate_bytesOptUpdate p)
  case fenScatter h p =>
    exact readsBack_of_params (.fenScatter h) rfl rfl (by decide) rfl (fun _ => rfl) (bytesFenScatter_length p) (parseFenScatter_bytesFenScatter p)
  case compress h p =>
    exact readsBack_of_params (.compress h) rfl rfl (by decide) rfl (fun _ => rfl) (bytesCompress_length p) (parseCompress_bytesCompress p)
  case prune h p =>
    exact readsBack_of_params (.prune h) rfl rfl (by decide) rfl (fun _ => rfl) (bytesPrune_length p) (parsePrune_bytesPrune p)
  case regrow h p =>
    exact readsBack_of_params (.regrow h) rfl rfl (by decide) rfl (fun _ => rfl) (bytesRegrow_length p) (parseRegrow_bytesRegrow p)
  case remask h p =>
    exact readsBack_of_params (.remask h) rfl rfl (by decide) rfl (fun _ => rfl) (bytesRemask_length p) (parseRemask_bytesRemask p)
  case maskVote h p =>
    exact readsBack_of_params (.maskVote h) rfl rfl (by decide) rfl (fun _ => rfl) (bytesMaskVote_length p) (parseMaskVote_bytesMaskVote p)
  case maskDecide h p =>
    exact readsBack_of_params (.maskDecide h) rfl rfl (by decide) rfl (fun _ => rfl) (bytesMaskDecide_length p) (parseMaskDecide_bytesMaskDecide p)
  case reduceSetup h p =>
    exact readsBack_of_params (.reduceSetup h) rfl rfl (by decide) rfl (fun _ => rfl) (bytesReduceSetup_length p) (parseReduceSetup_bytesReduceSetup p)
  case reduceTarget h p =>
    exact readsBack_of_params (.reduceTarget h) rfl rfl (by decide) rfl (fun _ => rfl) (bytesReduceTarget_length p) (parseReduceTarget_bytesReduceTarget p)
  case reduceContrib h p =>
    exact readsBack_of_params (.reduceContrib h) rfl rfl (by decide) rfl (fun _ => rfl) (bytesReduceContrib_length p) (parseReduceContrib_bytesReduceContrib p)
  case reduceWait h p =>
    exact readsBack_of_params (.reduceWait h) rfl rfl (by decide) rfl (fun _ => rfl) (bytesReduceWait_length p) (parseReduceWait_bytesReduceWait p)
  case reduceRelease h p =>
    exact readsBack_of_params (.reduceRelease h) rfl rfl (by decide) rfl (fun _ => rfl) (bytesReduceRelease_length p) (parseReduceRelease_bytesReduceRelease p)
  case reduceExclude h p =>
    exact readsBack_of_params (.reduceExclude h) rfl rfl (by decide) rfl (fun _ => rfl) (bytesReduceExclude_length p) (parseReduceExclude_bytesReduceExclude p)
  case paramMcast h p =>
    exact readsBack_of_params (.paramMcast h) rfl rfl (by decide) rfl (fun _ => rfl) (bytesParamMcast_length p) (parseParamMcast_bytesParamMcast p)
  case eyeletInit h p =>
    exact readsBack_of_params (.eyeletInit h) rfl rfl (by decide) rfl (fun _ => rfl) (bytesEyeletInit_length p) (parseEyeletInit_bytesEyeletInit p)
  case eyeletWait h p =>
    exact readsBack_of_params (.eyeletWait h) rfl rfl (by decide) rfl (fun _ => rfl) (bytesEyeletWait_length p) (parseEyeletWait_bytesEyeletWait p)
  case eyeletSignal h p =>
    exact readsBack_of_params (.eyeletSignal h) rfl rfl (by decide) rfl (fun _ => rfl) (bytesEyeletSignal_length p) (parseEyeletSignal_bytesEyeletSignal p)
  case eyeletRead h p =>
    exact readsBack_of_params (.eyeletRead h) rfl rfl (by decide) rfl (fun _ => rfl) (bytesEyeletRead_length p) (parseEyeletRead_bytesEyeletRead p)
  case laceInit h p =>
    exact readsBack_of_params (.laceInit h) rfl rfl (by decide) rfl (fun _ => rfl) (bytesLaceInit_length p) (parseLaceInit_bytesLaceInit p)
  case laceArrive h p =>
    exact readsBack_of_params (.laceArrive h) rfl rfl (by decide) rfl (fun _ => rfl) (bytesLaceArrive_length p) (parseLaceArrive_bytesLaceArrive p)
  case laceWait h p =>
    exact readsBack_of_params (.laceWait h) rfl rfl (by decide) rfl (fun _ => rfl) (bytesLaceWait_length p) (parseLaceWait_bytesLaceWait p)
  case laceRead h p =>
    exact readsBack_of_params (.laceRead h) rfl rfl (by decide) rfl (fun _ => rfl) (bytesLaceRead_length p) (parseLaceRead_bytesLaceRead p)
  case laceRemoteArrive h p =>
    exact readsBack_of_params (.laceRemoteArrive h) rfl rfl (by decide) rfl (fun _ => rfl) (bytesLaceRemoteArrive_length p) (parseLaceRemoteArrive_bytesLaceRemoteArrive p)
  case laceRelease h p =>
    exact readsBack_of_params (.laceRelease h) rfl rfl (by decide) rfl (fun _ => rfl) (bytesLaceRelease_length p) (parseLaceRelease_bytesLaceRelease p)
  case tallyInit h p =>
    exact readsBack_of_params (.tallyInit h) rfl rfl (by decide) rfl (fun _ => rfl) (bytesTallyInit_length p) (parseTallyInit_bytesTallyInit p)
  case tallyClaim h p =>
    exact readsBack_of_params (.tallyClaim h) rfl rfl (by decide) rfl (fun _ => rfl) (bytesTallyClaim_length p) (parseTallyClaim_bytesTallyClaim p)
  case tallyCommit h p =>
    exact readsBack_of_params (.tallyCommit h) rfl rfl (by decide) rfl (fun _ => rfl) (bytesTallyCommit_length p) (parseTallyCommit_bytesTallyCommit p)
  case tallyReset h p =>
    exact readsBack_of_params (.tallyReset h) rfl rfl (by decide) rfl (fun _ => rfl) (bytesTallyReset_length p) (parseTallyReset_bytesTallyReset p)
  case syncConfig h p =>
    exact readsBack_of_params (.syncConfig h) rfl rfl (by decide) rfl (fun _ => rfl) (bytesSyncConfig_length p) (parseSyncConfig_bytesSyncConfig p)
  case syncDump h p =>
    exact readsBack_of_params (.syncDump h) rfl rfl (by decide) rfl (fun _ => rfl) (bytesSyncDump_length p) (parseSyncDump_bytesSyncDump p)
  case partBind h p =>
    exact readsBack_of_params (.partBind h) rfl rfl (by decide) rfl (fun _ => rfl) (bytesPartBind_length p) (parsePartBind_bytesPartBind p)
  case partUnbind h p =>
    exact readsBack_of_params (.partUnbind h) rfl rfl (by decide) rfl (fun _ => rfl) (bytesPartUnbind_length p) (parsePartUnbind_bytesPartUnbind p)
  case partRebind h p =>
    exact readsBack_of_params (.partRebind h) rfl rfl (by decide) rfl (fun _ => rfl) (bytesPartRebind_length p) (parsePartRebind_bytesPartRebind p)
  case partQuery h p =>
    exact readsBack_of_params (.partQuery h) rfl rfl (by decide) rfl (fun _ => rfl) (bytesPartQuery_length p) (parsePartQuery_bytesPartQuery p)
  case attest h p =>
    exact readsBack_of_params (.attest h) rfl rfl (by decide) rfl (fun _ => rfl) (bytesAttest_length p) (parseAttest_bytesAttest p)
  case sessionAgree h p =>
    exact readsBack_of_params (.sessionAgree h) rfl rfl (by decide) rfl (fun _ => rfl) (bytesSessionAgree_length p) (parseSessionAgree_bytesSessionAgree p)
  case fwStage h p =>
    exact readsBack_of_params (.fwStage h) rfl rfl (by decide) rfl (fun _ => rfl) (bytesFwStage_length p) (parseFwStage_bytesFwStage p)
  case fwActivate h p =>
    exact readsBack_of_params (.fwActivate h) rfl rfl (by decide) rfl (fun _ => rfl) (bytesFwActivate_length p) (parseFwActivate_bytesFwActivate p)
  case configWrite h p =>
    exact readsBack_of_params (.configWrite h) rfl rfl (by decide) rfl (fun _ => rfl) (bytesConfigWrite_length p) (parseConfigWrite_bytesConfigWrite p)
  case coreMigrate h p =>
    exact readsBack_of_params (.coreMigrate h) rfl rfl (by decide) rfl (fun _ => rfl) (bytesCoreMigrate_length p) (parseCoreMigrate_bytesCoreMigrate p)
  case testRun h p =>
    exact readsBack_of_params (.testRun h) rfl rfl (by decide) rfl (fun _ => rfl) (bytesTestRun_length p) (parseTestRun_bytesTestRun p)
  case testPackLoad h p =>
    exact readsBack_of_params (.testPackLoad h) rfl rfl (by decide) rfl (fun _ => rfl) (bytesTestPackLoad_length p) (parseTestPackLoad_bytesTestPackLoad p)
  case faultRead h p =>
    exact readsBack_of_params (.faultRead h) rfl rfl (by decide) rfl (fun _ => rfl) (bytesFaultRead_length p) (parseFaultRead_bytesFaultRead p)
  case counterRead h p =>
    exact readsBack_of_params (.counterRead h) rfl rfl (by decide) rfl (fun _ => rfl) (bytesCounterRead_length p) (parseCounterRead_bytesCounterRead p)
  case miIdent h p =>
    exact readsBack_of_params (.miIdent h) rfl rfl (by decide) rfl (fun _ => rfl) (bytesMiIdent_length p) (parseMiIdent_bytesMiIdent p)
  case miRead h p =>
    exact readsBack_of_params (.miRead h) rfl rfl (by decide) rfl (fun _ => rfl) (bytesMiRead_length p) (parseMiRead_bytesMiRead p)
  case miSessionOpen h p =>
    exact readsBack_of_params (.miSessionOpen h) rfl rfl (by decide) rfl (fun _ => rfl) (bytesMiSessionOpen_length p) (parseMiSessionOpen_bytesMiSessionOpen p)
  case miSessionClose h p =>
    exact readsBack_of_params (.miSessionClose h) rfl rfl (by decide) rfl (fun _ => rfl) (bytesMiSessionClose_length p) (parseMiSessionClose_bytesMiSessionClose p)
  case miRecordGet h p =>
    exact readsBack_of_params (.miRecordGet h) rfl rfl (by decide) rfl (fun _ => rfl) (bytesMiRecordGet_length p) (parseMiRecordGet_bytesMiRecordGet p)
  all_goals exact fun _ _ _ hp => nomatch hp

end Sys2Proof.Machine
end

section
/-! PROOFS. The block as a whole (R1, R485 to R500): steps, the dispatch of command packets, how a packet arrives, and the frames of
starting and ending a command. -/
namespace Sys2Proof.Machine

/-! ### Steps (R1) -/

theorem step_of_pending {s : State} {c : Instr} {rest : List Instr} (h : s.pending = c :: rest) :
    step s = exec c { s with pending := rest } := by
  simp only [step, h]

theorem step_of_work {s : State} {w : Work} {rest : List Work} (hp : s.pending = []) (hw : s.work = w :: rest) :
    step s = workStep { s with work := rest } w := by
  simp only [step, hp, hw]

theorem step_of_idle {s : State} (hp : s.pending = []) (hw : s.work = []) : step s = .next s := by
  simp only [step, hp, hw]

theorem workStep_start (s : State) (q : QEntry) : workStep s (.start q) = exec q.instr (startOf s q) := rfl

theorem workStep_stream {s : State} {c i : Nat} {q : QEntry} {rest : List QEntry} (hq : (stream s c i).queue = q :: rest)
    (hm : (stream s c i).mode = .ready) (hb : (stream s c i).busy = none) (hr : coreRuns s c = true) :
    workStep s (.stream c i) = exec q.instr (startOf (modStream s c i (fun x => { x with queue := rest })) q) := by
  simp only [workStep, hq, hm, hb, hr, and_self, if_true, startOf]

/-- Settles O1, by the definition of a step. -/
theorem stepRunsFront : Obligations.StepRunsFront := fun _ _ _ => step_of_pending

/-- Settles O2, by the cases of a step without a waiting command. -/
theorem stepTakesOwedWork : Obligations.StepTakesOwedWork :=
  ⟨fun _ _ _ => step_of_work, fun _ => step_of_idle, workStep_start, fun _ _ _ _ _ => workStep_stream⟩

/-! ### The dispatch: command packets and events -/

theorem packetParts_of_commandSpec {i : Instr} {sp : Spec} (hsp : commandSpec i = some sp) :
    ∃ op h b, packetParts i = some (op, h, b) := by
  cases i <;> cases hsp <;> exact ⟨_, _, _, rfl⟩

/-- Every command packet goes through the meaning common to all of them, with the opcode, header and parameters of its row. -/
theorem exec_command {i : Instr} {sp : Spec} {op : Nat} {h : Hdr} {b : List Byte} (hsp : commandSpec i = some sp)
    (hp : packetParts i = some (op, h, b)) : ∃ body, ∀ s, exec i s = command i sp h (packetBytes op h b) body s := by
  cases i <;> cases hsp <;> cases hp <;> exact ⟨_, fun _ => rfl⟩

theorem execRdcur_next (a : BitVec 52) (n : BitVec 7) (s : State) : ∃ t, execRdcur a n s = .next t := by
  unfold execRdcur; split <;> exact ⟨_, rfl⟩

theorem execInvdata_next (a : BitVec 52) (data : List Byte) (s : State) : ∃ t, execInvdata a data s = .next t := by
  unfold execInvdata
  split
  · split <;> exact ⟨_, rfl⟩
  · exact ⟨_, rfl⟩

/-- An event of the block answers a next state: all but two name it outright. -/
theorem exec_event_next {i : Instr} (h : commandSpec i = none) (s : State) : ∃ t, exec i s = .next t := by
  cases i
  case rdcur a n => exact execRdcur_next a n s
  case invdata a data => exact execInvdata_next a data s
  all_goals cases h <;> exact ⟨_, rfl⟩

theorem exec_next (i : Instr) (s : State) : ∃ t, exec i s = .next t := by
  cases hsp : commandSpec i with
  | none => exact exec_event_next hsp s
  | some sp =>
    obtain ⟨op, h, b, hp⟩ := packetParts_of_commandSpec hsp
    obtain ⟨body, hexec⟩ := exec_command hsp hp
    rw [hexec]
    exact command_next _ _ _ _ _ _

theorem workStep_next (s : State) (w : Work) : ∃ t, workStep s w = .next t := by
  cases w with
  | stream c i =>
    simp only [workStep]
    split
    · exact ⟨_, rfl⟩
    · split
      · exact exec_next _ _
      · exact ⟨_, rfl⟩
  | resume c u =>
    simp only [workStep]
    split
    · exact exec_next _ _
    · exact ⟨_, rfl⟩
  | start q => exact exec_next _ _
  | run i => exact exec_next _ _
  | _ => exact ⟨_, rfl⟩

/-- Settles O3, by the two sources of a step: a command of the queue and the device's own work. -/
theorem everyStepAnswers : Obligations.EveryStepAnswers := by
  intro s
  unfold step
  split
  · exact exec_next _ _
  · split
    · exact workStep_next _ _
    · exact ⟨_, rfl⟩

/-! ### How a packet arrives (R487 to R493) -/

@[simp] theorem setSeq_starting (s : State) (h : Hdr) : (setSeq s h).starting = s.starting := by
  simp only [setSeq]
  split
  · rfl
  · split
    · rfl
    · split
      · split <;> rfl
      · rfl

/-- A core in RUN is not woken. -/
theorem wakeCore_of_coreRuns {s : State} {k : Nat} (h : coreRuns s k = true) : wakeCore s (physOf s k) = s := by
  have hrun : (coreP s (physOf s k)).power = .run := of_decide_eq_true h
  simp only [wakeCore, hrun]

/-- A unit that has its command at its start runs it at once. -/
theorem command_startOf {s : State} (hs : s.starting = none) (i : Instr) (sp : Spec) (h : Hdr) (b : List Byte)
    (body : State → Cmd → Res) (c : Cmd) :
    command i sp h b body (startOf s { instr := i, cmd := c }) = .next (startNow s i c body) := by
  have e : ({ s with starting := none } : State) = s := by rw [← hs]
  simp only [command, startOf, e]

section
variable {s : State} {i : Instr} {sp : Spec} {h : Hdr} {b : List Byte} {body : State → Cmd → Res}

theorem arrive_of_fails {st : Status} {d : Nat} (hc : headerCheck s h sp = some (st, d)) :
    arrive s i sp h b body = deliver s (dropBadReply s (mkCmd s sp h)) st d 0xFFFFFFFF 0 [] := by
  simp only [arrive, hc]

theorem arrive_of_remote (hc : headerCheck s h sp = none) (hk : ctxKind (setSeq s h) h = 2) :
    arrive s i sp h b body = forwardRemote (setSeq s h) i (mkCmd s sp h) b := by
  simp only [arrive, hc, hk, if_true]

variable {t : State} {c : Cmd} (ht : t = setSeq s h) (hcmd : c = mkCmd s sp h) (hc : headerCheck s h sp = none)
  (hk : ctxKind t h ≠ 2) (hw : needsWindow sp h = false)
include ht hcmd hc hk hw

/-- A FIRMWARE context with nothing queued starts a command beside which it may run. -/
theorem arrive_of_context_free (hn : streamOfHdr t h = none) (hq : fwQueue t c.part (hdrCtx h) = [])
    (hfree : fwHolds t c.part (hdrCtx h) { instr := i, cmd := c } = false) : arrive s i sp h b body = startNow t i c body := by
  subst ht hcmd
  simp only [arrive, hc, hk, hw, if_false, Bool.false_eq_true, hn]
  rw [show ({ mkCmd s sp h with win := none } : Cmd) = mkCmd s sp h from rfl]
  simp only [hq, hfree, List.isEmpty_nil, Bool.not_true, Bool.or_false, Bool.false_eq_true, if_false]

variable {k j : Nat} (hstream : streamOfHdr t h = some (k, j)) (hrun : coreRuns t k = true) (hheld : (stream t k j).held = [])
include hstream hrun hheld

/-- A free stream starts the command. -/
theorem arrive_of_stream_free (hm : (stream t k j).mode = .ready) (hb : (stream t k j).busy = none)
    (hq : (stream t k j).queue = []) : arrive s i sp h b body = startNow t i c body := by
  subst ht hcmd
  simp only [arrive, hc, hk, hw, if_false, Bool.false_eq_true, hstream, wakeCore_of_coreRuns hrun, hm, hb, hq, hheld, hrun,
    and_self, if_true]
  rfl

/-- A busy stream with room takes the command into its queue. -/
theorem arrive_of_stream_busy (hm : (stream t k j).mode ≠ .out) (hb : (stream t k j).busy ≠ none) (hroom : 0 < queueRoom t k j) :
    arrive s i sp h b body = modStream t k j (fun y => { y with queue := y.queue ++ [{ instr := i, cmd := c }] }) := by
  subst ht hcmd
  simp only [arrive, hc, hk, hw, if_false, Bool.false_eq_true, hstream, wakeCore_of_coreRuns hrun, hb, hheld, hroom, hm,
    false_and, and_false, ne_eq, not_false_eq_true, and_self, if_true]
  rfl

end

/-- What R490 asks of a command that may start beside the commands that run in its FIRMWARE context. -/
theorem fwHolds_eq_false {s : State} {p : Option Nat} {n : Nat} {q : QEntry} (hlen : (fwRunning s p n).length < 8)
    (hbar : bitOf q.cmd.h.flags.toNat 3 = true → fwRunning s p n = [])
    (hsleep : maySleep q.instr = true → n ≠ 0x1FFFF → ∀ w ∈ fwRunning s p n, syncWait w.wait = false) :
    fwHolds s p n q = false := by
  have hbarrier : (bitOf q.cmd.h.flags.toNat 3 && !(fwRunning s p n).isEmpty) = false := by
    cases hf : bitOf q.cmd.h.flags.toNat 3 with
    | false => rfl
    | true => simp [hbar hf]
  have hsleeper : (decide (n ≠ 0x1FFFF) && maySleep q.instr && (fwRunning s p n).any (fun w => syncWait w.wait)) = false := by
    by_cases hn : n = 0x1FFFF
    · simp [hn]
    · cases hi : maySleep q.instr with
      | false => simp
      | true => simpa [hn] using hsleep hi hn
  simp only [fwHolds, hbarrier, hsleeper, Bool.false_or, Bool.or_false, decide_eq_false_iff_not]
  omega

/-- Settles O4, by the order of the header checks and of what an accepted packet meets. -/
theorem arrivingPacketsStartOrReply : Obligations.ArrivingPacketsStartOrReply := by
  intro i sp op h b s t c hsp hp hs ht hc
  obtain ⟨body, hexec⟩ := exec_command hsp hp
  have hts : t.starting = none := by rw [ht, setSeq_starting, hs]
  refine ⟨fun hno => ?_, fun hr ho => ?_⟩
  · rw [hexec]
    obtain hr | ho := hno
    · exact command_unready _ _ _ _ _ _ hs hr
    · exact command_unopened _ _ _ _ _ _ hs ho
  · rw [hexec s, command_arrives _ _ _ _ _ _ hs hr ho]
    have hstart : exec i (startOf t { instr := i, cmd := c }) = .next (startNow t i c body) := by
      rw [hexec, command_startOf hts]
    refine ⟨fun st d hfail => ?fails, fun hpass hk => ?remote, fun hpass hk hw => ⟨fun hn hq hlen hbar hsleep => ?context,
      fun k j hstream hrun hheld => ⟨fun hm hb hq => ?free, fun hm hb hroom => ?busy⟩⟩⟩
    case fails => rw [arrive_of_fails hfail, hc]
    case remote => rw [arrive_of_remote hpass (ht ▸ hk), ht, hc]
    case context =>
      have hflags : c.h = h := by rw [hc]; rfl
      rw [hstart, arrive_of_context_free ht hc hpass hk hw hn hq (fwHolds_eq_false hlen (hflags.symm ▸ hbar) hsleep)]
    case free => rw [hstart, arrive_of_stream_free ht hc hpass hk hw hstream hrun hheld hm hb hq]
    case busy => rw [arrive_of_stream_busy ht hc hpass hk hw hstream hrun hheld hm hb hroom]

end Sys2Proof.Machine
end

section
/-! PROOFS. The frames of starting and ending a command (R67, R373, R485 to R499), and where a record is delivered. -/
namespace Sys2Proof.Machine

/-! ### Before a command's own meaning (R67, R373) -/

theorem breakQuag_eq (s : State) (p : Nat) : ∃ ps, breakQuag s p = { s with parts := ps } := by
  unfold breakQuag; split <;> exact ⟨_, rfl⟩

theorem boundary_eq (s : State) (c i : Nat) : ∃ cs n, boundary s c i = { s with cores := cs, freeIx := n } := by
  unfold boundary; split <;> exact ⟨_, _, rfl⟩

/-- Starting changes the partitions' Quag watches, the streams and the count of free values only. -/
theorem beginCmd_eq (s : State) (c : Cmd) : ∃ ps cs n, beginCmd s c = { s with parts := ps, cores := cs, freeIx := n } := by
  have hstream (t : State) : ∃ cs n, (match streamOfHdr t c.h with
      | some (k, j) => if c.passes = 0 then boundary t k j else t
      | none => t) = { t with cores := cs, freeIx := n } := by
    split
    · split
      · exact boundary_eq t _ _
      · exact ⟨_, _, rfl⟩
    · exact ⟨_, _, rfl⟩
  unfold beginCmd
  cases c.part with
  | none =>
    obtain ⟨cs, n, h⟩ := hstream s
    exact ⟨s.parts, cs, n, h⟩
  | some p =>
    obtain ⟨ps, hps⟩ := breakQuag_eq s p
    obtain ⟨cs, n, h⟩ := hstream (breakQuag s p)
    exact ⟨ps, cs, n, h.trans (by rw [hps])⟩

theorem meetUpsets_of_nil {s : State} {c : Cmd} (h : upsetsNow c = []) : meetUpsets s c = s := by
  simp [meetUpsets, h, insoleUpsets, memUpsets]

theorem atStart_eq {s : State} {q : QEntry} (h : upsetsNow q.cmd = []) :
    ∃ ps cs n, atStart s q = { s with parts := ps, cores := cs, freeIx := n } := by
  rw [atStart, meetUpsets_of_nil h]
  exact beginCmd_eq s q.cmd

/-! ### After a command's own meaning -/

/-- What the delivery of a reply to a ring, a slot or a management interface leaves alone: device memory with its marks, the sync
objects, the controllers, the dies, the stacks, the flash, the Metering Island, the fault log, power, pins and the fabric. -/
structure SameDevice (s t : State) : Prop where
  mem : t.mem = s.mem
  used : t.used = s.used
  poison : t.poison = s.poison
  eyelets : t.eyelets = s.eyelets
  laces : t.laces = s.laces
  tallies : t.tallies = s.tallies
  btn : t.btn = s.btn
  dies : t.dies = s.dies
  hbm : t.hbm = s.hbm
  cxl : t.cxl = s.cxl
  sec : t.sec = s.sec
  mi : t.mi = s.mi
  relia : t.relia = s.relia
  power : t.power = s.power
  pins : t.pins = s.pins
  fab : t.fab = s.fab
  votes : t.votes = s.votes
  ready : t.ready = s.ready

namespace SameDevice

@[simp] theorem refl (s : State) : SameDevice s s := by constructor <;> rfl

theorem trans {s t u : State} (h : SameDevice s t) (k : SameDevice t u) : SameDevice s u := by
  constructor
  all_goals simp only [h.mem, k.mem, h.used, k.used, h.poison, k.poison, h.eyelets, k.eyelets, h.laces, k.laces, h.tallies, k.tallies,
    h.btn, k.btn, h.dies, k.dies, h.hbm, k.hbm, h.cxl, k.cxl, h.sec, k.sec, h.mi, k.mi, h.relia, k.relia, h.power, k.power,
    h.pins, k.pins, h.fab, k.fab, h.votes, k.votes, h.ready, k.ready]

/-- A chosen branch leaves alone what both branches do. -/
theorem ite {s t u : State} {p : Prop} [Decidable p] (h : SameDevice s t) (k : SameDevice s u) :
    SameDevice s (if p then t else u) := by
  split
  · exact h
  · exact k

/-- A step that may follow leaves alone what it leaves alone by itself. -/
theorem thenIf {s t u : State} {p : Prop} [Decidable p] (h : SameDevice s t) (k : SameDevice t u) :
    SameDevice s (if p then u else t) := .ite (h.trans k) h

variable (s : State)

theorem modPage (q : Nat) (f : Page → Page) : SameDevice s (modPage s q f) := by constructor <;> rfl
theorem modRing (q r : Nat) (f : Ring → Ring) : SameDevice s (modRing s q r f) := modPage s q _
theorem modSlot (q i : Nat) (f : Slot → Slot) : SameDevice s (modSlot s q i f) := modPage s q _
theorem modPart (p : Nat) (f : Part → Part) : SameDevice s (modPart s p f) := by constructor <;> rfl
theorem modCtx (n : Nat) (f : Ctx → Ctx) : SameDevice s (modCtx s n f) := by constructor <;> rfl
theorem modStream (c i : Nat) (f : Stream → Stream) : SameDevice s (modStream s c i f) := by constructor <;> rfl
theorem send (o : Out) : SameDevice s (send s o) := by constructor <;> rfl
theorem owe (w : Work) : SameDevice s (owe s w) := by constructor <;> rfl

theorem hostWrite (a : Nat) (bs : List Byte) : SameDevice s (hostWrite s a bs) := by
  unfold Machine.hostWrite; split <;> constructor <;> rfl
theorem notify (n : Nat) : SameDevice s (notify s n) := .ite (send s _) (refl s)
theorem notifyRing (q r : Nat) : SameDevice s (notifyRing s q r) := .ite (modRing s q r _) ((modRing s q r _).trans (notify _ _))
theorem notifySlot (q i : Nat) : SameDevice s (notifySlot s q i) := .ite (modSlot s q i _) ((modSlot s q i _).trans (notify _ _))
theorem oweFetch : SameDevice s (oweFetch s) := .ite (refl s) (owe s _)
theorem releasePlace (q r : Nat) : SameDevice s (releasePlace s q r) :=
  (modRing s q r _).trans (.ite (oweFetch _) (refl _))

theorem nextRep (q : Nat) : SameDevice s (nextRep s q).2 := by
  unfold Machine.nextRep
  cases (part s q).agreement with
  | none => exact refl s
  | some a => exact modPart s q (fun p => { p with agreement := some { a with repCtr := a.repCtr + 1 } })

theorem replyForm (c : Cmd) (q r : Nat) (phase : Bool) (bs : List Byte) : SameDevice s (replyForm s c q r phase bs).2 := by
  unfold Machine.replyForm; split
  · split
    · exact nextRep s q
    · exact refl s
  · exact refl s

theorem ringReply (c : Cmd) (q r : Nat) (st : Status) (d win gen : Nat) : SameDevice s (ringReply s c q r st d win gen) := by
  simp only [Machine.ringReply]
  split
  · exact releasePlace s q r
  · exact .thenIf ((replyForm s c q r _ _).trans ((hostWrite _ _ _).trans (modRing _ q r _))) (notifyRing _ q r)

theorem slotReply (c : Cmd) (q i : Nat) (st : Status) (d win gen : Nat) : SameDevice s (slotReply s c q i st d win gen) := by
  simp only [Machine.slotReply]
  exact .thenIf ((replyForm s c q 0x10 false _).trans (modSlot _ q i _)) (notifySlot _ q i)

theorem ifaceReply (m : MgmtIface) (bs : List Byte) (clear : Bool) : SameDevice s (ifaceReply s m bs clear) := by
  simp only [Machine.ifaceReply]
  split
  · split <;> constructor <;> rfl
  · exact send s _

/-- A reply of a command that comes from no peer and names no REPLY_ADDR (R488). -/
theorem deliver {c : Cmd} (hf : isFabric c.h.via = false) (hr : c.h.replyAddr = 0) (st : Status) (d win gen : Nat) (rec_ : List Byte) :
    SameDevice s (deliver s c st d win gen rec_) := by
  cases hv : c.h.via with
  | ring q r l =>
    simp only [Machine.deliver, hv, hr, ne_eq, not_true_eq_false, decide_false, Bool.false_and, Bool.false_eq_true, if_false]
    exact .ite (refl s) (.ite (releasePlace s _ _) (ringReply s c _ _ st d win gen))
  | slot q i l =>
    simp only [Machine.deliver, hv, hr, ne_eq, not_true_eq_false, if_false]
    exact slotReply s c _ _ st d win gen
  | mgmt m =>
    simp only [Machine.deliver, hv]
    exact ifaceReply s m _ _
  | fabric src sp dp => simp [hv, isFabric] at hf
  | awl c' a i => simp [Machine.deliver, hv, hr]
  | device p => simp [Machine.deliver, hv, hr]

theorem noteHealth (c : Cmd) (st : Status) : SameDevice s (noteHealth s c st) := by
  simp only [Machine.noteHealth]
  split
  · exact refl s
  · exact .ite (refl s) ((modPart s _ _).trans (owe _ _))

theorem lookBoundary (c : Nat) : SameDevice s (lookBoundary s c) := by
  unfold Machine.lookBoundary; split
  · exact .ite (owe s _) (refl s)
  · exact refl s

theorem kickStream (c i : Nat) : SameDevice s (kickStream s c i) := by
  simp only [Machine.kickStream]
  refine .ite (refl s) (.ite (owe s _) ?_)
  refine .ite (.ite (.trans (.ite (refl s) (modStream s c i _)) (lookBoundary _ c)) (.trans (.ite (refl s) (modStream s c i _)) (owe _ _))) (refl s)

theorem setFwQueue (p : Option Nat) (n : Nat) (l : List QEntry) : SameDevice s (setFwQueue s p n l) := by
  unfold Machine.setFwQueue; split
  · constructor <;> rfl
  · split
    · split
      · exact modPart s _ _
      · exact refl s
    · exact modCtx s n _

theorem kickFw (p : Option Nat) (n : Nat) : SameDevice s (kickFw s p n) := by
  unfold Machine.kickFw; split
  · exact refl s
  · exact .ite (refl s) ((setFwQueue s p n _).trans (owe _ _))

theorem kick (c : Cmd) (u : UnitId) : SameDevice s (kick s c u) := by
  unfold Machine.kick; split
  · exact kickStream s _ _
  · exact .ite (kickFw s _ _) (refl s)

theorem oweSig (c : Cmd) (st : Status) (signed : Bool) : SameDevice s (oweSig s c st signed) := .ite (owe s _) (refl s)

theorem setWaiting (n : Nat) (l : List Waiting) : SameDevice s { s with nextId := n, waiting := l } := by constructor <;> rfl

theorem askUnit (k : Nat) (w : Wait) (op : Nat) : SameDevice s (askUnit s k w op) := by
  unfold Machine.askUnit; split
  · exact owe s _
  · exact refl s

end SameDevice

/-! ### Where a record is delivered (R499) -/

theorem needsWindow_of_resultAddr {h : Hdr} (hr : h.resultAddr ≠ 0) (sp : Spec) : needsWindow sp h = false := by
  have hr' : h.resultAddr ≠ 0#64 := hr
  simp [needsWindow, hr']

section
variable {s : State} {c : Cmd} (hw : c.win = none)
include hw

theorem deliverRecord_of_resultAddr_zero (hr : c.h.resultAddr = 0) (st : Status) (rec_ : List Byte) :
    deliverRecord s c st rec_ = s := by
  simp [deliverRecord, hw, hr]

theorem deliverRecord_of_part {p : Nat} (hp : c.part = some p) (hr : c.h.resultAddr ≠ 0) (st : Status) (rec_ : List Byte) :
    deliverRecord s c st rec_ = (if rec_ = [] then s else partWrite s p c.h.resultAddr.toNat rec_) := by
  have hr' : c.h.resultAddr ≠ 0#64 := hr
  simp [deliverRecord, hw, hp, hr']

theorem deliverRecord_of_host (hp : c.part = none) (hr : c.h.resultAddr ≠ 0) (st : Status) (rec_ : List Byte) :
    deliverRecord s c st rec_ =
      (if rec_ = [] ∨ linkLost s c.h.via = true then s else hostWrite s c.h.resultAddr.toNat rec_) := by
  have hr' : c.h.resultAddr ≠ 0#64 := hr
  by_cases he : rec_ = [] <;> simp [deliverRecord, hw, hp, hr', he]

/-- A command without a window and without a signal delivers its record and then its reply. -/
theorem complete_of_no_window (hs : sigEyelet c.h = none) (st : Status) (d : Nat) (rec_ : List Byte) :
    complete s c st d rec_ = deliver (deliverRecord (noteHealth s c st) c st rec_) c st d 0xFFFFFFFF 0 rec_ := by
  simp only [complete, hw, hs]

end

/-- Settles O7, by the cases of the delivery of a record. -/
theorem recordGoesToResultAddress : Obligations.RecordGoesToResultAddress :=
  ⟨fun sp _ hr => needsWindow_of_resultAddr hr sp, fun _ _ st rec_ _ hw hp hr => deliverRecord_of_part hw hp hr st rec_,
    fun _ _ st rec_ hw hp hr => deliverRecord_of_host hw hp hr st rec_,
    fun _ _ st d rec_ hw hs => complete_of_no_window hw hs st d rec_⟩

/-! ### How a command ends -/

/-- The end of a command that comes from no peer, names no address and no eyelet and holds no window. -/
theorem SameDevice.endCmd {c : Cmd} (hf : isFabric c.h.via = false) (hw : c.win = none) (hr : c.h.resultAddr = 0)
    (hreply : c.h.replyAddr = 0) (hs : sigEyelet c.h = none) (u : UnitId) (i : Instr) (r : Res) : SameDevice r.s (endCmd u i c r) := by
  unfold Machine.endCmd
  split
  · rw [complete_of_no_window hw hs, deliverRecord_of_resultAddr_zero hw hr]
    exact (((SameDevice.noteHealth _ c _).trans (SameDevice.deliver _ hf hreply _ _ _ _ _)).trans (SameDevice.oweSig _ c _ _)).trans
      (SameDevice.kick _ c u)
  · dsimp only
    split
    · exact (SameDevice.setWaiting _ _ _).trans ((SameDevice.modStream _ _ _ _).trans ((SameDevice.lookBoundary _ _).trans
        (SameDevice.askUnit _ _ _ _)))
    · exact (SameDevice.setWaiting _ _ _).trans (SameDevice.kick _ c u)

/-- Settles O6, by the frames of the operations that start and end a command. -/
theorem startingAndEndingLeaveTheRest : Obligations.StartingAndEndingLeaveTheRest := by
  refine ⟨fun s t q hu ht => ?_, fun s t q i r hf hw hr hreply hs ht => ?_⟩
  · obtain ⟨ps, cs, n, h⟩ := atStart_eq (s := s) hu
    rw [ht, h]
    exact ⟨rfl, rfl, rfl, rfl, rfl, rfl, rfl, rfl, rfl, rfl, rfl, rfl, rfl, rfl, rfl, rfl, rfl, rfl, rfl⟩
  · have h : SameDevice r.s t := ht ▸ SameDevice.endCmd hf hw hr hreply (if_pos hs) _ i r
    exact ⟨h.mem, h.used, h.poison, h.eyelets, h.laces, h.tallies, h.btn, h.dies, h.hbm, h.cxl, h.sec, h.mi, h.relia, h.power, h.pins,
      h.fab, h.votes, h.ready⟩

end Sys2Proof.Machine
end

section
/-! PROOFS. Device memory (R415, R416): what a write to HBM leaves, fresh pages, and the values after the power-on reset. -/
namespace Sys2Proof.Machine

/-! ### Consecutive writes of a table -/

theorem tputs_append {α : Type} [DecidableEq α] (d : α) (k : Nat) (xs ys : List α) (t : Tab α) :
    tputs d k (xs ++ ys) t = tputs d (k + xs.length) ys (tputs d k xs t) := by
  induction xs generalizing k t with
  | nil => rfl
  | cons x xs ih =>
    simp only [List.cons_append, tputs, ih, List.length_cons]
    rw [show k + 1 + xs.length = k + (xs.length + 1) by omega]

/-- A write of the value that is read back at its key changes nothing that is read. -/
theorem tget_tput_self {α : Type} [DecidableEq α] {d : α} {t : Tab α} (h : twf d t = true) {k : Nat} (v : α) (hv : tget d k t = v)
    (j : Nat) : tget d j (tput d k v t) = tget d j t := by
  by_cases hj : j = k
  · rw [hj, tget_tput h, hv]
  · exact tget_tput_ne h hj v

/-! ### A write to HBM (R415, R416) -/

/-- What a write of `bs` at an address of unpoisoned HBM leaves: the bytes written, their pages in use, and no sector newly poisoned or
cleared. -/
structure WroteHbm (s : State) (a : Nat) (bs : List Byte) (t : State) : Prop where
  eq : t = { s with mem := tputs 0 a bs s.mem, used := t.used, poison := t.poison }
  poison : ∀ k, tget false k t.poison = tget false k s.poison
  used : ∀ k, tget false k t.used = true ↔ tget false k s.used = true ∨ ∃ i, i < bs.length ∧ (a + i) / 2 ^ 21 = k

theorem wroteHbm_nil (s : State) (a : Nat) : WroteHbm s a [] s := ⟨rfl, fun _ => rfl, fun _ => by simp⟩

/-- A part of one sector. -/
theorem wroteHbm_sector {s : State} (hs : MemoryCanonical s) {a : Nat} {bs : List Byte} (hlen : 0 < bs.length)
    (hsector : a % 512 + bs.length ≤ 512) (ha : a < 0xC000000000) (hp : tget false (a / 512) s.poison = false) :
    WroteHbm s a bs (devWriteSector s a bs) := by
  obtain ⟨-, -, hused, hpoison⟩ := hs
  rw [devWriteSector_hbm bs ha hp]
  refine ⟨rfl, fun k => tget_tput_self hpoison false hp k, fun k => ?_⟩
  by_cases hk : k = a / 2 ^ 21
  · simp only [hk, tget_tput hused, true_iff]
    exact Or.inr ⟨0, hlen, rfl⟩
  · simp only [tget_tput_ne hused hk]
    have hnot : ¬ ∃ i, i < bs.length ∧ (a + i) / 2 ^ 21 = k := by
      rintro ⟨i, hi, he⟩
      omega
    exact (or_iff_left hnot).symm

/-- Two consecutive parts. -/
theorem WroteHbm.append {s t u : State} {a : Nat} {xs ys : List Byte} (h : WroteHbm s a xs t) (k : WroteHbm t (a + xs.length) ys u) :
    WroteHbm s a (xs ++ ys) u := by
  refine ⟨?_, fun j => (k.poison j).trans (h.poison j), fun j => ?_⟩
  · rw [k.eq, h.eq, tputs_append]
  · rw [k.used, h.used, or_assoc]
    refine or_congr_right ⟨?_, ?_⟩
    · rintro (⟨i, hi, he⟩ | ⟨i, hi, he⟩)
      · exact ⟨i, by simp; omega, he⟩
      · exact ⟨xs.length + i, by simp; omega, by rw [← he, Nat.add_assoc]⟩
    · rintro ⟨i, hi, he⟩
      rw [List.length_append] at hi
      by_cases hx : i < xs.length
      · exact Or.inl ⟨i, hx, he⟩
      · exact Or.inr ⟨i - xs.length, by omega, by rw [← he]; congr 1; omega⟩

/-- Cutting a write at the sector boundaries writes all of it. -/
theorem wroteHbm_devWriteGo (n : Nat) {s : State} (hs : MemoryCanonical s) {a : Nat} {bs : List Byte} (hn : a % 512 + bs.length ≤ 512 * n)
    (ha : a + bs.length ≤ 0xC000000000) (hp : ∀ i, i < bs.length → tget false ((a + i) / 512) s.poison = false) :
    WroteHbm s a bs (devWriteGo n s a bs) := by
  induction n generalizing s a bs with
  | zero =>
    have hbs : bs = [] := List.eq_nil_of_length_eq_zero (by omega)
    exact hbs ▸ wroteHbm_nil s a
  | succ n ih =>
    simp only [devWriteGo]
    split
    · rename_i hbs
      exact List.isEmpty_iff.mp hbs ▸ wroteHbm_nil s a
    · rename_i hbs
      have hlen : 0 < bs.length := List.length_pos_iff.mpr (by simpa using hbs)
      have hmod : a % 512 < 512 := Nat.mod_lt _ (by decide)
      have htake : (bs.take (512 - a % 512)).length = min (512 - a % 512) bs.length := List.length_take
      have hsector : WroteHbm s a (bs.take (512 - a % 512)) (devWriteSector s a (bs.take (512 - a % 512))) :=
        wroteHbm_sector hs (by omega) (by omega) (by omega) (hp 0 hlen)
      have hcanon := devWriteSector_memoryCanonical hs a (bs.take (512 - a % 512))
      by_cases hshort : bs.length ≤ 512 - a % 512
      · have hdrop : bs.drop (512 - a % 512) = [] := List.drop_eq_nil_of_le hshort
        have hgo : ∀ m t b, devWriteGo m t b [] = t := fun m t b => by cases m <;> rfl
        rw [hdrop, hgo]
        rwa [List.take_of_length_le hshort] at hsector ⊢
      · have hdrop : (bs.drop (512 - a % 512)).length = bs.length - (512 - a % 512) := List.length_drop
        have hrest := ih (s := devWriteSector s a (bs.take (512 - a % 512))) (a := a + (512 - a % 512)) (bs := bs.drop (512 - a % 512)) hcanon
          (by omega) (by omega) (fun i hi => by
            rw [hsector.poison, Nat.add_assoc]
            exact hp _ (by omega))
        have hjoin := hsector.append (a := a) (ys := bs.drop (512 - a % 512)) (by rw [htake, Nat.min_eq_left (by omega)]; exact hrest)
        rwa [List.take_append_drop] at hjoin

theorem wroteHbm_devWrite {s : State} (hs : MemoryCanonical s) {a : Nat} {bs : List Byte} (ha : a + bs.length ≤ 0xC000000000)
    (hp : ∀ i, i < bs.length → tget false ((a + i) / 512) s.poison = false) : WroteHbm s a bs (devWrite s a bs) :=
  wroteHbm_devWriteGo _ hs (by omega) ha hp

section
variable {s t : State} {a : Nat} {bs : List Byte} (h : WroteHbm s a bs t)
include h

theorem WroteHbm.farFails (b : Nat) : farFails t b = farFails s b := by rw [h.eq]; rfl

theorem WroteHbm.scratchIn (j b : Nat) : scratchIn t j b = scratchIn s j b := by rw [h.eq]; rfl

/-- A byte that is written reads as written. -/
theorem WroteHbm.devByte_in (hs : MemoryCanonical s) (ha : a + bs.length ≤ 0xC000000000) {i : Nat} (hi : i < bs.length)
    (hp : tget false ((a + i) / 512) s.poison = false) : devByte t (a + i) = bs[i] := by
  have hk : addrKind (a + i) = .hbm := addrKind_hbm (by omega)
  have hclean : poisoned t (a + i) = false := by
    simp [poisoned, h.poison, hp, Machine.farFails, hk]
  have hmem : t.mem = tputs 0 a bs s.mem := congrArg State.mem h.eq
  simp only [devByte, hk, hclean, Bool.false_eq_true, if_false, hmem]
  exact tget_tputs_in i bs hs.1 hi

/-- A page newly in use held no poison, so no byte outside the write reads otherwise. -/
theorem WroteHbm.poisoned_out (hu : PoisonInUse s) (ha : a + bs.length ≤ 0xC000000000) (b : Nat) : poisoned t b = poisoned s b := by
  simp only [poisoned, h.poison, h.farFails]
  cases hused : tget false (b / 2 ^ 21) s.used with
  | true => rw [(h.used _).mpr (Or.inl hused)]
  | false =>
    cases hnew : tget false (b / 2 ^ 21) t.used with
    | false => rfl
    | true =>
      obtain hold | ⟨i, hi, he⟩ := (h.used _).mp hnew
      · rw [hused] at hold; cases hold
      · have hp : tget false (b / 512) s.poison = false := by
          refine Bool.eq_false_iff.mpr fun hne => ?_
          have hpage := hu _ hne
          rw [Nat.div_div_eq_div_mul, show 512 * 4096 = 2 ^ 21 by decide, hused] at hpage
          cases hpage
        have hk : addrKind b = .hbm := addrKind_hbm (by omega)
        simp [hp, Machine.farFails, hk]

theorem WroteHbm.devByte_out (hs : MemoryCanonical s) (hu : PoisonInUse s) (ha : a + bs.length ≤ 0xC000000000) {b : Nat}
    (hb : b < a ∨ a + bs.length ≤ b) : devByte t b = devByte s b := by
  have hmem : tget 0 b t.mem = tget 0 b s.mem := by
    rw [congrArg State.mem h.eq]
    exact tget_tputs_out bs hs.1 hb
  simp only [devByte, hmem, h.poisoned_out hu ha, h.scratchIn]

end

/-- Settles O9, by the parts into which a write is cut at the sector boundaries. -/
theorem deviceMemoryReadsBack : Obligations.DeviceMemoryReadsBack := by
  refine ⟨fun s a bs hs hu ha hp => ?_, fun s a bs ha hp hlen => ?_⟩
  · have h := wroteHbm_devWrite hs ha hp
    refine ⟨List.ext_getElem (by simp [devRead]) fun i hi hi' => ?_, fun b hb => h.devByte_out hs hu ha hb⟩
    simp only [devRead, List.getElem_map, List.getElem_range]
    exact h.devByte_in hs ha hi' (hp i hi')
  · have hdrop : devWriteSector s a bs = countIntegrity s a := by
      simp [devWriteSector, addrKind_hbm ha, hp, Nat.ne_of_lt hlen]
    rw [hdrop]
    simp

/-! ### Fresh pages (R415, R519) -/

theorem addrKind_isFar (a : Nat) : (∃ p, addrKind a = .far p) ↔ 0x010000000000 ≤ a ∧ a < 0x090000000000 := by
  unfold addrKind
  repeat' split
  all_goals simp <;> omega

theorem ownsDev_of_far {s : State} {p a q : Nat} (hk : addrKind a = .far q) : ownsDev s p a =
    (bFar s p).any (fun e => decide (e.dbase ≤ (a - 0x010000000000) / 2 ^ 21) && decide ((a - 0x010000000000) / 2 ^ 21 < e.dbase + e.pages)) := by
  have ha := (addrKind_isFar a).mp ⟨q, hk⟩
  have hn : ¬ a < 0xC000000000 := by omega
  simp only [ownsDev, hn, if_false, hk]

/-- Only external memory is held by a partition in pages. -/
theorem ownsDev_of_inside {s : State} {p a : Nat} (ha : ¬ a < 0xC000000000) (hk : ∀ q, addrKind a ≠ .far q) : ownsDev s p a = false := by
  simp only [ownsDev, ha, if_false]

/-- A partition holds whole pages of 2 MiB. -/
theorem ownsDev_page {s : State} {p a b : Nat} (h : a / 2 ^ 21 = b / 2 ^ 21) : ownsDev s p a = ownsDev s p b := by
  by_cases ha : a < 0xC000000000
  · have hb : b < 0xC000000000 := by omega
    simp only [ownsDev, ha, hb, if_true, h]
  · have hb : ¬ b < 0xC000000000 := by omega
    by_cases hfar : 0x010000000000 ≤ a ∧ a < 0x090000000000
    · obtain ⟨q, hq⟩ := (addrKind_isFar a).mpr hfar
      obtain ⟨r, hr⟩ := (addrKind_isFar b).mpr (by omega)
      rw [ownsDev_of_far hq, ownsDev_of_far hr, show (a - 0x010000000000) / 2 ^ 21 = (b - 0x010000000000) / 2 ^ 21 by omega]
    · rw [ownsDev_of_inside ha fun q hq => hfar ((addrKind_isFar a).mp ⟨q, hq⟩),
        ownsDev_of_inside hb fun q hq => hfar (by have := (addrKind_isFar b).mp ⟨q, hq⟩; omega)]

section
variable {s : State} {p a : Nat}

theorem poisoned_freshPages_of_owned (h : ownsDev s p a = true) : poisoned (freshPages s p) a = false := by
  have hpage : ownsDev s p (a / 2 ^ 21 * 2 ^ 21) = true := by rw [← h]; exact ownsDev_page (by omega)
  have hunused : tget false (a / 2 ^ 21) (freshPages s p).used = false := by
    exact tget_filter_drop false _ _ (fun _ => by simp only [hpage]; rfl)
  simp only [poisoned, hunused, Bool.false_and]

theorem devByte_freshPages_of_owned (h : ownsDev s p a = true) : devByte (freshPages s p) a = 0 := by
  have hmem : tget 0 a (freshPages s p).mem = 0 := tget_filter_drop 0 _ _ (fun _ => by simp [h])
  simp only [devByte, poisoned_freshPages_of_owned h, hmem]
  split <;> simp

theorem poisoned_freshPages_of_not_owned (hs : MemoryCanonical s) (h : ownsDev s p a = false) :
    poisoned (freshPages s p) a = poisoned s a := by
  obtain ⟨-, -, hused, hpoison⟩ := hs
  have hpage : ownsDev s p (a / 2 ^ 21 * 2 ^ 21) = false := by rw [← h]; exact ownsDev_page (by omega)
  have hsector : ownsDev s p (a / 512 * 512) = false := by rw [← h]; exact ownsDev_page (by omega)
  have hu : tget false (a / 2 ^ 21) (freshPages s p).used = tget false (a / 2 ^ 21) s.used :=
    tget_filter_keep false _ (twf_sorted hused) (fun _ => by simp only [hpage]; rfl)
  have hp : tget false (a / 512) (freshPages s p).poison = tget false (a / 512) s.poison :=
    tget_filter_keep false _ (twf_sorted hpoison) (fun _ => by simp [hsector])
  simp only [poisoned, hu, hp]
  rfl

theorem devByte_freshPages_of_not_owned (hs : MemoryCanonical s) (h : ownsDev s p a = false) :
    devByte (freshPages s p) a = devByte s a := by
  have hmem : tget 0 a (freshPages s p).mem = tget 0 a s.mem :=
    tget_filter_keep 0 _ (twf_sorted hs.1) (fun _ => by simp [h])
  simp only [devByte, poisoned_freshPages_of_not_owned hs h, hmem]
  rfl

end

/-- Settles O44: fresh pages are cut from the three tables of device memory by whole pages. -/
theorem freshPagesReadZero : Obligations.FreshPagesReadZero := fun _ _ hs =>
  ⟨fun _ h => devByte_freshPages_of_owned h, fun _ h => devByte_freshPages_of_not_owned hs h⟩

/-! ### The power-on reset -/

theorem devByte_reset (a : Nat) : devByte State.reset a = 0 := by
  have hclean : poisoned State.reset a = false := rfl
  have hmem : tget 0 a State.reset.mem = 0 := rfl
  simp only [devByte, hclean, hmem]
  split <;> simp

theorem btnSrc_reset (c k : Nat) : btnSrc (bittern State.reset c) c k = btnDefault c k := rfl

/-- Settles O8: every table is empty, so what an unlisted key reads as decides. -/
theorem resetValues : Obligations.ResetValues :=
  ⟨fun _ => ⟨rfl, rfl, rfl, rfl, rfl⟩, fun _ => ⟨rfl, rfl⟩, fun _ => ⟨rfl, rfl, rfl, rfl⟩,
    fun c k => by rw [btnSrc_reset]; exact ⟨btnDefault_pend c k, btnDefault_active c k⟩, fun _ _ => rfl, fun _ _ => rfl,
    fun _ => ⟨rfl, fun _ => rfl⟩, fun _ _ => ⟨rfl, rfl⟩, fun _ => ⟨rfl, rfl⟩, fun _ => rfl, devByte_reset, rfl, rfl, rfl, rfl, rfl⟩

/-- Settles O22: at reset no eyelet has a waiter and no memory holds a byte. -/
theorem resetMeetsInvariants : Obligations.ResetMeetsInvariants :=
  ⟨⟨rfl, fun _ _ hw => nomatch hw⟩, reset_memoryCanonical⟩

end Sys2Proof.Machine
end

section
/-! PROOFS. Eyelets (R352 to R362): how a started command completes, the eyelet commands, what a signal leaves, and that every window
access leaves the eyelets served. -/
namespace Sys2Proof.Machine

/-! ### A command that its unit starts -/

/-- A started command whose own meaning is `r` ends as `r` says. -/
theorem command_completes {i : Instr} {sp : Spec} {h : Hdr} {b : List Byte} {body : State → Cmd → Res} {s : State} {q : QEntry} {r : Res}
    (hs : s.starting = none) (hsig : sigCheck (atStart s q) q.cmd.h = none) (hexec : ∀ t, exec i t = command i sp h b body t)
    (hbody : body (atStart s q) q.cmd = r) : exec i (startOf s q) = .next (endsAs s q i r) := by
  rw [hexec, command_started i sp h b body s q hs, runBody_free hsig, hbody]

/-- A command of a partition that is ready to start. -/
theorem Startable.completes {i : Instr} {sp : Spec} {h : Hdr} {b : List Byte} {body : State → Cmd → Res} {s : State} {q : QEntry} {p : Nat}
    {r : Res} (hq : Startable s q p) (hexec : ∀ t, exec i t = command i sp h b body t)
    (hbody : q.cmd.part = some p → body (atStart s q) q.cmd = r) : exec i (startOf s q) = .next (endsAs s q i r) :=
  command_completes hq.1 hq.2.2 hexec (hbody hq.2.1)

/-- A command of the management context that is ready to start. -/
theorem MgmtStartable.completes {i : Instr} {sp : Spec} {h : Hdr} {b : List Byte} {body : State → Cmd → Res} {s : State} {q : QEntry}
    {r : Res} (hq : MgmtStartable s q) (hexec : ∀ t, exec i t = command i sp h b body t)
    (hbody : q.cmd.part = none → body (atStart s q) q.cmd = r) : exec i (startOf s q) = .next (endsAs s q i r) :=
  command_completes hq.1 hq.2.2 hexec (hbody hq.2.1)

/-! ### Takes, scans and signals (R355, R357, R358) -/

theorem takeEyelet_event {x : Eyelet} (h : x.event = true) (n : Nat) : takeEyelet x n = if x.count = 0 then none else some x := by
  simp only [takeEyelet, h, if_true]

theorem takeEyelet_semaphore {x : Eyelet} (h : x.event = false) (n : Nat) :
    takeEyelet x n = if n ≤ x.count.toNat then some { x with count := x.count - BitVec.ofNat 32 n } else none := by
  simp only [takeEyelet, h, Bool.false_eq_true, if_false]

theorem toNat_sub_ofNat {w n : Nat} {x : BitVec w} (h : n ≤ x.toNat) : (x - BitVec.ofNat w n).toNat = x.toNat - n := by
  have hn : (BitVec.ofNat w n).toNat = n := by rw [BitVec.toNat_ofNat, Nat.mod_eq_of_lt (Nat.lt_of_le_of_lt h x.isLt)]
  rw [BitVec.toNat_sub_of_le (by rw [BitVec.le_def, hn]; exact h), hn]

theorem toNat_add_ofNat {w n : Nat} {x : BitVec w} (h : x.toNat + n < 2 ^ w) : (x + BitVec.ofNat w n).toNat = x.toNat + n := by
  have hn : (BitVec.ofNat w n).toNat = n := by rw [BitVec.toNat_ofNat, Nat.mod_eq_of_lt (by omega)]
  rw [BitVec.toNat_add, hn, Nat.mod_eq_of_lt h]

/-- Settles O18, by the mode of the eyelet. -/
theorem takesFollowTheMode : Obligations.TakesFollowTheMode := by
  refine ⟨fun x n he => ⟨fun hn => ?_, fun hn => ?_⟩, fun x n he _ => ⟨fun hc => ?_, fun hc => ?_⟩⟩
  · rw [takeEyelet_semaphore he, if_pos hn]
    exact ⟨_, rfl, toNat_sub_ofNat hn, rfl⟩
  · rw [takeEyelet_semaphore he, if_neg (Nat.not_le.mpr hn)]
  · rw [takeEyelet_event he, if_neg (by rw [hc]; decide)]
  · rw [takeEyelet_event he, if_pos hc]

@[simp] theorem scanEyelet_count (x : Eyelet) : (scanEyelet x).1.count = x.count := by
  unfold scanEyelet; split <;> rfl

@[simp] theorem scanEyelet_sat (x : Eyelet) : (scanEyelet x).1.sat = x.sat := by
  unfold scanEyelet; split <;> rfl

/-- An eyelet after signal(k), before the scan. -/
def signalled (x : Eyelet) (k : Nat) : Eyelet :=
  if x.event then { x with count := 1 }
  else if 2 ^ 32 ≤ x.count.toNat + k then { x with count := BitVec.ofNat 32 (2 ^ 32 - 1), sat := true }
  else { x with count := x.count + BitVec.ofNat 32 k }

/-- A signal scans the eyelet that it has changed, and no other eyelet changes. -/
theorem eyelet_signalEyelet {s : State} (h : twf ({} : Eyelet) s.eyelets = true) (e k f : Nat) :
    eyelet (signalEyelet s e k).1 f = if f = e then (scanEyelet (signalled (eyelet s e) k)).1 else eyelet s f := by
  have hscan (t : State) (x : Eyelet) (ht : t.eyelets = tput {} e x s.eyelets) :
      eyelet (scan t e) f = if f = e then (scanEyelet x).1 else eyelet s f := by
    have hread (g : Nat) : eyelet t g = if g = e then x else eyelet s g := by
      rw [← eyelet_set s e g x h, eyelet, ht]; rfl
    rw [eyelet_scan t e f (by rw [ht]; exact twf_tput h _ _), hread, hread, if_pos rfl]
    split <;> rfl
  simp only [signalEyelet, signalled]
  split
  · exact hscan _ _ rfl
  · split
    · exact hscan _ _ (by simp [eyeFault_eyelets])
    · exact hscan _ _ rfl

theorem signalEyelet_saturates (s : State) (e k : Nat) (he : (eyelet s e).event = false) :
    (signalEyelet s e k).2 = decide (2 ^ 32 ≤ (eyelet s e).count.toNat + k) := by
  simp only [signalEyelet, he, Bool.false_eq_true, if_false]
  split <;> simp_all

/-- Settles O19, by the two cases of a signal to a semaphore. -/
theorem signalAddsOrSaturates : Obligations.SignalAddsOrSaturates := by
  intro s e k hs he
  simp only [eyelet_signalEyelet hs, signalEyelet_saturates s e k he, if_true, scanEyelet_count, scanEyelet_sat, signalled, he,
    Bool.false_eq_true, if_false]
  refine ⟨fun hsat => ?_, fun hsum => ?_, fun f hf => if_neg hf⟩
  · simp only [hsat, if_true, decide_true]
    exact ⟨rfl, trivial, trivial⟩
  · simp only [Nat.not_le.mpr hsum, if_false, decide_false]
    exact ⟨toNat_add_ofNat hsum, trivial, trivial⟩

/-- Settles O20: a signal ends with a scan. -/
theorem signalServesEverySleeper : Obligations.SignalServesEverySleeper := by
  intro s e k hs
  rw [eyelet_signalEyelet hs, if_pos rfl]
  exact scanEyelet_served _

/-! ### The eyelet commands (R360, R361) -/

/-- TRY is bit 0 of a control field that is 0 or 1. -/
theorem bitOf_zero_of_le_one {n : Nat} (h : n ≤ 1) : bitOf n 0 = decide (n = 1) := by
  obtain rfl | rfl : n = 0 ∨ n = 1 := by omega
  · rfl
  · rfl

section
variable {s : State} {c : Cmd} {pt : Nat} (hpart : c.part = some pt)
include hpart

theorem bodyEyeletInit_of_pass {p : EyeletInitP} (hr : p.rsvdA = 0) (he : p.eyelet.toNat < 16384) (hm : p.mode.toNat ≤ 1)
    (hc : p.mode.toNat = 1 → p.count.toNat ≤ 1) (ho : ownsEyelet s pt p.eyelet.toNat = true)
    (hw : (eyelet s p.eyelet.toNat).waiters = []) :
    bodyEyeletInit p s c = { s := setEyelet s p.eyelet.toNat { eyelet s p.eyelet.toNat with
      event := decide (p.mode.toNat = 1), count := p.count, sat := false } } := by
  have hbad : (decide (p.mode.toNat = 1) && decide (1 < p.count.toNat)) = false := by
    by_cases h1 : p.mode.toNat = 1
    · simp [Nat.not_lt.mpr (hc h1)]
    · simp [h1]
  simp [bodyEyeletInit, checked, hpart, hr, Nat.not_le.mpr he, Nat.not_lt.mpr hm, hbad, ho, hw]

theorem bodyEyeletInit_of_fail {p : EyeletInitP} (hr : p.rsvdA = 0) (he : p.eyelet.toNat < 16384) (hm : p.mode.toNat = 0) :
    (ownsEyelet s pt p.eyelet.toNat = false → bodyEyeletInit p s c = { s := s, st := .denied }) ∧
    (ownsEyelet s pt p.eyelet.toNat = true → (eyelet s p.eyelet.toNat).waiters ≠ [] →
      bodyEyeletInit p s c = { s := s, st := .contextBusy }) := by
  refine ⟨fun ho => ?_, fun ho hw => ?_⟩
  · simp [bodyEyeletInit, checked, hpart, hr, Nat.not_le.mpr he, hm, ho]
  · have hbusy : (eyelet s p.eyelet.toNat).waiters.isEmpty = false := by simpa using hw
    simp [bodyEyeletInit, checked, hpart, hr, Nat.not_le.mpr he, hm, ho, hbusy]

theorem bodyEyeletSignal_of_signal {p : EyeletSignalP} (hr : p.rsvdA = 0) (he : p.eyelet.toNat < 16384)
    (ho : ownsEyelet s pt p.eyelet.toNat = true) (hop : p.op.toNat = 0 ∧ p.k.toNat = 0 ∨ p.op.toNat = 1 ∧ p.k.toNat ≠ 0) :
    bodyEyeletSignal p s c = {
      s := (signalEyelet s p.eyelet.toNat (if p.op.toNat = 0 then 1 else p.k.toNat)).1
      st := if (signalEyelet s p.eyelet.toNat (if p.op.toNat = 0 then 1 else p.k.toNat)).2 then .noResource else .ok } := by
  obtain ⟨hop, hk⟩ | ⟨hop, hk⟩ := hop <;>
    simp [bodyEyeletSignal, checked, hpart, hr, Nat.not_le.mpr he, ho, hop, hk]

theorem bodyEyeletSignal_clear {p : EyeletSignalP} (hr : p.rsvdA = 0) (he : p.eyelet.toNat < 16384)
    (ho : ownsEyelet s pt p.eyelet.toNat = true) (hop : p.op.toNat = 2) (hk : p.k.toNat = 0) :
    bodyEyeletSignal p s c = if (eyelet s p.eyelet.toNat).event
      then { s := setEyelet s p.eyelet.toNat { eyelet s p.eyelet.toNat with count := 0 } } else { s := s, st := .badParam } := by
  cases hx : (eyelet s p.eyelet.toNat).event <;>
    simp [bodyEyeletSignal, checked, hpart, hr, Nat.not_le.mpr he, ho, hop, hk, hx]

theorem bodyEyeletRead_of_pass {p : EyeletReadP} (hr : p.rsvdA = 0) (he : p.eyelet.toNat < 16384)
    (ho : ownsEyelet s pt p.eyelet.toNat = true) :
    bodyEyeletRead p s c = { s := s, record := eyeletRecord (eyelet s p.eyelet.toNat) } := by
  simp [bodyEyeletRead, checked, hpart, hr, Nat.not_le.mpr he, ho]

theorem bodyEyeletWait_of_pass {p : EyeletWaitP} (hr : p.rsvdA = 0) (hctl : p.ctl.toNat ≤ 1) (he : p.eyelet.toNat < 16384)
    (ho : ownsEyelet s pt p.eyelet.toNat = true) (hn : (eyelet s p.eyelet.toNat).event = true ∨ p.n.toNat ≠ 0) :
    (∀ x, takeEyelet (eyelet s p.eyelet.toNat) p.n.toNat = some x → bodyEyeletWait p s c =
      { s := setEyelet s p.eyelet.toNat x, record := if p.ctl.toNat = 1 then 1 :: zeros 7 else [] }) ∧
    (takeEyelet (eyelet s p.eyelet.toNat) p.n.toNat = none → bodyEyeletWait p s c =
      if p.ctl.toNat = 1 then { s := s, record := zeros 8 }
      else { s := sleepOn s p.eyelet.toNat p.n.toNat (unitOf s c.h), wait := some (.eyelet p.eyelet.toNat p.n.toNat) }) := by
  have hzero : (!(eyelet s p.eyelet.toNat).event && decide (p.n.toNat = 0)) = false := by
    obtain h | h := hn <;> simp [h]
  simp only [bodyEyeletWait, hpart, Option.getD_some, hr, ho, hzero, bitOf_zero_of_le_one hctl, decide_eq_true_eq]
  rw [checked_pass (by simp [Nat.not_le.mpr he, Nat.not_lt.mpr hctl])]
  constructor
  · intro x hx; simp only [hx]
  · intro hx; simp only [hx]

end

/-- Settles O16, by the check list of each command. -/
theorem eyeletCommandsComplete : Obligations.EyeletCommandsComplete := by
  refine ⟨fun s q h p pt hq hr he hm hc ho hw => hq.completes (fun _ => rfl) fun hp => bodyEyeletInit_of_pass hp hr he hm hc ho hw,
    fun s q h p pt hq hr he ho => ⟨fun hop => hq.completes (fun _ => rfl) fun hp => bodyEyeletSignal_of_signal hp hr he ho hop,
      fun hop hk hx => hq.completes (fun _ => rfl) fun hp => ?clear⟩,
    fun s q h p pt x hq hr hctl he ho hn ht => hq.completes (fun _ => rfl) fun hp => ?takes,
    fun s q h p pt hq hr he ho => hq.completes (fun _ => rfl) fun hp => bodyEyeletRead_of_pass hp hr he ho⟩
  case clear => rw [bodyEyeletSignal_clear hp hr he ho hop hk, if_pos hx]
  case takes => exact (bodyEyeletWait_of_pass hp hr hctl he ho hn).1 x ht

/-- Settles O17, by the branch of a wait that cannot take and by the first check that fails. -/
theorem eyeletWaitSleepsOrFails : Obligations.EyeletWaitSleepsOrFails := by
  refine ⟨fun s q h p pt hq hr hctl he ho hn ht => hq.completes (fun _ => rfl) fun hp => ?sleeps,
    fun s q h p pt hq hr he hm => ⟨fun ho => hq.completes (fun _ => rfl) fun hp => (bodyEyeletInit_of_fail hp hr he hm).1 ho,
      fun ho hw => hq.completes (fun _ => rfl) fun hp => (bodyEyeletInit_of_fail hp hr he hm).2 ho hw⟩,
    fun s q h p pt hq hr he ho hop hk hx => hq.completes (fun _ => rfl) fun hp => ?semaphore⟩
  case sleeps => exact (bodyEyeletWait_of_pass hp hr hctl he ho hn).2 ht
  case semaphore => rw [bodyEyeletSignal_clear hp hr he ho hop hk, hx]; rfl

/-! ### Retries and timeouts (R355, R356, R370) -/

/-- What a retry resumes: a command that waits on the eyelet. -/
def waitsOnEyelet (e : Nat) : Wait → Bool
  | .eyelet f _ => decide (f = e)
  | _ => false

section
variable {s : State} {e : Nat} {u : UnitId}

theorem eyeletRetryOp_of_none (h : (eyelet s e).waiters.find? (fun w => decide (w.unit = u) && w.woken) = none) :
    eyeletRetryOp s e u = s := by
  simp only [eyeletRetryOp, h]

variable {w : Waiter} (h : (eyelet s e).waiters.find? (fun w => decide (w.unit = u) && w.woken) = some w)
include h

theorem eyeletRetryOp_of_take {x : Eyelet} (ht : takeEyelet (eyelet s e) w.n = some x) :
    eyeletRetryOp s e u = resumeUnit (setEyelet s e { x with waiters := x.waiters.filter (fun v => decide (v.unit ≠ u)) }) u
      (waitsOnEyelet e) x.count.toNat := by
  simp only [eyeletRetryOp, h, ht]
  rfl

theorem eyeletRetryOp_of_sleep (ht : takeEyelet (eyelet s e) w.n = none) :
    eyeletRetryOp s e u = scan (setEyelet s e { eyelet s e with
      waiters := (eyelet s e).waiters.map (fun v => if v.unit = u then { v with woken := false } else v) }) e := by
  simp only [eyeletRetryOp, h, ht]

end

section
variable {s : State} {p : Nat} {u : UnitId}

theorem dumpTimeoutOp_of_marked {t : State} (hq : (part s p).sync.quag = false) (ht : (part s p).sync.timeout ≠ 0)
    (hb : bound s p = true) (hm : markTimed s p u = some t) (hd : hasDump t p = true) :
    dumpTimeoutOp s p u = writeDump t p 2 (unitWord u) := by
  simp [dumpTimeoutOp, hq, ht, hb, hm, hd]

theorem dumpTimeoutOp_of_quiet (h : (part s p).sync.quag = true ∨ (part s p).sync.timeout = 0 ∨ markTimed s p u = none) :
    dumpTimeoutOp s p u = s := by
  unfold dumpTimeoutOp
  obtain h | h | h := h
  · simp [h]
  · simp [h]
  · simp only [h, ite_self]

end

/-- Settles O27, by whether the unit still waits, and by whether its retry takes. -/
theorem eyeletRetryAndDumpTimeout : Obligations.EyeletRetryAndDumpTimeout :=
  ⟨fun _ _ _ _ h => ⟨fun _ ht => congrArg _ (eyeletRetryOp_of_take h ht), fun ht => congrArg _ (eyeletRetryOp_of_sleep h ht)⟩,
    fun _ _ _ h => congrArg _ (eyeletRetryOp_of_none h),
    fun _ _ _ _ hq ht hb hm hd => congrArg _ (dumpTimeoutOp_of_marked hq ht hb hm hd),
    fun _ _ _ h => congrArg _ (dumpTimeoutOp_of_quiet h)⟩

/-! ### Window accesses leave the eyelets served (R355 to R357, R359, R362) -/

@[simp] theorem breakUnit_eyelets (s : State) (u : UnitId) : (breakUnit s u).eyelets = s.eyelets := by
  unfold breakUnit; split <;> simp

@[simp] theorem retUser_eyelets (s : State) (u : WinUser) (v : Nat) : (retUser s u v).eyelets = s.eyelets := by
  cases u <;> simp [retUser, retAwl_eyelets]

@[simp] theorem setArrival_eyelets (s : State) (u : WinUser) (x : Option (Nat × Nat)) : (setArrival s u x).eyelets = s.eyelets := by
  cases u <;> simp [setArrival]

@[simp] theorem laceFault_eyelets (s : State) (d bit l : Nat) : (laceFault s d bit l).eyelets = s.eyelets := by simp [laceFault]

@[simp] theorem refuseLace_eyelets (s : State) (u : WinUser) (l v : Nat) : (refuseLace s u l v).eyelets = s.eyelets := by
  simp [refuseLace]

theorem laceWindowSleep_eyelets (s : State) (u : WinUser) (l g : Nat) : (laceWindowSleep s u l g).eyelets = s.eyelets := by
  unfold laceWindowSleep; split <;> simp [laceSleep]

@[simp] theorem tallyClaim_eyelets (s : State) (p t n : Nat) : (tallyClaim s p t n).2.eyelets = s.eyelets := by
  simp only [tallyClaim]; split <;> simp

section
variable {s : State} (h : EyeletsServed s)
include h

theorem eyeletsServed_userLeave (u : WinUser) : EyeletsServed (userLeave s u) :=
  eyeletsServed_abandonUnit (eyeletsServed_congr h (breakUnit_eyelets _ _)) _

theorem eyeletsServed_refuse (u : WinUser) (e v : Nat) : EyeletsServed (retUser (refuseEyelet s u e) u v) :=
  eyeletsServed_congr h (by rw [retUser_eyelets, refuseEyelet_eyelets])

/-- A take, whatever its user is given. -/
theorem eyeletsServed_take (u : WinUser) {e n : Nat} {x : Eyelet} (ht : takeEyelet (eyelet s e) n = some x) (v : Nat) :
    EyeletsServed (retUser (setEyelet s e x) u v) :=
  eyeletsServed_congr (eyeletsServed_set h e x (takeEyelet_served _ _ _ (h.2 e) ht)) (retUser_eyelets _ _ _)

theorem eyeletsServed_sleepOn (u : UnitId) {e n : Nat} (ht : takeEyelet (eyelet s e) n = none) : EyeletsServed (sleepOn s e n u) :=
  eyeletsServed_set h e _ (sleep_served _ _ _ _ (h.2 e) ht)

theorem eyeletsServed_eyeletWindowSignalOp (u : WinUser) (e k : Nat) : EyeletsServed (eyeletWindowSignalOp s u e k) := by
  have hl := eyeletsServed_userLeave h u
  simp only [eyeletWindowSignalOp]
  split
  · exact eyeletsServed_refuse hl u e 0
  · exact eyeletsServed_congr (eyeletsServed_signal hl e k) (retUser_eyelets _ _ _)

theorem eyeletsServed_eyeletWindowWaitOp (u : WinUser) (e n : Nat) : EyeletsServed (eyeletWindowWaitOp s u e n) := by
  have hl := eyeletsServed_userLeave h u
  simp only [eyeletWindowWaitOp]
  split
  · exact eyeletsServed_refuse hl u e 0
  · split
    · exact eyeletsServed_take hl u ‹_› _
    · exact eyeletsServed_sleepOn hl _ ‹_›

theorem eyeletsServed_eyeletWindowTryOp (u : WinUser) (e n : Nat) : EyeletsServed (eyeletWindowTryOp s u e n) := by
  have hl := eyeletsServed_userLeave h u
  simp only [eyeletWindowTryOp]
  split
  · exact eyeletsServed_refuse hl u e 0
  · split
    · exact eyeletsServed_take hl u ‹_› _
    · exact eyeletsServed_congr hl (retUser_eyelets _ _ _)

/-- A cleared event serves nobody, and has nothing left for a sleeper. -/
theorem eyeletsServed_eyeletWindowClearOp (u : WinUser) (e : Nat) : EyeletsServed (eyeletWindowClearOp s u e) := by
  have hl := eyeletsServed_userLeave h u
  simp only [eyeletWindowClearOp]
  split
  · exact eyeletsServed_congr hl (refuseEyelet_eyelets _ _ _)
  · rename_i hx
    have he : (eyelet (userLeave s u) e).event = true := by simp at hx; exact hx.2
    exact eyeletsServed_set hl e _ fun _ _ _ => by simp [he]

theorem eyeletsServed_laceWindowWaitOp (u : WinUser) (l g : Nat) : EyeletsServed (laceWindowWaitOp s u l g) := by
  have hl : EyeletsServed (setArrival (userLeave s u) u none) :=
    eyeletsServed_congr (eyeletsServed_userLeave h u) (setArrival_eyelets _ _ _)
  simp only [laceWindowWaitOp]
  split
  · exact eyeletsServed_congr hl (refuseLace_eyelets _ _ _ _)
  · split
    · exact eyeletsServed_congr hl (refuseLace_eyelets _ _ _ _)
    · exact eyeletsServed_congr hl (laceWindowSleep_eyelets _ _ _ _)

theorem eyeletsServed_tallyWindowOp (c a t n : Nat) : EyeletsServed (tallyWindowOp s c a t n) := by
  have hl := eyeletsServed_abandonUnit h (.awl (Fin.ofNat 16 c) (Fin.ofNat 4 a))
  simp only [tallyWindowOp]
  split
  · exact eyeletsServed_congr hl (by rw [retAwl_eyelets, fireDie_eyelets])
  · split
    · exact eyeletsServed_congr hl (by rw [retAwl_eyelets, fireDie_eyelets])
    · exact eyeletsServed_congr hl (by rw [retAwl_eyelets, tallyClaim_eyelets])

/-- A silent user's access changes nothing. -/
theorem eyeletsServed_userActs (u : WinUser) {t : State} (ht : EyeletsServed t) : EyeletsServed (userActs s u t) := by
  unfold userActs; split
  · exact h
  · exact ht

end

/-- Settles O21, by the access that is made: a user first leaves what it waited on, which keeps the eyelets served, and then each
operation does. -/
theorem windowStepsKeepEyeletsServed : Obligations.WindowStepsKeepEyeletsServed := by
  rintro s s' i h (⟨g, a, e, k, rfl⟩ | ⟨g, a, e, n, rfl⟩ | ⟨g, a, e, n, rfl⟩ | ⟨g, a, e, rfl⟩ | ⟨g, a, l, n, rfl⟩ | ⟨c, a, t, n, rfl⟩) hstep
  all_goals rw [step_of_pending rfl] at hstep
  all_goals obtain rfl := Host.Outcome.next.inj hstep
  all_goals change EyeletsServed s at h
  · exact eyeletsServed_userActs h _ (eyeletsServed_eyeletWindowSignalOp h _ _ _)
  · exact eyeletsServed_userActs h _ (eyeletsServed_eyeletWindowWaitOp h _ _ _)
  · exact eyeletsServed_userActs h _ (eyeletsServed_eyeletWindowTryOp h _ _ _)
  · exact eyeletsServed_userActs h _ (eyeletsServed_eyeletWindowClearOp h _ _)
  · exact eyeletsServed_userActs h _ (eyeletsServed_laceWindowWaitOp h _ _ _)
  · show EyeletsServed (ifServing s c.val _)
    unfold ifServing
    split
    · exact eyeletsServed_tallyWindowOp h _ _ _ _
    · exact h

end Sys2Proof.Machine
end

section
/-! PROOFS. MEM_ATOMIC (R410, R502): what each operation stores, and how the command ends. -/
namespace Sys2Proof.Machine

/-! ### The operations of R410 -/

theorem sext_ite_le (n x y : Nat) : sext n (if sext n x ≤ sext n y then x else y) = min (sext n x) (sext n y) := by
  rw [Int.min_def]; split <;> rfl

theorem sext_ite_ge (n x y : Nat) : sext n (if sext n x ≤ sext n y then y else x) = max (sext n x) (sext n y) := by
  rw [Int.max_def]; split <;> rfl

/-- An operand is cut to the word before it is used, so what is stored fits the word. -/
theorem atomicOp_lt {op w old : Nat} (operand compare : Nat) (h : old < 2 ^ (8 * w)) : atomicOp op w old operand compare < 2 ^ (8 * w) := by
  have ha : operand % 2 ^ (8 * w) < 2 ^ (8 * w) := Nat.mod_lt _ (Nat.two_pow_pos _)
  simp only [atomicOp]
  split
  · exact Nat.mod_lt _ (Nat.two_pow_pos _)
  split
  · split <;> assumption
  split
  · exact ha
  split
  · exact Nat.and_lt_two_pow _ ha
  split
  · exact Nat.or_lt_two_pow h ha
  split
  · exact Nat.xor_lt_two_pow h ha
  repeat' split
  all_goals assumption

/-! ### The command -/

theorem bodyMemAtomic_of_pass {p : MemAtomicP} {s : State} {c : Cmd} {pt w : Nat} (hpart : c.part = some pt) (hr : p.rsvdA = 0)
    (hop : p.op.toNat ≤ 9) (hw : w = 4 ∨ w = 8) (hpw : p.width.toNat = w) (ha : p.addr.toNat % w = 0)
    (hpage : pageOk s pt p.addr.toNat true = true) (hpois : partPoisoned s pt p.addr.toNat w = false) :
    bodyMemAtomic p s c = {
      s := partWrite (countAtomic s pt ((xlate s pt p.addr.toNat).getD 0) 1) pt p.addr.toNat
        (leBytes w (atomicOp p.op.toNat w (leNat (partRead s pt p.addr.toNat w)) p.operand.toNat p.compare.toNat))
      record := leBytes 8 (leNat (partRead s pt p.addr.toNat w)) } := by
  have hwidth : (decide (w = 4) || decide (w = 8)) = true := by obtain rfl | rfl := hw <;> rfl
  simp only [bodyMemAtomic, hpart, hpw, Option.getD_some, hwidth, hpage, hpois]
  rw [checked_pass (by simp [hr, Nat.not_lt.mpr hop, ha])]
  rfl

/-- Settles O31: the command by its two checks, each operation by its line of `atomicOp`. -/
theorem memAtomicCompletes : Obligations.MemAtomicCompletes := by
  refine ⟨fun s q h p pt a w old hq hr hop hw hpw haddr ha hpage hpois hold => ?_, fun w old operand compare _ hold => ?_⟩
  · subst a old
    exact hq.completes (fun _ => rfl) fun hp => bodyMemAtomic_of_pass hp hr hop hw hpw ha hpage hpois
  · refine ⟨Nat.add_mod_mod _ _ _, fun h => if_pos h, fun h => if_neg h, rfl, fun j => Nat.testBit_and _ _ j, fun j => Nat.testBit_or _ _ j,
      fun j => Nat.testBit_xor _ _ j, Nat.min_def.symm, Nat.max_def.symm, sext_ite_le _ _ _, sext_ite_ge _ _ _,
      fun op _ => atomicOp_lt operand compare hold⟩

end Sys2Proof.Machine
end

section
/-! PROOFS. The Bittern controllers' canonical form and their software pends (R380 to R385), and the Quag watch (R373). -/
namespace Sys2Proof.Machine

/-! ### What leaves the controllers as they are -/

/-- What a fold's step leaves, the fold leaves. -/
theorem foldl_leaves {α β γ : Type} {f : α → β → α} {g : α → γ} (h : ∀ a b, g (f a b) = g a) (l : List β) (a : α) : g (l.foldl f a) = g a := by
  induction l generalizing a with
  | nil => rfl
  | cons b l ih => rw [List.foldl_cons, ih, h]

@[simp] theorem breakUnit_btn (s : State) (u : UnitId) : (breakUnit s u).btn = s.btn := by
  unfold breakUnit; split <;> simp

@[simp] theorem breakEyelet_btn (s : State) (e : Nat) : (breakEyelet s e).btn = s.btn := by
  unfold breakEyelet; split <;> simp

@[simp] theorem scan_btn (s : State) (e : Nat) : (scan s e).btn = s.btn := by
  simp only [scan]
  rw [foldl_leaves (g := State.btn) (fun _ _ => by simp)]
  rfl

@[simp] theorem abandonEyelet_btn (s : State) (e : Nat) (u : UnitId) : (abandonEyelet s e u).btn = s.btn := by
  simp only [abandonEyelet]; split <;> simp

@[simp] theorem abandonUnit_btn (s : State) (u : UnitId) : (abandonUnit s u).btn = s.btn := by
  simp only [abandonUnit]
  rw [foldl_leaves (g := State.btn) (fun _ _ => by simp [abandonLace]), foldl_leaves (g := State.btn) (fun _ _ => by simp)]

@[simp] theorem claimState_btn (s : State) (a : Agent) : (claimState s a).btn = s.btn := by
  cases a <;> simp [claimState, userLeave]

@[simp] theorem retAwl_btn (s : State) (c a v : Nat) : (retAwl s c a v).btn = s.btn := by
  simp only [retAwl]; split <;> simp

@[simp] theorem retAgent_btn (s : State) (a : Agent) (v : Nat) : (retAgent s a v).btn = s.btn := by
  cases a <;> simp [retAgent]

/-! ### The Bittern commands keep the canonical form -/

theorem bitternsCanonical_congr {s t : State} (h : BitternsCanonical s) (e : t.btn = s.btn) : BitternsCanonical t := by
  simp only [BitternsCanonical, bittern, e] at h ⊢
  exact h

/-- The tables of one controller stand in canonical form. -/
def TablesCanonical (b : Bittern) : Prop :=
  twf none b.srcs = true ∧ twf ({} : BtnGrp) b.grps = true ∧ twf ({} : BtnTgt) b.tgts = true

section
variable {b : Bittern} (h : TablesCanonical b)
include h

theorem tablesCanonical_setBtnSrc (c k : Nat) (x : BtnSrc) : TablesCanonical (setBtnSrc b c k x) :=
  ⟨setBtnSrc_twf b c k x h.1, h.2⟩

theorem tablesCanonical_modTgt (t : Nat) (f : BtnTgt → BtnTgt) : TablesCanonical (modTgt b t f) :=
  ⟨h.1, h.2.1, twf_tput h.2.2 _ _⟩

theorem tablesCanonical_startHoldoff (g : Nat) : TablesCanonical (startHoldoff b g) := by
  unfold startHoldoff
  split
  · exact h
  · exact ⟨h.1, twf_tput h.2.1 _ _, h.2.2⟩

theorem tablesCanonical_claimedBittern (c t k : Nat) : TablesCanonical (claimedBittern b c t k) :=
  tablesCanonical_startHoldoff (tablesCanonical_modTgt (tablesCanonical_setBtnSrc h c k _) t _) _

end

section
variable {s : State} (h : BitternsCanonical s)
include h

theorem bitternsCanonical_regError : BitternsCanonical (regError s) := bitternsCanonical_fire s 0 0 h

theorem bitternsCanonical_btnClaim (c t : Nat) : BitternsCanonical (btnClaim s c t).2 := by
  cases hk : winner (bittern s c) c t with
  | none =>
    rw [btnClaim_of_winner_none hk]
    exact h
  | some k =>
    rw [btnClaim_of_winner_some hk]
    exact bitternsCanonical_modBtn s c (claimedBittern · c t k) h (tablesCanonical_claimedBittern (h.2 c) c t k)

theorem bitternsCanonical_btnTgtClaimOp (a : Agent) (c t : Nat) : BitternsCanonical (btnTgtClaimOp s a c t) := by
  cases hs : silenced s a with
  | true =>
    rw [btnTgtClaimOp_of_silenced hs]
    exact h
  | false => cases hm : mayTarget a c t with
    | true =>
      rw [btnTgtClaimOp_of_mayTarget hs hm]
      exact bitternsCanonical_congr (bitternsCanonical_btnClaim (bitternsCanonical_congr h (claimState_btn s a)) c t) (retAgent_btn _ _ _)
    | false =>
      rw [btnTgtClaimOp_of_not_mayTarget hs hm]
      exact bitternsCanonical_congr (bitternsCanonical_regError h) (retAgent_btn _ _ _)

theorem bitternsCanonical_btnCompleteOp (c t src : Nat) : BitternsCanonical (btnCompleteOp s c t src) := by
  by_cases htop : ∃ top ∈ (btnTgt (bittern s c) t).stack.head?, top.1.toNat = src
  · obtain ⟨top, hmem, heq⟩ := htop
    obtain ⟨rest, hstack⟩ := List.head?_eq_some_iff.mp hmem
    rw [btnCompleteOp_of_top hstack heq]
    exact bitternsCanonical_modBtn s c _ h (tablesCanonical_setBtnSrc (tablesCanonical_modTgt (h.2 c) _ _) _ _ _)
  · rw [btnCompleteOp_of_not_top fun top hmem heq => htop ⟨top, hmem, heq⟩]
    exact bitternsCanonical_fire _ _ _ (bitternsCanonical_modBtn s c _ h (tablesCanonical_modTgt (h.2 c) _ _))

theorem bitternsCanonical_btnTgtCompleteOp (a : Agent) (c t src : Nat) : BitternsCanonical (btnTgtCompleteOp s a c t src) := by
  unfold btnTgtCompleteOp
  split
  · exact h
  split
  · exact bitternsCanonical_btnCompleteOp h c t src
  · exact bitternsCanonical_regError h

theorem bitternsCanonical_btnSwpendOp (a : Agent) (c src : Nat) : BitternsCanonical (btnSwpendOp s a c src) := by
  unfold btnSwpendOp
  split
  · exact h
  split
  · exact bitternsCanonical_regError h
  split
  · exact bitternsCanonical_fire s c src h
  · exact h

end

/-- A controller after the end of a group's hold-off timer (R383). -/
def heldOff (g : Nat) (b : Bittern) : Bittern := { b with grps := tmod {} g (fun y => { y with running := false }) b.grps }

theorem exec_btnHoldoffExpiry (s : State) (c : Fin 3) (g : BitVec 6) :
    exec (.btnHoldoffExpiry c g) s = .next (modBtn s c.val (heldOff g.toNat)) := rfl

theorem bitternsCanonical_heldOff {s : State} (h : BitternsCanonical s) (c g : Nat) : BitternsCanonical (modBtn s c (heldOff g)) :=
  bitternsCanonical_modBtn s c _ h ⟨(h.2 c).1, twf_tput (h.2 c).2.1 _ _, (h.2 c).2.2⟩

theorem running_heldOff {s : State} (h : BitternsCanonical s) (c g : Nat) :
    (btnGrp (bittern (modBtn s c (heldOff g)) c) g).running = false := by
  rw [bittern_modBtn s c _ h]
  exact congrArg BtnGrp.running (tget_tput (h.2 c).2.1 g _)

/-- Settles O13, by the command. -/
theorem bitternsStayCanonical : Obligations.BitternsStayCanonical := by
  rintro s t i h (⟨a, x, rfl⟩ | ⟨a, x, k, rfl⟩ | ⟨a, c, k, rfl⟩ | ⟨c, g, rfl⟩) hexec
  all_goals obtain rfl := Host.Outcome.next.inj hexec
  · exact bitternsCanonical_btnTgtClaimOp h a _ _
  · exact bitternsCanonical_btnTgtCompleteOp h a _ _ _
  · exact bitternsCanonical_btnSwpendOp h a _ _
  · exact bitternsCanonical_heldOff h _ _

/-! ### Software pends and hold-off timers (R382, R383, R385) -/

section
variable {s : State} {a : Agent} {c k : Nat}

theorem btnSwpendOp_of_silenced (hs : silenced s a = true) : btnSwpendOp s a c k = s := if_pos hs

theorem btnSwpendOp_of_mayPend (hk : k < btnSources c) (hs : silenced s a = false) (hm : mayPend s a c k = true) :
    btnSwpendOp s a c k = fire s c k := by
  simp [btnSwpendOp, hs, hm, hk]

theorem btnSwpendOp_of_not_mayPend (hs : silenced s a = false) (hm : mayPend s a c k = false) : btnSwpendOp s a c k = regError s := by
  simp [btnSwpendOp, hs, hm]

end

/-- Settles O12, by whether the agent is silenced and whether it may pend the source. -/
theorem bitternPendsAndHoldoff : Obligations.BitternPendsAndHoldoff :=
  ⟨fun _ _ _ _ hk => ⟨fun hs => congrArg _ (btnSwpendOp_of_silenced hs), fun hs hm => congrArg _ (btnSwpendOp_of_mayPend hk hs hm),
      fun hs hm => congrArg _ (btnSwpendOp_of_not_mayPend hs hm)⟩,
    fun s c k => ⟨fire_pends s c k, fire_mem s c k, fire_eyelets s c k, fire_cores s c k⟩,
    fun c g s h => ⟨_, exec_btnHoldoffExpiry s c g, running_heldOff h _ _, modBtn_mem s _ _, modBtn_cores s _ _⟩⟩

/-! ### The Quag watch (R373) -/

/-- A partition's marks when its Quag watch fires: FIRED, and no second firing in this run of blockage. -/
def quagFired (s : State) (p : Nat) : State := modPart s p (fun x => { x with sync := { x.sync with fired := true, spent := true } })

section
variable {s : State} {p : Nat}

theorem quagFireOp_of_dead (hq : (part s p).sync.quag = true) (hs : (part s p).sync.spent = false)
    (hd : looksDead s p (stepHeld s p) = true) :
    quagFireOp s p = fireHub (postPart (if hasDump (quagFired s p) p then writeDump (quagFired s p) p 3 0 else quagFired s p) p 0x0161 0
      (leBytes 4 ((stands s p).filter (· == .blocked)).length ++ leBytes 4 (if hasDump (quagFired s p) p
        then (part (writeDump (quagFired s p) p 3 0) p).sync.dumpSeq else 0xFFFFFFFF))) 0x002 := by
  have hgo : (!(part s p).sync.quag || (part s p).sync.spent || !looksDead s p (stepHeld s p)) = false := by simp [hq, hs, hd]
  simp only [quagFireOp, hgo, Bool.false_eq_true, if_false]
  cases hx : hasDump (quagFired s p) p with
  | true => simp only [← quagFired.eq_def, hx, if_true]
  | false => simp only [← quagFired.eq_def, hx, Bool.false_eq_true, if_false]

theorem quagFireOp_of_alive (h : (part s p).sync.quag = false ∨ (part s p).sync.spent = true ∨ looksDead s p (stepHeld s p) = false) :
    quagFireOp s p = s :=
  if_pos (by obtain h | h | h := h <;> simp [h])

end

theorem exec_quagFire (p : Fin 16) (s : State) : exec (.quagFire p) s = .next (quagFireOp s p.val) := rfl

/-- Settles O14, by whether the partition has a region for a dump. -/
theorem quagWatchFires : Obligations.QuagWatchFires := by
  rintro p s _ _ rfl rfl
  rw [exec_quagFire]
  refine ⟨fun hq hs hd => ?fires, fun h => congrArg _ (quagFireOp_of_alive h)⟩
  rw [quagFireOp_of_dead hq hs hd]
  refine ⟨fun hx => ?_, fun hx v hv => ?_⟩
  · simp only [quagFired, hx, Bool.false_eq_true, if_false]
  · simp only [quagFired, hx, if_true, hv]

end Sys2Proof.Machine
end

section
/-! PROOFS. Laces (R363 to R369): what a release leaves, the lace commands, and the window accesses. -/
namespace Sys2Proof.Machine

/-! ### What leaves the laces as they are -/

@[simp] theorem breakEyelet_laces (s : State) (e : Nat) : (breakEyelet s e).laces = s.laces := by
  unfold breakEyelet; split <;> simp

@[simp] theorem scan_laces (s : State) (e : Nat) : (scan s e).laces = s.laces := by
  simp only [scan]
  rw [foldl_leaves (g := State.laces) (fun _ _ => by simp)]
  rfl

@[simp] theorem signalEyelet_laces (s : State) (e k : Nat) : (signalEyelet s e k).1.laces = s.laces := by
  simp only [signalEyelet]
  split
  · simp
  · split <;> simp [eyeFault]

@[simp] theorem deviceSignal_laces (s : State) (e : Nat) : (deviceSignal s e).laces = s.laces := by
  unfold deviceSignal; split <;> simp

@[simp] theorem originate_laces (s : State) (type cls : Nat) (mc : Bool) (dpart spart dst fseq flow : Nat) (arg payload : List Byte) :
    (originate s type cls mc dpart spart dst fseq flow arg payload).laces = s.laces := by
  simp [originate, sendPacket, apply_ite State.laces]

@[simp] theorem addrReply_laces (s : State) (c : Cmd) (bs : List Byte) : (addrReply s c bs).laces = s.laces := by
  cases hp : c.part <;> cases hv : viaPage c.h.via <;> simp [addrReply, hp, hv, apply_ite State.laces]

@[simp] theorem dropWindows_laces (s : State) (q lo n : Nat) : (dropWindows s q lo n).laces = s.laces := by
  simp only [dropWindows]
  exact foldl_leaves (g := State.laces) (fun _ _ => send_laces _ _) _ _

@[simp] theorem putWindow_laces (s : State) (q hnd : Nat) (w : Window) (mem : Bool) : (putWindow s q hnd w mem).laces = s.laces := by
  simp only [putWindow, dropLines]
  split
  · rfl
  · split
    · split <;> simp
    · simp

@[simp] theorem deliverRecord_laces (s : State) (c : Cmd) (st : Status) (rec_ : List Byte) : (deliverRecord s c st rec_).laces = s.laces := by
  simp only [deliverRecord]
  split
  · split
    · rfl
    · rw [putWindow_laces]
      split <;> simp
  · split
    · rfl
    · split
      · simp
      · split <;> simp

@[simp] theorem releasePlace_laces (s : State) (q r : Nat) : (releasePlace s q r).laces = s.laces := (SameDevice.releasePlace s q r).laces

/-- A reply changes no lace, wherever it goes. -/
@[simp] theorem deliver_laces (s : State) (c : Cmd) (st : Status) (d win gen : Nat) (rec_ : List Byte) :
    (deliver s c st d win gen rec_).laces = s.laces := by
  have hring (q r : Nat) : (ringReply s c q r st d win gen).laces = s.laces := (SameDevice.ringReply s c q r st d win gen).laces
  have hslot (q i : Nat) : (slotReply s c q i st d win gen).laces = s.laces := (SameDevice.slotReply s c q i st d win gen).laces
  have hiface (m : MgmtIface) (bs : List Byte) (x : Bool) : (ifaceReply s m bs x).laces = s.laces := (SameDevice.ifaceReply s m bs x).laces
  cases hv : c.h.via <;> simp [deliver, hv, apply_ite State.laces, hring, hslot, hiface]

@[simp] theorem complete_laces (s : State) (c : Cmd) (st : Status) (d : Nat) (rec_ : List Byte) : (complete s c st d rec_).laces = s.laces := by
  have hhealth : (noteHealth s c st).laces = s.laces := (SameDevice.noteHealth s c st).laces
  cases hsig : sigEyelet c.h <;> simp [complete, hsig, apply_ite State.laces, hhealth]

@[simp] theorem endWaiting_laces (s : State) (w : Waiting) (st : Status) (d : Nat) (rec_ : List Byte) :
    (endWaiting s w st d rec_).laces = s.laces := by
  simp only [endWaiting]
  rw [(SameDevice.kick _ _ _).laces, (SameDevice.oweSig _ _ _ _).laces, complete_laces]
  cases hp : w.cmd.part <;> cases hu : w.unit <;> simp

@[simp] theorem resumeUnit_laces (s : State) (u : UnitId) (f : Wait → Bool) (v : Nat) : (resumeUnit s u f v).laces = s.laces := by
  unfold resumeUnit
  split
  · simp only [retAwl]; split <;> simp
  · simp
  · split <;> simp

@[simp] theorem clearArrivals_laces (s : State) (l g : Nat) : (clearArrivals s l g).laces = s.laces := by
  simp only [clearArrivals]
  rw [foldl_leaves (g := State.laces) (fun _ _ => by split <;> simp)]
  simp only [clearAwlArrivals]
  rw [foldl_leaves (g := State.laces) (fun _ _ => by split <;> simp)]

@[simp] theorem postPart_laces (s : State) (p code reason : Nat) (b : List Byte) : (postPart s p code reason b).laces = s.laces := by
  unfold postPart; split <;> simp

@[simp] theorem afterLace_laces (s : State) (p : Nat) : (afterLace s p).laces = s.laces := by
  simp only [afterLace]
  split
  · rfl
  · split
    · rfl
    · split <;> simp [setJob]

@[simp] theorem laceReleased_laces (s : State) (p l : Nat) : (laceReleased s p l).laces = s.laces := by
  unfold laceReleased; split
  · split <;> simp
  · rfl

/-! ### A release (R364) -/

/-- A lace after a release. -/
def releasedLace (x : Lace) : Lace :=
  { x with gen := x.gen + 1, arrived := x.early, early := 0, waiters := x.waiters.filter (fun w => !decide (w.gen.toNat ≤ x.gen.toNat)) }

/-- A release changes the lace, and what follows it changes none. -/
theorem releaseOnce_laces (s : State) (l : Nat) : (releaseOnce s l).laces = (setLace s l (releasedLace (lace s l))).laces := by
  simp only [releaseOnce]
  split
  · rw [laceReleased_laces, foldl_leaves (g := State.laces) (fun _ _ => by simp), clearArrivals_laces]
    rfl
  · rw [foldl_leaves (g := State.laces) (fun _ _ => by simp), clearArrivals_laces]
    rfl

theorem lace_releaseOnce {s : State} (h : twf ({} : Lace) s.laces = true) (l : Nat) : lace (releaseOnce s l) l = releasedLace (lace s l) := by
  rw [lace, releaseOnce_laces]
  exact tget_tput h l _

/-- Settles O25: the waiters that stay are those of a later generation. -/
theorem releaseMovesGeneration : Obligations.ReleaseMovesGeneration := by
  intro s l h
  rw [lace_releaseOnce h]
  exact ⟨rfl, rfl, rfl, fun w => by simp [releasedLace]⟩

end Sys2Proof.Machine
end

section
/-! PROOFS. The commands of laces (R363 to R368) and tallies (R272 to R277), and the window accesses (R273, R362, R369). -/
namespace Sys2Proof.Machine

/-! ### Lace commands -/

theorem laceArrive_of_current {s : State} {l : Nat} {x : Lace} (hx : x = lace s l) (hexp : x.expected ≠ 0) (hg : x.gen.toNat ≠ 2 ^ 64 - 1) (p : Nat) :
    laceArrive s p l x.gen.toNat = (laceComplete (setLace s l { x with arrived := x.arrived + 1 }) p l, none) := by
  subst hx
  simp only [laceArrive, hexp, hg, if_false, if_true]

theorem laceArrive_of_next {s : State} {l g : Nat} {x : Lace} (hx : x = lace s l) (hexp : x.expected ≠ 0) (hg : g = x.gen.toNat + 1) (p : Nat) :
    laceArrive s p l g = (setLace s l { x with early := x.early + 1 }, none) := by
  subst hx hg
  simp only [laceArrive, hexp, if_false, Nat.succ_ne_self, if_true]

section
variable {s : State} {c : Cmd} {pt : Nat} (hpart : c.part = some pt)
include hpart

theorem bodyLaceInit_of_pass {p : LaceInitP} (ha : p.rsvdA = 0) (hb : p.rsvdB = 0) (hl : p.lace.toNat < 1024) (hscope : p.scope.toNat ≤ 1)
    (hexp : p.expected ≠ 0) (hstart : p.start.toNat ≠ 2 ^ 64 - 1) (hroot : ¬ (p.scope.toNat = 1 ∧ p.root = s.fab.addr))
    (hdev : p.devices = 0) (hmap : p.rootMap = 0) (hown : ownsLace s pt p.lace.toNat = true)
    (hw : (lace s p.lace.toNat).waiters = []) (harr : (lace s p.lace.toNat).arrived = 0) (hearly : (lace s p.lace.toNat).early = 0)
    (hdarr : (lace s p.lace.toNat).devArr = 0) :
    bodyLaceInit p s c = { s := setLace s p.lace.toNat (freshLace p) } := by
  have hexp' : p.expected ≠ 0#16 := hexp
  have hstart' : p.start.toNat ≠ 18446744073709551615 := hstart
  have hnroot : (decide (p.scope.toNat = 1) && decide (p.root = s.fab.addr)) = false := by simpa using hroot
  simp only [bodyLaceInit, hpart, Option.getD_some, hnroot, Bool.false_eq_true, if_false]
  rw [checked_pass (by simp [ha, hb, Nat.not_le.mpr hl, Nat.not_lt.mpr hscope, hexp', hstart', hdev, hmap, hown, hw, harr, hearly, hdarr])]
  rfl

theorem bodyLaceArrive_of_counted {p : LaceArriveP} (ha : p.rsvdA = 0) (hctl : p.ctl = 0) (hl : p.lace.toNat < 1024)
    (hown : ownsLace s pt p.lace.toNat = true) {t : State} (harr : laceArrive s pt p.lace.toNat p.gen.toNat = (t, none)) :
    bodyLaceArrive p s c = { s := t } := by
  have htry : bitOf p.ctl.toNat 0 = false := by rw [hctl]; rfl
  simp only [bodyLaceArrive, hpart, Option.getD_some, htry, Bool.and_false, Bool.false_eq_true, if_false, harr]
  rw [checked_pass (by simp [laceChecks, ha, hctl, Nat.not_le.mpr hl, hown])]

theorem bodyLaceWait_of_pass {p : LaceWaitP} (ha : p.rsvdA = 0) (hl : p.lace.toNat < 1024) (hown : ownsLace s pt p.lace.toNat = true)
    (hexp : (lace s p.lace.toNat).expected ≠ 0) : bodyLaceWait p s c = laceWaitFor s c p.lace.toNat p.gen.toNat false := by
  have hexp' : (lace s p.lace.toNat).expected ≠ 0#16 := hexp
  simp only [bodyLaceWait, hpart, Option.getD_some]
  rw [checked_pass (by simp [laceChecks, ha, Nat.not_le.mpr hl, hown, hexp'])]

theorem bodyLaceRead_of_pass {p : LaceReadP} (ha : p.rsvdA = 0) (hl : p.lace.toNat < 1024) (hown : ownsLace s pt p.lace.toNat = true) :
    bodyLaceRead p s c = { s := s, record := laceRecord (lace s p.lace.toNat) } := by
  simp only [bodyLaceRead, hpart, Option.getD_some]
  rw [checked_pass (by simp [laceChecks, ha, Nat.not_le.mpr hl, hown])]

theorem bodyLaceRemoteArrive_of_pass {p : LaceRemoteArriveP} (ha : p.rsvdA = 0) (hl : p.lace.toNat < 1024)
    (hown : ownsLace s pt p.lace.toNat = true) :
    bodyLaceRemoteArrive p s c = { s := rootArrive s pt p.lace.toNat (cmdSource s c) p.gen.toNat } := by
  simp only [bodyLaceRemoteArrive, hpart, Option.getD_some]
  rw [checked_pass (by simp [laceChecks, ha, Nat.not_le.mpr hl, hown])]

theorem bodyLaceRelease_of_pass {p : LaceReleaseP} (ha : p.rsvdA = 0) (hl : p.lace.toNat < 1024)
    (hown : ownsLace s pt p.lace.toNat = true) {x : Lace} (hx : x = lace s p.lace.toNat) :
    bodyLaceRelease p s c =
      if decide (x.expected = 0) || !x.fabric || decide (x.gen ≠ p.gen) || decide (x.gen.toNat = 2 ^ 64 - 1)
      then { s := laceDrop s p.lace.toNat } else { s := laceComplete (releaseOnce s p.lace.toNat) pt p.lace.toNat } := by
  subst hx
  simp only [bodyLaceRelease, hpart, Option.getD_some]
  rw [checked_pass (by simp [laceChecks, ha, Nat.not_le.mpr hl, hown])]

end

/-- Settles O23, by the check list of each command. -/
theorem laceCommandsComplete : Obligations.LaceCommandsComplete := by
  refine ⟨fun s q h p pt hq ha hb hl hscope hexp hstart hroot hdev hmap hown hw harr hearly hdarr => hq.completes (fun _ => rfl) fun hp =>
      bodyLaceInit_of_pass hp ha hb hl hscope hexp hstart hroot hdev hmap hown hw harr hearly hdarr,
    fun s q h p pt x hq ha hctl hl hown hx hexp => ⟨fun hg hlast => hq.completes (fun _ => rfl) fun hp =>
      bodyLaceArrive_of_counted hp ha hctl hl hown ?current, fun hg => hq.completes (fun _ => rfl) fun hp =>
      bodyLaceArrive_of_counted hp ha hctl hl hown (laceArrive_of_next hx hexp hg pt)⟩,
    fun s q h p pt hq ha hl hown hexp => hq.completes (fun _ => rfl) fun hp => bodyLaceWait_of_pass hp ha hl hown hexp,
    fun s q h p pt hq ha hl hown => hq.completes (fun _ => rfl) fun hp => bodyLaceRead_of_pass hp ha hl hown⟩
  case current =>
    rw [hg]
    exact laceArrive_of_current hx hexp hlast pt

/-- Settles O24, by whether the release names the lace's generation. -/
theorem remoteLaceCommandsComplete : Obligations.RemoteLaceCommandsComplete := by
  refine ⟨fun s q h p pt hq ha hl hown => hq.completes (fun _ => rfl) fun hp => bodyLaceRemoteArrive_of_pass hp ha hl hown,
    fun s q h p pt x hq ha hl hown hx => ⟨fun hexp hfab hg hlast => hq.completes (fun _ => rfl) fun hp => ?release,
      fun hg => hq.completes (fun _ => rfl) fun hp => ?drop⟩⟩
  · have hexp' : x.expected ≠ 0#16 := hexp
    have hlast' : p.gen.toNat ≠ 18446744073709551615 := hg ▸ hlast
    rw [bodyLaceRelease_of_pass hp ha hl hown hx]
    exact if_neg (by simp [hexp', hfab, hg, hlast'])
  · rw [bodyLaceRelease_of_pass hp ha hl hown hx]
    exact if_pos (by simp [hg])

/-! ### Tally commands -/

/-- Reads of memory do not see the tallies. -/
theorem partPoisoned_setTally (s : State) (t : Nat) (x : Tally) (p a : Nat) :
    partPoisoned (setTally s t x) p a 1 = partPoisoned s p a 1 := rfl

theorem doneBit_setTally (s : State) (t : Nat) (x y : Tally) (p v : Nat) : doneBit (setTally s t x) p y v = doneBit s p y v := rfl

section
variable {s : State} {c : Cmd} {pt : Nat} (hpart : c.part = some pt)
include hpart

theorem bodyTallyInit_of_pass {p : TallyInitP} (ht : p.tally.toNat < 8192) (hlo : 1 ≤ p.limit.toNat) (hhi : p.limit.toNat ≤ 2 ^ 24)
    (hregion : regionOk s pt p.doneBase.toNat (doneBytes p.limit.toNat) 8 true = true) (hown : ownsTally s pt p.tally.toNat = true)
    (hspan : spanHbm s pt p.doneBase.toNat (doneBytes p.limit.toNat) = true) (hpend : (tally s p.tally.toNat).pending = []) :
    bodyTallyInit p s c = {
      s := partWrite (setTally s p.tally.toNat (freshTally p (tally s p.tally.toNat).epoch)) pt p.doneBase.toNat
        (zeros (doneBytes p.limit.toNat)) } := by
  have hhi' : ¬ 16777216 < p.limit.toNat := Nat.not_lt.mpr hhi
  simp only [bodyTallyInit, hpart, Option.getD_some]
  rw [checked_pass (by simp [tallyChecks, Nat.not_le.mpr ht, Nat.one_le_iff_ne_zero.mp hlo, hhi', hregion, hown, hspan])]
  simp only [hpend, List.isEmpty_nil, Bool.not_true, Bool.false_eq_true, if_false]
  rfl

theorem bodyTallyClaim_of_pass {p : TallyClaimP} (ha : p.rsvdA = 0) (ht : p.tally.toNat < 8192) (hlo : 1 ≤ p.count.toNat)
    (hhi : p.count.toNat ≤ 256) (hown : ownsTally s pt p.tally.toNat = true) {x : Tally} (hx : x = tally s p.tally.toNat)
    (hclean : x.value.toNat < x.limit.toNat → partPoisoned s pt (doneAddr x x.value.toNat) 1 = false) :
    bodyTallyClaim p s c = {
      s := (tallyClaim s pt p.tally.toNat p.count.toNat).2
      record := leBytes 8 (tallyClaim s pt p.tally.toNat p.count.toNat).1 } := by
  subst hx
  simp only [bodyTallyClaim, hpart, Option.getD_some]
  rw [checked_pass (by simp [tallyChecks, Nat.one_le_iff_ne_zero.mp hlo, Nat.not_lt.mpr hhi, ha, Nat.not_le.mpr ht, hown])]
  exact if_neg (by simpa using hclean)

theorem bodyTallyCommit_of_pass {p : TallyCommitP} {src d : Desc} {x : Tally} (ha : p.rsvdA = 0) (ht : p.tally.toNat < 8192)
    (hown : ownsTally s pt p.tally.toNat = true)
    (hdescs : checkDescs s pt [(p.srcDesc.toNat, false), (p.dstDesc.toNat, true)] = .ok [src, d]) (hcopy : copyOk src d = true)
    (hx : x = tally s p.tally.toNat) (hepoch : fld p.claim.toNat 32 30 = x.epoch.toNat) (hv : p.claim.toNat % 2 ^ 32 < x.limit.toNat)
    (hdone : doneBit s pt x (p.claim.toNat % 2 ^ 32) = false) (hclean : partPoisoned s pt (doneAddr x (p.claim.toNat % 2 ^ 32)) 1 = false)
    (hpend : x.pending.contains (p.claim.toNat % 2 ^ 32) = false) (hroom : pendingCommits s (tallyHome p.tally.toNat).1 < 64)
    (hbegun : commitBegun c = false) : bodyTallyCommit p s c = commitEnds s c p.tally.toNat (p.claim.toNat % 2 ^ 32) src d := by
  subst hx
  have hcheck : commitCheck s pt p.tally.toNat (p.claim.toNat % 2 ^ 32) (fld p.claim.toNat 32 30) = none := by
    simp only [commitCheck, hepoch, ne_eq, not_true_eq_false, Nat.not_le.mpr hv, or_self, if_false, hclean, hdone, hpend,
      Nat.not_le.mpr hroom, decide_false, Bool.or_false, Bool.false_eq_true]
  simp only [bodyTallyCommit, hbegun, Bool.false_and, Bool.false_eq_true, if_false, commitBody, hpart, Option.getD_some]
  rw [checked_pass (by simp [tallyChecks, ha, Nat.not_le.mpr ht, hown]), withDescs_pass hpart hdescs]
  simp only [hcopy, Bool.not_true]
  rw [checked_pass rfl, hcheck]
  rfl

theorem bodyTallyReset_of_pass {p : TallyResetP} {x : Tally} (ht : p.tally.toNat < 8192) (hexp : p.expect.toNat < 2 ^ 30)
    (hown : ownsTally s pt p.tally.toNat = true) (hx : x = tally s p.tally.toNat)
    (hepoch : p.expect.toNat = 0 ∨ p.expect.toNat = x.epoch.toNat) (hlast : x.epoch.toNat ≠ 2 ^ 30 - 1)
    (hclean : x.limit ≠ 0 → partPoisoned s pt (doneAddr x 0) 1 = false) :
    bodyTallyReset p s c = {
      s := setTally s p.tally.toNat { x with value := 0, epoch := x.epoch + 1 }
      record := leBytes 8 (if x.limit = 0 then claimWord false true (x.epoch + 1).toNat 0
        else claimWord (doneBit s pt x 0) false (x.epoch + 1).toNat 0) } := by
  subst hx
  have hstale : (decide (p.expect ≠ 0) && decide (p.expect.toNat ≠ (tally s p.tally.toNat).epoch.toNat)) = false := by
    obtain h | h := hepoch
    · simp [show p.expect = 0#32 from BitVec.eq_of_toNat_eq h]
    · simp [h]
  have hexp' : ¬ 1073741824 ≤ p.expect.toNat := Nat.not_le.mpr hexp
  have hlast' : (tally s p.tally.toNat).epoch.toNat ≠ 1073741823 := hlast
  simp only [bodyTallyReset, hpart, Option.getD_some, hstale]
  rw [checked_pass (by simp [tallyChecks, hexp', Nat.not_le.mpr ht, hown, hlast'])]
  by_cases hl : (tally s p.tally.toNat).limit = 0
  · simp only [hl, if_true]
  · simp only [hl, if_false, partPoisoned_setTally, doneBit_setTally]
    have hpois : ¬ partPoisoned s pt (doneAddr (tally s p.tally.toNat) 0) 1 = true := by rw [hclean hl]; exact Bool.false_ne_true
    exact if_neg hpois

end

/-- Settles O28, by the check list of each command; a claim is that of R272. -/
theorem tallyCommandsComplete : Obligations.TallyCommandsComplete := by
  refine ⟨fun s q h p pt hq ht hlo hhi hregion hown hspan hpend => hq.completes (fun _ => rfl) fun hp =>
      bodyTallyInit_of_pass hp ht hlo hhi hregion hown hspan hpend,
    fun s q h p pt x hq ha ht hlo hhi hown hx => ⟨fun hle => hq.completes (fun _ => rfl) fun hp => ?exhausted,
      fun hlt hclean => hq.completes (fun _ => rfl) fun hp => ?claims⟩,
    fun s q h p pt src d x hq ha ht hown hdescs hcopy hx hepoch hv hdone hclean hpend hroom hbegun => hq.completes (fun _ => rfl) fun hp =>
      bodyTallyCommit_of_pass hp ha ht hown hdescs hcopy hx hepoch hv hdone hclean hpend hroom hbegun,
    fun s q h p pt x hq ht hexp hown hx hepoch hlast => ⟨fun hl => hq.completes (fun _ => rfl) fun hp => ?unlimited,
      fun hl hclean => hq.completes (fun _ => rfl) fun hp => ?resets⟩⟩
  case exhausted =>
    rw [bodyTallyClaim_of_pass hp ha ht hlo hhi hown hx (fun h => absurd h (Nat.not_lt.mpr hle))]
    simp only [tallyClaim, ← hx, hle, if_true]
    rfl
  case claims =>
    rw [bodyTallyClaim_of_pass hp ha ht hlo hhi hown hx fun _ => hclean]
    simp only [tallyClaim, ← hx, Nat.not_le.mpr hlt, if_false]
  case unlimited =>
    rw [bodyTallyReset_of_pass hp ht hexp hown hx hepoch hlast fun h => absurd hl h, if_pos hl]
  case resets =>
    rw [bodyTallyReset_of_pass hp ht hexp hown hx hepoch hlast fun _ => hclean, if_neg hl]

/-! ### Window accesses -/

section
variable {s : State} {u : WinUser}

theorem userActs_of_serves (h : userServes s u) (t : State) : userActs s u t = t := by
  unfold userActs userSilent
  cases u with
  | awl c a => simp [h c a rfl]
  | ctl d k => rfl

/-- The Awl cores of a core out of service have no effect on any window (R287). -/
theorem userActs_of_silent {c : Fin 16} (h : inService s c.val = false) (a : Fin 4) (t : State) : userActs s (.awl c a) t = s := by
  simp [userActs, userSilent, h]

variable {l : State} (hl : l = userLeave s u)
include hl

theorem eyeletWindowSignalOp_of_may {e k : Nat} (he : userEyelet l u e = true) (hlo : 1 ≤ k) (hhi : k ≤ 0xFFFFFFFF) :
    eyeletWindowSignalOp s u e k = retUser (signalEyelet l e k).1 u (eyelet l e).count.toNat := by
  subst hl
  simp only [eyeletWindowSignalOp, he, Bool.not_true, Nat.one_le_iff_ne_zero.mp hlo, Nat.not_lt.mpr hhi, decide_false,
    Bool.or_false, Bool.false_eq_true, if_false]

theorem eyeletWindowWaitOp_of_may {e n : Nat} (he : userEyelet l u e = true) (hlo : 1 ≤ n) (hhi : n ≤ 65535) :
    (∀ x, takeEyelet (eyelet l e) n = some x → eyeletWindowWaitOp s u e n = retUser (setEyelet l e x) u x.count.toNat ∧
      eyeletWindowTryOp s u e n = retUser (setEyelet l e x) u 1) ∧
    (takeEyelet (eyelet l e) n = none → eyeletWindowWaitOp s u e n = sleepOn l e n (userUnit u) ∧
      eyeletWindowTryOp s u e n = retUser l u 0) := by
  subst hl
  have hgo : (!userEyelet (userLeave s u) u e || decide (n = 0) || decide (65535 < n)) = false := by
    simp [he, Nat.one_le_iff_ne_zero.mp hlo, Nat.not_lt.mpr hhi]
  constructor
  · intro x hx
    constructor
    · simp only [eyeletWindowWaitOp, hgo, Bool.false_eq_true, if_false, hx]
    · simp only [eyeletWindowTryOp, hgo, Bool.false_eq_true, if_false, hx]
  · intro hx
    constructor
    · simp only [eyeletWindowWaitOp, hgo, Bool.false_eq_true, if_false, hx]
    · simp only [eyeletWindowTryOp, hgo, Bool.false_eq_true, if_false, hx]

theorem eyeletWindowClearOp_of_event {e : Nat} (he : userEyelet l u e = true) (hx : (eyelet l e).event = true) :
    eyeletWindowClearOp s u e = setEyelet l e { eyelet l e with count := 0 } := by
  subst hl
  simp only [eyeletWindowClearOp, he, hx, Bool.not_true, Bool.or_self, Bool.false_eq_true, if_false]

end

section
variable {s t v : State} {u : WinUser} {l g p : Nat}

theorem laceWindowArriveOp_of_counted (ht : t = setArrival (userLeave s u) u none) (hp : userLacePart t u l = some p)
    (harr : laceArrive t p l g = (v, none)) : laceWindowArriveOp s u l g = retUser v u (lace t l).gen.toNat := by
  subst ht
  simp only [laceWindowArriveOp, hp, harr]

theorem laceWindowArriveWaitOp_of_counted (hnew : userArrival (userLeave s u) u ≠ some (l, g))
    (ht : t = setArrival (userLeave s u) u none) (hp : userLacePart (userLeave s u) u l = some p)
    (harr : laceArrive t p l g = (v, none)) :
    laceWindowArriveWaitOp s u l g = if g < (lace v l).gen.toNat then retUser v u (lace v l).gen.toNat
      else laceSleep (setArrival v u (some (l, g))) l g (userUnit u) := by
  subst ht
  simp only [laceWindowArriveWaitOp, hp, hnew, if_false, harr]

theorem laceWindowWaitOp_of_initialised (ht : t = setArrival (userLeave s u) u none) (hp : userLacePart t u l = some p)
    (hexp : (lace t l).expected ≠ 0) :
    laceWindowWaitOp s u l g = if g < (lace t l).gen.toNat then retUser t u (lace t l).gen.toNat else laceSleep t l g (userUnit u) := by
  subst ht
  simp only [laceWindowWaitOp, hp, hexp, if_false]
  rfl

end

theorem tallyWindowOp_of_owns {s l : State} {c : Fin 16} {a : Fin 4} {t n p : Nat} (hl : l = abandonUnit s (.awl c a))
    (hp : partOfCore l c.val = some p) (hown : ownsTally l p t = true) (hlo : 1 ≤ n) (hhi : n ≤ 256) :
    tallyWindowOp s c.val a.val t n = retAwl (tallyClaim l p t n).2 c.val a.val (tallyClaim l p t n).1 := by
  have hc : Fin.ofNat 16 c.val = c := Fin.ext (Nat.mod_eq_of_lt c.isLt)
  have ha : Fin.ofNat 4 a.val = a := Fin.ext (Nat.mod_eq_of_lt a.isLt)
  simp only [tallyWindowOp, hc, ha, ← hl, hp, Option.filter_some, hown, if_true]
  exact if_neg (by omega)

theorem user_cluster_number (u : WinUser) : u.cluster.user u.number = u := by
  cases u <;> rfl

section
variable (s : State) (u : WinUser)

/-- An access of a user in service is its operation. -/
theorem exec_windowAccess (h : userServes s u) :
    (∀ e k, exec (.eyeletWindowSignal u.cluster u.number e k) s = .next (eyeletWindowSignalOp s u e.toNat k.toNat)) ∧
    (∀ e n, exec (.eyeletWindowWait u.cluster u.number e n) s = .next (eyeletWindowWaitOp s u e.toNat n.toNat)) ∧
    (∀ e n, exec (.eyeletWindowTry u.cluster u.number e n) s = .next (eyeletWindowTryOp s u e.toNat n.toNat)) ∧
    (∀ e, exec (.eyeletWindowClear u.cluster u.number e) s = .next (eyeletWindowClearOp s u e.toNat)) ∧
    (∀ l g, exec (.laceWindowArrive u.cluster u.number l g) s = .next (laceWindowArriveOp s u l.toNat g.toNat)) ∧
    (∀ l g, exec (.laceWindowArriveWait u.cluster u.number l g) s = .next (laceWindowArriveWaitOp s u l.toNat g.toNat)) ∧
    (∀ l g, exec (.laceWindowWait u.cluster u.number l g) s = .next (laceWindowWaitOp s u l.toNat g.toNat)) := by
  have hacts (t : State) : userActs s (u.cluster.user u.number) t = t := by rw [user_cluster_number, userActs_of_serves h]
  refine ⟨fun e k => ?_, fun e n => ?_, fun e n => ?_, fun e => ?_, fun l g => ?_, fun l g => ?_, fun l g => ?_⟩
  all_goals exact congrArg Host.Outcome.next ((hacts _).trans (by rw [user_cluster_number]))

end

theorem exec_tallyWindowClaim (c : Fin 16) (a : Fin 4) (t : BitVec 13) (n : BitVec 64) (s : State) :
    exec (.tallyWindowClaim c a t n) s = .next (ifServing s c.val (tallyWindowOp s c.val a.val t.toNat n.toNat)) := rfl

/-- Settles O26, by the access that is made. -/
theorem windowAccessesComplete : Obligations.WindowAccessesComplete := by
  refine ⟨fun c a t n s l p hc hl hp hown hlo hhi => ?tally, fun u e k s l hu hl he hlo hhi => ?signal,
    fun u e n s l x hu hl he hlo hhi => ?wait, fun u e s l hu hl he hx => ?clear, fun u l g s t v p hu ht hp harr => ?arrive,
    fun u l g s t v p hu hnew ht hp harr => ?arriveWait, fun u l g s t p hu ht hp hexp => ?laceWait, fun c a s hc => ?silent⟩
  case tally =>
    rw [exec_tallyWindowClaim, ifServing, if_pos hc, tallyWindowOp_of_owns hl hp hown hlo hhi]
  case signal =>
    obtain ⟨hexec, -⟩ := exec_windowAccess s u hu
    rw [hexec, eyeletWindowSignalOp_of_may hl he hlo hhi]
  case wait =>
    obtain ⟨-, hwait, htry, -⟩ := exec_windowAccess s u hu
    obtain ⟨htakes, hsleeps⟩ := eyeletWindowWaitOp_of_may hl he hlo hhi
    rw [hwait, htry]
    exact ⟨fun hx => ⟨congrArg _ (htakes x hx).1, congrArg _ (htakes x hx).2⟩,
      fun hx => ⟨congrArg _ (hsleeps hx).1, congrArg _ (hsleeps hx).2⟩⟩
  case clear =>
    obtain ⟨-, -, -, hexec, -⟩ := exec_windowAccess s u hu
    rw [hexec, eyeletWindowClearOp_of_event hl he hx]
  case arrive =>
    obtain ⟨-, -, -, -, hexec, -⟩ := exec_windowAccess s u hu
    rw [hexec, laceWindowArriveOp_of_counted ht hp harr]
  case arriveWait =>
    obtain ⟨-, -, -, -, -, hexec, -⟩ := exec_windowAccess s u hu
    rw [hexec, laceWindowArriveWaitOp_of_counted hnew ht hp harr]
  case laceWait =>
    obtain ⟨-, -, -, -, -, -, hexec⟩ := exec_windowAccess s u hu
    rw [hexec, laceWindowWaitOp_of_initialised ht hp hexp]
  case silent =>
    have hacts (t : State) : Host.Outcome.next (userActs s (.awl c a) t) = (.next s : Host.Outcome State Fault Refusal) :=
      congrArg _ (userActs_of_silent hc a t)
    refine ⟨fun t n => ?_, fun e k => hacts _, fun e n => hacts _, fun e n => hacts _, fun e => hacts _, fun l g => hacts _,
      fun l g => hacts _, fun l g => hacts _⟩
    rw [exec_tallyWindowClaim, ifServing, hc]
    rfl

end Sys2Proof.Machine
end

section
/-! PROOFS. The step counter (R292): what an advance does on its way leaves the job its step and its record. -/
namespace Sys2Proof.Machine

/-! ### A table's visible entries -/

/-- An entry that shows keeps showing when another key is removed, whatever form the table is in. -/
theorem tget_tdel_of_visible {α : Type} {d : α} {k j : Nat} (hkj : k ≠ j) {t : Tab α} (h : tget d k t ≠ d) : tget d k (tdel j t) = tget d k t := by
  induction t with
  | nil => rfl
  | cons e t ih =>
    obtain ⟨i, w⟩ := e
    simp only [tget] at h
    simp only [tdel]
    split
    · next hij =>
      subst hij
      have hki : ¬ k < i := fun hlt => h (by rw [if_neg hkj.symm, if_pos hlt])
      simp only [tget, hkj.symm, hki, if_false]
    · split
      · rfl
      · simp only [tget]
        by_cases hik : i = k
        · rw [if_pos hik, if_pos hik]
        · have hki : ¬ k < i := fun hlt => h (by rw [if_neg hik, if_pos hlt])
          rw [if_neg hik, if_neg hki] at h
          rw [if_neg hik, if_neg hki, if_neg hik, if_neg hki, ih h]

theorem tget_tput_of_visible {α : Type} [DecidableEq α] {d v : α} {k j : Nat} (hkj : k ≠ j) {t : Tab α} (h : tget d k t ≠ d) :
    tget d k (tput d j v t) = tget d k t := by
  unfold tput
  split
  · exact tget_tdel_of_visible hkj h
  · exact tget_tins_ne _ hkj _ t

/-! ### Keeping a job -/

/-- What a partition's job keeps from one state to another: its step and its record. -/
def KeepsJob (p : Nat) (s t : State) : Prop :=
  ∀ j, job s p = some j → ∃ k, job t p = some k ∧ k.step = j.step ∧ k.record = j.record

theorem part_ne_default {s : State} {p : Nat} {j : Job} (h : job s p = some j) : tget ({} : Part) p s.parts ≠ {} := fun e =>
  Option.some_ne_none j (h.symm.trans (congrArg Part.job e))

/-- A change of a partition that leaves its job a job is read back. -/
theorem job_modPart_self {s : State} {p : Nat} {f : Part → Part} {j : Job} (hf : (f (part s p)).job = some j) :
    job (modPart s p f) p = some j := by
  have hne : f (part s p) ≠ {} := fun e => Option.some_ne_none j (hf.symm.trans (congrArg Part.job e))
  exact (congrArg Part.job (tget_tput_ne_default hne p s.parts)).trans hf

theorem job_setJob (s : State) (p : Nat) (j : Job) : job (setJob s p j) p = some j := job_modPart_self rfl

theorem job_modJob {s : State} {p : Nat} {j : Job} (h : job s p = some j) (f : Job → Job) : job (modJob s p f) p = some (f j) :=
  job_modPart_self (congrArg (Option.map f) h)

theorem job_modPart_ne {s : State} {p q : Nat} {j : Job} (h : job s p = some j) (hq : p ≠ q) (f : Part → Part) :
    job (modPart s q f) p = some j :=
  (congrArg Part.job (tget_tput_of_visible hq (part_ne_default h))).trans h

/-- A partition whose agreement has sealed one event more. -/
def sealedEvent (a : Agreement) (x : Part) : Part := { x with agreement := some { a with evtCtr := a.evtCtr + 1 } }

namespace KeepsJob

variable {p : Nat} {s t u : State}

theorem refl (s : State) : KeepsJob p s s := fun j h => ⟨j, h, rfl, rfl⟩

theorem trans (h : KeepsJob p s t) (k : KeepsJob p t u) : KeepsJob p s u := fun j hj => by
  obtain ⟨j₁, h₁, hs₁, hr₁⟩ := h j hj
  obtain ⟨j₂, h₂, hs₂, hr₂⟩ := k j₁ h₁
  exact ⟨j₂, h₂, hs₂.trans hs₁, hr₂.trans hr₁⟩

theorem ite {c : Prop} [Decidable c] (h : KeepsJob p s t) (k : KeepsJob p s u) : KeepsJob p s (if c then t else u) := by
  split
  · exact h
  · exact k

theorem foldl {α : Type} {f : State → α → State} (h : ∀ s a, KeepsJob p s (f s a)) (l : List α) (s : State) : KeepsJob p s (l.foldl f s) := by
  induction l generalizing s with
  | nil => exact refl s
  | cons a l ih => exact (h s a).trans (ih _)

/-- What changes no partition keeps every job. -/
theorem of_parts (h : t.parts = s.parts) : KeepsJob p s t := fun j hj => ⟨j, by rw [job, part, h]; exact hj, rfl, rfl⟩

/-- A change of a partition that leaves the job as it is. -/
theorem modPart (q : Nat) {f : Part → Part} (hf : ∀ x, (f x).job = x.job) : KeepsJob p s (modPart s q f) := fun j hj => by
  by_cases hq : p = q
  · subst hq
    exact ⟨j, job_modPart_self ((hf _).trans hj), rfl, rfl⟩
  · exact ⟨j, job_modPart_ne hj hq f, rfl, rfl⟩

theorem setJob {j k : Job} (h : job s p = some j) (hs : k.step = j.step) (hr : k.record = j.record) : KeepsJob p s (setJob s p k) :=
  fun i hi => by
    obtain rfl : j = i := Option.some.inj (h.symm.trans hi)
    exact ⟨k, job_setJob s p k, hs, hr⟩

theorem modJob {f : Job → Job} (hf : ∀ j, (f j).step = j.step ∧ (f j).record = j.record) : KeepsJob p s (modJob s p f) :=
  fun j hj => ⟨f j, job_modJob hj f, (hf j).1, (hf j).2⟩

theorem breakQuag (q : Nat) : KeepsJob p s (breakQuag s q) := .ite (.modPart q fun _ => rfl) (.refl s)

theorem postEvent (q code reason tag step : Nat) (d : List Byte) : KeepsJob p s (postEvent s q code reason tag step d) := by
  simp only [Machine.postEvent]
  split
  · exact .of_parts (dropEvent_parts s q)
  · cases sealing s q with
    | none =>
      refine .of_parts ?_
      split
      · simp
      · split <;> simp
    | some a =>
      refine (KeepsJob.modPart (f := sealedEvent a) q fun _ => rfl).trans (.of_parts ?_)
      split
      · simp
        rfl
      · split <;> (simp; rfl)

theorem postPart (q code reason : Nat) (d : List Byte) : KeepsJob p s (postPart s q code reason d) := by
  unfold Machine.postPart; split
  · exact postEvent _ _ _ _ _ _
  · exact postEvent _ _ _ _ _ _

theorem pauseJob (reason : Nat) : KeepsJob p s (pauseJob s p reason) := by
  unfold Machine.pauseJob
  split
  · rename_i hj
    exact .ite (refl s) (((setJob hj (by rfl) (by rfl)).trans (breakQuag p)).trans (postPart _ _ _ _))
  · exact refl s

theorem requestTest (k : Nat) : KeepsJob p s (requestTest s k) := of_parts (by simp [Machine.requestTest, apply_ite State.parts])

theorem raiseHealth (m : Nat) (core : Option Nat) (count : Nat) : KeepsJob p s (raiseHealth s p m core count) := by
  unfold Machine.raiseHealth
  split
  · exact refl s
  rename_i j hj
  split
  · exact refl s
  refine .ite (refl s) ?_
  have hpost : KeepsJob p s (Machine.postPart (Machine.setJob s p { j with health := { j.health with raised := m :: j.health.raised } }) p 0x0140 m
      (leBytes 8 (core.getD 0xFF) ++ leBytes 8 count)) := (setJob hj (by rfl) (by rfl)).trans (postPart _ _ _ _)
  refine .ite (hpost.trans (pauseJob 2)) (.ite ?_ hpost)
  split
  · exact hpost.trans (requestTest _)
  · exact hpost

theorem checkMonitor (m : Nat) (core : Option Nat) (count : Nat) : KeepsJob p s (checkMonitor s p m core count) := by
  unfold Machine.checkMonitor
  split
  · exact .ite (raiseHealth _ _ _) (refl s)
  · exact refl s

theorem healthCheck : KeepsJob p s (healthCheck s p) := by
  unfold Machine.healthCheck
  split
  · exact refl s
  · exact (checkMonitor _ _ _).trans (checkMonitor _ _ _)

theorem stepFlags : KeepsJob p s (stepFlags s p) := by
  unfold Machine.stepFlags
  split
  · exact refl s
  · rename_i hj
    dsimp only
    split
    · exact setJob hj (by rfl) (by rfl)
    · exact (setJob hj (by rfl) (by rfl)).trans (raiseHealth _ _ _)

theorem scan (e : Nat) : KeepsJob p s (scan s e) := by
  unfold Machine.scan
  refine (of_parts (by rfl) : KeepsJob p s (setEyelet s e (scanEyelet (eyelet s e)).1)).trans (foldl (fun t u => ?_) _ _)
  refine KeepsJob.trans ?_ (of_parts (owe_parts (breakEyelet t e) _))
  unfold breakEyelet
  split
  · exact breakQuag _
  · exact refl t

theorem deviceSignal (e : Nat) : KeepsJob p s (deviceSignal s e) := by
  unfold Machine.deviceSignal signalEyelet
  refine .ite ?_ (refl s)
  dsimp only
  split
  · exact (of_parts rfl : KeepsJob p s (setEyelet s e _)).trans (scan e)
  · split
    · exact (of_parts (by simp [eyeFault])).trans (scan e)
    · exact (of_parts rfl : KeepsJob p s (setEyelet s e _)).trans (scan e)

theorem startCkpt (step : BitVec 64) : KeepsJob p s (startCkpt s p step) := by
  unfold Machine.startCkpt
  split
  · exact refl s
  · rename_i hj
    exact .ite ((setJob hj (by rfl) (by rfl)).trans (postPart _ _ _ _)) (setJob hj (by rfl) (by rfl))

theorem startEval (n : Nat) : KeepsJob p s (startEval s p n) := by
  unfold Machine.startEval
  split
  · exact refl s
  · rename_i hj
    exact .ite (refl s) (((setJob hj (by rfl) (by rfl)).trans (breakQuag p)).trans (of_parts (modAwl_parts _ _ _ _)))

theorem saturated : KeepsJob p s (saturated s p) := by
  unfold Machine.saturated
  split
  · exact .ite ((postPart _ _ _ _).trans (pauseJob 4)) (refl s)
  · exact refl s

theorem afterLace : KeepsJob p s (afterLace s p) := by
  unfold Machine.afterLace
  split
  · exact refl s
  · rename_i hj
    refine .ite (refl s) (.trans (.ite ?_ (refl s)) (of_parts (owe_parts _ _)))
    exact ((setJob hj (by rfl) (by rfl)).trans (breakQuag p)).trans (postPart _ _ _ _)

theorem lookBoundary_parts (s : State) (c : Nat) : (lookBoundary s c).parts = s.parts := by
  unfold lookBoundary
  split
  · split <;> simp
  · rfl

theorem kickStream (c i : Nat) : KeepsJob p s (kickStream s c i) :=
  of_parts (by simp [Machine.kickStream, apply_ite State.parts, lookBoundary_parts])

theorem wakeContribs (b : Nat) : KeepsJob p s (wakeContribs s p b) := by
  unfold Machine.wakeContribs restartWaiting
  refine foldl (fun t w => ?_) _ _
  dsimp only
  split
  · exact (of_parts (by rw [modStream_parts] : _ = t.parts)).trans (kickStream _ _)
  · exact of_parts (owe_parts _ _)

theorem wakeBuckets : KeepsJob p s (wakeBuckets s p) := by
  unfold Machine.wakeBuckets
  split
  · exact foldl (fun t (e : Nat × Option Bucket) => wakeContribs (s := t) e.1) _ _
  · exact refl s

end KeepsJob

/-! ### The gather service (R301) leaves the partitions as they are while it writes -/

@[simp] theorem rChoice_parts (r : Run) : (rChoice r).2.s.parts = r.s.parts := rfl

@[simp] theorem tick_parts (r : Run) (n : Nat) : (tick r n).s.parts = r.s.parts := by
  unfold tick; split <;> rfl

@[simp] theorem raise_parts (r : Run) (ld : Bool) (f : Flags) : (raise r ld f).s.parts = r.s.parts := by
  unfold raise; split <;> rfl

@[simp] theorem drawIf_parts (r : Run) (sr : Bool) : (drawIf r sr).2.s.parts = r.s.parts := by
  unfold drawIf; split <;> rfl

@[simp] theorem noteRead_parts (s : State) (p a n : Nat) : (noteRead s p a n).parts = s.parts := by
  unfold noteRead
  split
  · rfl
  · refine foldl_leaves (g := State.parts) (fun t i => ?_) _ _
    split
    · split <;> simp
    · rfl

@[simp] theorem rRead_parts (r : Run) (s : State) (a n : Nat) : (rRead r s a n).2.s.parts = r.s.parts := by
  unfold rRead
  simp only
  split
  · rfl
  · split
    · split <;> simp
    · rfl

@[simp] theorem encAll_parts (r : Run) (ld : Bool) (dst : Elem) (sat sr : Bool) (e : Int) (vs : List Val) :
    (encAll r ld dst sat sr e vs).2.s.parts = r.s.parts := by
  induction vs generalizing r with
  | nil => rfl
  | cons v vs ih => simp [encAll, ih]

@[simp] theorem convBlock_parts (r : Run) (ld : Bool) (src dst : Elem) (sat sr : Bool) (given : Option Int) (els : List SrcEl) :
    (convBlock r ld src dst sat sr given els).2.s.parts = r.s.parts := by
  unfold convBlock
  simp only
  split
  · split <;> simp
  split
  · split <;> simp
  split
  · split <;> simp
  split
  · split <;> simp
  split <;> simp

@[simp] theorem accBlock_parts (r : Run) (ld : Bool) (src : Elem) (d : Desc) (l : List (List Nat × SrcEl)) :
    (accBlock r ld src d l).2.s.parts = r.s.parts := by
  induction l generalizing r with
  | nil => rfl
  | cons x l ih => simp [accBlock, ih]

@[simp] theorem blockWrs_parts (r : Run) (ld : Bool) (src : Elem) (d : Desc) (ixs : List (List Nat)) (els : List SrcEl) :
    (blockWrs r ld src d ixs els).2.s.parts = r.s.parts := by
  unfold blockWrs
  simp only
  split
  · simp
  split
  · simp
  split <;> simp

@[simp] theorem countReduction_parts (r : Run) (a : Nat) : (countReduction r a).s.parts = r.s.parts := by
  unfold countReduction
  split
  · rfl
  · split <;> simp

@[simp] theorem doWr_parts (r : Run) (w : Wr) : (doWr r w).s.parts = r.s.parts := by
  simp only [doWr]
  split
  · cases w with
    | bytes a bs => simp [doWrMapped]
    | nib a hi v => simp [doWrMapped]
    | acc a el v =>
      simp only [doWrMapped]
      split <;> simp
  · rfl

@[simp] theorem doWrs_parts (r : Run) (l : List Wr) : (doWrs r l).s.parts = r.s.parts :=
  foldl_leaves (g := fun r : Run => r.s.parts) doWr_parts l r

@[simp] theorem encBlocks_parts (r : Run) (src dst : Elem) (sat sr : Bool) (l : List (List (Option SrcEl))) :
    (encBlocks r src dst sat sr l).2.s.parts = r.s.parts := by
  induction l generalizing r with
  | nil => rfl
  | cons b l ih =>
    simp only [encBlocks, ih]
    split <;> simp

@[simp] theorem convTile_parts (r : Run) (rec_ : SRec) (d : Desc) (src : Elem) (els : List (Option SrcEl)) (prune : Bool) :
    (convTile r rec_ d src els prune).2.s.parts = r.s.parts := by
  unfold convTile
  dsimp only
  rw [tick_parts, encBlocks_parts]

@[simp] theorem rewriteTile_parts (r : Run) (rec_ : SRec) (e : Elem) (i : Nat) (t : TileOut) :
    (rewriteTile r rec_ e i t).2.s.parts = r.s.parts := by
  cases hx : xlate r.s r.p rec_.addr <;> simp [rewriteTile, hx, apply_ite (fun x : Bool × Run => x.2.s.parts)]

-- The equations of `storeTiles` are too deep to be made, so its recursion is unfolded by hand.
@[simp] theorem storeTiles_parts (r : Run) (se : Elem) (rec_ : SRec) (d : Desc) (f : List Nat → Option SrcEl) (l : List Nat) :
    (storeTiles r se rec_ d f l).2.s.parts = r.s.parts := by
  delta storeTiles storeTiles._f
  dsimp only [List.brecOn, List.brecOn.go]
  induction l generalizing r with
  | nil => rfl
  | cons i l ih =>
    dsimp only at ih ⊢
    split
    · exact ih r
    split
    · dsimp only
      rw [convTile_parts]
    split
    all_goals
      rename_i h
      have htile := congrArg (fun x : Bool × Run => x.2.s.parts) h
      simp only [rewriteTile_parts, convTile_parts] at htile
    · exact (ih _).trans htile.symm
    · exact htile.symm

@[simp] theorem placeUnit_parts (s : State) (p : Nat) (src : Elem) (d : Desc) (u : List (List Nat)) (els : List SrcEl) :
    (placeUnit s p src d u els).parts = s.parts := by
  unfold placeUnit
  simp only
  split <;> simp [hubEnd, hubRun, freeEntropy]

namespace KeepsJob

variable {p : Nat} {s : State}

theorem placeCopy (g : GatherCfg) (c : GatherCopy) : KeepsJob p s (placeCopy s p g c).1 := by
  unfold Machine.placeCopy
  split
  · dsimp only
    generalize hx : List.foldl _ (s, c) _ = x
    have hunits : KeepsJob p s x.1 := of_parts <| by
      rw [← hx]
      refine foldl_leaves (g := fun a : State × GatherCopy => a.1.parts) (fun a u => ?_) _ _
      split
      · rfl
      split
      · exact placeUnit_parts _ _ _ _ _ _
      · rfl
    split
    · exact hunits.trans (foldl (fun t _ => deviceSignal (s := t) _) _ _)
    · exact hunits
  · exact refl s

theorem gatherArrival (k : Nat) (g : GatherCfg) (step : Nat) (b : List Byte) : KeepsJob p s (gatherArrival s p k g step b) := by
  unfold Machine.gatherArrival
  dsimp only
  split
  · exact refl s
  · exact .ite (refl s) ((placeCopy g _).trans (modJob fun _ => ⟨rfl, rfl⟩))

theorem paramArrives (b : List Byte) : KeepsJob p s (paramArrives s p b) := by
  unfold Machine.paramArrives
  split
  · exact refl s
  rename_i hj
  dsimp only
  split
  · exact refl s
  refine .ite (refl s) ?_
  split
  · exact setJob hj (by rfl) (by rfl)
  refine .ite (setJob hj (by rfl) (by rfl)) ?_
  split
  · exact gatherArrival _ _ _ _
  · exact refl s

theorem gatherAdvance : KeepsJob p s (gatherAdvance s p) := by
  unfold Machine.gatherAdvance
  split
  · exact refl s
  · rename_i hj
    dsimp only
    refine KeepsJob.trans ?_ (foldl (fun t (h : HeldParam) => paramArrives (s := t) h.packet) _ _)
    exact setJob hj (by rfl) (by rfl)

end KeepsJob

/-! ### The advance -/

theorem tryAdvance_of_free {s : State} {p : Nat} {j : Job} (hj : job s p = some j) (hstop : j.stopping = false) (hpause : j.paused = false)
    (hlace : laceDone s j = true) (hepoch : epochHolds s p = false) (hgate : gateHolds j = false) (heval : evalHolds j = false) :
    tryAdvance s p = advance s p j := by
  simp [tryAdvance, hj, hstop, hpause, hlace, hepoch, hgate, heval]

theorem tryAdvance_of_held {s : State} {p : Nat} {j : Job} (hj : job s p = some j) (h : j.stopping = true ∨ j.paused = true ∨
    laceDone s j = false ∨ epochHolds s p = true ∨ gateHolds j = true ∨ evalHolds j = true) : tryAdvance s p = s := by
  obtain h | h | h | h | h | h := h <;> simp [tryAdvance, hj, h]

/-- A job whose counter moves on from step `n`: the holds of the gates that have come are gone, and its monitors count anew. -/
def counted (n : Nat) (j : Job) : Job :=
  { j with step := j.step + 1, gates := j.gates.filter (fun g => decide (n + 1 < g)),
           health := { j.health with residue := 0, resCore := none, missing := 0, raised := [] } }

theorem keepsJob_counted_advance (s : State) (p : Nat) (j : Job) :
    KeepsJob p (modJob (stepFlags (healthCheck s p) p) p (counted j.step.toNat)) (advance s p j) := by
  unfold advance
  dsimp only
  refine KeepsJob.trans ?_ KeepsJob.afterLace
  refine KeepsJob.trans ?_ KeepsJob.wakeBuckets
  refine KeepsJob.trans ?_ KeepsJob.gatherAdvance
  refine KeepsJob.trans ?_ KeepsJob.saturated
  refine KeepsJob.trans ?_ (KeepsJob.startEval _)
  refine KeepsJob.trans (KeepsJob.foldl (fun t _ => KeepsJob.deviceSignal (s := t) (jEyelet j)) (List.range (jTokens j)) _) ?_
  refine KeepsJob.ite ?_ (.refl _)
  refine KeepsJob.trans ?_ (KeepsJob.startCkpt _)
  exact KeepsJob.modJob fun _ => ⟨rfl, rfl⟩

/-- Only the counter's own line changes the step of the job that advances, and nothing changes its record. -/
theorem job_advance {s : State} {p : Nat} {j : Job} (hj : job s p = some j) :
    ∃ k, job (advance s p j) p = some k ∧ k.step = j.step + 1 ∧ k.record = j.record := by
  obtain ⟨j₁, h₁, hstep₁, hrec₁⟩ := (KeepsJob.healthCheck.trans KeepsJob.stepFlags : KeepsJob p s (stepFlags (healthCheck s p) p)) j hj
  obtain ⟨k, hk, hstep, hrec⟩ := keepsJob_counted_advance s p j _ (job_modJob h₁ (counted j.step.toNat))
  have hcount : (counted j.step.toNat j₁).step = j₁.step + 1 := rfl
  rw [hcount, hstep₁] at hstep
  exact ⟨k, hk, hstep, hrec.trans hrec₁⟩

theorem exec_stepAdvance (p : Fin 16) (s : State) : exec (.stepAdvance p) s = .next (tryAdvance s p.val) := rfl

/-- Settles O39: the counter's own line adds one, and every other part of the advance keeps the step and the record. -/
theorem advanceCountsOneStep : Obligations.AdvanceCountsOneStep := by
  intro p s j hj hstop hpause hlace hepoch hgate heval
  obtain ⟨k, hk, hstep, hrec⟩ := job_advance hj
  exact ⟨advance s p.val j, k, by rw [exec_stepAdvance, tryAdvance_of_free hj hstop hpause hlace hepoch hgate heval], hk, hstep,
    by rw [jTag, jTag, hrec]⟩

end Sys2Proof.Machine
end

section
/-! PROOFS. The events of a job (R292, R293, R312, R313), JOB_START and JOB_CTL (R289 to R294), and PARAM_MCAST (R302, R344). -/
namespace Sys2Proof.Machine

/-! ### Events of a job -/

section
variable {s : State} {p : Nat} {j : Job} (hj : job s p = some j)
include hj

theorem gatherLate_of_job {late : List Nat} (hlate : late = (List.range j.gathers.length).filter
    (fun k => !j.copies.any (fun c => decide (c.entry = k) && decide (c.step = j.step.toNat) && c.done))) :
    gatherLate s p = if late = [] then s else raiseHealth s p 4 none late.length := by
  subst hlate
  simp only [gatherLate, hj, List.isEmpty_iff]

/-- The state in which the hook's result is reported: the hook is over, and its Awl core goes on with the job program. -/
theorem evalReturn_of_run {e : EvalRun} (he : j.eval = some e) :
    ∃ t, evalReturn s p = oweAdvance (postPart t p 0x0130 0 (partRead t p (at_ j.evalCfg 24 8) 16)) p ∧
      ∃ k, job t p = some k ∧ k.eval = none ∧ k.step = j.step := by
  refine ⟨modAwl (setJob s p { j with eval := none }) (((jCores j).find? (fun c =>
    decide ((awlOf (core s c) 0).entry = at_ j.evalCfg 8 8))).getD 0) 0 (fun a => { a with entry := j.entry }), ?_,
    { j with eval := none }, job_setJob s p _, rfl, rfl⟩
  simp only [evalReturn, hj, he]

theorem stopAwls_of_quiet (hstop : j.stopping = true) (hrun : j.ckpt.run = none) (hon : j.ckpt.onStop = false)
    (hquiet : ∀ c ∈ jCores j, ∀ i < 3, streamQuiet s (stream s c i) = true) : stopAwls s p = dropJob s p 1 := by
  have hq : (jCores j).all (fun c => (List.range 3).all (fun i => streamQuiet s (stream s c i))) = true := by simpa using hquiet
  simp [stopAwls, hj, hq, hstop, hrun, hon]

theorem slotFill_of_off {e : Bool} (h : dsOn (dsGet j e) = false ∨ j.stopping = true ∨ (dsGet j e).halted = true) :
    slotFill s p e = s := by
  have hoff : (!dsOn (dsGet j e) || j.stopping || (dsGet j e).halted || decide (dsPerEpoch (dsGet j e) (jWays j) = 0) ||
      !dsReach s (dsGet j e)) = true := by
    obtain h | h | h := h <;> simp [h]
  simp only [slotFill, hj, hoff, if_true]

theorem undecidedOp_of_due {tag : BitVec 32} {e : PendEpoch} (hlace : laceDone s j = true)
    (he : (part s p).pend.find? (fun e => decide (e.job = tag) && pendDue s p e && e.decision.isNone && !e.told) = some e) :
    ∃ t, undecidedOp s p tag = postPart t p 0x0152 0 (leBytes 8 e.epoch.toNat) ∧ t.mem = s.mem := by
  refine ⟨modPart s p (fun y => { y with pend := y.pend.map (fun z =>
    if z.epoch = e.epoch ∧ z.job = tag then { z with told := true } else z) }), ?_, rfl⟩
  simp only [undecidedOp, hj, hlace, Bool.not_true, Bool.false_eq_true, if_false, he]

end

theorem actEpochs_of_none {s : State} {p : Nat} {tag : BitVec 32} {c : Bool} (h : dueEpochs s p tag c = []) : actEpochs s p tag c = s := by
  simp [actEpochs, h]

theorem voteTimeoutOp_of_open {s : State} {tag : BitVec 32} {epoch : BitVec 64} {v : MaskVote}
    (hv : s.votes.find? (fun x => decide (x.job = tag) && decide (x.epoch = epoch)) = some v) :
    voteTimeoutOp s tag epoch = closeVote s v 1 := by
  simp only [voteTimeoutOp, hv]

section
variable (p : Fin 16) (s : State)

theorem exec_gatherLateExpiry : exec (.gatherLateExpiry p) s = .next (gatherLate s p.val) := rfl
theorem exec_evalHookReturn : exec (.evalHookReturn p) s = .next (evalReturn s p.val) := rfl
theorem exec_jobStopAwlReset : exec (.jobStopAwlReset p) s = .next (stopAwls s p.val) := rfl
theorem exec_dataSlotFill (e : Bool) : exec (.dataSlotFill p e) s = .next (slotFill s p.val e) := rfl
theorem exec_maskEpochUndecided (tag : BitVec 32) : exec (.maskEpochUndecided p tag) s = .next (undecidedOp s p.val tag) := rfl
theorem exec_epochVoteTimeout (tag : BitVec 32) (epoch : BitVec 64) : exec (.epochVoteTimeout tag epoch) s = .next (voteTimeoutOp s tag epoch) := rfl

end

/-- Settles O38, event by event. -/
theorem jobEventsComplete : Obligations.JobEventsComplete := by
  refine ⟨fun p s j hj => ⟨fun hstop hpause hlace hepoch hgate heval => ?_, fun h => ?_⟩, fun p s => rfl, fun p s j late hj hlate => ?_,
    fun p s j e hj he => ?_, fun p s j hj hstop hrun hon hquiet => ?_, fun p e s j hj => ⟨fun h => ?_, rfl⟩,
    fun p tag s => ⟨rfl, rfl, fun c h => actEpochs_of_none h⟩, fun p tag s j e hj hlace he => ?_, fun tag epoch s v hv => ?_⟩
  · rw [exec_stepAdvance, tryAdvance_of_free hj hstop hpause hlace hepoch hgate heval]
  · rw [exec_stepAdvance, tryAdvance_of_held hj h]
  · rw [exec_gatherLateExpiry, gatherLate_of_job hj hlate]
  · obtain ⟨t, ht, hk⟩ := evalReturn_of_run hj he
    exact ⟨t, by rw [exec_evalHookReturn, ht], hk⟩
  · rw [exec_jobStopAwlReset, stopAwls_of_quiet hj hstop hrun hon hquiet]
  · rw [exec_dataSlotFill, slotFill_of_off hj h]
  · obtain ⟨t, ht, hmem⟩ := undecidedOp_of_due hj hlace he
    exact ⟨t, by rw [exec_maskEpochUndecided, ht], hmem⟩
  · rw [exec_epochVoteTimeout, voteTimeoutOp_of_open hv]

/-! ### PARAM_MCAST and JOB_START -/

section
variable {s : State} {c : Cmd} {pt : Nat} (hpart : c.part = some pt)
include hpart

theorem bodyParamMcast_of_pass {p : ParamMcastP} {d : Desc} {x : DistRec} (hregion : regionOk s pt p.dist.toNat 128 64 false = true)
    (hdescs : checkDescs s pt [(p.srcDesc.toNat, false)] = .ok [d]) (hctl : p.ctl.toNat ≤ 1) (ha : p.rsvdA = 0) (hmc : p.mcast.toNat < 4096)
    (hdist : checkDist s pt p.dist.toNat = .ok x) (hrank : d.rank = x.dist.rank) (hext : seenExt d = localExt x.dist x.grid)
    (helem : elemInt d.elem = false) (howner : isOwner x.dist x.grid = true) :
    bodyParamMcast p s c = if paramHolds s pt (mcastStep s pt p) then { s := s, wait := some (.paramHeld pt (mcastStep s pt p)) }
      else mcastRun s c d p.mcast.toNat (mcastStep s pt p) x.grid := by
  simp only [bodyParamMcast, hpart, Option.getD_some, hregion]
  rw [checked_pass rfl, withDescs_pass hpart hdescs]
  simp only [hdist]
  rw [checked_pass (by simp [Nat.not_lt.mpr hctl, ha, Nat.not_le.mpr hmc, hrank, hext, helem, howner])]

theorem bodyJobStart_of_pass {p : JobStartP} {b : List Byte} {x : JobSubs} {gs : List GatherCfg} (hjob : job s pt = none)
    (hdrain : draining s = false) (hregion : regionOk s pt p.jobRec.toNat 128 64 false = true) (ha : p.rsvdA = 0)
    (hclean : partPoisoned s pt p.jobRec.toNat 128 = false) (hb : b = partRead s pt p.jobRec.toNat 128) (hx : x = jobSubs s pt b)
    (hchecks : firstFail (jobChecks s pt b x) = none)
    (hgathers : gatherEntries s pt x.gathers (List.range (x.gathers.length / 64)) = .ok gs)
    (hrestore : restoreFails s pt b (ckptServiceOf s pt x) = none) :
    bodyJobStart p s c = { s := startJob s pt b x gs (ckptServiceOf s pt x) } := by
  simp only [bodyJobStart, hpart, Option.getD_some, ← hb, ← hx]
  rw [checked_pass (by simp [hjob, hdrain, hregion, ha, hclean]), checked_pass hchecks]
  simp only [hgathers, hrestore]

/-! ### JOB_CTL (R293, R294) -/

theorem bodyJobCtl_of_pass {p : JobCtlP} {j : Job} (hj : job s pt = some j) (htag : jTag j = p.job.toNat) (ha : p.rsvdA = 0)
    (hop : p.op.toNat ≤ 5) (hck : p.op.toNat = 5 → ckOn j.ckpt = true) :
    bodyJobCtl p s c = if p.op.toNat = 0 then { s := s, record := jobRecord s pt j } else { s := jobCtl s pt j p.op.toNat p.step.toNat } := by
  have hasked : (decide (p.op.toNat = 5) && !ckOn j.ckpt) = false := by simpa using hck
  simp only [bodyJobCtl, hpart, Option.getD_some, hj, hasked]
  rw [checked_pass (by simp [htag, ha, Nat.not_lt.mpr hop])]

end

section
variable (s : State) (p : Nat) (j : Job) (step : Nat)

theorem jobCtl_pause : jobCtl s p j 1 step = pauseJob s p 1 := rfl
theorem jobCtl_stop : jobCtl s p j 3 step = stopJob s p j := rfl
theorem jobCtl_checkpoint : jobCtl s p j 5 step = setJob s p { j with ckpt := { j.ckpt with asked := true } } := rfl

theorem jobCtl_resume : jobCtl s p j 2 step = oweAdvance (setJob s p { j with
    paused := false, data := { j.data with halted := false }, evalData := { j.evalData with halted := false } }) p := rfl

variable {s p j step}

theorem jobCtl_gate (hevery : jGateEvery j ≠ 0) (hmod : step % jGateEvery j = 0) (hlater : j.step.toNat < step)
    (hnew : j.gates.contains step = false) : jobCtl s p j 4 step = oweAdvance (setJob s p { j with gates := step :: j.gates }) p :=
  show (if jGateEvery j ≠ 0 ∧ step % jGateEvery j = 0 ∧ j.step.toNat < step ∧ !j.gates.contains step
    then oweAdvance (setJob s p { j with gates := step :: j.gates }) p else s) = _
    from if_pos ⟨hevery, hmod, hlater, by rw [hnew]; rfl⟩

end

/-! ### CKPT_FETCH (R311) -/

theorem ctx_setCtx_of_open {s : State} {n : Nat} {x : Ctx} (hx : x.isOpen = true) : ctx (setCtx s n x) n = x :=
  tget_tput_ne_default (fun e => Bool.noConfusion (hx.symm.trans (congrArg Ctx.isOpen e))) n s.ctxs

@[simp] theorem originate_ctxs (s : State) (type cls : Nat) (mc : Bool) (dpart spart dst fseq flow : Nat) (arg payload : List Byte) :
    (originate s type cls mc dpart spart dst fseq flow arg payload).ctxs = s.ctxs := by
  simp [originate, sendPacket, apply_ite State.ctxs]

@[simp] theorem originate_mem (s : State) (type cls : Nat) (mc : Bool) (dpart spart dst fseq flow : Nat) (arg payload : List Byte) :
    (originate s type cls mc dpart spart dst fseq flow arg payload).mem = s.mem := by
  simp [originate, sendPacket, apply_ite State.mem]

/-- The receiving context that a CKPT_FETCH opens. -/
def fetchCtx (p : CkptFetchP) : Ctx := { isOpen := true, kind := 4, cls := 3, buf := p.dst, bufBytes := p.dstBytes, eyelet := 0xFFFFFFFF }

/-- The state in which a CKPT_FETCH waits: its context is open, and its peer is asked. -/
def fetchAsked (s : State) (pt : Nat) (p : CkptFetchP) : State :=
  originate (setCtx s p.context.toNat (fetchCtx p)) 0x33 0 false 0 pt p.peer.toNat 0 0 []
    (leBytes 4 p.job.toNat ++ leBytes 1 p.slot.toNat ++ zeros 3 ++ leBytes 8 p.step.toNat ++ leBytes 4 p.context.toNat ++ leBytes 1 pt ++
      zeros 3 ++ leBytes 8 p.dstBytes.toNat)

theorem ctx_fetchAsked (s : State) (pt : Nat) (p : CkptFetchP) : ctx (fetchAsked s pt p) p.context.toNat = fetchCtx p := by
  have hctxs : (fetchAsked s pt p).ctxs = (setCtx s p.context.toNat (fetchCtx p)).ctxs := originate_ctxs _ _ _ _ _ _ _ _ _ _ _
  rw [ctx, hctxs]
  exact ctx_setCtx_of_open (x := fetchCtx p) rfl

theorem fetchAsked_mem (s : State) (pt : Nat) (p : CkptFetchP) : (fetchAsked s pt p).mem = s.mem := originate_mem _ _ _ _ _ _ _ _ _ _ _

theorem bodyCkptFetch_of_pass {s : State} {c : Cmd} {pt : Nat} (hpart : c.part = some pt) {p : CkptFetchP} (hslot : p.slot.toNat ≤ 1)
    (ha : p.rsvdA = 0) (hb : p.rsvdB = 0) (hmod : p.dstBytes.toNat % 2 ^ 21 = 0) (hlo : 2 ^ 21 ≤ p.dstBytes.toNat)
    (hhi : p.dstBytes.toNat < 2 ^ 48) (hregion : regionOk s pt p.dst.toNat p.dstBytes.toNat (2 ^ 21) true = true)
    (hspan : spanHbm s pt p.dst.toNat p.dstBytes.toNat = true ∨ spanFar s pt p.dst.toNat p.dstBytes.toNat = true)
    (hctx : p.context.toNat < 0x10000) (hown : ownsCtx s pt p.context.toNat = true) (hfree : (ctx s p.context.toNat).isOpen = false)
    (hdrain : draining s = false) (hpeer : departed s p.peer = false) :
    bodyCkptFetch p s c = { s := fetchAsked s pt p, wait := some (.fetch p.context.toNat none) } := by
  have hmem : (spanHbm s pt p.dst.toNat p.dstBytes.toNat || spanFar s pt p.dst.toNat p.dstBytes.toNat) = true := by simpa using hspan
  simp only [bodyCkptFetch, hpart, Option.getD_some, hregion, hmem, hown, hfree, hdrain, hpeer, hmod, Nat.not_lt.mpr hslot, Nat.not_lt.mpr hlo,
    Nat.not_le.mpr hhi, ha, hb, hctx]
  rw [checked_pass rfl]
  rfl

/-- Settles O36, by the check lists. -/
theorem paramMcastAndJobStartComplete : Obligations.ParamMcastAndJobStartComplete := by
  refine ⟨fun s q h p pt d x hq hregion hdescs hctl ha hmc hdist hrank hext helem howner => ⟨fun hheld => hq.completes (fun _ => rfl) fun hp => ?_,
      fun hheld => hq.completes (fun _ => rfl) fun hp => ?_⟩,
    fun s q h p pt b x gs hq hjob hdrain hregion ha hclean hb hx hchecks hgathers hrestore => hq.completes (fun _ => rfl) fun hp =>
      bodyJobStart_of_pass hp hjob hdrain hregion ha hclean hb hx hchecks hgathers hrestore⟩
  · rw [bodyParamMcast_of_pass hp hregion hdescs hctl ha hmc hdist hrank hext helem howner, hheld]
    rfl
  · rw [bodyParamMcast_of_pass hp hregion hdescs hctl ha hmc hdist hrank hext helem howner, hheld]
    rfl

/-- Settles O37: JOB_CTL by its operation, CKPT_FETCH by its check list. -/
theorem jobCtlAndCkptFetchComplete : Obligations.JobCtlAndCkptFetchComplete := by
  refine ⟨fun s q h p pt j hq hj htag ha => ?jobCtl, fun s q h p pt hq hslot ha hb hmod hlo hhi hregion hspan hctx hown hfree hdrain hpeer =>
    ⟨fetchAsked (atStart s q) pt p, hq.completes (fun _ => rfl) fun hp =>
      bodyCkptFetch_of_pass hp hslot ha hb hmod hlo hhi hregion hspan hctx hown hfree hdrain hpeer, ?fetched⟩⟩
  case jobCtl =>
    have hends {n : Nat} (hop : p.op.toNat = n) (hn : n ≤ 5) (hck : n = 5 → ckOn j.ckpt = true) :
        exec (.jobCtl h p) (startOf s q) = .next (endsAs s q (.jobCtl h p) (if n = 0 then { s := atStart s q, record := jobRecord (atStart s q) pt j }
          else { s := jobCtl (atStart s q) pt j n p.step.toNat })) :=
      hq.completes (fun _ => rfl) fun hp => by
        rw [bodyJobCtl_of_pass hp hj htag ha (hop ▸ hn) (hop ▸ hck), hop]
    refine ⟨fun hop => hends hop (by decide) (by omega), fun hop => hends hop (by decide) (by omega), fun hop => ?resume,
      fun hop => hends hop (by decide) (by omega), fun hop hevery hmod hlater hnew => ?gate, fun hop hck => hends hop (by decide) fun _ => hck⟩
    case resume => exact ⟨_, hends hop (by decide) (by omega), _, job_setJob _ _ _, rfl, rfl, rfl⟩
    case gate =>
      rw [hends hop (by decide) (by omega), if_neg (by decide), jobCtl_gate hevery hmod hlater hnew]
  case fetched =>
    rw [ctx_fetchAsked]
    exact ⟨rfl, rfl, rfl, fetchAsked_mem _ _ _⟩

end Sys2Proof.Machine
end


section
/-! PROOFS. The events of the checkpoint service and its flows (R307 to R311, R437, R438). -/
namespace Sys2Proof.Machine

/-! ### Items and slots -/

section
variable {s : State} {p : Nat} {j : Job} {r : CkptRun} (hj : job s p = some j) (hrun : j.ckpt.run = some r)
include hj hrun

theorem itemsRead_of_writing (hphase : r.phase = .writing) : itemsRead s p = s := by simp [itemsRead, hj, hrun, hphase]
theorem completeCkpt_of_reading (hphase : r.phase = .reading) : completeCkpt s p = s := by simp [completeCkpt, hj, hrun, hphase]

end

theorem doneTimeout_of_ended {s : State} {p : Nat} {x : CkptSend} (hx : (part s p).sends.find? (·.ended) = some x) :
    doneTimeout s p = peerLost s p x := by rw [doneTimeout, hx]

/-! ### Packets whose integrity check fails -/

section
variable {b : List Byte} (s : State) (hbad : pkGood b = false)
include hbad

theorem tackArrives_of_bad : tackArrives s b = countEcrc s := by simp [tackArrives, hbad]
theorem ckptDataArrives_of_bad : ckptDataArrives s b = countEcrc s := by simp [ckptDataArrives, hbad]
theorem ckptEndArrives_of_bad : ckptEndArrives s b = countEcrc s := by simp [ckptEndArrives, hbad]
theorem ckptDoneArrives_of_bad : ckptDoneArrives s b = countEcrc s := by simp [ckptDoneArrives, hbad]
theorem ckptFetchPacket_of_bad : exec (.ckptFetchPacket b) s = .next (countEcrc s) := by simp [exec, execCkptFetchPacket, hbad]
theorem tensorArrives_of_bad : tensorArrives s b = countEcrc s := by simp [tensorArrives, hbad]

end

/-! ### Packets that pass it -/

section
variable {b : List Byte} {s : State} (hgood : pkGood b = true)
include hgood

theorem tackArrives_of_ctx {n : Nat} (hn : tackCtx s b = some n) : tackArrives s b = tackCtxOp s n b := by simp [tackArrives, hgood, hn]

theorem tensorArrives_of_ctx {n : Nat} (hn : rxCtx s b = some n) :
    tensorArrives s b = rxPacket s (pkDpart b) n (at_ (pkArg b) 0 8) (bitOf (at_ (pkArg b) 8 1) 0) b := by simp [tensorArrives, hgood, hn]

/- `fetches` stands behind a variable while the nested matches reduce: the kernel would otherwise evaluate it on the packet. -/
theorem ckptDataArrives_of_ctx {n : Nat} (hn : rxCtx s b = some n)
    (hnone : fetches (rxPacket s (pkDpart b) n (at_ (pkArg b) 0 8) false b) (pkDpart b) = []) :
    ckptDataArrives s b = rxPacket s (pkDpart b) n (at_ (pkArg b) 0 8) false b := by
  unfold ckptDataArrives
  rw [if_neg (by rw [hgood]; exact Bool.false_ne_true), hn]
  obtain ⟨waitingFetches, hfetches⟩ : ∃ f, fetches = f := ⟨_, rfl⟩
  rw [hfetches] at hnone ⊢
  simp [hnone]

section
variable {w : Waiting} {n : Nat} {l : Option Nat} {q : CkptFetchP} (hnamed : fetchNamed s b = some (w, n, l, q))
include hnamed

theorem ckptEndArrives_of_fetch : ckptEndArrives s b = checkFetch s w n q (at_ (pkPayload b) 16 8) := by
  simp [ckptEndArrives, hgood, hnamed]

theorem ckptDoneArrives_of_fetch (hst : at_ (pkPayload b) 5 1 = 2 ∨ at_ (pkPayload b) 5 1 = 3) :
    ckptDoneArrives s b = endFetch s w n .noResource 0 0 (at_ (pkPayload b) 5 1) := by
  simp [ckptDoneArrives, hgood, hnamed, hst]

end

theorem ckptFetchPacket_of_good : exec (.ckptFetchPacket b) s = .next (countDrop s) := by simp [exec, execCkptFetchPacket, hgood]

end

/-! ### Timers -/

theorem fetchTimeout_of_unended {s : State} {p n : Nat} {w : Waiting} {l : Option Nat} {q : CkptFetchP}
    (hw : (fetches s p).find? (fun x => x.2.2.1.isNone) = some (w, n, l, q)) :
    fetchTimeout s p = endFetch (freeNat s).2 w n .deferred 1 0 ((freeNat s).1 % 256) := by
  have hl : l.isNone = true := List.find?_some (p := fun x : Waiting × Nat × Option Nat × CkptFetchP => x.2.2.1.isNone) hw
  obtain rfl : l = none := Option.isNone_iff_eq_none.mp hl
  simp [fetchTimeout, hw, fetchStatus]

section
variable {s : State} {p : Nat} {n : BitVec 16} (hopen : (ctx s n.toNat).isOpen = true)
include hopen

theorem resendTimer_of_sender (hkind : (ctx s n.toNat).kind = 3) (hown : ownsCtx s p n.toNat = true) :
    resendTimer s p (some n) = flowResend s n.toNat := by simp [resendTimer, hopen, hkind, hown]

theorem tackTimer_of_receiver (hkind : (ctx s n.toNat).kind = 4) (hpeer : (ctx s n.toNat).packets ≠ 0 ∨ (ctx s n.toNat).overruns ≠ 0)
    (hown : (List.range 16).find? (fun p => ownsCtx s p n.toNat) = some p) :
    tackTimer s n.toNat = sendTack s n.toNat p (ctx s n.toNat).peer.toNat (ctx s n.toNat).peerPart.toNat := by
  have hpeer' : (decide ((ctx s n.toNat).packets ≠ 0) || decide ((ctx s n.toNat).overruns ≠ 0)) = true := by simpa using hpeer
  simp only [tackTimer, hopen, hkind, hpeer', hown, decide_true, Bool.and_self, if_true]

end

/-- Settles O40: each event by the state of its checkpoint, packet, context or fetch. -/
theorem checkpointEventsComplete : Obligations.CheckpointEventsComplete :=
  ⟨fun _ _ _ _ hj hrun => ⟨fun hphase => ⟨rfl, congrArg _ (completeCkpt_of_reading hj hrun hphase)⟩,
      fun hphase => ⟨rfl, congrArg _ (itemsRead_of_writing hj hrun hphase)⟩⟩,
    fun _ _ _ hx => congrArg _ (doneTimeout_of_ended hx),
    fun _ s hbad => ⟨congrArg _ (tackArrives_of_bad s hbad), congrArg _ (ckptDataArrives_of_bad s hbad), congrArg _ (ckptEndArrives_of_bad s hbad),
      congrArg _ (ckptDoneArrives_of_bad s hbad), ckptFetchPacket_of_bad s hbad, congrArg _ (tensorArrives_of_bad s hbad)⟩,
    fun _ _ _ hgood hn => congrArg _ (tackArrives_of_ctx hgood hn),
    fun _ _ _ hgood hn => ⟨congrArg _ (tensorArrives_of_ctx hgood hn), fun hnone => congrArg _ (ckptDataArrives_of_ctx hgood hn hnone)⟩,
    fun _ _ _ _ _ _ hgood hnamed => ⟨congrArg _ (ckptEndArrives_of_fetch hgood hnamed),
      fun hst => congrArg _ (ckptDoneArrives_of_fetch hgood hnamed hst)⟩,
    fun _ _ hgood => ckptFetchPacket_of_good hgood,
    fun _ _ _ _ _ _ hw => congrArg _ (fetchTimeout_of_unended hw),
    fun _ _ _ hopen => ⟨fun hkind hown => congrArg _ (resendTimer_of_sender hopen hkind hown),
      fun hkind hpeer hown => congrArg _ (tackTimer_of_receiver hopen hkind hpeer hown)⟩⟩

end Sys2Proof.Machine
end


section
/-! PROOFS. NOP, the context, pool, host-range and SYNC commands (R370, R371, R491, R492, R495, R501, R503). -/
namespace Sys2Proof.Machine

section
variable {s : State} {c : Cmd} {pt : Nat} (hpart : c.part = some pt)
include hpart

theorem bodyCtxOpen_of_pass {p : CtxOpenP} (hctx : p.context.toNat < 0x10000) (hown : ownsCtx s pt p.context.toNat = true)
    (hfree : (ctx s p.context.toNat).isOpen = false) (hvalid : ctxOpenValid s pt p = true)
    (hdrain : p.kind.toNat < 3 ∨ draining s = false)
    (heyelet : p.kind.toNat = 4 → p.eyelet.toNat < 16384 → ownsEyelet s pt p.eyelet.toNat = true) :
    bodyCtxOpen p s c = { s := setCtx s p.context.toNat (openedCtx p) } := by
  have hroom : (decide (3 ≤ p.kind.toNat) && draining s) = false := by
    rcases hdrain with hkind | hdrain
    · rw [decide_eq_false (Nat.not_le.mpr hkind), Bool.false_and]
    · rw [hdrain, Bool.and_false]
  have hmine : (decide (p.kind.toNat = 4) && decide (p.eyelet.toNat < 16384) && !ownsEyelet s pt p.eyelet.toNat) = false := by
    simpa using heyelet
  simp only [bodyCtxOpen, hpart, Option.getD_some, hctx, hown, hfree, hvalid, hroom, hmine]
  exact checked_pass rfl

theorem bodyCtxClose_of_pass {p : CtxCloseP} {x : Ctx} (ha : p.rsvdA = 0) (hctx : p.context.toNat < 0x10000)
    (hown : ownsCtx s pt p.context.toNat = true) (hx : x = ctx s p.context.toNat) (hopen : x.isOpen = true)
    (hidle : ctxBusy s p.context.toNat = false) :
    bodyCtxClose p s c = { s := setCtx s p.context.toNat {}, record := leBytes 8 x.packets.toNat ++ leBytes 8 x.overruns.toNat } := by
  subst hx
  simp only [bodyCtxClose, hpart, Option.getD_some, ha, Nat.not_le.mpr hctx, hown, hopen, hidle]
  exact checked_pass rfl

theorem bodyResultPool_of_pass {p : ResultPoolP} (ha : p.rsvdA = 0) (hbase : p.base.toNat % 2 ^ 21 = 0) (hmod : p.count.toNat % 256 = 0)
    (hlo : 256 ≤ p.count.toNat) (hhi : p.count.toNat ≤ 65536)
    (hspan : spanOk s pt p.base.toNat (p.base.toNat + 8192 * p.count.toNat - 1) false = true)
    (hhbm : spanHbm s pt p.base.toNat (8192 * p.count.toNat) = true) (hidle : poolBusy (page s pt).pool = false) :
    bodyResultPool p s c = { s := modPage (dropWindows s pt 0 65536) pt fun x =>
      { x with pool := some { base := p.base.toNat, count := p.count.toNat } } } := by
  simp only [bodyResultPool, hpart, Option.getD_some, ha, hbase, hmod, Nat.not_lt.mpr hlo, Nat.not_lt.mpr hhi, hspan, hhbm, hidle]
  exact checked_pass rfl

theorem bodySyncConfig_of_pass {p : SyncConfigP} (ha : p.rsvdA = 0) (hb : p.rsvdB = 0) (hmode : p.mode.toNat ≤ 1)
    (hbase : p.dumpBase.toNat % 4096 = 0) (hbytes : p.dumpBytes.toNat % 4096 = 0)
    (hregion : p.dumpBase.toNat = 0 ∧ p.dumpBytes.toNat = 0 ∨ p.dumpBase.toNat ≠ 0 ∧ p.dumpBytes.toNat ≠ 0 ∧
      spanOk s pt p.dumpBase.toNat (p.dumpBase.toNat + p.dumpBytes.toNat - 1) true = true ∧
      spanHbm s pt p.dumpBase.toNat p.dumpBytes.toNat = true) :
    bodySyncConfig p s c = { s := modPart s pt fun x => { x with sync := { x.sync with
      quag := decide (p.mode.toNat = 1), dumpBase := p.dumpBase.toNat, dumpSize := p.dumpBytes.toNat,
      timeout := p.dumpTimeout.toNat, spent := false } } } := by
  simp only [bodySyncConfig, hpart, Option.getD_some, ha, hb, Nat.not_lt.mpr hmode, hbase, hbytes]
  rcases hregion with ⟨hb0, hn0⟩ | ⟨hb1, hn1, hspan, hhbm⟩
  · simp only [hb0, hn0]
    exact checked_pass rfl
  · rw [checked_pass (by simp [hb1, hn1, hspan, hhbm])]

theorem bodySyncDump_of_region {p : SyncDumpP} (ha : p.rsvdA = 0) (hregion : hasDump s pt = true) :
    bodySyncDump p s c = { s := writeDump s pt 1 0 } := by
  simp only [bodySyncDump, hpart, Option.getD_some, ha, hregion]
  exact checked_pass rfl

theorem bodySyncDump_of_no_region {p : SyncDumpP} (ha : p.rsvdA = 0) (hregion : hasDump s pt = false) :
    bodySyncDump p s c = { s := s, st := .noResource } := by
  simp only [bodySyncDump, hpart, Option.getD_some, ha, hregion]
  exact checked_fail rfl

end

theorem bodyHostRange_of_pass (s : State) (c : Cmd) {p : HostRangeP} (ha : p.rsvdA = 0) (hpart : p.part.toNat < 16)
    (hindex : p.index.toNat < 16) (hflags : p.flags.toNat ≤ 1) (hbase : p.base.toNat % 4096 = 0) (hbytes : p.bytes.toNat % 4096 = 0) :
    bodyHostRange p s c = { s := modPart s p.part.toNat fun x => { x with
      hosts := tput {} p.index.toNat
        (if p.bytes = 0 then {} else { base := p.base.toNat, bytes := p.bytes.toNat, write := bitOf p.flags.toNat 0 }) x.hosts } } := by
  have hpart' : ¬ 15 < p.part.toNat := by omega
  have hindex' : ¬ 15 < p.index.toNat := by omega
  simp only [bodyHostRange, ha, hpart', hindex', Nat.not_lt.mpr hflags, hbase, hbytes]
  exact checked_pass rfl

/-- Settles O10, by the check lists. -/
theorem contextCommandsComplete : Obligations.ContextCommandsComplete :=
  ⟨fun _ _ _ hs hsig => command_completes hs hsig (fun _ => rfl) rfl,
    fun _ _ _ _ _ hq hctx hown hfree hvalid hdrain heyelet => hq.completes (fun _ => rfl) fun hp =>
      bodyCtxOpen_of_pass hp hctx hown hfree hvalid hdrain heyelet,
    fun _ _ _ _ _ _ hq ha hctx hown hx hopen hidle => hq.completes (fun _ => rfl) fun hp =>
      bodyCtxClose_of_pass hp ha hctx hown hx hopen hidle,
    fun _ _ _ _ _ hq ha hbase hmod hlo hhi hspan hhbm hidle => hq.completes (fun _ => rfl) fun hp =>
      bodyResultPool_of_pass hp ha hbase hmod hlo hhi hspan hhbm hidle,
    fun _ _ _ _ hq ha hpart hindex hflags hbase hbytes => hq.completes (fun _ => rfl) fun _ =>
      bodyHostRange_of_pass _ _ ha hpart hindex hflags hbase hbytes,
    fun _ _ _ _ _ hq ha hb hmode hbase hbytes hregion => hq.completes (fun _ => rfl) fun hp =>
      bodySyncConfig_of_pass hp ha hb hmode hbase hbytes hregion,
    fun _ _ _ _ _ hq ha => ⟨fun hregion => hq.completes (fun _ => rfl) fun hp => bodySyncDump_of_region hp ha hregion,
      fun hregion => hq.completes (fun _ => rfl) fun hp => bodySyncDump_of_no_region hp ha hregion⟩⟩

end Sys2Proof.Machine
end


section
/-! PROOFS. The movement commands (R236 to R239, R502, R504, R505). -/
namespace Sys2Proof.Machine

theorem onUnit_of_free {u : CoreUnit} {body : State → Cmd → Res} {s : State} {c : Cmd} (hfree : unitFree s u c) :
    onUnit u body s c = body s c := by
  rcases hstream : streamOfHdr s c.h with _ | ⟨k, i⟩
  · simp only [onUnit, hstream]
  · obtain ⟨hpaused, hsave⟩ := hfree k i hstream
    simp [onUnit, hstream, hpaused, hsave]

section
variable {s : State} {c : Cmd} {pt : Nat} (hpart : c.part = some pt)
include hpart

theorem bodyCopy_of_pass {p : CopyP} {src d : Desc} (hdescs : checkDescs s pt [(p.srcDesc.toNat, false), (p.dstDesc.toNat, true)] = .ok [src, d])
    (hctl : p.ctl.toNat ≤ 1) (ha : p.rsvdA = 0) (hok : copyOk src d = true) : bodyCopy p s c = copyRun s c src d := by
  rw [bodyCopy, withDescs_pass hpart hdescs]
  simp only [Nat.not_lt.mpr hctl, ha, hok]
  exact checked_pass rfl

theorem indexed_of_pass {sa ia da axis ctl : Nat} {rsv scatter : Bool} {go : Run → Desc → Desc → List Int → Res} {src idx d : Desc}
    (hdescs : checkAll s pt [(sa, false), (ia, false), (da, true)] [] = .ok [src, idx, d])
    (hchecks : firstFail (indexedChecks s pt axis ctl rsv scatter src idx d) = none) :
    indexed s c sa ia da axis ctl rsv scatter go =
      indexedRun s c (dim (seenExt (if scatter then d else src)) axis) src idx d go := by
  simp only [indexed, hpart, Option.getD_some, hdescs]
  exact checked_pass hchecks

theorem bodyMemFill_of_pass {p : MemFillP} {d : Desc} (hdescs : checkDescs s pt [(p.dstDesc.toNat, true)] = .ok [d])
    (hdense : isDense d = true) : bodyMemFill p s c = fillRun s c d := by
  rw [bodyMemFill, withDescs_pass hpart hdescs]
  simp only [hdense]
  exact checked_pass rfl

theorem bodyHostCopy_of_pass {p : HostCopyP} {d : Desc} (hdescs : checkDescs s pt [(p.desc.toNat, decide (p.dir.toNat ≠ 1))] = .ok [d])
    (hdir : p.dir.toNat ≤ 1) (ha : p.rsvdA = 0) (hdense : isDense d = true)
    (hspan : hostSpanOk s pt p.hostAddr.toNat (tensorLen d) (decide (p.dir.toNat = 1)) = true) :
    bodyHostCopy p s c = hostCopyRun s c (decide (p.dir.toNat = 1)) p.hostAddr.toNat d := by
  rw [decide_not] at hdescs
  simp only [bodyHostCopy, hpart, Option.getD_some]
  rw [withDescs_pass hpart hdescs]
  simp only [Nat.not_lt.mpr hdir, ha, hdense, hspan]
  exact checked_pass rfl

theorem bodyFlowSend_of_pass {p : FlowSendP} {d : Desc} (hdescs : checkDescs s pt [(p.srcDesc.toNat, false)] = .ok [d]) (ha : p.rsvdA = 0)
    (hctx : p.context.toNat < 0x10000) (hown : ownsCtx s pt p.context.toNat = true) (hopen : (ctx s p.context.toNat).isOpen = true)
    (hkind : (ctx s p.context.toNat).kind = 3) (hdense : isDense d = true) (htx : (ctx s p.context.toNat).tx.lost = false)
    (hpeer : departed s (ctx s p.context.toNat).peer = false) :
    bodyFlowSend p s c = flowRun s c p.context.toNat p.offset.toNat d := by
  simp only [bodyFlowSend, hpart, Option.getD_some]
  rw [withDescs_pass hpart hdescs]
  simp only [ha, hctx, hown, hopen, hkind, hdense, htx, hpeer]
  exact checked_pass rfl

theorem bodyCompress_of_pass {p : CompressP} {src d : Desc}
    (hdescs : checkDescs s pt [(p.srcDesc.toNat, false), (p.dstDesc.toNat, true)] = .ok [src, d]) (hmode : p.mode.toNat ≤ 7)
    (hfit : fld p.mode.toNat 0 2 ≤ 1) (ha : p.rsvdA = 0) (hsparse : isDense d = false) (hrank : src.rank = d.rank)
    (hext : seenExt src = seenExt d) (hconv : badConv src.elem d.elem = false) :
    bodyCompress p s c = compressRun s c p.mode.toNat src d := by
  rw [bodyCompress, withDescs_pass hpart hdescs]
  exact checked_pass (by simp [Nat.not_lt.mpr hmode, Nat.not_lt.mpr hfit, ha, hsparse, hrank, hext, hconv])

theorem bodyDescCheck_of_readable {p : DescCheckP} (hrole : p.role.toNat ≤ 1) (ha : p.rsvdA = 0)
    (hread : checkDesc s pt p.desc.toNat (decide (p.role.toNat = 1)) ≠ .no .integrityFail 0) :
    bodyDescCheck p s c = { s := s, record := descCheckRecord s pt p.desc.toNat (decide (p.role.toNat = 1)) } := by
  simp only [bodyDescCheck, hpart, Option.getD_some, Nat.not_lt.mpr hrole, ha]
  rw [checked_pass rfl, if_neg (by simpa using hread)]

end

/-- Settles O30, by the descriptors and the check lists. -/
theorem movementCommandsComplete : Obligations.MovementCommandsComplete :=
  ⟨fun _ _ _ _ _ _ _ hq hfree hdescs hctl ha hok => hq.completes (fun _ => rfl) fun hp =>
      (onUnit_of_free hfree).trans (bodyCopy_of_pass hp hdescs hctl ha hok),
    fun _ _ _ _ _ _ _ _ hq hfree hdescs hchecks => hq.completes (fun _ => rfl) fun hp =>
      (onUnit_of_free hfree).trans (indexed_of_pass hp hdescs hchecks),
    fun _ _ _ _ _ _ _ _ hq hfree hdescs hchecks => hq.completes (fun _ => rfl) fun hp =>
      (onUnit_of_free hfree).trans (indexed_of_pass hp hdescs hchecks),
    fun _ _ _ _ _ _ hq hdescs hdense => hq.completes (fun _ => rfl) fun hp => bodyMemFill_of_pass hp hdescs hdense,
    fun _ _ _ _ _ _ hq hdescs hdir ha hdense hspan => hq.completes (fun _ => rfl) fun hp =>
      bodyHostCopy_of_pass hp hdescs hdir ha hdense hspan,
    fun _ _ _ _ _ _ hq hdescs ha hctx hown hopen hkind hdense htx hpeer => hq.completes (fun _ => rfl) fun hp =>
      bodyFlowSend_of_pass hp hdescs ha hctx hown hopen hkind hdense htx hpeer,
    fun _ _ _ _ _ _ _ hq hfree hdescs hmode hfit ha hsparse hrank hext hconv => hq.completes (fun _ => rfl) fun hp =>
      (onUnit_of_free hfree).trans (bodyCompress_of_pass hp hdescs hmode hfit ha hsparse hrank hext hconv),
    fun _ _ _ _ _ hq hrole ha hread => hq.completes (fun _ => rfl) fun hp => bodyDescCheck_of_readable hp hrole ha hread⟩

end Sys2Proof.Machine
end


section
/-! PROOFS. The matrix commands, SOUNDING and TOPK (R100 to R103, R155, R159, R188, R265, R278), the Fen commands and the optimizer (R176,
R181 to R183, R303). -/
namespace Sys2Proof.Machine

theorem onUnit_of_taken {u : CoreUnit} {body : State → Cmd → Res} {s : State} {c : Cmd} {k i : Nat} (hstream : streamOfHdr s c.h = some (k, i))
    (hgrant : c.grant = none) (htaken : pausedOn s k u ≠ [] ∨ saveHolds s k i u = true) : onUnit u body s c = holdAt s c := by
  have htaken' : (!(pausedOn s k u).isEmpty || saveHolds s k i u) = true := by simpa using htaken
  simp [onUnit, hstream, hgrant, htaken']

section
variable {s : State} {c : Cmd} {pt : Nat} (hpart : c.part = some pt)
include hpart

/-! ### Products -/

section
variable {core i : Nat} (hstream : streamOfHdr s c.h = some (core, i))
include hstream

section
variable {p : GemmP} {a b : Desc} {rest : List Desc} (hdescs : checkDescs s pt (gemmList p) = .ok (a :: b :: rest))
  (hchecks : firstFail (gemmChecks s (physOf s core) i p a b rest.head?) = none)
include hdescs hchecks

theorem bodyGemm_of_tensor (hout : accOut p.ctl.toNat ≠ 2) :
    bodyGemm p s c = gemmRun s c core a b rest.head? (gemmGeo a b p.ctl.toNat p.accRow.toNat) := by
  simp only [bodyGemm, hpart, hstream, Option.getD_some]
  rw [withDescs_pass hpart hdescs]
  exact (checked_pass hchecks).trans (if_neg hout)

theorem bodyGemm_of_delivery {t : Option RedTarget} (hout : accOut p.ctl.toNat = 2) (hready : deliverReady s pt core i = .go t) :
    bodyGemm p s c = gemmRun s c core a b rest.head? { gemmGeo a b p.ctl.toNat p.accRow.toNat with target := t } := by
  simp only [bodyGemm, hpart, hstream, Option.getD_some]
  rw [withDescs_pass hpart hdescs]
  refine (checked_pass hchecks).trans ((if_pos hout).trans ?_)
  rw [hready]

end

theorem bodySparse_of_tensor {tr : Bool} {q : SparseP} {a x : Desc} {rest : List Desc} (hfirst : firstFail (sparseFirst s pt q) = none)
    (hdescs : checkDescs s pt (sparseList q) = .ok (a :: x :: rest))
    (hchecks : firstFail (sparseChecks tr s pt (physOf s core) i q a x rest.head?) = none) (hout : accOut q.ctl ≠ 2) :
    bodySparse tr q s c = sparseRun s c core tr a x rest.head? (sparseGeo tr a x q.ctl q.row) q.sel q.fen := by
  simp only [bodySparse, hpart, hstream, Option.getD_some]
  rw [checked_pass hfirst, withDescs_pass hpart hdescs]
  exact (checked_pass hchecks).trans (if_neg hout)

end

/-! ### SOUNDING and TOPK -/

theorem bodySounding_of_pass {p : SoundingP} {a b : Desc} {rest : List Desc} (hregion : regionOk s pt p.bitmap.toNat 1 1 true = true)
    (hdescs : checkDescs s pt (soundList p) = .ok (a :: b :: rest)) (hchecks : firstFail (soundChecks s pt p a b rest.head?) = none) :
    bodySounding p s c = soundRun s c a b rest.head? (bitOf p.ctl.toNat 7) (soundCtl p) p.slot.toNat p.bitmap.toNat (bitOf p.ctl.toNat 8) := by
  simp only [bodySounding, hpart, Option.getD_some, hregion]
  rw [checked_pass rfl, withDescs_pass hpart hdescs]
  exact checked_pass hchecks

theorem bodyTopk_of_pass {p : TopkP} {src vd pd : Desc} (hmask : topkMasked p = true → regionOk s pt p.maskAddr.toNat 1 1 false = true)
    (hdescs : checkDescs s pt [(p.srcDesc.toNat, false), (p.valDesc.toNat, true), (p.posDesc.toNat, true)] = .ok [src, vd, pd])
    (hchecks : firstFail (topkChecks s pt p src vd pd) = none) :
    bodyTopk p s c = topkRun s c src vd pd p.k.toNat p.ctl.toNat p.maskAddr.toNat := by
  have hregion : (topkMasked p && !regionOk s pt p.maskAddr.toNat 1 1 false) = false := by simpa using hmask
  simp only [bodyTopk, hpart, Option.getD_some, hregion]
  rw [checked_pass rfl, withDescs_pass hpart hdescs]
  exact checked_pass hchecks

/-! ### The Fen pool -/

section
variable {core i : Nat} (hstream : streamOfHdr s c.h = some (core, i))
include hstream

theorem bodyFenMerge_of_pass {p : FenMergeP} {ds : List Desc} (haddr : fenAddrOk s pt p.tableDesc.toNat = true)
    (hclean : fenDescHurt s pt p.tableDesc.toNat = false) (hdesc : fenDescOk s pt p.tableDesc.toNat = true) (hmode : p.mode.toNat < 8)
    (hop : fld p.mode.toNat 0 2 ≠ 3) (ha : p.rsvdA = 0) (hdst : fld p.mode.toNat 0 2 = 1 ↔ p.dstDesc ≠ 0)
    (hdescs : checkDescs s pt (if fld p.mode.toNat 0 2 = 1 then [(p.dstDesc.toNat, true)] else []) = .ok ds)
    (hformats : ∀ d ∈ ds, isDense d = true ∧ (d.elem = .a48 ∨ d.elem = .fp32 ∨ d.elem = .l16))
    (hfree : fenConflict s pt (physOf s core) p.tableDesc.toNat = false) :
    bodyFenMerge p s c = fenMergeRun s c (physOf s core) p.tableDesc.toNat p.mode.toNat ds.head? := by
  have hdrain : (decide (fld p.mode.toNat 0 2 = 1) && decide (p.dstDesc = 0)) = false := by simpa using hdst.mp
  have hkeep : (!decide (fld p.mode.toNat 0 2 = 1) && decide (p.dstDesc ≠ 0)) = false := by simpa using fun h => mt hdst.mpr h
  have hdense : ds.any (fun d => !isDense d || !(decide (d.elem = .a48) || decide (d.elem = .fp32) || decide (d.elem = .l16))) = false :=
    List.any_eq_false.mpr fun d hd => by
      obtain ⟨hdense, helem | helem | helem⟩ := hformats d hd <;> simp [hdense, helem]
  simp only [bodyFenMerge, hpart, hstream, Option.getD_some, haddr, hclean, hdesc, hdrain, decide_eq_true_eq]
  rw [checked_pass rfl, withDescs_pass hpart hdescs]
  simp only [Nat.not_le.mpr hmode, hop, ha, hkeep, hdense, hfree]
  exact checked_pass rfl

theorem bodyFenScatter_of_pass {p : FenScatterP} {kd vd : Desc} (haddr : fenAddrOk s pt p.fenDesc.toNat = true)
    (hclean : fenDescHurt s pt p.fenDesc.toNat = false) (hdesc : fenDescOk s pt p.fenDesc.toNat = true)
    (hdescs : checkDescs s pt [(p.keyDesc.toNat, false), (p.valDesc.toNat, false)] = .ok [kd, vd]) (hctl : p.ctl.toNat ≤ 1) (ha : p.rsvdA = 0)
    (hfree : fenConflict s pt (physOf s core) p.fenDesc.toNat = false) (hkd : isDense kd = true)
    (hkelem : kd.elem = .u32 ∨ kd.elem = .s32 ∨ kd.elem = .u64) (hvd : isDense vd = true) (hvelem : elemInt vd.elem = false)
    (hext : seenExt kd = seenExt vd) :
    bodyFenScatter p s c = fenScatterRun s c (physOf s core) p.fenDesc.toNat (bitOf p.ctl.toNat 0) kd vd := by
  have hkeys : (decide (kd.elem = .u32) || decide (kd.elem = .s32) || decide (kd.elem = .u64)) = true := by simpa [or_assoc] using hkelem
  simp only [bodyFenScatter, hpart, hstream, Option.getD_some, haddr, hclean, hdesc]
  rw [checked_pass rfl, withDescs_pass hpart hdescs]
  simp only [Nat.not_lt.mpr hctl, ha, hfree, hkd, hkeys, hvd, hvelem, hext]
  exact checked_pass (by simp)

end

/-! ### The optimizer -/

theorem bodyOptUpdate_of_pass {p : OptUpdateP} {gd wd : Desc} {rest : List Desc} {md vd od : Option Desc}
    (hfirst : firstFail (optFirst s pt p) = none) (hdescs : checkAll s pt (optList p) [] = .ok (gd :: wd :: rest))
    (hmd : md = (if optHasM p then rest[0]? else none)) (hvd : vd = (if optHasV p then rest[b2n (optHasM p)]? else none))
    (hod : od = (if optHasO p then rest[b2n (optHasM p) + b2n (optHasV p)]? else none))
    (hchecks : firstFail (optChecks s pt p gd wd md vd od) = none)
    (hheld : ckptHoldsDescs s pt ([some wd, md, vd, od].filterMap id) = false) :
    bodyOptUpdate p s c = optRun s c p gd wd md vd od := by
  subst hmd hvd hod
  simp only [bodyOptUpdate, hpart, Option.getD_some]
  rw [checked_pass hfirst, hdescs]
  exact (checked_pass hchecks).trans (if_neg (by rw [hheld]; exact Bool.false_ne_true))

end

/-- Settles O33, by the table, the descriptors and the check lists. -/
theorem fenAndOptimizerComplete : Obligations.FenAndOptimizerComplete :=
  ⟨fun _ _ _ _ _ _ _ _ hq hstream haddr hclean hdesc hmode hop ha hdst hdescs hformats hfree => hq.completes (fun _ => rfl) fun hp =>
      bodyFenMerge_of_pass hp hstream haddr hclean hdesc hmode hop ha hdst hdescs hformats hfree,
    fun _ _ _ _ _ _ _ _ _ hq hstream haddr hclean hdesc hdescs hctl ha hfree hkd hkelem hvd hvelem hext => hq.completes (fun _ => rfl) fun hp =>
      bodyFenScatter_of_pass hp hstream haddr hclean hdesc hdescs hctl ha hfree hkd hkelem hvd hvelem hext,
    fun _ _ _ _ _ _ _ _ _ _ _ hq hfirst hdescs hmd hvd hod hchecks hheld => hq.completes (fun _ => rfl) fun hp =>
      bodyOptUpdate_of_pass hp hfirst hdescs hmd hvd hod hchecks hheld⟩

/-- A command of a core's unit that finds the unit taken ends as a held command, whatever its meaning. -/
theorem Startable.holds {i : Instr} {sp : Spec} {h : Hdr} {b : List Byte} {u : CoreUnit} {body : State → Cmd → Res} {s : State} {q : QEntry}
    {pt k j : Nat} (hq : Startable s q pt) (hstream : streamOfHdr (atStart s q) q.cmd.h = some (k, j)) (hgrant : q.cmd.grant = none)
    (hexec : ∀ t, exec i t = command i sp h b (onUnit u body) t)
    (htaken : pausedOn (atStart s q) k u ≠ [] ∨ saveHolds (atStart s q) k j u = true) :
    exec i (startOf s q) = .next (endsAs s q i (holdAt (atStart s q) q.cmd)) :=
  hq.completes hexec fun _ => onUnit_of_taken hstream hgrant htaken

/-- Settles O32: a command whose unit is free runs by its check list, and one whose unit is taken waits. -/
theorem matrixCommandsComplete : Obligations.MatrixCommandsComplete := by
  refine ⟨fun s q h p pt core i a b rest hq hfree hstream hdescs hchecks => ⟨fun hout => hq.completes (fun _ => rfl) fun hp =>
        (onUnit_of_free hfree).trans (bodyGemm_of_tensor hp hstream hdescs hchecks hout),
      fun t hout hready => hq.completes (fun _ => rfl) fun hp =>
        (onUnit_of_free hfree).trans (bodyGemm_of_delivery hp hstream hdescs hchecks hout hready)⟩,
    fun s q h p pt core i a x rest hq hfree hstream hfirst hdescs hchecks hout => hq.completes (fun _ => rfl) fun hp =>
      (onUnit_of_free hfree).trans (bodySparse_of_tensor hp hstream hfirst hdescs hchecks hout),
    fun s q h p pt core i a x rest hq hfree hstream hfirst hdescs hchecks hout => hq.completes (fun _ => rfl) fun hp =>
      (onUnit_of_free hfree).trans (bodySparse_of_tensor hp hstream hfirst hdescs hchecks hout),
    fun s q h p pt a b rest hq hfree hregion hdescs hchecks => hq.completes (fun _ => rfl) fun hp =>
      (onUnit_of_free hfree).trans (bodySounding_of_pass hp hregion hdescs hchecks),
    fun s q h p pt src vd pd hq hfree hmask hdescs hchecks => hq.completes (fun _ => rfl) fun hp =>
      (onUnit_of_free hfree).trans (bodyTopk_of_pass hp hmask hdescs hchecks),
    fun s q h pt k i hq hstream hgrant => ⟨fun htaken => ?sole, fun hpaused => ?welt, fun hpaused => ?move⟩⟩
  case sole =>
    exact ⟨fun _ => hq.holds hstream hgrant (fun _ => rfl) htaken, fun _ => hq.holds hstream hgrant (fun _ => rfl) htaken,
      fun _ => hq.holds hstream hgrant (fun _ => rfl) htaken, fun _ => hq.holds hstream hgrant (fun _ => rfl) htaken⟩
  case welt =>
    exact ⟨fun _ => hq.holds hstream hgrant (fun _ => rfl) (.inl hpaused), fun _ => hq.holds hstream hgrant (fun _ => rfl) (.inl hpaused),
      fun _ => hq.holds hstream hgrant (fun _ => rfl) (.inl hpaused)⟩
  case move =>
    exact ⟨fun _ => hq.holds hstream hgrant (fun _ => rfl) (.inl hpaused), fun _ => hq.holds hstream hgrant (fun _ => rfl) (.inl hpaused),
      fun _ => hq.holds hstream hgrant (fun _ => rfl) (.inl hpaused), fun _ => hq.holds hstream hgrant (fun _ => rfl) (.inl hpaused)⟩

end Sys2Proof.Machine
end


section
/-! PROOFS. The mask commands (R194 to R200, R206 to R209) and the reduction commands (R320, R324, R327, R335, R336, R340). -/
namespace Sys2Proof.Machine

/-! ### Mask records -/

theorem recordOf_addr {s : State} {p a : Nat} {bad : Bool} {accept : Nat → Option Status} {m : MaskRec}
    (h : recordOf s p a bad accept = .ok m) : m.addr = a := by
  unfold recordOf at h
  extract_lets b at h
  split at h
  · cases h
  split at h
  · cases h
  extract_lets n at h
  split at h
  split at h
  · cases h
  split at h
  · cases h
  · exact congrArg MaskRec.addr (Except.ok.inj h).symm

theorem withRecord_pass {s : State} {p a : Nat} {bad : Bool} {accept : Nat → Option Status} {go : MaskRec → Res} {m : MaskRec}
    (h : recordOf s p a bad accept = .ok m) : withRecord s p a bad accept go = go m := by rw [withRecord, h]

section
variable {s : State} {c : Cmd} {pt : Nat} (hpart : c.part = some pt)
include hpart

theorem bodyPrune_of_pass {p : PruneP} {m : MaskRec} {d : Desc} (hregion : regionOk s pt p.record.toNat 64 64 true = true)
    (hrecord : recordOf s pt p.record.toNat (pruneBad p) acceptEdit = .ok m) (hheld : recordHeld s pt p.record.toNat = false)
    (hdescs : checkDescs s pt [(p.wDesc.toNat, false)] = .ok [d]) (helem : elemInt d.elem = false) (hext : seenExt d = m.ext) :
    bodyPrune p s c = pruneRun s c m d p.k.toNat p.scope.toNat p.groupLog.toNat (bitOf p.ctl.toNat 0) := by
  simp only [bodyPrune, hpart, Option.getD_some, hregion]
  rw [checked_pass rfl, withDescs_pass hpart hdescs]
  refine (withRecord_pass hrecord).trans (checked_pass ?_)
  rw [recordOf_addr hrecord, helem, hext, hheld]
  simp

theorem bodyRegrow_of_pass {p : RegrowP} {m : MaskRec} {d : Desc} {rest : List Desc}
    (hregion : regionOk s pt p.record.toNat 64 64 true = true) (hrecord : recordOf s pt p.record.toNat (regrowBad p) acceptEdit = .ok m)
    (hheld : recordHeld s pt p.record.toNat = false) (hdescs : checkDescs s pt (regrowList p) = .ok (d :: rest))
    (hshape : regrowShape m d rest.head? = true) : bodyRegrow p s c = regrowRun s c m d rest.head? (regrowCtl p) := by
  simp only [bodyRegrow, hpart, Option.getD_some, hregion]
  rw [checked_pass rfl, withDescs_pass hpart hdescs]
  refine (withRecord_pass hrecord).trans (checked_pass ?_)
  rw [recordOf_addr hrecord, hshape, hheld]
  rfl

theorem bodyRemask_of_abort {p : RemaskP} {m : MaskRec} (hheld : recordHeld s pt p.record.toNat = false) (hctl : p.ctl.toNat = 1)
    (hrecord : recordOf s pt p.record.toNat false acceptAbort = .ok m) :
    bodyRemask p s c = {
      s := if m.state = 0 then s
        else partWrite (partWrite s pt p.record.toNat (leBytes 1 0)) pt (p.record.toNat + 40) (zeros 16) } := by
  simp only [bodyRemask, hpart, Option.getD_some]
  rw [if_pos hctl, withRecord_pass hrecord, recordOf_addr hrecord, hheld, if_neg Bool.false_ne_true]
  split <;> rfl

theorem bodyRemask_of_stage {p : RemaskP} {m : MaskRec} (hheld : recordHeld s pt p.record.toNat = false) (hctl : p.ctl.toNat = 0)
    (hchecks : firstFail (stageChecks s pt p) = none) (hrecord : recordOf s pt p.record.toNat false acceptStage = .ok m) :
    bodyRemask p s c = remaskStage s c p m := by
  simp only [bodyRemask, hpart, Option.getD_some]
  rw [if_neg (by omega), checked_pass hchecks, withRecord_pass hrecord, recordOf_addr hrecord, hheld, if_neg Bool.false_ne_true]

theorem bodyMaskVote_of_pass {p : MaskVoteP} (hvote : p.vote.toNat ≤ 1) (ha : p.rsvdA = 0) (hb : p.rsvdB = 0) (hvoters : p.voters ≠ 0) :
    bodyMaskVote p s c = { s := rootVote s pt p } := by
  simp only [bodyMaskVote, hpart, Option.getD_some, Nat.not_lt.mpr hvote, ha, hb, hvoters]
  exact checked_pass rfl

theorem bodyMaskDecide_of_pass {p : MaskDecideP} (hdecision : p.decision.toNat ≤ 1) (ha : p.rsvdA = 0) :
    bodyMaskDecide p s c = { s := decideEpoch s pt p.job (decide (p.decision = 0)) p.newEpoch p.effStep } := by
  simp only [bodyMaskDecide, hpart, Option.getD_some, Nat.not_lt.mpr hdecision, ha]
  exact checked_pass rfl

/-! ### The reduction plan -/

section
variable {p : ReduceSetupP} {hd : List Byte} (ha : p.rsvdA = 0) (hregion : regionOk s pt p.plan.toNat 64 64 false = true)
  (hhd : hd = partRead s pt p.plan.toNat 64)
include ha hregion hhd

theorem bodyReduceSetup_of_install {es : List (List Byte)} (hes : es = planEntries s pt hd) (hop : p.op = 0)
    (hclean : planPoisoned s pt p.plan.toNat hd es = false) (hnew : jobPlanned s (at_ hd 0 4) = false) (hdrain : draining s = false)
    (hok : planOk s pt hd es = true) (hregions : planRegionsOk s pt hd es = true)
    (hroom : reservedSlots (setPlan s pt none) + (es.map entryWindow).sum ≤ 768) :
    bodyReduceSetup p s c = { s := installPlan s pt (newPlan s pt hd es) } := by
  subst hes hhd
  simp only [bodyReduceSetup, hpart, Option.getD_some, ha, hop, hregion]
  rw [checked_pass rfl, if_pos trivial]
  simp only [hclean, hnew, hdrain, hok, hregions, Nat.not_lt.mpr hroom]
  exact checked_pass rfl

theorem bodyReduceSetup_of_remove {x : Plan} (hplan : planOf s pt = some x) (htag : at_ x.header 0 4 = at_ hd 0 4) (hop : p.op = 1)
    (hclosed : planOpen x = false) : bodyReduceSetup p s c = { s := setPlan s pt none } := by
  subst hhd
  simp only [bodyReduceSetup, hpart, Option.getD_some, ha, hop, hregion, hplan, htag, hclosed]
  rw [checked_pass rfl, if_neg (by decide), checked_pass rfl, if_neg (by decide)]

theorem bodyReduceSetup_of_abandon {x : Plan} (hplan : planOf s pt = some x) (htag : at_ x.header 0 4 = at_ hd 0 4) (hop : p.op = 2) :
    bodyReduceSetup p s c = { s := setPlan (abandonPlan s pt) pt none } := by
  subst hhd
  simp only [bodyReduceSetup, hpart, Option.getD_some, ha, hop, hregion, hplan, htag]
  rw [checked_pass rfl, if_neg (by decide), checked_pass rfl, if_pos trivial]

end

/-! ### Contributing -/

section
variable {core i : Nat} (hstream : streamOfHdr s c.h = some (core, i))
include hstream

theorem bodyReduceTarget_of_pass {p : ReduceTargetP} (ha : p.rsvdA = 0) (hmine : contributes s pt p.job.toNat p.bucket.toNat core = true)
    (hstage : if modeOf s pt = 1 then inInsole p.stageAddr.toNat core = true else p.stageAddr = 0) :
    bodyReduceTarget p s c = { s := modStream s core i fun x => { x with target := some {
      job := p.job.toNat, bucket := p.bucket.toNat, baseElem := p.baseElem.toNat, rowPitch := p.rowPitch.toNat,
      stageAddr := p.stageAddr.toNat } } } := by
  have hbad : (if modeOf s pt = 1 then !inInsole p.stageAddr.toNat core else decide (p.stageAddr ≠ 0)) = false := by
    split at hstage
    · rw [if_pos ‹_›, hstage]; rfl
    · rw [if_neg ‹_›]; simp [hstage]
  simp only [bodyReduceTarget, hpart, hstream, Option.getD_some, ha, hmine, hbad]
  exact checked_pass rfl

theorem bodyReduceContrib_of_pass {p : ReduceContribP} {ds : List Desc} {x : Bucket} (hlo : 1 ≤ p.ctl.toNat) (hhi : p.ctl.toNat ≤ 3)
    (ha : p.rsvdA = 0) (hb : p.rsvdB = 0) (hsrc : bitOf p.ctl.toNat 1 = false → p.srcDesc = 0)
    (hmine : contributes s pt p.job.toNat p.bucket.toNat core = true)
    (hdescs : checkDescs s pt (if bitOf p.ctl.toNat 1 then [(p.srcDesc.toNat, false)] else []) = .ok ds)
    (hformats : ∀ d ∈ ds, isDense d = true ∧ elemInt d.elem = false) (hbucket : bucketOf s pt p.bucket.toNat = some x)
    (hlost : x.lost = false) (hfree : mustHold s pt x core = false) :
    bodyReduceContrib p s c = contribRun s c core i p.bucket.toNat p.baseElem.toNat (bitOf p.ctl.toNat 0) ds.head? := by
  have hnosrc : (!bitOf p.ctl.toNat 1 && decide (p.srcDesc ≠ 0)) = false := by simpa using hsrc
  have hdense : ds.any (fun d => !isDense d || elemInt d.elem) = false := by simpa using hformats
  have hctl : ¬ p.ctl.toNat = 0 := by omega
  simp only [bodyReduceContrib, hpart, hstream, Option.getD_some, Nat.not_lt.mpr hhi, hctl, ha, hb, hnosrc, hmine]
  rw [checked_pass rfl, withDescs_pass hpart hdescs]
  simp only [hdense, hbucket, hlost, hfree]
  exact checked_pass rfl

end

/-! ### At the owner -/

theorem bodyReduceWait_of_now {p : ReduceWaitP} {x : Bucket} {st : Status} (ha : p.rsvdA = 0)
    (hmine : ownsBucket s pt p.job.toNat p.bucket.toNat = true) (hbucket : bucketOf s pt p.bucket.toNat = some x)
    (hnow : waitNow x (BitVec.ofNat 32 p.step.toNat) = some st) :
    bodyReduceWait p s c = { s := s, st := st, record := waitRecord x (BitVec.ofNat 32 p.step.toNat) } := by
  simp only [bodyReduceWait, hpart, Option.getD_some, ha, hmine]
  rw [checked_pass rfl, hbucket]
  simp only [hnow]

theorem bodyReduceWait_of_later {p : ReduceWaitP} {x : Bucket} (ha : p.rsvdA = 0)
    (hmine : ownsBucket s pt p.job.toNat p.bucket.toNat = true) (hbucket : bucketOf s pt p.bucket.toNat = some x)
    (hnow : waitNow x (BitVec.ofNat 32 p.step.toNat) = none) :
    bodyReduceWait p s c = { s := s, wait := some (.reduce p.bucket.toNat (p.step.toNat % 2 ^ 32)) } := by
  simp only [bodyReduceWait, hpart, Option.getD_some, ha, hmine]
  rw [checked_pass rfl, hbucket]
  simp only [hnow, BitVec.toNat_ofNat]

theorem bodyReduceRelease_of_complete {p : ReduceReleaseP} {x : Bucket} {tag : BitVec 32} (ha : p.rsvdA = 0)
    (hmine : ownsBucket s pt p.job.toNat p.bucket.toNat = true) (hbucket : bucketOf s pt p.bucket.toNat = some x) (hwin : x.win = .complete tag) :
    bodyReduceRelease p s c = { s := settle (setBucket s pt p.bucket.toNat { x with win := .empty }) pt p.bucket.toNat } := by
  simp only [bodyReduceRelease, hpart, Option.getD_some, ha, hmine]
  rw [checked_pass rfl, hbucket]
  simp only [hwin]

theorem bodyReduceExclude_of_missing {p : ReduceExcludeP} {x : Bucket} {r : Reduction} (ha : p.rsvdA = 0)
    (hmine : ownsBucket s pt p.job.toNat p.bucket.toNat = true) (hbucket : bucketOf s pt p.bucket.toNat = some x) (hred : x.red = some r)
    (htag : r.tag = BitVec.ofNat 32 p.step.toNat) (hopen : r.isOpen = true) (hmissing : r.missing ≠ [])
    (hleft : r.missing.length + r.excluded.length < beSlots x) :
    bodyReduceExclude p s c = {
      s := settle (setBucket s pt p.bucket.toNat { x with red := some { r with missing := [], excluded := r.excluded ++ r.missing } }) pt
        p.bucket.toNat
      record := excludeRecord x r.missing } := by
  simp only [bodyReduceExclude, hpart, Option.getD_some, ha, hmine]
  rw [checked_pass rfl, hbucket]
  simp only [hred]
  rw [if_neg (not_not_intro htag), if_neg (by simp [hopen, hmissing]), if_neg (Nat.not_le.mpr hleft)]

end

/-- Settles O34, by the record and the check lists. -/
theorem maskCommandsComplete : Obligations.MaskCommandsComplete :=
  ⟨fun _ _ _ _ _ _ _ hq hfree hregion hrecord hheld hdescs helem hext => hq.completes (fun _ => rfl) fun hp =>
      (onUnit_of_free hfree).trans (bodyPrune_of_pass hp hregion hrecord hheld hdescs helem hext),
    fun _ _ _ _ _ _ _ _ hq hfree hregion hrecord hheld hdescs hshape => hq.completes (fun _ => rfl) fun hp =>
      (onUnit_of_free hfree).trans (bodyRegrow_of_pass hp hregion hrecord hheld hdescs hshape),
    fun _ _ _ _ _ _ hq hheld => ⟨fun hctl hrecord => hq.completes (fun _ => rfl) fun hp => bodyRemask_of_abort hp hheld hctl hrecord,
      fun hctl hchecks hrecord => hq.completes (fun _ => rfl) fun hp => bodyRemask_of_stage hp hheld hctl hchecks hrecord⟩,
    fun _ _ _ _ _ hq hvote ha hb hvoters => hq.completes (fun _ => rfl) fun hp => bodyMaskVote_of_pass hp hvote ha hb hvoters,
    fun _ _ _ _ _ hq hdecision ha => hq.completes (fun _ => rfl) fun hp => bodyMaskDecide_of_pass hp hdecision ha⟩

/-- Settles O35, by the plan, the bucket and the check lists. -/
theorem reductionCommandsComplete : Obligations.ReductionCommandsComplete :=
  ⟨fun _ _ _ _ _ _ _ hq ha hregion hhd hes =>
      ⟨fun hop hclean hnew hdrain hok hregions hroom => hq.completes (fun _ => rfl) fun hp =>
        bodyReduceSetup_of_install hp ha hregion hhd hes hop hclean hnew hdrain hok hregions hroom,
      fun _ hplan htag => ⟨fun hop hclosed => hq.completes (fun _ => rfl) fun hp =>
          bodyReduceSetup_of_remove hp ha hregion hhd hplan htag hop hclosed,
        fun hop => hq.completes (fun _ => rfl) fun hp => bodyReduceSetup_of_abandon hp ha hregion hhd hplan htag hop⟩⟩,
    fun _ _ _ _ _ _ _ hq hstream ha hmine hstage => hq.completes (fun _ => rfl) fun hp =>
      bodyReduceTarget_of_pass hp hstream ha hmine hstage,
    fun _ _ _ _ _ _ _ _ _ hq hstream hlo hhi ha hb hsrc hmine hdescs hformats hbucket hlost hfree => hq.completes (fun _ => rfl) fun hp =>
      bodyReduceContrib_of_pass hp hstream hlo hhi ha hb hsrc hmine hdescs hformats hbucket hlost hfree,
    fun _ _ _ _ _ _ hq ha hmine hbucket => ⟨fun _ hnow => hq.completes (fun _ => rfl) fun hp => bodyReduceWait_of_now hp ha hmine hbucket hnow,
      fun hnow => hq.completes (fun _ => rfl) fun hp => bodyReduceWait_of_later hp ha hmine hbucket hnow⟩,
    fun _ _ _ _ _ _ _ hq ha hmine hbucket hwin => hq.completes (fun _ => rfl) fun hp => bodyReduceRelease_of_complete hp ha hmine hbucket hwin,
    fun _ _ _ _ _ _ _ hq ha hmine hbucket hred htag hopen hmissing hleft => hq.completes (fun _ => rfl) fun hp =>
      bodyReduceExclude_of_missing hp ha hmine hbucket hred htag hopen hmissing hleft⟩

end Sys2Proof.Machine
end


section
/-! PROOFS. The accumulator, seed and queue registers of a core (R67 to R69, R97, R107, R267, R268). -/
namespace Sys2Proof.Machine

/-- A change of a core depends only on what it makes of the core as it stands. -/
theorem modCoreP_congr {s : State} {k : Nat} {f g : Core → Core} (h : f (coreP s k) = g (coreP s k)) : modCoreP s k f = modCoreP s k g := by
  rw [modCoreP, modCoreP, h]

/-! ### The accumulator commands -/

section
variable {s : State} {k i addr : Nat}

theorem accStart_of_idle (restore : Bool) (hidle : (coreP s k).accBusy = false) :
    accStart s k i (some restore) addr = modCoreP s k fun x => { x with
      accStream := BitVec.ofNat 2 i, accBusy := true, accOp := some (i, restore), accAddr := BitVec.ofNat 64 (addr / 64 * 64) } :=
  modCoreP_congr (if_neg (by rw [hidle]; exact Bool.false_ne_true))

theorem accStart_clear_of_idle (hidle : (coreP s k).accBusy = false) :
    accStart s k i none addr =
      modCoreP s k fun x => setStreamOf { x with accStream := BitVec.ofNat 2 i } i { streamOf x i with region := {} } :=
  modCoreP_congr (if_neg (by rw [hidle]; exact Bool.false_ne_true))

theorem accStart_of_busy (op : Option Bool) (hbusy : (coreP s k).accBusy = true) :
    accStart s k i op addr = modCoreP s k fun x => { x with accErr := true } := modCoreP_congr (if_pos hbusy)

theorem accDone_of_idle (hop : (coreP s k).accOp = none) : accDone s k = s := by rw [accDone, hop]

theorem accDone_of_save {lc : Option Nat} {passes : Nat} (hop : (coreP s k).accOp = some (i, false)) (hlc : logicalOf s k = lc)
    (hpasses : lc.elim 0 (fun c => passesDone s c i) = passes) :
    accDone s k = accEnds (accWrite s lc (coreP s k).accAddr.toNat (saveRecord i passes (regionOf s k i))) k lc i := by
  subst hpasses
  simp only [accDone, hop, hlc, Bool.false_eq_true, if_false]
  cases lc <;> rfl

theorem accDone_of_restore {b : List Byte} {g : AccRegion} (hop : (coreP s k).accOp = some (i, true))
    (hb : b = accRead s (logicalOf s k) (coreP s k).accAddr.toNat 1310784) (hg : restoreRecord b = some g) :
    accDone s k = accEnds (setRegion s k i g) k (logicalOf s k) i := by
  subst hb
  simp only [accDone, hop, if_true, hg]
  rfl

theorem accDone_of_bad_record {b : List Byte} (hop : (coreP s k).accOp = some (i, true))
    (hb : b = accRead s (logicalOf s k) (coreP s k).accAddr.toNat 1310784) (hbad : restoreRecord b = none) :
    accDone s k = accEnds (badSave (modCoreP s k (fun x => { x with accErr := true })) k b) k (logicalOf s k) i := by
  subst hb
  simp only [accDone, hop, if_true, hbad]
  rfl

end

/-! ### Reservations and pushes -/

section
variable {s : State} {c : Nat}

theorem ifServing_of_inService (hserves : inService s c = true) (t : State) : ifServing s c t = t := if_pos hserves

theorem ifServing_of_out (hout : inService s c = false) (t : State) : ifServing s c t = s :=
  if_neg (by rw [hout]; exact Bool.false_ne_true)

variable {a i : Nat}

theorem sqResv_of_closed (hmode : (stream s c i).mode = .out ∨ (stream s c i).mode = .fenced) : sqResv s c a i = (0, s) := if_pos hmode

section
variable (hout : (stream s c i).mode ≠ .out) (hfenced : (stream s c i).mode ≠ .fenced)
include hout hfenced

theorem sqResv_of_reserved (hresv : bitOf (awlOf (core s c) a).resv.toNat i = true) : sqResv s c a i = (1, s) :=
  (if_neg (not_or.mpr ⟨hout, hfenced⟩)).trans (if_pos hresv)

theorem sqResv_of_full (hresv : bitOf (awlOf (core s c) a).resv.toNat i = false) (hfull : queueRoom s c i = 0) : sqResv s c a i = (0, s) :=
  (if_neg (not_or.mpr ⟨hout, hfenced⟩)).trans ((if_neg (by rw [hresv]; exact Bool.false_ne_true)).trans (if_pos hfull))

theorem sqResv_of_room (hresv : bitOf (awlOf (core s c) a).resv.toNat i = false) (hroom : queueRoom s c i ≠ 0) :
    sqResv s c a i = (1, modAwl s c a (fun y => { y with resv := BitVec.ofNat 3 (setBit y.resv.toNat i true) })) :=
  (if_neg (not_or.mpr ⟨hout, hfenced⟩)).trans ((if_neg (by rw [hresv]; exact Bool.false_ne_true)).trans (if_neg hroom))

end

end

section
variable (s : State) (c : Fin 16) (a : Fin 4)

theorem exec_lastSqResv (i : Fin 3) :
    exec (.lastSqResv c a i) s = .next (ifServing s c.val (retAwl (sqResv s c.val a.val i.val).2 c.val a.val (sqResv s c.val a.val i.val).1)) :=
  rfl

theorem sqPush_of_reserved {i : Fin 3} (hresv : bitOf (awlOf (core s c.val) a.val).resv.toNat i.val = true) :
    sqPush s c a i.val = takePacket (modAwl s c.val a.val (fun y => { y with resv := BitVec.ofNat 3 (setBit y.resv.toNat i.val false) }))
      (.awl c a i) (tgets 0 256 (256 * i.val) (awlOf (core s c.val) a.val).windows) := by
  rw [sqPush, dif_pos i.isLt]
  exact if_neg (by rw [hresv]; decide)

theorem sqPush_of_unreserved {i : Fin 3} (hresv : bitOf (awlOf (core s c.val) a.val).resv.toNat i.val = false) :
    sqPush s c a i.val = modCore s c.val (fun k => { k with pushErr := true }) := by
  rw [sqPush, dif_pos i.isLt]
  exact if_pos (by rw [hresv]; rfl)

theorem sqPush_three : sqPush s c a 3 = regError s := dif_neg (by decide)

theorem exec_lastSqPush (i : Fin 3) : exec (.lastSqPush c a (BitVec.ofNat 2 i.val)) s = .next (ifServing s c.val (sqPush s c a i.val)) := by
  have hi : (BitVec.ofNat 2 i.val).toNat = i.val := by
    rw [BitVec.toNat_ofNat]
    omega
  rw [exec, execLastSqPush, hi]

theorem exec_lastSqPush_three : exec (.lastSqPush c a 3) s = .next (ifServing s c.val (sqPush s c a 3)) := rfl

end

/-- Settles O41: each register by whether its core is in service, and by the state of the command or the reservation. -/
theorem coreRegistersComplete : Obligations.CoreRegistersComplete := by
  have hout {s : State} {c : Nat} {t : State} (hout : inService s c = false) : (if inService s c then t else regError s) = regError s :=
    if_neg (by rw [hout]; exact Bool.false_ne_true)
  refine ⟨fun c i a s hin hidle => ⟨?save, ?restore, ?clear⟩, fun c i a s hin hbusy => ⟨?busySave, ?busyRestore, ?busyClear⟩,
    fun k s i c hop hlc => ?saved, fun k s i hop hlc => ?savedAlone, fun k s i b hop hb => ⟨fun g hg => ?restored, fun hbad => ?unrestored⟩,
    fun k s hop => ?none, fun c i v m s hin => ⟨?seed, ?reseed⟩, fun c i a v m s hno => ⟨?o1, ?o2, ?o3, ?o4, ?o5⟩,
    fun c a i s hin hopen hfence => ⟨fun hresv => ?resv, fun hresv => ⟨fun hfull => ?full, fun hroom => ?room⟩⟩,
    fun c a i s hin hmode => ?closed, fun c a i s hin => ⟨fun hresv => ?push, fun hresv => ?pushErr⟩,
    fun c a i j s => ⟨fun hno => ⟨?resvOut, ?pushOut⟩, fun hin => ?push3⟩⟩
  case save => exact congrArg _ ((if_pos hin).trans (accStart_of_idle false hidle))
  case restore => exact congrArg _ ((if_pos hin).trans (accStart_of_idle true hidle))
  case clear => exact congrArg _ ((if_pos hin).trans (accStart_clear_of_idle hidle))
  case busySave => exact congrArg _ ((if_pos hin).trans (accStart_of_busy _ hbusy))
  case busyRestore => exact congrArg _ ((if_pos hin).trans (accStart_of_busy _ hbusy))
  case busyClear => exact congrArg _ ((if_pos hin).trans (accStart_of_busy _ hbusy))
  case saved => exact congrArg _ (accDone_of_save hop hlc rfl)
  case savedAlone => exact congrArg _ (accDone_of_save hop hlc rfl)
  case restored => exact congrArg _ (accDone_of_restore hop hb hg)
  case unrestored => exact congrArg _ (accDone_of_bad_record hop hb hbad)
  case none => exact congrArg _ (accDone_of_idle hop)
  case seed => exact congrArg _ (if_pos hin)
  case reseed => exact congrArg _ (if_pos hin)
  case o1 => exact congrArg _ (hout hno)
  case o2 => exact congrArg _ (hout hno)
  case o3 => exact congrArg _ (hout hno)
  case o4 => exact congrArg _ (hout hno)
  case o5 => exact congrArg _ (hout hno)
  case resv => rw [exec_lastSqResv, sqResv_of_reserved hopen hfence hresv, ifServing_of_inService hin]
  case full => rw [exec_lastSqResv, sqResv_of_full hopen hfence hresv hfull, ifServing_of_inService hin]
  case room => rw [exec_lastSqResv, sqResv_of_room hopen hfence hresv hroom, ifServing_of_inService hin]
  case closed => rw [exec_lastSqResv, sqResv_of_closed hmode, ifServing_of_inService hin]
  case push => rw [exec_lastSqPush, sqPush_of_reserved s c a hresv, ifServing_of_inService hin]
  case pushErr => rw [exec_lastSqPush, sqPush_of_unreserved s c a hresv, ifServing_of_inService hin]
  case resvOut => rw [exec_lastSqResv, ifServing_of_out hno]
  case pushOut => exact congrArg _ (ifServing_of_out hno _)
  case push3 => rw [exec_lastSqPush_three, sqPush_three, ifServing_of_inService hin]

end Sys2Proof.Machine
end


section
/-! PROOFS. Stream switches, CORE_MIGRATE and WAIT_LIMIT (R16, R278 to R283). -/
namespace Sys2Proof.Machine

/-! ### What a partition reads -/

/-- Two states from which every partition reads the same memory. -/
structure SameMemory (s t : State) : Prop where
  parts : s.parts = t.parts
  mem : s.mem = t.mem
  used : s.used = t.used
  poison : s.poison = t.poison
  cxl : s.cxl = t.cxl

namespace SameMemory

variable {s t : State} (h : SameMemory s t)
include h

theorem part (p : Nat) : part s p = Machine.part t p := by rw [Machine.part, Machine.part, h.parts]

theorem bound (p : Nat) : bound s p = Machine.bound t p := by rw [Machine.bound, Machine.bound, h.part]

theorem bindRec (p : Nat) : bindRec s p = Machine.bindRec t p := by rw [Machine.bindRec, Machine.bindRec, h.part]

theorem holdsSlice (p d j : Nat) : holdsSlice s p d j = Machine.holdsSlice t p d j := by
  rw [Machine.holdsSlice, Machine.holdsSlice, h.bound, bMire, bMire, h.bindRec]

theorem ownScratch (p d : Nat) : ownScratch s p d = Machine.ownScratch t p d := by
  unfold Machine.ownScratch
  simp only [h.holdsSlice]

theorem poisoned (a : Nat) : poisoned s a = Machine.poisoned t a := by
  unfold Machine.poisoned farFails portDown
  rw [h.used, h.poison, h.cxl]

theorem scratchIn (j a : Nat) : scratchIn s j a = Machine.scratchIn t j a := by
  unfold Machine.scratchIn partOfSlice bScratch
  simp only [h.holdsSlice, h.bindRec]

theorem devByte (a : Nat) : devByte s a = Machine.devByte t a := by
  unfold Machine.devByte
  simp only [h.poisoned, h.scratchIn, h.mem]

theorem xlate (p a : Nat) : xlate s p a = Machine.xlate t p a := by
  unfold Machine.xlate sliceMap bHbm bFar Machine.holdsCore bCores
  simp only [h.bound, h.bindRec, h.part]

theorem devRead (a n : Nat) : devRead s a n = Machine.devRead t a n := List.map_congr_left fun _ _ => h.devByte _

theorem partReadGo (fuel p a n : Nat) : partReadGo fuel s p a n = Machine.partReadGo fuel t p a n := by
  induction fuel generalizing a n with
  | zero => rfl
  | succ fuel ih => simp only [Machine.partReadGo, h.xlate, h.ownScratch, h.devRead, ih]

theorem partRead (p a n : Nat) : partRead s p a n = Machine.partRead t p a n := h.partReadGo _ _ _ _

end SameMemory

theorem sameMemory_requestTest (s : State) (k : Nat) : SameMemory (requestTest s k) s := by
  rw [requestTest]
  split
  all_goals
    split
    · exact ⟨rfl, rfl, rfl, rfl, rfl⟩
    · constructor <;> simp

theorem sameMemory_countCrcTrigger (s : State) (k : Nat) : SameMemory (countCrcTrigger s k) s := by
  rw [countCrcTrigger]
  split
  · obtain ⟨hparts, hmem, hused, hpoison, hcxl⟩ := sameMemory_requestTest (modCoreP s k fun c => { c with crcWin := c.crcWin + 1 }) k
    exact ⟨hparts, hmem, hused, hpoison, hcxl⟩
  · exact ⟨rfl, rfl, rfl, rfl, rfl⟩

theorem sameMemory_badSave (s : State) (k : Nat) (b : List Byte) : SameMemory (badSave s k b) s := by
  rw [badSave]
  split
  · exact ⟨rfl, rfl, rfl, rfl, rfl⟩
  · obtain ⟨hparts, hmem, hused, hpoison, hcxl⟩ := sameMemory_countCrcTrigger (fireDie s (dieOfPhys k) 0x308) k
    constructor <;> simp [*]

/-! ### LAST_STREAM_CTL -/

theorem ctlTarget_eq (s : State) (c : Nat) (i : BitVec 2) :
    ctlTarget s c i.toNat = if i = 3 then (core s c).ctlStream.toNat else i.toNat := by
  have hi : 3 ≤ i.toNat ↔ i = 3 := by
    rw [← BitVec.toNat_inj]
    exact ⟨fun h => by have := i.isLt; simp; omega, fun h => h ▸ by decide⟩
  simp only [ctlTarget, hi]

section
variable {s u : State} {c i j addr : Nat}

theorem streamSwitchOutOp_of_busy (hbusy : (core s c).ctlBusy = true) :
    streamSwitchOutOp s c i addr = modCore s c (fun k => { k with ctlErr := true }) := if_pos hbusy

theorem streamSwitchInOp_of_busy (hbusy : (core s c).ctlBusy = true) :
    streamSwitchInOp s c i addr = modCore s c (fun k => { k with ctlErr := true }) := if_pos hbusy

theorem streamSwitchOutOp_of_free (hfree : (core s c).ctlBusy = false) (hj : j = ctlTarget s c i) (haddr : addr < 2 ^ 48)
    (hu : u = modCore s c (fun k => { k with
      ctlBusy := true, ctlStream := BitVec.ofNat 2 j, ctlAddr := BitVec.ofNat 48 (addr / 64 * 64), ctlRun := (j, addr / 64 * 64) })) :
    streamSwitchOutOp s c i addr =
      askBoundary (if (stream u c j).mode = .ready then modStream u c j (fun y => { y with mode := .stopping }) else u) c j := by
  subst hj hu
  have hmod : addr / 64 * 64 % 2 ^ 48 = addr / 64 * 64 := Nat.mod_eq_of_lt (by omega)
  simp only [streamSwitchOutOp, hfree, hmod, Bool.false_eq_true, if_false]

theorem badSave_of_restored {k : Nat} {b : List Byte} {g : AccRegion} (hg : restoreRecord b = some g) : badSave s k b = s := by
  refine if_pos (Decidable.byContradiction fun hcrc => ?_)
  rw [restoreRecord, if_pos (.inr (.inr hcrc))] at hg
  cases hg

section
variable {p : Nat} {b acc : List Byte} (hfree : (core s c).ctlBusy = false) (hj : j = ctlTarget s c i)
  (hu : u = modCore s c (fun k => { k with ctlStream := BitVec.ofNat 2 j, ctlAddr := BitVec.ofNat 48 (addr / 64 * 64) }))
include hfree hj hu

theorem streamSwitchInOp_of_not_out (hmode : (stream u c j).mode ≠ .out) :
    streamSwitchInOp s c i addr = modCore u c (fun k => { k with ctlErr := true }) := by
  subst hj hu
  exact (if_neg (by rw [hfree]; exact Bool.false_ne_true)).trans (if_pos hmode)

variable (hp : p = (partOfCore u c).getD 16) (hb : b = partRead u p (addr / 64 * 64) 24896) (hacc : acc = partRead u p (at_ b 24 8) 1310784)
  (hmode : (stream u c j).mode = .out)
include hp hb hacc hmode

theorem streamSwitchInOp_of_good_record {g : AccRegion} (hok : recordOk c j b = true)
    (hclean : partPoisoned u p (addr / 64 * 64) 24896 = false) (haccClean : partPoisoned u p (at_ b 24 8) 1310784 = false)
    (hg : restoreRecord acc = some g) :
    streamSwitchInOp s c i addr = switchInEnds (modStream u c j (fun y => restoredStream u c y b g)) c j := by
  have hcrc : crcHolds b = true := by
    simp only [recordOk, Bool.and_eq_true] at hok
    exact hok.2
  subst hj
  simp only [streamSwitchInOp, hfree, Bool.false_eq_true, if_false, ← hu, hmode, ne_eq, not_true_eq_false, ← hp, ← hb, ← hacc, hok, hclean,
    haccClean, Bool.not_false, Bool.and_self, if_true, hcrc, badSave_of_restored hg, hg]
  rfl

theorem streamSwitchInOp_of_bad_record (hcrc : crcHolds b = true)
    (hbad : recordOk c j b = false ∨ partPoisoned u p (addr / 64 * 64) 24896 = true ∨ partPoisoned u p (at_ b 24 8) 1310784 = true ∨
      restoreRecord acc = none) :
    streamSwitchInOp s c i addr = switchInEnds (modCore (badSave u (physOf u c) acc) c (fun k => { k with ctlErr := true })) c j := by
  have hnone : (if recordOk c j b && !partPoisoned u p (addr / 64 * 64) 24896 && !partPoisoned u p (at_ b 24 8) 1310784
      then restoreRecord acc else none) = none := by
    rcases hbad with hbad | hbad | hbad | hbad <;> simp [hbad]
  have hread : partRead (badSave u (physOf u c) acc) p (at_ b 24 8) 1310784 = acc :=
    ((sameMemory_badSave _ _ _).partRead _ _ _).trans hacc.symm
  subst hj
  simp only [streamSwitchInOp, hfree, Bool.false_eq_true, if_false, ← hu, hmode, ne_eq, not_true_eq_false, ← hp, ← hb, ← hacc, if_true, hcrc,
    hread, hnone]
  rfl

omit hacc in
theorem streamSwitchInOp_of_bad_crc (hcrc : crcHolds b = false) :
    streamSwitchInOp s c i addr = switchInEnds (modCore (countCrcTrigger (fireDie u (dieOfCore c) 0x308) (physOf u c)) c
      (fun k => { k with ctlErr := true })) c j := by
  have hok : recordOk c j b = false := by rw [recordOk, hcrc, Bool.and_false]
  subst hj
  simp only [streamSwitchInOp, hfree, Bool.false_eq_true, if_false, ← hu, hmode, ne_eq, not_true_eq_false, ← hp, ← hb, hok, hcrc,
    Bool.false_and]
  rfl

end

end

/-! ### Boundaries and migrations -/

section
variable {s t : State} {c i d : Nat}

theorem tryMove_of_no_migration (hnone : (die s d).migration = none) : tryMove s d = s := by rw [tryMove, hnone]

/-- What the boundary of stream `i` does. -/
def streamBoundary (s : State) (c i : Nat) : State :=
  if !atResume s c i then s
  else if switching s c i then switchOut s c i
  else if (stream s c i).mode = .stopping then migrationOut s c i else s

theorem switchOutOp_eq (s : State) (c : Nat) :
    switchOutOp s c = tryMove (streamBoundary (streamBoundary (streamBoundary s c 0) c 1) c 2) (dieOfCore c) := rfl

theorem streamBoundary_of_running (hrun : atResume s c i = false) : streamBoundary s c i = s := if_pos (by rw [hrun]; rfl)

theorem streamBoundary_of_boundary (hat : atResume s c i = true)
    (ht : switching s c i = true ∧ t = switchOut s c i ∨
      switching s c i = false ∧ (stream s c i).mode = .stopping ∧ t = migrationOut s c i) : streamBoundary s c i = t := by
  simp only [streamBoundary, hat, Bool.not_true, Bool.false_eq_true, if_false]
  rcases ht with ⟨hswitch, ht⟩ | ⟨hswitch, hmode, ht⟩
  · rw [if_pos hswitch, ht]
  · rw [if_neg (by rw [hswitch]; exact Bool.false_ne_true), if_pos hmode, ht]

theorem switchOutOp_of_one (hi : i < 3) (hbefore : ∀ j, j < 3 → j ≠ i → atResume s c j = false) (ht : streamBoundary s c i = t)
    (hafter : ∀ j, j < 3 → j ≠ i → atResume t c j = false) : switchOutOp s c = tryMove t (dieOfCore c) := by
  have hskip {j : Nat} (hj : j < 3) (hne : j ≠ i) : streamBoundary s c j = s := streamBoundary_of_running (hbefore j hj hne)
  have hskip' {j : Nat} (hj : j < 3) (hne : j ≠ i) : streamBoundary t c j = t := streamBoundary_of_running (hafter j hj hne)
  rw [switchOutOp_eq]
  match i, hi with
  | 0, _ => rw [ht, hskip' (by decide) (by decide), hskip' (by decide) (by decide)]
  | 1, _ => rw [hskip (by decide) (by decide), ht, hskip' (by decide) (by decide)]
  | 2, _ => rw [hskip (by decide) (by decide), hskip (by decide) (by decide), ht]

theorem switchOutOp_of_none (hrun : ∀ j, j < 3 → atResume s c j = false) (hnone : (die s (dieOfCore c)).migration = none) :
    switchOutOp s c = s := by
  rw [switchOutOp_eq, streamBoundary_of_running (hrun 0 (by decide)), streamBoundary_of_running (hrun 1 (by decide)),
    streamBoundary_of_running (hrun 2 (by decide)), tryMove_of_no_migration hnone]

section
variable {m : Migration} (hm : (die s d).migration = some m)
include hm

theorem waitLimitOp_of_waiting (hstopped : m.stopped = false) (hwait : m.waitStage = true) (hlimit : m.limit ≠ 0) :
    waitLimitOp s d = stopStreams s d m := by simp [waitLimitOp, hm, hstopped, hwait, hlimit]

theorem waitLimitOp_of_settled (hno : m.stopped = true ∨ m.waitStage = false ∨ m.limit = 0) : waitLimitOp s d = s := by
  rcases hno with hno | hno | hno <;> simp [waitLimitOp, hm, hno]

end

theorem waitLimitOp_of_no_migration (hnone : (die s d).migration = none) : waitLimitOp s d = s := by rw [waitLimitOp, hnone]

theorem exec_waitLimitExpiry (e : Fin 2) (s : State) : exec (.waitLimitExpiry e) s = .next (waitLimitOp s e.val) := rfl

theorem bodyCoreMigrate_of_pass {p : CoreMigrateP} {cmd : Cmd} {k : Nat} (hc : p.logical.toNat < 16) (hctl : p.ctl.toNat ≤ 7)
    (hafter : p.ctl.toNat % 4 ≤ 1) (ha : p.rsvdA = 0) (hb : p.rsvdB = 0) (hin : inService s p.logical.toNat = true)
    (hpart : coreRebinding s p.logical.toNat = false) (hfree : (die s (dieOfCore p.logical.toNat)).migration = none)
    (hspare : freeSpare s (dieOfCore p.logical.toNat) = some k) :
    bodyCoreMigrate p s cmd = {
      s := owe (startMigration s p.logical.toNat k (p.ctl.toNat % 4) (bitOf p.ctl.toNat 2) p.waitLimit.toNat) (.boundary p.logical.toNat)
      wait := some (.migrate (dieOfCore p.logical.toNat)) } := by
  have hc' : ¬ 15 < p.logical.toNat := by omega
  simp only [bodyCoreMigrate, hc', Nat.not_lt.mpr hctl, Nat.not_lt.mpr hafter, ha, hb, hin, hpart, hfree, hspare]
  exact checked_pass rfl

end

/-- Settles O42: each register by BUSY and its stream, each event by the stream or the migration that it finds. -/
theorem streamSwitchesAndMigrationsComplete : Obligations.StreamSwitchesAndMigrationsComplete := by
  have hout {s : State} {c : Nat} {t : State} (hout : inService s c = false) : (if inService s c then t else regError s) = regError s :=
    if_neg (by rw [hout]; exact Bool.false_ne_true)
  refine ⟨fun c i a s hin hbusy => ⟨congrArg _ ((if_pos hin).trans (streamSwitchOutOp_of_busy hbusy)),
      congrArg _ ((if_pos hin).trans (streamSwitchInOp_of_busy hbusy))⟩,
    fun c i a s u j hin hfree hj hu => ?out,
    fun c i a s u j p b acc hin hfree hj hu hp hb hacc => ?in_,
    fun c i a s hno => ⟨congrArg _ (hout hno), congrArg _ (hout hno)⟩,
    fun c i s t hi hbefore hat ht hafter => congrArg _ (switchOutOp_of_one hi hbefore (streamBoundary_of_boundary hat ht) hafter),
    fun c s hrun hnone => congrArg _ (switchOutOp_of_none hrun hnone),
    fun s q h p c k hq hc hlt hctl hafter ha hb hin hpart hfree hspare => ?migrate,
    fun d s m hm => ⟨fun hstopped hwait hlimit => by rw [exec_waitLimitExpiry, waitLimitOp_of_waiting hm hstopped hwait hlimit],
      fun hno => by rw [exec_waitLimitExpiry, waitLimitOp_of_settled hm hno]⟩,
    fun d s hnone => by rw [exec_waitLimitExpiry, waitLimitOp_of_no_migration hnone]⟩
  case out =>
    rw [← ctlTarget_eq] at hj
    have hop := streamSwitchOutOp_of_free hfree hj a.isLt hu
    exact ⟨fun hmode => congrArg _ ((if_pos hin).trans (hop.trans (by rw [if_pos hmode]))),
      fun hmode => congrArg _ ((if_pos hin).trans (hop.trans (by rw [if_neg hmode])))⟩
  case in_ =>
    rw [← ctlTarget_eq] at hj
    exact ⟨fun hmode => congrArg _ ((if_pos hin).trans (streamSwitchInOp_of_not_out hfree hj hu hmode)),
      fun g hmode hok hclean haccClean hg => congrArg _
        ((if_pos hin).trans (streamSwitchInOp_of_good_record hfree hj hu hp hb hacc hmode hok hclean haccClean hg)),
      fun hmode hcrc hbad => congrArg _ ((if_pos hin).trans (streamSwitchInOp_of_bad_record hfree hj hu hp hb hacc hmode hcrc hbad)),
      fun hmode hcrc => congrArg _ ((if_pos hin).trans (streamSwitchInOp_of_bad_crc hfree hj hu hp hb hmode hcrc))⟩
  case migrate =>
    subst hc
    exact hq.completes (fun _ => rfl) fun _ => bodyCoreMigrate_of_pass hlt hctl hafter ha hb hin hpart hfree hspare

end Sys2Proof.Machine
end


section
/-! PROOFS. The partition commands, the reading window and the counter latch (R514 to R526, R546, R547). -/
namespace Sys2Proof.Machine

/-! ### Binding, unbinding and rebinding -/

section
variable {s : State} {c : Cmd} {p : PartBindP} {list : List Byte} {far : List FarEntry}
  (hlist : list = mgmtRead s c p.farList.toNat (16 * min 32 p.farCount.toNat)) (hfar : far = farEntries (min 32 p.farCount.toNat) list)
  (hlead : leadOk s = true) (hstays : s.fab.departing = false) (hfields : bindFieldsOk s p far list = true)
  (hnew : bound s p.part.toNat = false) (hstate : (part s p.part.toNat).pstate = .unbound)
  (hfree : ∀ k, k < 16 → claims s p far k = false)
include hlist hfar hlead hstays hfields hnew hstate hfree

theorem bodyPartBind_of_still (hstill : movingDie s p.cores.toNat = none) : bodyPartBind p s c = { s := bindPart s p far } := by
  have hunclaimed : (List.range 16).any (claims s p far) = false :=
    List.any_eq_false.mpr fun k hk => by rw [hfree k (List.mem_range.mp hk)]; exact Bool.false_ne_true
  subst hfar hlist
  simp only [bodyPartBind, hstays, Bool.false_eq_true, if_false, hlead, hfields, hnew, hstate, hunclaimed]
  rw [checked_pass rfl, hstill]

theorem bodyPartBind_of_moving {d : Nat} (hmoving : movingDie s p.cores.toNat = some d) :
    bodyPartBind p s c = { s := s, wait := some (.bindAfter d) } := by
  have hunclaimed : (List.range 16).any (claims s p far) = false :=
    List.any_eq_false.mpr fun k hk => by rw [hfree k (List.mem_range.mp hk)]; exact Bool.false_ne_true
  subst hfar hlist
  simp only [bodyPartBind, hstays, Bool.false_eq_true, if_false, hlead, hfields, hnew, hstate, hunclaimed]
  rw [checked_pass rfl, hmoving]

end

theorem scrubBody_of_still {s : State} {p : Nat} {rename : State → State} (hlead : leadOk s = true)
    (hstate : (part s p).pstate ≠ .scrubbing) (hwaits : bindWaits s p = false) (hbound : bound s p = true)
    (hstill : movingDie s (bCores s p) = none) :
    scrubBody p true rename s = { s := owe (startScrub (rename s) p) (.scrub p), wait := some (.scrub p) } := by
  simp only [scrubBody, hlead, hstate, hwaits, hbound]
  rw [checked_pass rfl, hstill]

/-! ### Queries and reading windows -/

theorem bodyPartQuery_of_tenant {s : State} {c : Cmd} {p : PartQueryP} {pt : Nat} (hpart : c.part = some pt) (hlt : pt < 16)
    (ha : p.rsvdA = 0) (hown : p.part.toNat = 0xFF ∨ p.part.toNat = pt) :
    bodyPartQuery p s c = { s := s, record := queryRecord s pt (part s pt).readTemp (part s pt).readWatts } := by
  have hnamed : (if p.part.toNat = 0xFF then pt else p.part.toNat) = pt := by
    rcases hown with hown | hown
    · rw [if_pos hown]
    · rw [hown, ite_self]
  have hmine : (decide (p.part.toNat ≠ 0xFF) && decide (p.part.toNat < 16) && decide (p.part.toNat ≠ pt)) = false := by
    rcases hown with hown | hown <;> simp [hown]
  simp only [bodyPartQuery, hpart, Option.getD_some, hnamed, hmine, ha, Nat.not_le.mpr hlt]
  exact checked_pass rfl

theorem bodyPartQuery_of_mgmt {s : State} {c : Cmd} {p : PartQueryP} (hpart : c.part = none) (ha : p.rsvdA = 0) (hlt : p.part.toNat < 16) :
    bodyPartQuery p s c = { s := (freeNat s).2, record := queryRecord (freeNat s).2 p.part.toNat ((freeNat s).1 % 256) ((freeNat s).1 / 256) } := by
  have hnamed : ¬ p.part.toNat = 0xFF := by omega
  simp only [bodyPartQuery, hpart, hnamed, if_false, ha, Nat.not_le.mpr hlt]
  exact checked_pass rfl

/-! ### The counter latch -/

/-- A fold of steps of which each acts on its own key acts once on every key of its list. -/
theorem read_foldl_of_own_keys {σ β : Type} {read : Nat → σ → β} {step : σ → Nat → σ} {act : Nat → β → β}
    (hstep : ∀ t k j, read j (step t k) = if j = k then act k (read k t) else read j t) {l : List Nat} (hl : l.Nodup) (t : σ) (j : Nat) :
    read j (l.foldl step t) = if j ∈ l then act j (read j t) else read j t := by
  induction l generalizing t with
  | nil => rfl
  | cons k l ih =>
    obtain ⟨hk, hl⟩ := List.nodup_cons.mp hl
    rw [List.foldl_cons, ih hl, hstep]
    by_cases hj : j = k
    · subst hj
      simp [hk]
    · simp [hj]

/-- A core of die `d` with its counters as tenants see them from now on; any other core is as it was. -/
def latchedCore (d k : Nat) (x : Core) : Core :=
  if dieOfPhys k = d ∧ x.power ≠ .off then { x with latched := tputs {} 0 ((coreCounters x).map tenantCount) [] } else x

/-- The latch of one physical core. -/
def latchCore (d : Nat) (s : State) (k : Nat) : State :=
  if dieOfPhys k = d ∧ (coreP s k).power ≠ .off then
    modCoreP s k (fun c => { c with latched := tputs {} 0 ((coreCounters c).map tenantCount) [] })
  else s

theorem latchCounters_eq (s : State) (d : Nat) : latchCounters s d = (List.range 18).foldl (latchCore d) s := rfl

section
variable {d k : Nat}

/-- A core with power is not the core of an unlisted entry, so its table need not be in canonical form. -/
theorem coreP_modCoreP_of_power {s : State} {f : Core → Core} (hpower : (f (coreP s k)).power ≠ .off) (j : Nat) :
    coreP (modCoreP s k f) j = if j = k then f (coreP s k) else coreP s j := by
  have hvisible : f (coreP s k) ≠ {} := fun h => hpower (congrArg Core.power h)
  rw [coreP, modCoreP, setCoreP, tput, if_neg hvisible]
  split
  · subst_vars
    exact tget_tins _ _ _ _
  · exact tget_tins_ne _ ‹_› _ _

theorem coreP_latchCore (s : State) (j : Nat) : coreP (latchCore d s k) j = if j = k then latchedCore d k (coreP s k) else coreP s j := by
  rw [latchCore, latchedCore]
  split
  case isTrue h => rw [coreP_modCoreP_of_power h.2]
  case isFalse h =>
    split
    · subst_vars; rfl
    · rfl

theorem coreP_latchCounters {s : State} {j : Nat} (hj : j < 18) : coreP (latchCounters s d) j = latchedCore d j (coreP s j) := by
  rw [latchCounters_eq]
  exact (read_foldl_of_own_keys (read := fun j s => coreP s j) (fun s k j => coreP_latchCore s j) List.nodup_range s j).trans
    (if_pos (List.mem_range.mpr hj))

theorem latchCounters_mem (s : State) : (latchCounters s d).mem = s.mem := by
  rw [latchCounters_eq]
  refine foldl_leaves (g := State.mem) (fun t k => ?_) _ _
  rw [latchCore]
  split <;> rfl

end

/-- Settles O43, by the check lists; the latch by one core at a time. -/
theorem partitionCommandsComplete : Obligations.PartitionCommandsComplete := by
  refine ⟨fun s q h p list far hq hlist hfar hlead hstays hfields hnew hstate hfree =>
      ⟨fun hstill => hq.completes (fun _ => rfl) fun _ => bodyPartBind_of_still hlist hfar hlead hstays hfields hnew hstate hfree hstill,
        fun d hmoving => hq.completes (fun _ => rfl) fun _ => bodyPartBind_of_moving hlist hfar hlead hstays hfields hnew hstate hfree hmoving⟩,
    fun s q h p n hq hn hlt ha hlead hstate hwaits hbound hstill => hq.completes (fun _ => rfl) fun _ => ?unbind,
    fun s q h p n hq hn hlt ha hlead hstate hwaits hbound hstill => hq.completes (fun _ => rfl) fun _ => ?rebind,
    fun s q h p pt hq hlt ha hown => hq.completes (fun _ => rfl) fun hp => bodyPartQuery_of_tenant hp hlt ha hown,
    fun s q h p hq ha hlt => ⟨_, _, hq.completes (fun _ => rfl) fun hp => bodyPartQuery_of_mgmt hp ha hlt⟩,
    fun p w c s => ⟨fun hactive => congrArg _ (if_pos hactive), fun hactive => congrArg _ (if_neg hactive)⟩,
    fun d s => ⟨_, rfl, latchCounters_mem s, fun k hk => coreP_latchCounters hk⟩⟩
  all_goals subst hn
  case unbind =>
    rw [bodyPartUnbind, decide_eq_true hlt, decide_eq_true ha]
    exact scrubBody_of_still hlead hstate hwaits hbound hstill
  case rebind =>
    rw [bodyPartRebind, decide_eq_true hlt, decide_eq_true ha]
    exact scrubBody_of_still hlead hstate hwaits hbound hstill

end Sys2Proof.Machine
end


section
/-! PROOFS. The security commands (R531 to R545). -/
namespace Sys2Proof.Machine

/-! ### ATTEST -/

section
variable {s : State} {c : Cmd} {p : AttestP} (ha : p.rsvdA = 0) (hrange : p.part.toNat < 16 ∨ p.part.toNat = 0xFF)
  (hown : ∀ k, c.part = some k → p.part.toNat = k)
include ha hrange hown

/-- The checks of ATTEST that name its operation, its subject and its issuer pass. -/
theorem bodyAttest_eq (hop : p.op.toNat ≤ 1) :
    bodyAttest p s c = if p.op = 1 then { s := s, record := identityRecord }
      else if p.part.toNat < 16 ∧ ((part s p.part.toNat).busy ∨ bindWaits s p.part.toNat) then { s := s, st := .partitionResetting }
      else if measChanging s then { s := (freeNat s).2, st := .attestDeferred, detail := 1 + (freeNat s).1 % (2 ^ 32 - 1) }
      else { s := s, record := report s p.part.toNat (leBytes 32 p.nonce.toNat) } := by
  have hsubject : (decide (16 ≤ p.part.toNat) && decide (p.part.toNat ≠ 0xFF)) = false := by
    rcases hrange with hrange | hrange
    · rw [decide_eq_false (Nat.not_le.mpr hrange)]
      rfl
    · rw [hrange]
      rfl
  rcases hpart : c.part with _ | k
  · simp only [bodyAttest, hpart, Nat.not_lt.mpr hop, ha, hsubject]
    exact checked_pass rfl
  · have hmine : decide (p.part.toNat ≠ k) = false := by simp [hown k hpart]
    simp only [bodyAttest, hpart, Nat.not_lt.mpr hop, ha, hsubject, hmine]
    exact checked_pass rfl

theorem bodyAttest_of_identity (hop : p.op.toNat = 1) : bodyAttest p s c = { s := s, record := identityRecord } :=
  (bodyAttest_eq ha hrange hown (by omega)).trans (if_pos (BitVec.eq_of_toNat_eq hop))

theorem bodyAttest_of_report (hop : p.op.toNat = 0)
    (hidle : p.part.toNat < 16 → (part s p.part.toNat).busy = false ∧ bindWaits s p.part.toNat = false) (hstill : measChanging s = false) :
    bodyAttest p s c = { s := s, record := report s p.part.toNat (leBytes 32 p.nonce.toNat) } := by
  have hop0 : p.op ≠ 1 := fun h => by rw [h] at hop; exact absurd hop (by decide)
  have hresetting : ¬ (p.part.toNat < 16 ∧ ((part s p.part.toNat).busy ∨ bindWaits s p.part.toNat)) := fun ⟨hlt, hbusy⟩ => by
    obtain ⟨hfree, hbind⟩ := hidle hlt
    simp [hfree, hbind] at hbusy
  rw [bodyAttest_eq ha hrange hown (by omega), if_neg hop0, if_neg hresetting, hstill, if_neg Bool.false_ne_true]

end

/-! ### SESSION_AGREE -/

theorem agreePart_of_pass {s t : State} {p : SessionAgreeP} {pt : Nat} {ek r : List Byte} {g : Agreement}
    (hek : ek = partRead s pt p.ekAddr.toNat 1184) (hregion : regionOk s pt p.ekAddr.toNat 1184 1 false = true)
    (hnone : (part s pt).agreement = none) (hclean : partPoisoned s pt p.ekAddr.toNat 1184 = false) (hcheck : Config.mlkemCheck ek = true)
    (hagree : agree s pt (part s pt).session (leBytes 32 p.nonce.toNat) ek = (g, r, t)) :
    agreePart p s pt = { s := modPart t pt (fun x => { x with agreement := some g, protected_ := true }), record := r } := by
  subst hek
  simp only [agreePart, hregion, hnone, hclean, hcheck, hagree]
  exact checked_pass rfl

theorem bodySessionAgree_of_page {s : State} {c : Cmd} {p : SessionAgreeP} {pt : Nat} (hpart : c.part = some pt)
    (hvia : ∃ x y l, c.h.via = .ring x y l ∨ c.h.via = .slot x y l) (hctx : hdrCtx c.h = 0x10001) :
    bodySessionAgree p s c = agreePart p s pt := by
  obtain ⟨x, y, l, hvia | hvia⟩ := hvia <;> simp only [bodySessionAgree, hvia, hpart, hctx, if_true]

theorem agreeMgmt_of_pass {s t : State} {c : Cmd} {p : SessionAgreeP} {k n : Nat} {ek r : List Byte} {g : Agreement}
    (hek : ek = mgmtRead s c p.ekAddr.toNat 1184) (hsigned : operatorSigned s c.h ek (leBytes 32 p.nonce.toNat) = true)
    (hcheck : Config.mlkemCheck ek = true) (hn : n = tget 0 k s.mgmtCount + 1)
    (hagree : agree s 0xFF n (leBytes 32 p.nonce.toNat) ek = (g, r, t)) :
    agreeMgmt p s c k = {
      s := { t with mgmtSess := tput none k (some g) t.mgmtSess, mgmtCount := tput 0 k n t.mgmtCount }
      record := r } := by
  subst hek hn
  simp only [agreeMgmt, hsigned, hcheck, hagree, Bool.not_true, Bool.false_eq_true, if_false]

theorem bodySessionAgree_of_mgmt {s : State} {c : Cmd} {p : SessionAgreeP} {m : MgmtIface} (hpart : c.part = none) (hvia : c.h.via = .mgmt m) :
    bodySessionAgree p s c = agreeMgmt p s c (if m = .i3c then 0 else 1) := by
  simp only [bodySessionAgree, hvia, hpart]

/-! ### Firmware images -/

theorem bodyFwStage_of_verified {s : State} {c : Cmd} {p : FwStageP} {i n : Nat} {hd sig body : List Byte} (hi : i = p.image.toNat)
    (hn : n = p.bytes.toNat) (hlo : 1 ≤ i) (hhi : i ≤ 3) (ha : p.rsvdA = 0) (hhd : hd = mgmtRead s c p.src.toNat 64)
    (hsig : sig = mgmtRead s c (p.src.toNat + n - 2420) 2420) (hbody : body = mgmtRead s c (p.src.toNat + 64) (n - 2484))
    (hheader : imageHeaderOk hd i n = true) (hslot : slotRuns s i = false)
    (hverify : Config.mldsaVerify (if i = 3 then Config.miKey else Config.vendorKey) (sha hd) sig = true) (hsvn : floorOf s i ≤ hdrSvn hd)
    (hsize : n ≤ slotSize i) (hsha : sha body = slice hd 24 32) :
    bodyFwStage p s c = staged (putSlot s i { valid := true, header := some hd, meas := some (sha (hd ++ body)) }) i (hdrVersion hd) .ok := by
  have hne : ¬ i = 0 := by omega
  rw [bodyFwStage]
  simp only [← hi, ← hn, ← hhd, hne, Nat.not_lt.mpr hhi, ha]
  rw [checked_pass rfl]
  simp only [hheader, hslot, ← hsig, hverify, Nat.not_lt.mpr hsvn, Nat.not_lt.mpr hsize, ← hbody, hsha, Bool.not_true, decide_false, Bool.or_false,
    Bool.false_eq_true, ne_eq, not_true_eq_false, if_false]

section
variable {s : State} {c : Cmd} {p : FwActivateP} (himages : p.images.toNat ≤ 3) (ha : p.rsvdA = 0)
  (hsup : bitOf p.images.toNat 0 = true → s.sec.supStaged = true) (hctl : bitOf p.images.toNat 1 = true → s.sec.ctlStaged = true)
include himages ha hsup hctl

/-- The checks of FW_ACTIVATE pass. -/
theorem bodyFwActivate_eq (hwhen : p.when.toNat ≤ 1) :
    bodyFwActivate p s c = if p.when = 1
      then { s := owe { fireHub (selectStaged s p.images.toNat) 0x143 with
        sec := { (fireHub (selectStaged s p.images.toNat) 0x143).sec with changing := true } } .restart }
      else { s := fireHub (selectStaged s p.images.toNat) 0x143 } := by
  have hsup' : (bitOf p.images.toNat 0 && !s.sec.supStaged) = false := by simpa using hsup
  have hctl' : (bitOf p.images.toNat 1 && !s.sec.ctlStaged) = false := by simpa using hctl
  simp only [bodyFwActivate, Nat.not_lt.mpr himages, Nat.not_lt.mpr hwhen, ha, hsup', hctl']
  exact checked_pass rfl

theorem bodyFwActivate_of_later (hwhen : p.when.toNat = 0) : bodyFwActivate p s c = { s := fireHub (selectStaged s p.images.toNat) 0x143 } :=
  (bodyFwActivate_eq himages ha hsup hctl (by omega)).trans (if_neg fun h => by rw [h] at hwhen; exact absurd hwhen (by decide))

theorem bodyFwActivate_of_now {t : State} (hwhen : p.when.toNat = 1) (ht : t = fireHub (selectStaged s p.images.toNat) 0x143) :
    bodyFwActivate p s c = { s := owe { t with sec := { t.sec with changing := true } } .restart } := by
  rw [bodyFwActivate_eq himages ha hsup hctl (by omega), if_pos (BitVec.eq_of_toNat_eq hwhen), ht]

end

/-! ### CONFIG_WRITE -/

section
variable {s : State} {c : Cmd} {p : ConfigWriteP} {l : List (Nat × List Byte)} (ha : p.rsvdA = 0)
include ha

theorem bodyConfigWrite_of_items (hop : p.op.toNat = 0) (hsize : p.bytes.toNat ≤ 2 ^ 18)
    (hitems : parseItems p.bytes.toNat (mgmtRead s c p.src.toNat p.bytes.toNat) = some l) (hids : ∀ e ∈ l, 0x0200 ≤ e.1 ∧ e.1 ≤ 0x02FF) :
    bodyConfigWrite p s c =
      configWritten (cfgWrite s (fun k => { k with items := l.foldl (fun t e => tput none e.1 (some e.2) t) k.items })) := by
  have hop0 : p.op = 0 := BitVec.eq_of_toNat_eq hop
  have hids' : l.any (fun e => decide (e.1 < 0x0200) || decide (0x02FF < e.1)) = false := by simpa using hids
  have hop1 : ¬ 1 < p.op.toNat := by omega
  simp only [bodyConfigWrite, hop1, ha, Nat.not_lt.mpr hsize]
  rw [checked_pass rfl, if_pos hop0, hitems]
  exact if_neg (by rw [hids']; exact Bool.false_ne_true)

theorem bodyConfigWrite_of_vendor {n : Nat} {b : List Byte} (hop : p.op.toNat = 1) (hn : n = p.bytes.toNat) (hlo : 2420 ≤ n)
    (hhi : n ≤ 2 ^ 18) (hb : b = mgmtRead s c p.src.toNat n) (hitems : parseItems n (b.take (n - 2420)) = some l)
    (hids : ∀ e ∈ l, 0 < e.1 ∧ e.1 ≤ 0x00FF)
    (hverify : Config.mldsaVerify Config.vendorKey (sha (deviceId ++ b.take (n - 2420))) (b.drop (n - 2420)) = true) :
    bodyConfigWrite p s c =
      configWritten (cfgWrite s (fun k => { k with vendor := some (b.take (n - 2420), b.drop (n - 2420)) })) := by
  have hop0 : p.op ≠ 0 := fun h => by rw [h] at hop; exact absurd hop (by decide)
  have hids' : l.any (fun e => decide (e.1 = 0) || decide (0x00FF < e.1)) = false := by
    simpa [Nat.pos_iff_ne_zero] using hids
  have hop1 : ¬ 1 < p.op.toNat := by omega
  rw [bodyConfigWrite]
  simp only [hop1, ha, ← hn, Nat.not_lt.mpr hhi, ← hb]
  rw [checked_pass rfl, if_neg hop0, hitems]
  refine if_neg ?_
  rw [hids', hverify, decide_eq_false (Nat.not_lt.mpr hlo)]
  exact Bool.false_ne_true

end

/-- Settles O45, by the check lists and the verifications. -/
theorem securityCommandsComplete : Obligations.SecurityCommandsComplete := by
  refine ⟨fun s q h p n hs hsig hn ha hrange hown => ?attest,
    fun s q h p pt ek g r t hq hvia hctx hek hregion hnone hclean hcheck hagree => hq.completes (fun _ => rfl) fun hp =>
      (bodySessionAgree_of_page hp hvia hctx).trans (agreePart_of_pass hek hregion hnone hclean hcheck hagree),
    fun s q h p m k n ek g r t hq hvia hk hek hsigned hcheck hn hagree => hq.completes (fun _ => rfl) fun hp =>
      (bodySessionAgree_of_mgmt hp hvia).trans (hk ▸ agreeMgmt_of_pass hek hsigned hcheck hn hagree),
    fun s q h p i n hd sig body hq hi hn hlo hhi ha hhd hsig hbody hheader hslot hverify hsvn hsize hsha => hq.completes (fun _ => rfl) fun _ =>
      bodyFwStage_of_verified hi hn hlo hhi ha hhd hsig hbody hheader hslot hverify hsvn hsize hsha,
    fun s q h p hq himages ha hsup hctl =>
      ⟨fun hwhen => hq.completes (fun _ => rfl) fun _ => bodyFwActivate_of_later himages ha hsup hctl hwhen,
        fun hwhen t ht => hq.completes (fun _ => rfl) fun _ => bodyFwActivate_of_now himages ha hsup hctl hwhen ht⟩,
    fun s q h p l hq hop ha hsize hitems hids => hq.completes (fun _ => rfl) fun _ => bodyConfigWrite_of_items ha hop hsize hitems hids,
    fun s q h p n b l hq hop ha hn hlo hhi hb hitems hids hverify => hq.completes (fun _ => rfl) fun _ =>
      bodyConfigWrite_of_vendor ha hop hn hlo hhi hb hitems hids hverify⟩
  case attest =>
    subst hn
    exact ⟨fun hop => command_completes hs hsig (fun _ => rfl) (bodyAttest_of_identity ha hrange hown hop),
      fun hop hidle hstill => command_completes hs hsig (fun _ => rfl) (bodyAttest_of_report ha hrange hown hop hidle hstill)⟩

end Sys2Proof.Machine
end


section
/-! PROOFS. The reliability commands and events (R404, R408, R619 to R635). -/
namespace Sys2Proof.Machine

/-! ### TEST_RUN -/

/-- The request that a TEST_RUN puts on the list for physical core `k`. -/
def testRequest (p : TestRunP) (k : Nat) : TestReq :=
  { core := k, packId := p.packId.toNat, mask := p.testMask.toNat, defer := p.defer.toNat, keep := bitOf p.ctl.toNat 2,
    stop := bitOf p.ctl.toNat 1 }

theorem bodyTestRun_of_pass {s : State} {c : Cmd} {p : TestRunP} {k n : Nat} {x : Pack} (hpart : c.part = none) (hn : n = p.core.toNat)
    (hk : k = if bitOf p.ctl.toNat 0 then n else physOf s n) (hctl : p.ctl.toNat ≤ 7) (ha : p.rsvdA = 0) (hb : p.rsvdB = 0)
    (hrange : n ≤ if bitOf p.ctl.toNat 0 then 17 else 15) (hpack : packOf s p.packId.toNat = some x)
    (hmask : p.testMask.toNat / 2 ^ packTests x = 0) (hin : bitOf p.ctl.toNat 0 = true ∨ inService s n = true)
    (hrebind : ∀ l, logicalOf s k = some l → coreRebinding s l = false) (hidle : testBusy s k = false)
    (hspare : (logicalOf s k).isSome = true → (freeSpare s (dieOfPhys k)).isSome = true) :
    bodyTestRun p s c = {
      s := modDie s (dieOfPhys k) (fun d => { d with requests := d.requests ++ [testRequest p k] })
      wait := some (.test k) } := by
  have hserves : (!bitOf p.ctl.toNat 0 && !inService s n) = false := by
    rcases hin with hin | hin <;> simp [hin]
  have hroom : ((logicalOf s k).isSome && (freeSpare s (dieOfPhys k)).isNone) = false := by simpa using hspare
  rw [bodyTestRun]
  simp only [hpart, ← hn, ← hk, hpack, hmask, ha, hb, Nat.not_lt.mpr hctl, Nat.not_lt.mpr hrange, hserves, hidle, hroom]
  rcases hlogical : logicalOf s k with _ | l
  · exact checked_pass rfl
  · simp only [hrebind l hlogical]
    exact checked_pass rfl

/-! ### TEST_PACK_LOAD -/

section
variable {s : State} {c : Cmd} {p : TestPackLoadP} (ha : p.rsvdA = 0)
include ha

theorem bodyTestPackLoad_of_verified {id n : Nat} {hd body sig meas : List Byte} (hop : p.op = 0) (hid : id = p.packId.toNat)
    (hn : n = p.bytes.toNat) (hhd : hd = mgmtRead s c p.src.toNat 64) (hbody : body = mgmtRead s c (p.src.toNat + 64) (n - 2484))
    (hsig : sig = mgmtRead s c (p.src.toNat + (n - 2420)) 2420) (hmeas : meas = runMeas s 2) (hheader : packHeaderOk hd id n = true)
    (hverify : Config.mldsaVerify (Config.testKey meas) (sha hd) sig = true) (hsha : sha body = slice hd 32 32)
    (hfloor : Config.packFloor meas ≤ at_ hd 12 4) (hnewer : ∀ x, packOf s id = some x → at_ x.header 8 4 < at_ hd 8 4)
    (hcount : (storeUse s id).2 < 8) (hroom : (storeUse s id).1 + n ≤ 2 ^ 23) :
    bodyTestPackLoad p s c = {
      s := { s with relia := { s.relia with packs := tput none id (some { header := hd, body := body }) s.relia.packs } } } := by
  rw [bodyTestPackLoad]
  simp only [← hid, ← hn, ← hhd, ← hbody, ← hsig, ← hmeas, hop, ha, hheader, hverify, hsha, hfloor, Nat.not_le.mpr hcount, Nat.not_lt.mpr hroom]
  rcases hpack : packOf s id with _ | x
  · exact checked_pass rfl
  · simp only [hnewer x hpack]
    exact checked_pass rfl

theorem bodyTestPackLoad_of_unload (hop : p.op.toNat = 1) (hid : p.packId.toNat ≠ 0) (hidle : packUsed s p.packId.toNat = false) :
    bodyTestPackLoad p s c = {
      s := { s with relia := { s.relia with packs := tput none p.packId.toNat none s.relia.packs } } } := by
  have hop1 : p.op = 1 := BitVec.eq_of_toNat_eq hop
  rw [bodyTestPackLoad]
  simp only [hop1, ha, hid, hidle]
  exact checked_pass rfl

end

theorem packOf_put (s : State) (id : Nat) (x : Pack) :
    packOf { s with relia := { s.relia with packs := tput none id (some x) s.relia.packs } } id = some x :=
  tget_tput_ne_default (Option.some_ne_none x) id _

/-! ### FAULT_READ -/

section
variable {s : State} {c : Cmd} {p : FaultReadP} {f : FaultFrame} (ha : p.rsvdA = 0)
include ha

theorem bodyFaultRead_of_oldest (hop : p.op.toNat = 0) (hf : s.relia.log.find? (fun f => !f.acked) = some f) :
    bodyFaultRead p s c = { s := s, record := f.bytes } := by
  have hop0 : p.op = 0 := BitVec.eq_of_toNat_eq hop
  simp only [bodyFaultRead, hop0, if_true, hf, ha]
  exact checked_pass rfl

theorem bodyFaultRead_of_seq (hop : p.op.toNat = 1) (hf : s.relia.log.find? (fun f => decide (f.seq = p.seq.toNat)) = some f) :
    bodyFaultRead p s c = { s := s, record := f.bytes } := by
  have hop1 : p.op = 1 := BitVec.eq_of_toNat_eq hop
  rw [bodyFaultRead]
  simp only [hop1]
  rw [if_neg (by decide), hf, ha]
  exact checked_pass rfl

/-- The fault log with the frames up to a SEQ acknowledged. -/
def ackedLog (n : Nat) (l : List FaultFrame) : List FaultFrame := l.map fun f => if f.seq ≤ n then { f with acked := true } else f

theorem bodyFaultRead_of_ack (hop : p.op.toNat = 2) (hf : s.relia.log.find? (fun f => decide (f.seq = p.seq.toNat)) = some f) :
    bodyFaultRead p s c = { s := { s with relia := { s.relia with log := ackedLog p.seq.toNat s.relia.log } } } := by
  have hop2 : p.op = 2 := BitVec.eq_of_toNat_eq hop
  rw [bodyFaultRead]
  simp only [hop2]
  rw [if_neg (by decide), hf, ha]
  exact checked_pass rfl

end

theorem ackedLog_seq (n : Nat) (l : List FaultFrame) : (ackedLog n l).map (·.seq) = l.map (·.seq) := by
  rw [ackedLog, List.map_map]
  refine List.map_congr_left fun f _ => ?_
  simp only [Function.comp]
  split <;> rfl

theorem ackedLog_acked {n : Nat} {l : List FaultFrame} {g : FaultFrame} (hg : g ∈ ackedLog n l) (hseq : g.seq ≤ n) : g.acked = true := by
  obtain ⟨f, -, rfl⟩ := List.mem_map.mp hg
  split at hseq
  case isTrue h => rw [if_pos h]
  case isFalse h => exact absurd hseq h

/-! ### COUNTER_READ -/

section
variable {s : State} {c : Cmd} {p : CounterReadP} (ha : p.rsvdA = 0)
include ha

theorem bodyCounterRead_of_logical (hpart : c.part = none) (hctl : p.ctl.toNat = 0) (hcore : p.core.toNat < 16)
    (hin : inService s p.core.toNat = true) :
    bodyCounterRead p s c = { s := s, record := (coreCounters (core s p.core.toNat)).flatMap (fun v => leBytes 8 (cntBits v)) } := by
  have hcore' : ¬ 15 < p.core.toNat := by omega
  have hphys : bitOf 0 0 = false := rfl
  simp only [bodyCounterRead, counterRecord, hpart, hctl, hphys, ha, hin, Bool.false_eq_true, if_false, hcore']
  exact checked_pass rfl

theorem bodyCounterRead_of_physical (hpart : c.part = none) (hctl : p.ctl.toNat = 1) (hcore : p.core.toNat < 18) :
    bodyCounterRead p s c = { s := s, record := counterRecord s c p.core.toNat true } := by
  have hcore' : ¬ 17 < p.core.toNat := by omega
  have hphys : bitOf 1 0 = true := rfl
  simp only [bodyCounterRead, hpart, hctl, hphys, ha, if_true, hcore']
  exact checked_pass rfl

theorem bodyCounterRead_of_tenant {pt : Nat} (hpart : c.part = some pt) (hctl : p.ctl = 0) (hcore : p.core.toNat < 16)
    (hholds : holdsCore s pt p.core.toNat = true) (hin : inService s p.core.toNat = true) :
    bodyCounterRead p s c = {
      s := s
      record := (List.range 10).flatMap (fun i => leBytes 8 (cntBits (tget {} i (core s p.core.toNat).latched))) } := by
  have hcore' : ¬ 15 < p.core.toNat := by omega
  have hctl' : p.ctl.toNat = 0 := congrArg BitVec.toNat hctl
  have hphys : bitOf 0 0 = false := rfl
  simp only [bodyCounterRead, counterRecord, hpart, hctl', hphys, ha, hholds, hin, Bool.false_eq_true, if_false, hcore', Option.isSome_some,
    if_true, List.flatMap_map]
  exact checked_pass rfl

end

theorem counterRecord_of_power {s : State} {c : Cmd} {k : Nat} (hpart : c.part = none) (hpower : (coreP s k).power ≠ .off) :
    counterRecord s c k true = (coreCounters (coreP s k)).flatMap (fun v => leBytes 8 (cntBits v)) := by
  simp [counterRecord, hpart, hpower]

theorem counterRecord_of_no_power {s : State} {c : Cmd} {k : Nat} (hpart : c.part = none) (hpower : (coreP s k).power = .off) :
    counterRecord s c k true = zeros 80 := by
  simp only [counterRecord, hpart, hpower]
  rfl

/-- Settles O46, by the check lists. -/
theorem reliabilityCommandsComplete : Obligations.ReliabilityCommandsComplete := by
  refine ⟨fun s q h p k n x hq hn hk hctl ha hb hrange hpack hmask hin hrebind hidle hspare => hq.completes (fun _ => rfl) fun hp =>
      bodyTestRun_of_pass hp hn hk hctl ha hb hrange hpack hmask hin hrebind hidle hspare,
    fun s q h p id n hd body sig meas hq hop ha hid hn hhd hbody hsig hmeas hheader hverify hsha hfloor hnewer hcount hroom =>
      ⟨_, hq.completes (fun _ => rfl) fun _ => bodyTestPackLoad_of_verified ha hop hid hn hhd hbody hsig hmeas hheader hverify hsha hfloor
        hnewer hcount hroom, packOf_put _ _ _, rfl, rfl⟩,
    fun s q h p hq hop ha hid hidle => hq.completes (fun _ => rfl) fun _ => bodyTestPackLoad_of_unload ha hop hid hidle,
    fun s q h p f hq ha => ⟨fun hop hf => hq.completes (fun _ => rfl) fun _ => bodyFaultRead_of_oldest ha hop hf,
      fun hop hf => hq.completes (fun _ => rfl) fun _ => bodyFaultRead_of_seq ha hop hf,
      fun hop hf => ⟨_, hq.completes (fun _ => rfl) fun _ => bodyFaultRead_of_ack ha hop hf, fun g hg hseq => ackedLog_acked hg hseq,
        ackedLog_seq _ _, rfl⟩⟩,
    fun s q h p hq _ ha => ⟨fun hctl hcore hin => hq.completes (fun _ => rfl) fun hp => bodyCounterRead_of_logical ha hp hctl hcore hin,
      fun hctl hcore hpower => hq.completes (fun _ => rfl) fun hp => by
        rw [bodyCounterRead_of_physical ha hp hctl hcore, counterRecord_of_power hp hpower],
      fun hctl hcore hpower => hq.completes (fun _ => rfl) fun hp => by
        rw [bodyCounterRead_of_physical ha hp hctl hcore, counterRecord_of_no_power hp hpower]⟩,
    fun s q h p pt hq hctl ha hcore hholds hin => hq.completes (fun _ => rfl) fun hp =>
      bodyCounterRead_of_tenant ha hp hctl hcore hholds hin⟩

/-! ### Events -/

section
variable {s : State} {k : Nat}

/-- A request that is served for core `k`: the first of its die that need not wait, with its pack loaded, and the die tests none. -/
structure Serves (s : State) (k : Nat) (r : TestReq) (pk : Pack) : Prop where
  first : (die s (dieOfPhys k)).requests.find? (fun r => !requestWaits s r) = some r
  pack : packOf s r.packId = some pk
  core : r.core = k
  idle : (die s (dieOfPhys k)).test = none

section
variable {r : TestReq} {pk : Pack} (h : Serves s k r pk)
include h

/-- The die once a request for core `k` has left its list. -/
def requestTaken (s : State) (k : Nat) : State :=
  modDie s (dieOfPhys k) (fun x => { x with requests := x.requests.filter (fun y => decide (y.core ≠ k)) })

theorem serveTest_of_unserved (hlogical : logicalOf (requestTaken s k) k = none) :
    serveTest s k = wakeCore (scrubCore (setCoreState
      (modDie (requestTaken s k) (dieOfPhys k) (fun x => { x with test := some { req := r, pack := pk, phase := 3 } })) k 3) k) k := by
  have hmine : ¬ (r.core ≠ k ∨ (die s (dieOfPhys k)).test.isSome = true) := by simp [h.core, h.idle]
  simp only [serveTest, h.first, h.pack]
  rw [if_neg hmine]
  rw [requestTaken] at hlogical ⊢
  simp only [hlogical]

theorem serveTest_of_serving {c limit : Nat} (hlogical : logicalOf (requestTaken s k) k = some c)
    (hlimit : limit = if r.defer = 0 then fld (die s (dieOfPhys k)).trigCtl.toNat 16 16 else r.defer) :
    serveTest s k = owe (startMigration
      (modDie (requestTaken s k) (dieOfPhys k) (fun x => { x with test := some { req := r, pack := pk } })) c
      ((freeSpare (modDie (requestTaken s k) (dieOfPhys k) (fun x => { x with test := some { req := r, pack := pk } })) (dieOfPhys k)).getD 0) 1
      (decide (limit ≠ 0)) limit) (.boundary c) := by
  have hmine : ¬ (r.core ≠ k ∨ (die s (dieOfPhys k)).test.isSome = true) := by simp [h.core, h.idle]
  simp only [serveTest, h.first, h.pack]
  rw [if_neg hmine, ← hlimit]
  rw [requestTaken] at hlogical ⊢
  simp only [hlogical]

end

theorem exec_testRequestServe (k : Fin 18) (s : State) : exec (.testRequestServe k) s = .next (serveTest s k.val) := rfl

section
variable {failed : Nat} {t : TestRun} (ht : (die s (dieOfPhys k)).test = some t) (hcore : t.req.core = k)
include ht hcore

theorem testEndOp_of_run (hphase : t.phase ≠ 2) (hrun : (coreP s k).power = .run) :
    testEndOp s k failed = testEnds s (dieOfPhys k) k failed t false := by
  simp only [testEndOp, ht]
  rw [if_neg (not_not_intro hcore), if_neg hphase, if_pos hrun]

theorem testEndOp_of_failed_migration (hphase : t.phase = 2) (hnone : (die s (dieOfPhys k)).migration = none) :
    testEndOp s k failed = testEnds s (dieOfPhys k) k failed t true := by
  simp only [testEndOp, ht]
  rw [if_neg (not_not_intro hcore), if_pos hphase, hnone, if_pos (by rfl)]

end

theorem resendFatal_of_none (hacked : ∀ f ∈ s.relia.log, f.fatal = false ∨ f.acked = true) : resendFatal s = s := by
  have hnone : s.relia.log.filter (fun f => f.fatal && !f.acked) = [] :=
    List.filter_eq_nil_iff.mpr fun f hf => by rcases hacked f hf with h | h <;> simp [h]
  rw [resendFatal, hnone, List.foldl_nil]

theorem resendFatal_of_one {f : FaultFrame} (hone : s.relia.log.filter (fun f => f.fatal && !f.acked) = [f]) :
    resendFatal s = sendFrame s f.bytes := by rw [resendFatal, hone, List.foldl_cons, List.foldl_nil]

theorem cxlDown_of_up {p : Nat} {x : CxlPort} (hx : x = tget {} p s.cxl) (hup : x.linkUp = true) :
    cxlDown s p = fireHub { s with cxl := tput {} p { x with linkUp := false, down := true, failed := true } s.cxl } (0x120 + p) := by
  subst hx
  exact if_neg (by rw [hup]; decide)

theorem cxlDown_of_down {p : Nat} {x : CxlPort} (hx : x = tget {} p s.cxl) (hup : x.linkUp = false) : cxlDown s p = s := by
  subst hx
  exact if_pos (by rw [hup]; rfl)

end

/-- Settles O47: each event by the request, the test, the frames or the link that it finds. -/
theorem reliabilityEventsComplete : Obligations.ReliabilityEventsComplete := by
  refine ⟨fun k s u r pk c d limit hd hfirst hpack hcore hidle hlimit hu => ?serve,
    fun k f s t ht hcore => ⟨fun hphase hrun => congrArg _ (testEndOp_of_run ht hcore hphase hrun),
      fun hphase hnone => congrArg _ (testEndOp_of_failed_migration ht hcore hphase hnone)⟩,
    fun k s => rfl,
    fun s hacked => congrArg _ (resendFatal_of_none hacked),
    fun s f hone => congrArg _ (resendFatal_of_one hone),
    fun b l s u v n c hv hn hc => ?merge,
    fun p s x hx => ⟨fun hup => congrArg _ (cxlDown_of_up hx hup), fun hup => congrArg _ (cxlDown_of_down hx hup)⟩⟩
  case serve =>
    subst hd hu
    have h : Serves s k.val r pk := ⟨hfirst, hpack, hcore, hidle⟩
    refine ⟨fun hlogical => ?_, fun hlogical => ?_⟩
    · rw [exec_testRequestServe, serveTest_of_unserved h hlogical, requestTaken]
    · rw [exec_testRequestServe, serveTest_of_serving h hlogical hlimit, requestTaken]
  case merge =>
    obtain ⟨rfl, rfl⟩ := Prod.mk.inj hv
    subst hn hc
    rfl

end Sys2Proof.Machine
end


section
/-! PROOFS. The Metering Island's commands (R561, R571 to R574). -/
namespace Sys2Proof.Machine

section
variable (s : State) (c : Cmd)

theorem bodyMiIdent_of_pass {p : MiIdentP} (ha : p.rsvdA = 0) : bodyMiIdent p s c = { s := s, record := miIdentRecord s } := by
  simp only [bodyMiIdent, ha]
  exact checked_pass rfl

theorem bodyMiRead_of_pass {p : MiReadP} (ha : p.rsvdA = 0) : bodyMiRead p s c = { s := s, record := miReadRecord s.mi.snap } := by
  simp only [bodyMiRead, ha]
  exact checked_pass rfl

end

section
variable {s : State} {c : Cmd}

theorem bodyMiSessionOpen_of_pass {p : MiSessionOpenP} (ha : p.rsvdA = 0) (hlt : p.part.toNat < 16) (hbound : miBound s p.part.toNat = true)
    (hnone : tget none p.part.toNat s.mi.sessions = none) : bodyMiSessionOpen p s c = { s := miOpen s p.part.toNat } := by
  have hlt' : ¬ 15 < p.part.toNat := by omega
  simp only [bodyMiSessionOpen, ha, hlt', hbound, hnone]
  exact checked_pass rfl

/-- The checks of MI_SESSION_CLOSE pass. -/
theorem bodyMiSessionClose_eq {p : MiSessionCloseP} {u : State} (ha : p.rsvdA = 0) (hlt : p.part.toNat < 16)
    (hbound : miBound s p.part.toNat = true) (hopen : (tget none p.part.toNat s.mi.sessions).isSome = true)
    (hu : u = miClose s p.part.toNat 4) (hctl : p.ctl.toNat ≤ 1) :
    bodyMiSessionClose p s c = {
      s := if bitOf p.ctl.toNat 0 then miOpen u p.part.toNat else u
      record := leBytes 8 u.mi.recordNo ++ leBytes 4 (if bitOf p.ctl.toNat 0
        then (tget (0, 0) p.part.toNat (if bitOf p.ctl.toNat 0 then miOpen u p.part.toNat else u).mi.metered).2 else 0) ++ zeros 4 } := by
  have hlt' : ¬ 15 < p.part.toNat := by omega
  have hsome : (tget none p.part.toNat s.mi.sessions).isNone = false := by
    rw [← Option.not_isSome, hopen]
    rfl
  subst hu
  simp only [bodyMiSessionClose, ha, hlt', Nat.not_lt.mpr hctl, hbound, hsome]
  exact checked_pass rfl

section
variable {p : MiRecordGetP} {r : Nat × List Byte} (ha : p.rsvdA = 0) (hmay : mayRead s c.part r.2 = true)
include ha hmay

theorem bodyMiRecordGet_of_get (hop : p.op.toNat = 0) (hr : s.mi.log.find? (fun x => decide (x.1 = p.recordNo.toNat)) = some r) :
    bodyMiRecordGet p s c = { s := s, record := r.2 } := by
  rw [bodyMiRecordGet]
  simp only [hop, ha, hr, hmay, Nat.reduceEqDiff, if_false, decide_false, Bool.and_false]
  exact checked_pass rfl

theorem bodyMiRecordGet_of_latest (hop : p.op.toNat = 2) (hr : (s.mi.log.filter (fun x => mayRead s c.part x.2)).getLast? = some r) :
    bodyMiRecordGet p s c = { s := s, record := r.2 } := by
  rw [bodyMiRecordGet]
  simp only [hop, ha, if_true, hr, hmay, Nat.reduceEqDiff, if_false, decide_false, Bool.and_false]
  exact checked_pass rfl

theorem bodyMiRecordGet_of_ack (hop : p.op.toNat = 1) (hpart : c.part = none)
    (hr : s.mi.log.find? (fun x => decide (x.1 = p.recordNo.toNat)) = some r) :
    bodyMiRecordGet p s c = {
      s := { s with mi := { s.mi with log := s.mi.log.filter (fun x => decide (x.1 ≠ p.recordNo.toNat)) } } } := by
  rw [bodyMiRecordGet]
  simp only [hop, ha, hpart, hr, hpart ▸ hmay, Nat.reduceEqDiff, if_false, Option.isSome_none, Bool.false_and]
  exact checked_pass rfl

end

end

/-- Settles O48, by the check lists. -/
theorem meteringCommandsComplete : Obligations.MeteringCommandsComplete := by
  refine ⟨fun s q h p hs hsig ha => command_completes hs hsig (fun _ => rfl) (bodyMiIdent_of_pass _ _ ha),
    fun s q h p hq ha => hq.completes (fun _ => rfl) fun _ => bodyMiRead_of_pass _ _ ha,
    fun s q h p hq ha hlt hbound hnone => hq.completes (fun _ => rfl) fun _ => bodyMiSessionOpen_of_pass ha hlt hbound hnone,
    fun s q h p u hq ha hlt hbound hopen hu => ⟨fun hctl => hq.completes (fun _ => rfl) fun _ => ?close,
      fun hctl => hq.completes (fun _ => rfl) fun _ => ?reopen⟩,
    fun s q h p r hs hsig ha hmay =>
      ⟨fun hop hr => command_completes hs hsig (fun _ => rfl) (bodyMiRecordGet_of_get ha hmay hop hr),
        fun hop hr => command_completes hs hsig (fun _ => rfl) (bodyMiRecordGet_of_latest ha hmay hop hr),
        fun hop hpart hr => ⟨_, command_completes hs hsig (fun _ => rfl) (bodyMiRecordGet_of_ack ha hmay hop hpart hr), rfl, rfl⟩⟩⟩
  case close =>
    rw [bodyMiSessionClose_eq ha hlt hbound hopen hu (by omega), hctl]
    rfl
  case reopen =>
    rw [bodyMiSessionClose_eq ha hlt hbound hopen hu (by omega), hctl]
    rfl

end Sys2Proof.Machine
end


section
/-! PROOFS. The Metering Island's own events (R556 to R570). -/
namespace Sys2Proof.Machine

/-! ### An island that runs, and one that does not -/

section
variable {s : State} (hoff : s.mi.powered = false ∨ s.mi.powerFail = true)
include hoff

theorem mi_stopped : (!s.mi.powered || s.mi.powerFail) = true := by
  rcases hoff with hoff | hoff <;> simp [hoff]

theorem miMillisecondOp_of_stopped (e : Nat) : miMillisecondOp s e = s := if_pos (mi_stopped hoff)
theorem miCommitOp_of_stopped : miCommitOp s = s := if_pos (mi_stopped hoff)
theorem miHoldupOp_of_stopped (ok : Bool) : miHoldupOp s ok = s := if_pos (mi_stopped hoff)
theorem miPowerFailOp_of_stopped : miPowerFailOp s = s := if_pos (mi_stopped hoff)

theorem execMiDeviceRecord_of_stopped : exec .miDeviceRecord s = .next s :=
  congrArg _ (if_neg (by rcases hoff with hoff | hoff <;> simp [hoff]))

theorem miCheckpointOp_of_stopped : miCheckpointOp s = s := if_neg (by rcases hoff with hoff | hoff <;> simp [hoff])

end

section
variable {s : State} (hon : s.mi.powered = true) (hok : s.mi.powerFail = false)
include hon hok

theorem mi_runs : ¬ (!s.mi.powered || s.mi.powerFail) = true := by rw [hon, hok]; decide

theorem execMiDeviceRecord_of_runs : exec .miDeviceRecord s = .next (miDeviceRecord s 0) :=
  congrArg _ (if_pos (by rw [hon, hok]; rfl))

theorem miHoldupOp_of_runs (ok : Bool) : miHoldupOp s ok =
    if ok then { s with mi := miShow { s.mi with holdup := !ok } }
    else postMgmt (fireHub { s with mi := miShow { s.mi with holdup := !ok } } 0x1C3) 0x0192 1 [] := if_neg (mi_runs hon hok)

theorem miCheckpointOp_of_failed_holdup (hheld : s.mi.holdup = true) :
    miCheckpointOp s = { s with mi := miSigned { s.mi with saved := miSave s.mi } } := if_pos (by rw [hon, hok, hheld]; rfl)

omit hon hok in
theorem miCheckpointOp_of_holdup (hheld : s.mi.holdup = false) : miCheckpointOp s = s := if_neg (by rw [hheld]; simp)

section
variable {u : State} (hu : u = fireHub { s with mi := miShow { s.mi with powerFail := true } } 0x1C4)
include hu

theorem miPowerFailOp_of_holdup (hheld : u.mi.holdup = false) :
    miPowerFailOp s = miDeviceRecord ((List.range 16).foldl (fun s p => miClose s p 1) u) 1 := by
  subst hu
  exact (if_neg (mi_runs hon hok)).trans (if_neg (by rw [hheld]; exact Bool.false_ne_true))

theorem miPowerFailOp_of_failed_holdup (hheld : u.mi.holdup = true) :
    miPowerFailOp s = { u with mi := { u.mi with
      unclean := true, saved := u.mi.sessions.map (fun e => (e.1, e.2.map (miLeft u.mi e.1))), sessions := [] } } := by
  subst hu
  exact (if_neg (mi_runs hon hok)).trans (if_pos hheld)

end

/-! ### Frames and milliseconds (R559, R560) -/

/-- The island with a new frame, and the millisecond's run times summed. -/
def miFramed (m : Mi) (f : MiFrame) : Mi :=
  { m with frame := f, runs := f.parts.foldl (fun t e => tput 0 e.1 (tget 0 e.1 t + e.2.runUs) t) m.runs, gotFrame := true }

theorem occupancyFrameOp_of_runs {t : State} {f : MiFrame} (hframe : miFrameNow s = (f, t)) (hmi : t.mi = s.mi) :
    occupancyFrameOp s = { t with mi := miFramed t.mi f } := by
  rw [occupancyFrameOp, hframe]
  exact if_neg (by rw [hmi]; exact mi_runs hon hok)

end

theorem exec_miPowerFail (s : State) : exec .miPowerFail s = .next (miPowerFailOp s) := rfl

theorem exec_occupancyFrame (s : State) : exec .occupancyFrame s = .next (occupancyFrameOp s) := rfl

/-- The account of partition `p`'s session, where one is open. -/
def accountStep (m : Mi) (share : Nat → Nat) (t : Tab (Option MiSession)) (p : Nat) : Tab (Option MiSession) :=
  ((tget none p t).map fun x => tput none p (some (miAccount m p (share p) x)) t).getD t

theorem tget_accountStep (m : Mi) (share : Nat → Nat) (t : Tab (Option MiSession)) (p j : Nat) :
    tget none j (accountStep m share t p) = if j = p then (tget none p t).map (miAccount m p (share p)) else tget none j t := by
  rcases hp : tget none p t with _ | x
  · rw [accountStep, hp]
    split
    · subst_vars; exact hp
    · rfl
  · rw [accountStep, hp]
    show tget none j (tput none p (some (miAccount m p (share p) x)) t) = _
    rw [tput, if_neg (Option.some_ne_none _)]
    split
    · subst_vars; exact tget_tins _ _ _ _
    · exact tget_tins_ne _ ‹_› _ _

/-- The sessions after a millisecond in which each partition's share is as given. -/
def miAccounts (m : Mi) (share : Nat → Nat) : Tab (Option MiSession) := (List.range 16).foldl (accountStep m share) m.sessions

theorem tget_miAccounts {m : Mi} {share : Nat → Nat} {p : Nat} (hp : p < 16) :
    tget none p (miAccounts m share) = (tget none p m.sessions).map (miAccount m p (share p)) :=
  (read_foldl_of_own_keys (read := fun p (t : Tab (Option MiSession)) => tget none p t) (act := fun p => Option.map (miAccount m p (share p)))
    (tget_accountStep m share) List.nodup_range _ _).trans (if_pos (List.mem_range.mpr hp))

/-- The island after a millisecond with `e` microjoules. -/
def miAfter (s : State) (e : Nat) : Mi :=
  let m := s.mi
  let est := !m.gotFrame
  { m with
    time := m.time + 1, input := m.input + e, dev := m.dev + (e - ((List.range 16).map (miShare s e)).sum),
    sessions := miAccounts m (miShare s e), runs := [], gotFrame := false, estimate := est, devEst := m.devEst + b2n est,
    sinceUj := m.sinceUj + e, sinceMs := m.sinceMs + 1, upMs := m.upMs + 1 }

theorem miMillisecondOp_of_runs {s : State} (hon : s.mi.powered = true) (hok : s.mi.powerFail = false) (e : Nat) :
    miMillisecondOp s e = if s.mi.gotFrame then { s with mi := miAfter s e } else fireHub { s with mi := miAfter s e } 0x1C5 := by
  have hmi (m' : Mi) (hm' : m' = miAfter s e) :
      (if !s.mi.gotFrame then fireHub { s with mi := m' } 0x1C5 else { s with mi := m' }) =
        if s.mi.gotFrame then { s with mi := miAfter s e } else fireHub { s with mi := miAfter s e } 0x1C5 := by
    rw [hm']
    cases s.mi.gotFrame <;> rfl
  refine (if_neg (mi_runs hon hok)).trans (hmi _ ?_)
  simp only [miAfter, miAccounts, List.map_map, Mi.mk.injEq, true_and, and_true]
  refine ⟨rfl, ?_⟩
  rw [List.foldl_map]
  refine congrArg (fun f => List.foldl f s.mi.sessions (List.range 16)) ?_
  funext t p
  rw [accountStep]
  cases tget none p t <;> rfl

theorem tget_miAfter_sessions {s : State} {e p : Nat} {x : MiSession} (hp : p < 16) (hx : tget none p s.mi.sessions = some x) :
    tget none p (miAfter s e).sessions = some (miAccount s.mi p (miShare s e p) x) := by
  have haccounts := tget_miAccounts (m := s.mi) (share := miShare s e) hp
  rw [hx, Option.map_some] at haccounts
  simpa only [miAfter] using haccounts

/-- What a millisecond leaves: the fields of `miAfter`, and memory. -/
theorem miMillisecondOp_mi {s : State} (hon : s.mi.powered = true) (hok : s.mi.powerFail = false) (e : Nat) :
    (miMillisecondOp s e).mi = miAfter s e := by
  rw [miMillisecondOp_of_runs hon hok]
  split <;> simp

theorem miMillisecondOp_mem {s : State} (hon : s.mi.powered = true) (hok : s.mi.powerFail = false) (e : Nat) :
    (miMillisecondOp s e).mem = s.mem := by
  rw [miMillisecondOp_of_runs hon hok]
  split <;> simp

/-! ### Commits (R557, R562) -/

/-- The snapshot that a commit has just taken of an island. -/
structure Committed (m m' : Mi) : Prop where
  time : m'.snap.time = m.time
  input : m'.snap.input = m.input
  dev : m'.snap.dev = m.dev
  open_ : m'.snap.open_ = m'.sessions
  log : m'.log = m.log

theorem miCommitOp_committed {s : State} (hon : s.mi.powered = true) (hok : s.mi.powerFail = false) :
    Committed s.mi (miCommitOp s).mi ∧ (miCommitOp s).mem = s.mem := by
  have hpost (out : Bool) (u : State) (hmi : Committed s.mi u.mi) (hmem : u.mem = s.mem) :
      Committed s.mi (if out then postMgmt (fireHub u 0x1C3) 0x0192 2 [] else u).mi ∧
        (if out then postMgmt (fireHub u 0x1C3) 0x0192 2 [] else u).mem = s.mem := by
    cases out
    · exact ⟨hmi, hmem⟩
    · rw [if_pos rfl, postMgmt_mi, fireHub_mi, postMgmt_mem, fireHub_mem]
      exact ⟨hmi, hmem⟩
  rw [miCommitOp, if_neg (mi_runs hon hok)]
  exact hpost _ _ ⟨rfl, rfl, rfl, rfl, rfl⟩ rfl

/-! ### Power-up (R567 to R570) -/

/-- Two states whose islands agree on power, sessions and totals, and so on what a record does not change. -/
structure SameAccounts (s t : State) : Prop where
  powered : s.mi.powered = t.mi.powered
  powerFail : s.mi.powerFail = t.mi.powerFail
  sessions : s.mi.sessions = t.mi.sessions
  saved : s.mi.saved = t.mi.saved
  unclean : s.mi.unclean = t.mi.unclean
  time : s.mi.time = t.mi.time
  input : s.mi.input = t.mi.input

namespace SameAccounts

theorem refl (s : State) : SameAccounts s s := ⟨rfl, rfl, rfl, rfl, rfl, rfl, rfl⟩

theorem trans {s t u : State} (h : SameAccounts s t) (h' : SameAccounts t u) : SameAccounts s u :=
  ⟨h.powered.trans h'.powered, h.powerFail.trans h'.powerFail, h.sessions.trans h'.sessions, h.saved.trans h'.saved,
    h.unclean.trans h'.unclean, h.time.trans h'.time, h.input.trans h'.input⟩

theorem of_mi {s t : State} (h : s.mi = t.mi) : SameAccounts s t := by constructor <;> rw [h]

theorem foldl {α : Type} {f : State → α → State} (h : ∀ s a, SameAccounts (f s a) s) (l : List α) (s : State) :
    SameAccounts (l.foldl f s) s := by
  induction l generalizing s with
  | nil => exact refl s
  | cons a l ih => exact (ih _).trans (h s a)

theorem miLog (s : State) (flags part : Nat) (mk : Nat → Nat → List Byte) : SameAccounts (miLog s flags part mk) s := by
  unfold Machine.miLog
  extract_lets m full lost no body rec_ log s₁ s₂ s₃ d s₄
  have h₃ : s₃.mi = s₁.mi := by simp [s₃, s₂]
  have h₄ : s₄.mi = s₁.mi := by
    rw [← h₃]
    simp only [s₄]
    split <;> simp
  have h₁ : SameAccounts s₁ s := ⟨rfl, rfl, rfl, rfl, rfl, rfl, rfl⟩
  split
  · exact (of_mi ((postMgmt_mi _ _ _ _).trans ((fireHub_mi _ _).trans h₄))).trans h₁
  · exact (of_mi h₄).trans h₁

theorem miCloseAs (s : State) (p extra time input : Nat) (x : MiSession) : SameAccounts (miCloseAs s p extra time input x) s := by
  unfold Machine.miCloseAs
  exact miLog _ _ _ _

theorem periodEnds (t : State) : SameAccounts { t with mi := miSigned { t.mi with devOpen := t.mi.time, devEst := 0, devCond := false } } t :=
  ⟨rfl, rfl, rfl, rfl, rfl, rfl, rfl⟩

theorem miDeviceRecord (s : State) (extra : Nat) : SameAccounts (miDeviceRecord s extra) s := by
  unfold Machine.miDeviceRecord
  exact (periodEnds _).trans (miLog _ _ _ _)

theorem dropIdentity (s : State) : SameAccounts (dropIdentity s) s := of_mi (foldl_leaves (fun _ _ => send_mi _ _) _ _)

theorem miRunStaged (s : State) : SameAccounts (miRunStaged s) s := (dropIdentity _).trans ⟨rfl, rfl, rfl, rfl, rfl, rfl, rfl⟩

theorem miCloseLeft (s : State) : SameAccounts (miCloseLeft s) { s with mi := { s.mi with saved := [], unclean := false } } :=
  foldl (fun s p => by
    split
    · exact miCloseAs _ _ _ _ _ _
    · exact refl s) _ _

end SameAccounts

/-- The island as its power comes back, before the image to run is chosen. -/
def miPowered (s : State) : State := { s with mi := miShow (miResume s.mi) }

/-- The sessions that a stop without hold-up left open are closed; after any other stop none is kept. -/
def miSettle (s : State) : State := if s.mi.unclean then miCloseLeft s else { s with mi := { s.mi with saved := [] } }

theorem miPowerUpOp_of_stopped {s : State} (hoff : s.mi.powered = false ∨ s.mi.powerFail = true) :
    miPowerUpOp s = if miStagedRuns (miPowered s).mi then miDeviceRecord (miSettle (miRunStaged (miPowered s))) 0 else miSettle (miPowered s) := by
  refine (if_neg (by rcases hoff with hoff | hoff <;> simp [hoff])).trans ?_
  show (if miStagedRuns (miPowered s).mi then
      miDeviceRecord (miSettle (if miStagedRuns (miPowered s).mi then miRunStaged (miPowered s) else miPowered s)) 0
    else miSettle (if miStagedRuns (miPowered s).mi then miRunStaged (miPowered s) else miPowered s)) = _
  cases miStagedRuns (miPowered s).mi <;> rfl

theorem miSettle_sameAccounts (s : State) : SameAccounts (miSettle s) { s with mi := { s.mi with saved := [], unclean := false } } := by
  rw [miSettle]
  split
  case isTrue => exact SameAccounts.miCloseLeft s
  case isFalse h => exact ⟨rfl, rfl, rfl, rfl, Bool.eq_false_iff.mpr h, rfl, rfl⟩

theorem miSettle_congr {s t : State} (h : SameAccounts s t) :
    SameAccounts (miSettle s) { t with mi := { t.mi with saved := [], unclean := false } } :=
  (miSettle_sameAccounts s).trans ⟨h.powered, h.powerFail, h.sessions, rfl, rfl, h.time, h.input⟩

theorem miPowerUpOp_sameAccounts {s : State} (hoff : s.mi.powered = false ∨ s.mi.powerFail = true) :
    SameAccounts (miPowerUpOp s) { miPowered s with mi := { (miPowered s).mi with saved := [], unclean := false } } := by
  rw [miPowerUpOp_of_stopped hoff]
  split
  · exact (SameAccounts.miDeviceRecord _ 0).trans (miSettle_congr (SameAccounts.miRunStaged _))
  · exact miSettle_congr (SameAccounts.refl _)

section
variable {m : Mi}

theorem miResume_of_clean (h : m.unclean = false) : miResume m = { m with
    powered := true, powerFail := false, changing := true, upMs := 0, frame := {}, runs := [], gotFrame := false, sessions := [],
    metered := [], sinceUj := 0, sinceMs := 0 } := by simp [miResume, h]

theorem miResume_of_unclean (h : m.unclean = true) : miResume m = { m with
    time := m.signed.1, input := m.signed.2.1, dev := m.signed.2.2, powered := true, powerFail := false, changing := true, upMs := 0,
    frame := {}, runs := [], gotFrame := false, sessions := [], metered := [], sinceUj := 0, sinceMs := 0 } := by simp [miResume, h]

end

/-- The island after its power-up, but for what records change. -/
structure PoweredUp (m m' : Mi) : Prop where
  powered : m'.powered = true
  powerFail : m'.powerFail = false
  sessions : m'.sessions = []
  saved : m'.saved = []
  unclean : m'.unclean = false
  time : m'.time = (miResume m).time
  input : m'.input = (miResume m).input

theorem miPowerUpOp_poweredUp {s : State} (hoff : s.mi.powered = false ∨ s.mi.powerFail = true) : PoweredUp s.mi (miPowerUpOp s).mi := by
  obtain ⟨hpowered, hpowerFail, hsessions, hsaved, hunclean, htime, hinput⟩ := miPowerUpOp_sameAccounts hoff
  constructor
  · rw [hpowered]; rfl
  · rw [hpowerFail]; rfl
  · rw [hsessions]; rfl
  · exact hsaved
  · exact hunclean
  · rw [htime]; rfl
  · rw [hinput]; rfl

theorem miPowerUpOp_log {s : State} (hoff : s.mi.powered = false ∨ s.mi.powerFail = true) (hclean : s.mi.unclean = false)
    (hstaged : miStagedRuns s.mi = false) : (miPowerUpOp s).mi.log = s.mi.log := by
  have hmi : (miPowered s).mi = miShow (miResume s.mi) := rfl
  rw [miResume_of_clean hclean] at hmi
  have hkept : miStagedRuns (miPowered s).mi = false := by
    rw [hmi]
    exact hstaged
  have hunclean : (miPowered s).mi.unclean = false := by
    rw [hmi]
    exact hclean
  rw [miPowerUpOp_of_stopped hoff, hkept, if_neg Bool.false_ne_true, miSettle, hunclean, if_neg Bool.false_ne_true]
  show (miPowered s).mi.log = s.mi.log
  rw [hmi]
  rfl

/-- Settles O49: an island that runs does each event's step, and one that does not only powers up. -/
theorem meteringEventsComplete : Obligations.MeteringEventsComplete := by
  refine ⟨fun s t f hon hok hframe hmi =>
      ⟨{ t with mi := miFramed t.mi f }, by rw [exec_occupancyFrame, occupancyFrameOp_of_runs hon hok hframe hmi], rfl, rfl,
        show t.mi.sessions = s.mi.sessions from congrArg Mi.sessions hmi, rfl⟩,
    fun e s hon hok => ⟨miMillisecondOp s e.toNat, rfl, ?millisecond⟩,
    fun s hon hok => ⟨miCommitOp s, rfl, ?commit⟩,
    fun s hon hok => execMiDeviceRecord_of_runs hon hok,
    fun s hon hok => ⟨congrArg _ (miHoldupOp_of_runs hon hok true), congrArg _ (miHoldupOp_of_runs hon hok false)⟩,
    fun s hon hok => ⟨fun hheld => congrArg _ (miCheckpointOp_of_failed_holdup hon hok hheld),
      fun hheld => congrArg _ (miCheckpointOp_of_holdup hheld)⟩,
    fun s u hon hok hu => ⟨fun hheld => by rw [exec_miPowerFail, miPowerFailOp_of_holdup hon hok hu hheld],
      fun hheld => by rw [exec_miPowerFail, miPowerFailOp_of_failed_holdup hon hok hu hheld]⟩,
    fun s hoff => ⟨miPowerUpOp s, rfl, ?powerUp⟩,
    fun e b s hoff => ⟨congrArg _ (miMillisecondOp_of_stopped hoff _), congrArg _ (miCommitOp_of_stopped hoff),
      execMiDeviceRecord_of_stopped hoff, congrArg _ (miHoldupOp_of_stopped hoff b), congrArg _ (miCheckpointOp_of_stopped hoff),
      congrArg _ (miPowerFailOp_of_stopped hoff)⟩⟩
  case millisecond =>
    rw [miMillisecondOp_mi hon hok]
    refine ⟨rfl, rfl, rfl, rfl, rfl, fun p x hp hx => ?_, miMillisecondOp_mem hon hok _⟩
    exact tget_miAfter_sessions hp hx
  case commit =>
    obtain ⟨⟨htime, hinput, hdev, hopen, hlog⟩, hmem⟩ := miCommitOp_committed hon hok
    exact ⟨htime, hinput, hdev, hopen, hlog, hmem⟩
  case powerUp =>
    obtain ⟨hpowered, hpowerFail, hsessions, hsaved, hunclean, htime, hinput⟩ := miPowerUpOp_poweredUp hoff
    refine ⟨hpowered, hpowerFail, hsessions, hsaved, hunclean, fun hclean => ⟨?_, ?_, miPowerUpOp_log hoff hclean⟩, fun hstop => ⟨?_, ?_⟩⟩
    · rw [htime, miResume_of_clean hclean]
    · rw [hinput, miResume_of_clean hclean]
    · rw [htime, miResume_of_unclean hstop]
    · rw [hinput, miResume_of_unclean hstop]

end Sys2Proof.Machine
end


section
/-! PROOFS. The fabric commands (R441, R443, R453). -/
namespace Sys2Proof.Machine

section
variable {s : State} {c : Cmd}

section
variable {p : FabricRouteP} {n : Nat} {l : List Byte} (ha : p.rsvdA = 0) (hb : p.rsvdB = 0) (hn : n = p.count.toNat) (hlo : 1 ≤ n)
  (hhi : n ≤ 4096) (hl : l = mgmtRead s c p.list.toNat (8 * n))
include ha hb hn hlo hhi hl

theorem bodyFabricRoute_of_groups (ht : p.table.toNat = 0) (hroom : p.first.toNat + n ≤ 256) : bodyFabricRoute p s c = {
    s := { s with fab := { s.fab with grp := putRoutes false p.first.toNat l n s.fab.grp } } } := by
  have htab : p.table = 0 := BitVec.eq_of_toNat_eq ht
  have hne : ¬ n = 0 := by omega
  rw [bodyFabricRoute]
  simp only [← hn, ← hl, htab, ha, hb, hne, Nat.not_lt.mpr hhi]
  exact checked_pass (by simp [firstFail, hroom])

theorem bodyFabricRoute_of_members (ht : p.table.toNat = 1) (hroom : p.first.toNat + n ≤ 256) : bodyFabricRoute p s c = {
    s := { s with fab := { s.fab with mbr := putRoutes false p.first.toNat l n s.fab.mbr } } } := by
  have htab : p.table = 1 := BitVec.eq_of_toNat_eq ht
  have hne : ¬ n = 0 := by omega
  rw [bodyFabricRoute]
  simp only [← hn, ← hl, htab, ha, hb, hne, Nat.not_lt.mpr hhi]
  exact checked_pass (by simp [firstFail, hroom])

theorem bodyFabricRoute_of_multicast (ht : p.table.toNat = 2) (hroom : p.first.toNat + n ≤ 4096) : bodyFabricRoute p s c = {
    s := { s with fab := { s.fab with mc := putRoutes true p.first.toNat l n s.fab.mc } } } := by
  have htab : p.table = 2 := BitVec.eq_of_toNat_eq ht
  have hne : ¬ n = 0 := by omega
  rw [bodyFabricRoute]
  simp only [← hn, ← hl, htab, ha, hb, hne, Nat.not_lt.mpr hhi]
  exact checked_pass (by simp [firstFail, hroom])

end

theorem hasAddr_of_unassigned (h : s.fab.mode = .unassigned) : hasAddr s = false := by simp only [hasAddr, h]; rfl

theorem bodyFabricAddr_of_pass {p : FabricAddrP} {u : State} (ha : p.rsvdA = 0) (hctl : p.ctl.toNat ≤ 1) (hmode : s.fab.mode = .unassigned)
    (hu : u = if p.ctl.toNat = 1 then cfgStore s idFabAddr (leBytes 2 p.addr.toNat) else s) :
    bodyFabricAddr p s c = { s := joinAt u p.addr } := by
  have hone : p.ctl = 1 ↔ p.ctl.toNat = 1 := ⟨fun h => h ▸ rfl, fun h => BitVec.eq_of_toNat_eq h⟩
  simp only [bodyFabricAddr, ha, Nat.not_lt.mpr hctl, hasAddr_of_unassigned hmode, hone, ← hu]
  exact checked_pass rfl

theorem bodyFabricDepart_of_pass {p : FabricDepartP} (hlead : leadOk s = true) (ha : p.rsvdA = 0) :
    bodyFabricDepart p s c = { s := startDrain s p.drainLimit.toNat } := by
  simp only [bodyFabricDepart, hlead, ha]
  exact checked_pass rfl

theorem startDrain_of_idle (h : draining s = false) (limit : Nat) :
    startDrain s limit = { s with fab := { s.fab with mode := .draining, drain := if limit = 0 then none else some limit } } := by
  rw [startDrain, h]
  rfl

theorem startDrain_of_draining (h : draining s = true) (limit : Nat) : startDrain s limit = s := if_pos h

section
variable {p : FabricDiscoverP} (hpart : p.part.toNat < 16) (ha : p.rsvdA = 0)
include hpart ha

theorem bodyFabricDiscover_of_present (h : departed s p.addr = false) : bodyFabricDiscover p s c = {
    s := originate s 0x40 0 false p.part.toNat (c.part.getD (devSpart s)) p.addr.toNat 0 (if c.part = none then 0x10000 else 0) [] []
    wait := some (.discover p.addr.toNat) } := by
  have hlt : ¬ 15 < p.part.toNat := by omega
  simp only [bodyFabricDiscover, ha, hlt, h, Option.isNone_iff_eq_none]
  exact checked_pass rfl

theorem bodyFabricDiscover_of_departed (h : departed s p.addr = true) :
    bodyFabricDiscover p s c = { s := s, st := .deferred, detail := 2 } := by
  have hlt : ¬ 15 < p.part.toNat := by omega
  simp only [bodyFabricDiscover, ha, hlt, h]
  exact checked_fail rfl

end

end

/-- Settles O50, by the check lists. -/
theorem fabricCommandsComplete : Obligations.FabricCommandsComplete :=
  ⟨fun s q h p n l hq ha hb hn hlo hhi hl =>
    ⟨fun ht hroom => hq.completes (fun _ => rfl) fun _ => bodyFabricRoute_of_groups ha hb hn hlo hhi hl ht hroom,
      fun ht hroom => hq.completes (fun _ => rfl) fun _ => bodyFabricRoute_of_members ha hb hn hlo hhi hl ht hroom,
      fun ht hroom => hq.completes (fun _ => rfl) fun _ => bodyFabricRoute_of_multicast ha hb hn hlo hhi hl ht hroom⟩,
    fun s q h p u hq ha hctl hmode hu => hq.completes (fun _ => rfl) fun _ => bodyFabricAddr_of_pass ha hctl hmode hu,
    fun s q h p hq hlead ha =>
      ⟨fun hidle => hq.completes (fun _ => rfl) fun _ => by rw [bodyFabricDepart_of_pass hlead ha, startDrain_of_idle hidle],
        fun hdrain => hq.completes (fun _ => rfl) fun _ => by rw [bodyFabricDepart_of_pass hlead ha, startDrain_of_draining hdrain]⟩,
    fun s q h p hs hsig hpart ha =>
      ⟨fun hpresent => command_completes hs hsig (fun _ => rfl) (bodyFabricDiscover_of_present hpart ha hpresent),
        fun hgone => command_completes hs hsig (fun _ => rfl) (bodyFabricDiscover_of_departed hpart ha hgone)⟩⟩

end Sys2Proof.Machine
end


section
/-! PROOFS. A port's link comes up, goes down and restarts (R428, R433, R440, R594). -/
namespace Sys2Proof.Machine

/-! ### Reading a port back -/

theorem portOf_setPort {x : Port} (hx : x ≠ {}) (s : State) (q : Nat) : portOf (setPort s q x) q = x := tget_tput_ne_default hx q _

theorem portOf_setPort_ne {x : Port} (hx : x ≠ {}) (s : State) {q j : Nat} (hj : j ≠ q) : portOf (setPort s q x) j = portOf s j := by
  simp only [portOf, setPort, tput, hx, if_false]
  exact tget_tins_ne _ hj x _

theorem port_ne_default_of_ready {x : Port} (h : x.ready = true) : x ≠ {} := fun hx => absurd (hx ▸ h) (by decide)

theorem port_ne_default_of_lstate {x : Port} (h : x.lstate ≠ .down) : x ≠ {} := fun hx => h (hx ▸ rfl)

/-! ### What a change of a link's state leaves -/

/-- Two states have the same memory, cores and configuration. -/
def SameCore (s t : State) : Prop := t.mem = s.mem ∧ t.cores = s.cores ∧ t.sec = s.sec

theorem SameCore.refl (s : State) : SameCore s s := ⟨rfl, rfl, rfl⟩

theorem SameCore.trans {s t u : State} (h : SameCore s t) (g : SameCore t u) : SameCore s u :=
  ⟨g.1.trans h.1, g.2.1.trans h.2.1, g.2.2.trans h.2.2⟩

theorem sameCore_setPort (s : State) (q : Nat) (x : Port) : SameCore s (setPort s q x) := ⟨rfl, rfl, rfl⟩

theorem sameCore_setLink (s : State) (q : Nat) (l : LState) : SameCore s (setLink s q l) := by
  unfold setLink
  dsimp only
  split
  · exact SameCore.refl s
  · exact ⟨by simp [setPort], by simp [setPort], by simp [setPort]⟩

theorem setLink_fab (s : State) (q : Nat) (l : LState) :
    (setLink s q l).fab = if (portOf s q).lstate = l then s.fab else (setPort s q { portOf s q with lstate := l }).fab := by
  unfold setLink
  dsimp only
  split <;> simp

theorem portOf_congr {s t : State} (h : t.fab = s.fab) (q : Nat) : portOf t q = portOf s q := by rw [portOf, h]; rfl

theorem portOf_setLink {s : State} {q : Nat} (hready : (portOf s q).ready = true) (l : LState) (j : Nat) :
    portOf (setLink s q l) j = if j = q then { portOf s q with lstate := l } else portOf s j := by
  have hne : ({ portOf s q with lstate := l } : Port) ≠ {} := port_ne_default_of_ready hready
  by_cases hl : (portOf s q).lstate = l
  · rw [portOf_congr (t := setLink s q l) (s := s) (by rw [setLink_fab, if_pos hl])]
    split
    · next hj => rw [hj, ← hl]
    · rfl
  · rw [portOf_congr (t := setLink s q l) (s := setPort s q { portOf s q with lstate := l }) (by rw [setLink_fab, if_neg hl])]
    split
    · next hj => rw [hj, portOf_setPort hne]
    · next hj => exact portOf_setPort_ne hne s hj

/-! ### A group of ports starts -/

/-- A port of a starting group. -/
def startPort (s : State) (q : Nat) : State :=
  if decide (mediaOf s q = .unused) || (portOf s q).ready then s else bringUp (modPort s q (fun x => { x with ready := true })) q

theorem portGroup_of_live {s : State} {g : Nat} (hready : s.ready = true) (hdrain : draining s = false) :
    portGroup s g = ((List.range 4).map (fun i => 4 * g + i)).foldl startPort s := by
  rw [portGroup, hready, hdrain, List.foldl_map]
  rfl

theorem mediaOf_congr {s t : State} (h : SameCore s t) (q : Nat) : mediaOf t q = mediaOf s q := by
  unfold mediaOf cfgBlock
  rw [h.2.2]

theorem sameCore_startPort (s : State) (q : Nat) : SameCore s (startPort s q) := by
  unfold startPort bringUp modPort
  split
  · exact SameCore.refl s
  · exact ((sameCore_setPort s q _).trans (sameCore_setPort _ q _)).trans (sameCore_setLink _ q .training)

theorem sameCore_foldl_startPort (l : List Nat) (s : State) : SameCore s (l.foldl startPort s) := by
  induction l generalizing s with
  | nil => exact SameCore.refl s
  | cons q l ih => exact (sameCore_startPort s q).trans (ih _)

/-- What a start makes of a port marked as some media. -/
def startedPort (m : PortMedia) (x : Port) : Port :=
  if m = .unused ∨ x.ready = true then x else { x with ready := true, restart := false, lstate := .training }

theorem portOf_startPort (s : State) (q j : Nat) :
    portOf (startPort s q) j = if j = q then startedPort (mediaOf s q) (portOf s q) else portOf s j := by
  unfold startPort startedPort
  simp only [Bool.or_eq_true, decide_eq_true_eq]
  by_cases h : mediaOf s q = .unused ∨ (portOf s q).ready = true
  · rw [if_pos h, if_pos h]
    split
    · next hj => rw [hj]
    · rfl
  · have hr (x : Port) : ({ x with ready := true } : Port) ≠ {} := port_ne_default_of_ready rfl
    have hrr (x : Port) : ({ x with ready := true, restart := false } : Port) ≠ {} := port_ne_default_of_ready rfl
    rw [if_neg h, if_neg h]
    unfold bringUp modPort
    rw [portOf_setPort (hr _), portOf_setLink (by rw [portOf_setPort (hrr _)]), portOf_setPort (hrr _)]
    split
    · rfl
    · next hj => rw [portOf_setPort_ne (hrr _) _ hj, portOf_setPort_ne (hr _) _ hj]

theorem portOf_foldl_startPort {l : List Nat} (hl : l.Nodup) (s : State) (j : Nat) :
    portOf (l.foldl startPort s) j = if j ∈ l then startedPort (mediaOf s j) (portOf s j) else portOf s j := by
  induction l generalizing s with
  | nil => rfl
  | cons q l ih =>
    obtain ⟨hq, hl⟩ := List.nodup_cons.mp hl
    rw [List.foldl_cons, ih hl, mediaOf_congr (sameCore_startPort s q), portOf_startPort]
    by_cases hj : j = q
    · simp [hj, hq]
    · simp [hj]

theorem portGroup_ports {s : State} {g : Nat} (hready : s.ready = true) (hdrain : draining s = false) {i : Nat} (hi : i < 4) :
    portOf (portGroup s g) (4 * g + i) = startedPort (mediaOf s (4 * g + i)) (portOf s (4 * g + i)) := by
  have hnodup : ((List.range 4).map (fun i => 4 * g + i)).Nodup := 
    List.Pairwise.map _ (fun a b hne heq => hne (by omega)) List.nodup_range
  rw [portGroup_of_live hready hdrain, portOf_foldl_startPort hnodup, if_pos (List.mem_map.mpr ⟨i, List.mem_range.mpr hi, rfl⟩)]

theorem portGroup_of_idle {s : State} (h : s.ready = false ∨ draining s = true) (g : Nat) : portGroup s g = s := by
  rw [portGroup, if_pos]
  rcases h with h | h <;> simp [h]

/-! ### The events of a link -/

section
variable {s : State} {q : Nat}

theorem pcsUp_of_training {r : Nat} (h : (portOf s q).lstate = .training) (hr : r ≠ 0) :
    pcsUp s q r = setLink (setPort s q { portOf s q with rate := BitVec.ofNat 2 (upRate s q r) }) q .hello := if_pos ⟨h, hr⟩

theorem pcsUp_of_other {r : Nat} (h : (portOf s q).lstate ≠ .training ∨ r = 0) : pcsUp s q r = s :=
  if_neg fun hn => h.elim (fun h => h hn.1) hn.2

theorem linkDown_of_down (h : (portOf s q).lstate = .down ∨ (portOf s q).lstate = .training) : linkDown s q = s := by
  unfold linkDown
  rcases h with h | h <;> simp only [h]

theorem linkDown_of_lonely
    (h : (portOf s q).lstate = .hello ∨ (portOf s q).lstate = .caps ∨ (portOf s q).lstate = .up ∧ (portOf s q).peerValid = false) :
    linkDown s q = dropLink s q := by
  unfold linkDown
  rcases h with h | h | ⟨h, hp⟩
  · simp only [h]
  · simp only [h]
  · simp only [h, hp, Bool.false_eq_true, if_false]

theorem linkDown_of_up (h : (portOf s q).lstate = .up) (hp : (portOf s q).peerValid = true) :
    linkDown s q = neighbourLost (dropLink s q) (portOf s q).peer (portOf s q).peerId := by
  unfold linkDown
  simp only [h, hp, if_true]

theorem restartTimer_of_due (hr : (portOf s q).ready = true) (ht : (portOf s q).restart = true) (hl : (portOf s q).lstate = .down) :
    restartTimer s q = bringUp s q := by
  unfold restartTimer
  simp only [hr, ht, hl, decide_true, Bool.and_self, if_true]

theorem restartTimer_of_idle (h : (portOf s q).ready = false ∨ (portOf s q).restart = false ∨ (portOf s q).lstate ≠ .down) :
    restartTimer s q = s := by
  unfold restartTimer
  rcases h with h | h | h <;> simp [h]

theorem helloTick_of_hello (h : (portOf s q).lstate = .hello) : helloTick s q = sendHello s q := by
  unfold helloTick
  simp only [h]

theorem helloTick_of_caps (h : (portOf s q).lstate = .caps) : helloTick s q = sendCaps (sendHello s q) q := by
  unfold helloTick
  simp only [h]

theorem helloTick_of_other (h : (portOf s q).lstate = .down ∨ (portOf s q).lstate = .training ∨ (portOf s q).lstate = .up) :
    helloTick s q = s := by
  unfold helloTick
  rcases h with h | h | h <;> simp only [h]

end

theorem exec_linkPcsUp (q : Fin 32) (r : BitVec 2) (s : State) : exec (.linkPcsUp q r) s = .next (pcsUp s q.val r.toNat) := rfl
theorem exec_pcsLinkFail (q : Fin 32) (s : State) : exec (.pcsLinkFail q) s = .next (linkDown s q.val) := rfl
theorem exec_linkSilenceTimeout (q : Fin 32) (s : State) : exec (.linkSilenceTimeout q) s = .next (linkDown s q.val) := rfl
theorem exec_linkRestartTimer (q : Fin 32) (s : State) : exec (.linkRestartTimer q) s = .next (restartTimer s q.val) := rfl
theorem exec_helloTimer (q : Fin 32) (s : State) : exec (.helloTimer q) s = .next (helloTick s q.val) := rfl
theorem exec_portGroupStart (g : Fin 8) (s : State) : exec (.portGroupStart g) s = .next (portGroup s g.val) := rfl

/-- Settles O51: each event by the link state that it meets, and a group's start port by port. -/
theorem linkEventsComplete : Obligations.LinkEventsComplete := by
  refine ⟨fun q r s => ⟨fun h hr => ?_, fun h => ?_⟩, fun q s x hx => ?_, fun g s => ⟨fun h => ?_, fun hready hdrain => ?_⟩⟩
  · rw [exec_linkPcsUp, pcsUp_of_training h fun hz => hr (BitVec.eq_of_toNat_eq hz)]
  · rw [exec_linkPcsUp, pcsUp_of_other (h.imp_right fun hz => hz ▸ rfl)]
  · subst hx
    simp only [exec_pcsLinkFail, exec_linkSilenceTimeout, exec_linkRestartTimer, exec_helloTimer]
    refine ⟨fun h => ?_, fun h => ?_, fun h hp => ?_, fun hr ht hl => ?_, fun h => ?_, fun h => ?_, fun h => ?_, fun h => ?_⟩
    · rw [linkDown_of_down h]; exact ⟨rfl, rfl⟩
    · rw [linkDown_of_lonely h]; exact ⟨rfl, rfl⟩
    · rw [linkDown_of_up h hp]; exact ⟨rfl, rfl⟩
    · rw [restartTimer_of_due hr ht hl]
    · rw [restartTimer_of_idle h]
    · rw [helloTick_of_hello h]
    · rw [helloTick_of_caps h]
    · rw [helloTick_of_other h]
  · rw [exec_portGroupStart, portGroup_of_idle h]
  · have hsame : SameCore s (portGroup s g.val) := portGroup_of_live hready hdrain ▸ sameCore_foldl_startPort _ s
    refine ⟨portGroup s g.val, exec_portGroupStart g s, fun i k hi hk => ?_, hsame.1, hsame.2.1⟩
    subst hk
    rw [portGroup_ports hready hdrain hi]
    refine ⟨fun hm => ?_, fun hm => if_pos (.inl hm)⟩
    by_cases hr : (portOf s (4 * g.val + i)).ready = true
    · rw [startedPort, if_pos (.inr hr)]
      exact ⟨hr, fun hn => absurd hr (by simp [hn])⟩
    · rw [startedPort, if_neg (not_or.mpr ⟨hm, hr⟩)]
      exact ⟨rfl, fun _ => rfl⟩

end Sys2Proof.Machine
end


section
/-! PROOFS. The link frames and their timers (R430 to R433, R440, R458). -/
namespace Sys2Proof.Machine

/-! ### What every link frame passes -/

section
variable {s : State} {q kind : Nat} {f : List Byte} (go : State → State)

theorem onFrame_of_pcs_down (h : pcsIsUp (portOf s q) = false) : onFrame s q kind f go = s := by
  rw [onFrame, h]
  rfl

theorem onFrame_of_bad (h : pcsIsUp (portOf s q) = true) (hf : frameOk f = false) : onFrame s q kind f go = countLcrc s := by
  rw [onFrame, h, hf]
  rfl

theorem onFrame_of_kind (h : pcsIsUp (portOf s q) = true) (hf : frameOk f = true) (hk : frKind f = kind) :
    onFrame s q kind f go = go (carriedAck s q f) := by
  rw [onFrame, h, hf, if_neg (by decide), if_neg (by decide), if_neg (not_not_intro hk)]

end

theorem exec_ackFrame (q : Fin 32) (f : List Byte) (s : State) : exec (.ackFrame q f) s = .next (onFrame s q.val kAck f id) := rfl
theorem exec_nakFrame (q : Fin 32) (f : List Byte) (s : State) :
    exec (.nakFrame q f) s = .next (onFrame s q.val kNak f fun t => resendAll t q.val) := rfl
theorem exec_creditFrame (q : Fin 32) (f : List Byte) (s : State) : exec (.creditFrame q f) s = .next (creditArrives s q.val f) := rfl
theorem exec_hello (q : Fin 32) (f : List Byte) (s : State) : exec (.hello q f) s = .next (helloArrives s q.val f) := rfl
theorem exec_caps (q : Fin 32) (f : List Byte) (s : State) : exec (.caps q f) s = .next (capsArrives s q.val f) := rfl
theorem exec_dataFrame (q : Fin 32) (f : List Byte) (s : State) : exec (.dataFrame q f) s = .next (dataArrives s q f) := rfl
theorem exec_ackTimer (q : Fin 32) (s : State) : exec (.ackTimer q) s = .next (ackTick s q.val) := rfl
theorem exec_creditTimer (q : Fin 32) (s : State) : exec (.creditTimer q) s = .next (creditTick s q.val) := rfl
theorem exec_replayTimeout (q : Fin 32) (s : State) : exec (.replayTimeout q) s = .next (resendAll s q.val) := rfl

/-! ### CREDIT, HELLO and capability frames -/

section
variable {s u : State} {q : Nat} {f b : List Byte} {x : Port} (hup : pcsIsUp (portOf s q) = true) (hok : frameOk f = true) (hb : b = frBody f)
  (hu : u = carriedAck s q f) (hx : x = portOf u q)
include hup hok hb hu hx

theorem creditArrives_of_up (hk : frKind f = kCredit) (hl : x.lstate = .up) : creditArrives s q f =
    pump (modPort u q (fun x => { x with
      credit := (List.range 4).foldl (fun t c => tput (initCredit c) c (at_ b (4 * c) 4) t) x.credit })) q := by
  subst hb hu hx
  rw [creditArrives, onFrame_of_kind _ hup hok hk]
  exact if_pos hl

section
variable (hk : frKind f = kMaint) (hop : at_ b 0 1 = 1) (hlen : 16 ≤ b.length)
include hk hop hlen

theorem helloArrives_of_stranger (hl : x.lstate = .caps ∨ x.lstate = .up) (hid : x.peerId ≠ BitVec.ofNat 64 (at_ b 8 8)) :
    helloArrives s q f = linkDown u q := by
  have hother : ((decide (x.lstate = .caps) || decide (x.lstate = .up)) && decide (x.peerId ≠ BitVec.ofNat 64 (at_ b 8 8))) = true := by
    rcases hl with hl | hl <;> simp [hl, hid]
  subst hb hu hx
  rw [helloArrives, onFrame_of_kind _ hup hok hk]
  dsimp only
  rw [if_neg (by simp [hop, hlen]), if_pos hother]

/-- What a HELLO body makes of its port: the peer's versions, identity and address, and that each side has heard the other. -/
def heardPort (x : Port) (b : List Byte) : Port :=
  { x with
    versions := BitVec.ofNat 8 (at_ b 1 1)
    heard := true
    seen := x.seen || bitOf (at_ b 7 1) 0
    peerId := BitVec.ofNat 64 (at_ b 8 8)
    peer := if at_ b 3 1 = 0 then 0 else BitVec.ofNat 16 (at_ b 4 2)
    peerValid := decide (at_ b 3 1 ≠ 0) }

theorem helloArrives_of_peer (h : x.lstate = .hello ∨ x.peerId = BitVec.ofNat 64 (at_ b 8 8)) : helloArrives s q f =
    tryCaps (if at_ b 3 1 = 0 then setPort u q (heardPort x b) else checkConflict
      (noteHello (setPort u q (heardPort x b)) (BitVec.ofNat 16 (at_ b 4 2)) (BitVec.ofNat 64 (at_ b 8 8)) (BitVec.ofNat 8 (at_ b 1 1)))
      (BitVec.ofNat 16 (at_ b 4 2)).toNat (BitVec.ofNat 64 (at_ b 8 8)).toNat (at_ b 3 1)) q := by
  have hsame : ((decide (x.lstate = .caps) || decide (x.lstate = .up)) && decide (x.peerId ≠ BitVec.ofNat 64 (at_ b 8 8))) = false := by
    rcases h with h | h <;> simp [h]
  subst hb hu hx
  rw [helloArrives, onFrame_of_kind _ hup hok hk]
  dsimp only
  rw [if_neg (by simp [hop, hlen]), if_neg (by rw [hsame]; decide)]
  rfl

end

theorem capsArrives_of_next (hk : frKind f = kMaint) (hop : at_ b 0 1 = 2) (hl : x.lstate ≠ .up) (htotal : at_ b 2 2 ≤ 4080) {got : List Byte}
    (hgot : got = if at_ b 1 1 = 0 then [] else x.capsGot) (horder : got.length = 1024 * at_ b 1 1)
    (hfit : got.length + (b.length - 4) ≤ at_ b 2 2) : capsArrives s q f =
    tryUp (setPort u q { x with capsGot := got ++ b.drop 4, capsDone := decide ((got ++ b.drop 4).length = at_ b 2 2) }) q := by
  subst hb hu hx
  rw [capsArrives, onFrame_of_kind _ hup hok hk]
  dsimp only
  rw [← hgot, if_neg (by simp [hop, hl, htotal, horder.symm, hfit])]

end

/-! ### DATA frames -/

section
variable {s u : State} {q : Fin 32} {f : List Byte} (hl : (portOf s q.val).lstate = .up)
include hl

theorem dataArrives_of_bad (hf : frameOk f = false) : dataArrives s q f = refuseData (countLcrc s) q.val := by
  simp only [dataArrives, hl, hf, ne_eq, not_true_eq_false, if_false, Bool.not_false, if_true]

section
variable {n : Nat} (hf : frameOk f = true) (hk : frKind f = kData) (hu : u = carriedAck s q.val f)
  (hn : n = ((portOf s q.val).rxLast.map (fun l => (l + 1) % 4096)).getD 0)
include hf hk hu hn

theorem dataArrives_of_good : dataArrives s q f = if frLseq f ≠ n then refuseData u q.val
    else owe (modPort u q.val (fun x => { x with rxLast := some n, nakSent := false, ackDue := true }))
      (.run (.packetForward (some q) (frBody f))) := by
  subst hn hu
  rw [dataArrives, if_neg (not_not_intro hl), if_neg (by rw [hf]; decide), if_neg (not_not_intro hk)]
  cases (portOf s q.val).rxLast <;> rfl

end

end

/-! ### The timers of a link -/

section
variable {s : State} {q : Nat}

theorem ackTick_of_due (hl : (portOf s q).lstate = .up) (hd : (portOf s q).ackDue = true) : ackTick s q = linkSend s q kAck 0 [] :=
  if_pos ⟨hl, hd⟩

theorem ackTick_of_idle (h : (portOf s q).lstate ≠ .up ∨ (portOf s q).ackDue = false) : ackTick s q = s :=
  if_neg fun hn => h.elim (fun h => h hn.1) fun h => absurd hn.2 (by rw [h]; decide)

theorem creditTick_of_up (h : (portOf s q).lstate = .up) : creditTick s q =
    linkSend s q kCredit 0 ((List.range 4).flatMap (fun c => leBytes 4 (initCredit c + tget 0 c (portOf s q).granted))) := if_pos h

theorem creditTick_of_other (h : (portOf s q).lstate ≠ .up) : creditTick s q = s := if_neg h

theorem resendAll_of_silent (h : carriesData s (portOf s q) = false) : resendAll s q = s := by
  unfold resendAll
  exact if_pos (by rw [h]; rfl)

theorem resendAll_of_given_up (h : carriesData s (portOf s q) = true) (hmany : ∃ f ∈ (portOf s q).replay, 8 ≤ f.sends) :
    resendAll s q = linkDown s q := by
  obtain ⟨f, hf, h8⟩ := hmany
  have hany : (portOf s q).replay.any (fun f => decide (8 ≤ f.sends)) = true := List.any_eq_true.mpr ⟨f, hf, decide_eq_true h8⟩
  have hne : (portOf s q).replay.isEmpty = false := by
    cases hr : (portOf s q).replay with
    | nil => simp [hr] at hf
    | cons => rfl
  unfold resendAll
  dsimp only
  rw [if_neg (by rw [h, hne]; decide), if_pos hany]

/-- Send one unacknowledged frame again and count it. -/
def replayFrame (q : Nat) (s : State) (f : TxFrame) : State :=
  linkSend (countFab s 1 (·.replayCnt) (fun f c => { f with replayCnt := c })) q kData f.lseq f.packet

/-- Every unacknowledged frame is marked as sent once more. -/
def markSent (x : Port) : Port := { x with replay := x.replay.map (fun f => { f with sends := f.sends + 1 }) }

theorem resendAll_of_replay (h : carriesData s (portOf s q) = true) (hfew : ∀ f ∈ (portOf s q).replay, f.sends < 8) :
    resendAll s q = if (portOf s q).replay.isEmpty then s
      else (portOf s q).replay.foldl (replayFrame q) (setPort s q (markSent (portOf s q))) := by
  have hany : ¬ (portOf s q).replay.any (fun f => decide (8 ≤ f.sends)) = true := by
    rw [List.any_eq_true]
    rintro ⟨f, hf, h8⟩
    exact absurd (of_decide_eq_true h8) (Nat.not_le.mpr (hfew f hf))
  unfold resendAll
  dsimp only
  rw [h, if_neg hany]
  rfl

end

/-- A frame sent again leaves the memory, the cores and the configuration. -/
theorem sameCore_replayFrame (q : Nat) (s : State) (f : TxFrame) : SameCore s (replayFrame q s f) :=
  ⟨by simp [replayFrame, linkSend, modPort, setPort, countFab], by simp [replayFrame, linkSend, modPort, setPort, countFab],
    by simp [replayFrame, linkSend, modPort, setPort, countFab]⟩

theorem portOf_countFab {n : Nat} {get : Fabric → Counter} {set : Fabric → Counter → Fabric} (hset : ∀ f c, (set f c).ports = f.ports)
    (s : State) (q : Nat) : portOf (countFab s n get set) q = portOf s q := by
  simp only [portOf, countFab, fireIfEnabled_fab, hset]

theorem portOf_linkSend {s : State} {q : Nat} (hl : (portOf s q).lstate ≠ .down) (kind lseq : Nat) (body : List Byte) :
    portOf (linkSend s q kind lseq body) q = { portOf s q with ackDue := false } := by
  have hne : ({ portOf s q with ackDue := false } : Port) ≠ {} := port_ne_default_of_lstate hl
  exact portOf_setPort hne s q

theorem portOf_replayFrame {s : State} {q : Nat} (hl : (portOf s q).lstate ≠ .down) (f : TxFrame) :
    portOf (replayFrame q s f) q = { portOf s q with ackDue := false } := by
  have hc := portOf_countFab (n := 1) (get := (·.replayCnt)) (set := fun f c => { f with replayCnt := c }) (fun _ _ => rfl) s q
  rw [replayFrame, portOf_linkSend (by rwa [hc]), hc]

/-- Sending frames again leaves the port's replay buffer, and the memory, the cores and the configuration. -/
theorem foldl_replayFrame_leaves (l : List TxFrame) {s : State} {q : Nat} (hl : (portOf s q).lstate ≠ .down) :
    (portOf (l.foldl (replayFrame q) s) q).replay = (portOf s q).replay ∧ SameCore s (l.foldl (replayFrame q) s) := by
  induction l generalizing s with
  | nil => exact ⟨rfl, SameCore.refl s⟩
  | cons f l ih =>
    have hp := portOf_replayFrame hl f
    obtain ⟨hreplay, hsame⟩ := ih (s := replayFrame q s f) (by rwa [hp])
    exact ⟨hreplay.trans (by rw [hp]), (sameCore_replayFrame q s f).trans hsame⟩

theorem lstate_of_carriesData {s : State} {x : Port} (h : carriesData s x = true) : x.lstate = .up :=
  of_decide_eq_true (Bool.and_eq_true _ _ ▸ h).1

theorem resendAll_counts {s : State} {q : Nat} (h : carriesData s (portOf s q) = true) (hfew : ∀ f ∈ (portOf s q).replay, f.sends < 8) :
    (portOf (resendAll s q) q).replay = (portOf s q).replay.map (fun f => { f with sends := f.sends + 1 }) ∧ SameCore s (resendAll s q) := by
  have hl : (markSent (portOf s q)).lstate ≠ .down := fun hd => absurd ((lstate_of_carriesData h).symm.trans hd) (by decide)
  have hp := portOf_setPort (port_ne_default_of_lstate hl) s q
  rw [resendAll_of_replay h hfew]
  split
  · next hempty => exact ⟨by rw [List.isEmpty_iff.mp hempty]; rfl, SameCore.refl s⟩
  · obtain ⟨hreplay, hsame⟩ := foldl_replayFrame_leaves (portOf s q).replay (s := setPort s q (markSent (portOf s q))) (by rwa [hp])
    exact ⟨hreplay.trans (by rw [hp]; rfl), (sameCore_setPort s q _).trans hsame⟩

/-- Settles O52: each kind of frame behind what all of them pass, and each timer by the port's state. -/
theorem linkFramesComplete : Obligations.LinkFramesComplete := by
  refine ⟨fun q f s => ?_, fun q f b s u x hup hok hb hu hx => ?_, fun q f s u hl => ?_, fun q s x hx => ?_⟩
  · simp only [exec_ackFrame, exec_nakFrame, exec_creditFrame, exec_hello, exec_caps, creditArrives, helloArrives, capsArrives]
    refine ⟨fun hdown => ?_, fun hup hbad => ?_⟩
    · simp only [onFrame_of_pcs_down _ hdown, and_self]
    · simp only [onFrame_of_bad _ hup hbad, and_self]
  · simp only [exec_ackFrame, exec_nakFrame, exec_creditFrame, exec_hello, exec_caps]
    refine ⟨fun hk => ?_, fun hk => ?_, fun hk hl => ?_, fun hk hop hlen => ⟨fun hl hid => ?_, fun v h hv => ⟨fun hst => ?_, fun hst => ?_⟩⟩,
      fun hk hop hl htotal got hgot horder hfit => ?_⟩
    · rw [onFrame_of_kind _ hup hok hk, hu]; rfl
    · rw [onFrame_of_kind _ hup hok hk, hu]
    · rw [creditArrives_of_up hup hok hb hu hx hk hl]
    · rw [helloArrives_of_stranger hup hok hb hu hx hk hop hlen hl hid]
    · rw [helloArrives_of_peer hup hok hb hu hx hk hop hlen h, if_pos hst, hv]; rfl
    · rw [helloArrives_of_peer hup hok hb hu hx hk hop hlen h, if_neg hst, hv]; rfl
    · rw [capsArrives_of_next hup hok hb hu hx hk hop hl htotal hgot horder hfit]
  · simp only [exec_dataFrame]
    refine ⟨fun hbad => ?_, fun hok hk hu n hn => ⟨fun hseq => ?_, fun hseq => ?_⟩⟩
    · rw [dataArrives_of_bad hl hbad]
    · rw [dataArrives_of_good hl hok hk hu hn, if_neg (not_not_intro hseq)]
    · rw [dataArrives_of_good hl hok hk hu hn, if_pos hseq]
  · subst hx
    simp only [exec_ackTimer, exec_creditTimer, exec_replayTimeout]
    refine ⟨fun hl hd => ?_, fun h => ?_, fun hl => ?_, fun hl => ?_, fun h => ?_, fun h hmany => ?_, fun h hfew => ?_⟩
    · rw [ackTick_of_due hl hd]
    · rw [ackTick_of_idle h]
    · rw [creditTick_of_up hl]
    · rw [creditTick_of_other hl]
    · rw [resendAll_of_silent h]
    · rw [resendAll_of_given_up h hmany]
    · obtain ⟨hreplay, hmem, hcores, _⟩ := resendAll_counts h hfew
      exact ⟨_, rfl, hreplay, hmem, hcores⟩

end Sys2Proof.Machine
end


section
/-! PROOFS. The router, the packets that reach their destination, and membership (R301, R330, R339, R345, R434, R435, R441 to R445,
R452 to R455, R459, R493, R494). -/
namespace Sys2Proof.Machine

theorem exec_packetForward (o : Option (Fin 32)) (b : List Byte) (s : State) : exec (.packetForward o b) s = .next (forward s o b) := rfl

/-! ### The router -/

section
variable {s : State} {o : Option (Fin 32)} {b : List Byte}

theorem forward_of_bad (h : b.length < 36 ∨ (o.isSome = true ∧ pkHops b = 31) ∨ (pkMc b = true ∧ mayMulticast (pkType b) = false)) :
    forward s o b = countDrop (drainPacket s o b) := by
  unfold forward
  dsimp only
  by_cases hlen : b.length < 36
  · rw [if_pos hlen]
  · by_cases hhops : o.isSome = true ∧ pkHops b = 31
    · rw [if_neg hlen, if_pos (by simp [hhops])]
    · obtain ⟨hmc, hmay⟩ := (h.resolve_left hlen).resolve_left hhops
      rw [if_neg hlen, if_neg (by simpa using hhops), if_pos (by simp [hmc, hmay])]

section
variable (hlen : 36 ≤ b.length) (hhops : o = none ∨ pkHops b ≠ 31) (hmc : pkMc b = false)
include hlen hhops hmc

/-- A well-formed unicast packet is delivered here or routed on. -/
theorem forward_of_unicast : forward s o b =
    if (hasAddr s && decide (pkDst b = s.fab.addr.toNat)) = true then deliverTo s o (pkDpart b) b
    else if onDedicated s o = true then routeMiss (drainPacket s o b)
    else routeOn (drainPacket s o b) (if o.isSome = true then withHops b (pkHops b + 1) else b) o.isNone := by
  have hgo : ¬ (o.isSome && decide (pkHops b = 31)) = true := by
    rcases hhops with h | h <;> simp [h]
  unfold forward
  dsimp only
  rw [if_neg (Nat.not_lt.mpr hlen), if_neg hgo, hmc]
  rfl

theorem forward_of_transit (h : hasAddr s = false ∨ pkDst b ≠ s.fab.addr.toNat) : forward s o b =
    if onDedicated s o = true then routeMiss (drainPacket s o b)
    else routeOn (drainPacket s o b) (if o.isSome = true then withHops b (pkHops b + 1) else b) o.isNone := by
  rw [forward_of_unicast hlen hhops hmc, if_neg]
  rcases h with h | h <;> simp [h]

theorem forward_of_local (ha : hasAddr s = true) (hd : pkDst b = s.fab.addr.toNat) : forward s o b = deliverTo s o (pkDpart b) b := by
  rw [forward_of_unicast hlen hhops hmc, if_pos (by rw [ha, hd, decide_eq_true rfl]; rfl)]

end

theorem deliverTo_of_bad (h : pkGood b = false) (p : Nat) : deliverTo s o p b = countEcrc (drainPacket s o b) := if_pos (by rw [h]; rfl)

theorem deliverTo_of_event {p : Nat} {i : Instr} (h : pkGood b = true) (hlo : 1 ≤ pkVersion b) (hhi : pkVersion b ≤ 3)
    (hp : (part s p).pstate ≠ .scrubbing) (hi : packetEvent o p b = some i) :
    deliverTo s o p b = breakQuag (owe (if pkType b = 0x10 then s else drainPacket s o b) (.run i)) p := by
  unfold deliverTo
  dsimp only
  rw [h, if_neg (by decide), if_neg (by omega), if_neg (fun hs => hp hs.1), hi]

end

/-- Settles O53: the router's checks in order, then where the packet is for. -/
theorem packetsAreRouted : Obligations.PacketsAreRouted := by
  intro o b s
  rw [exec_packetForward]
  refine ⟨fun h => by rw [forward_of_bad h], fun hlen hhops hmc => ⟨fun ha hd => ?_, fun h => ?_⟩⟩
  · rw [forward_of_local hlen hhops hmc ha hd]
    exact ⟨fun hbad => by rw [deliverTo_of_bad hbad],
      fun hgood hlo hhi hp i hi => by rw [deliverTo_of_event hgood hlo hhi hp hi]⟩
  · rw [forward_of_transit hlen hhops hmc h]
    refine ⟨fun ho => ?_, fun q ho hded => ?_, fun q ho hded => ?_⟩
    · subst ho; rfl
    · subst ho; rw [if_pos (show onDedicated s (some q) = true from hded)]
    · subst ho; rw [if_neg (by rw [onDedicated, hded]; decide)]; rfl

/-! ### Packets at their destination -/

theorem exec_cmd (p : Fin 16) (b : List Byte) (s : State) : exec (.cmd p b) s = .next (if s.ready then cmdArrives s p.val b else s) := rfl
theorem exec_reply (b : List Byte) (s : State) : exec (.reply b) s = .next (replyArrives s b) := rfl
theorem exec_param (p : Fin 16) (b : List Byte) (s : State) :
    exec (.param p b) s = .next (if !pkGood b then countEcrc s else paramArrives s p.val b) := rfl
theorem exec_gradSeg (o : Option (Fin 32)) (b : List Byte) (s : State) : exec (.gradSeg o b) s = .next (gradArrives s o b) := rfl
theorem exec_discQuery (b : List Byte) (s : State) : exec (.discQuery b) s = .next (queryArrives s b) := rfl
theorem exec_discReply (b : List Byte) (s : State) : exec (.discReply b) s = .next (discReplyArrives s b) := rfl
theorem exec_probe (b : List Byte) (s : State) : exec (.probe b) s = .next (probeArrives s b) := rfl
theorem exec_probeReply (b : List Byte) (s : State) : exec (.probeReply b) s = .next (probeAnswered s b) := rfl
theorem exec_announce (o : Option (Fin 32)) (b : List Byte) (s : State) : exec (.announce o b) s = .next (announceArrives s o b) := rfl
theorem exec_remoteReplyTimeout (c : BitVec 16) (n : BitVec 32) (s : State) :
    exec (.remoteReplyTimeout c n) s = .next (remoteTimeout s c.toNat n.toNat) := rfl
theorem exec_discoverTimeout (a : BitVec 16) (s : State) : exec (.discoverTimeout a) s = .next (discoverTimeout s a.toNat) := rfl
theorem exec_reductionRootTimeout (p : Fin 16) (n : BitVec 16) (s : State) :
    exec (.reductionRootTimeout p n) s = .next (rootTimeout s p.val n.toNat) := rfl

/-- A packet whose ECRC fails is counted, whatever its TYPE. -/
theorem bad_packet_counted {b : List Byte} (h : pkGood b = false) (s : State) (p : Nat) :
    cmdArrives s p b = countEcrc s ∧ replyArrives s b = countEcrc s ∧ queryArrives s b = countEcrc s ∧ discReplyArrives s b = countEcrc s ∧
      probeArrives s b = countEcrc s ∧ probeAnswered s b = countEcrc s ∧ announceArrives s none b = countEcrc s := by
  have hbad : (!pkGood b) = true := by rw [h]; rfl
  exact ⟨if_pos hbad, if_pos hbad, if_pos hbad, if_pos hbad, if_pos hbad, if_pos hbad, if_neg (by rw [h]; decide)⟩

section
variable {s : State} {b : List Byte} (h : pkGood b = true)
include h

theorem cmdArrives_of_good (p : Nat) : cmdArrives s p b = takePacket s
    (.fabric (BitVec.ofNat 16 (pkSrc b)) (BitVec.ofNat 4 (pkSpart b)) (BitVec.ofNat 4 p)) (pkPayload b ++ zeros (256 - (pkPayload b).length)) :=
  if_neg (by rw [h]; decide)

theorem replyArrives_of_answered {w : Waiting} (hw : remoteOf s b = some w) :
    replyArrives s b = endWaiting s w (statusOf (at_ (pkPayload b) 4 2)) (at_ (pkPayload b) 20 4) [] := by
  rw [replyArrives, if_neg (by rw [h]; decide), hw]

theorem replyArrives_of_stray (hw : remoteOf s b = none) : replyArrives s b = s := by
  rw [replyArrives, if_neg (by rw [h]; decide), hw]

theorem gradArrives_of_bucket {o : Option (Fin 32)} {x : Bucket} (hx : bucketOf s (pkDpart b) (at_ (pkArg b) 0 2) = some x)
    (hlost : x.lost = false) : gradArrives s o b =
    settle (offer s (pkDpart b) (at_ (pkArg b) 0 2) (gradFrame x o b)) (pkDpart b) (at_ (pkArg b) 0 2) := by
  unfold gradArrives
  dsimp only
  rw [if_neg (by rw [h]; decide), hx]
  exact if_neg (by rw [hlost]; decide)

theorem gradArrives_of_stray {o : Option (Fin 32)} (hx : bucketOf s (pkDpart b) (at_ (pkArg b) 0 2) = none) :
    gradArrives s o b = drainPort (countDrop s) o 1 (frameBlocks b) := by
  unfold gradArrives
  dsimp only
  rw [if_neg (by rw [h]; decide), hx]

theorem queryArrives_of_good : queryArrives s b =
    originate s 0x41 0 false (pkSpart b) (pkDpart b) (pkSrc b) 0 0 [] (discPayload s (pkDpart b) (decide (pkFlow b = 0x10000))) :=
  if_neg (by rw [h]; decide)

theorem probeArrives_of_good : probeArrives s b = originate s 0x43 0 false (pkSpart b) (pkDpart b) (pkSrc b) 0 0 [] [] :=
  if_neg (by rw [h]; decide)

theorem probeAnswered_of_good : probeAnswered s b =
    { s with fab := { s.fab with probing := s.fab.probing.filter (fun x => !(decide (x.addr.toNat = pkSrc b) && x.sent)) } } :=
  if_neg (by rw [h]; decide)

theorem announceArrives_of_good : announceArrives s none b = learn s (pkArg b) := if_pos h

theorem discReplyArrives_of_answer {v u : State} {k : Known} {w : Waiting}
    (hv : v = noteHello s (BitVec.ofNat 16 (pkSrc b)) (BitVec.ofNat 64 (at_ (pkPayload b) 0 8)) (BitVec.ofNat 8 (at_ (pkPayload b) 10 1)))
    (hk : knownOf v (BitVec.ofNat 16 (pkSrc b)) = some k)
    (hu : u = checkConflict (setKnown v { k with caps := slice (pkPayload b) 16 (at_ (pkPayload b) 12 2) }) (BitVec.ofNat 16 (pkSrc b)).toNat
      (BitVec.ofNat 64 (at_ (pkPayload b) 0 8)).toNat (at_ (pkPayload b) 8 1))
    (hw : discoverOf u (BitVec.ofNat 16 (pkSrc b)).toNat (some (pkSpart b)) = some w) :
    discReplyArrives s b = endWaiting u w .ok 0 (pkPayload b) := by
  unfold discReplyArrives
  dsimp only
  rw [if_neg (by rw [h]; decide), ← hv, hk]
  dsimp only
  rw [← hu, hw]

end

/-! ### Parameters -/

section
variable {s : State} {p : Nat} {b : List Byte}

theorem paramArrives_of_none (h : job s p = none) : paramArrives s p b = s := by rw [paramArrives, h]

section
variable {j : Job} (hj : job s p = some j)
include hj

theorem paramArrives_of_stopping (h : j.stopping = true) : paramArrives s p b = s := by
  rw [paramArrives, hj]
  dsimp only
  rw [h]
  rfl

section
variable {k : Nat} (hrun : j.stopping = false) (hk : j.gathers.findIdx? (fun g => decide (gaMcast g = pkDst b)) = some k)
  (henc : at_ (pkArg b) 13 1 < 2)
include hrun hk henc

theorem paramArrives_of_old (ht : tagStep j.step.toNat (at_ (pkArg b) 0 4) = none) :
    paramArrives s p b = setJob s p { j with dropped := j.dropped + 1 } := by
  rw [paramArrives, hj]
  dsimp only
  rw [hrun, if_neg Bool.false_ne_true, hk]
  dsimp only
  rw [if_neg (Nat.not_le.mpr henc), ht]

theorem paramArrives_of_early {t : Nat} (ht : tagStep j.step.toNat (at_ (pkArg b) 0 4) = some t) (hstep : j.step.toNat + 2 ≤ t) :
    paramArrives s p b = setJob s p { j with held := j.held ++ [{ step := t, packet := b }] } := by
  rw [paramArrives, hj]
  dsimp only
  rw [hrun, if_neg Bool.false_ne_true, hk]
  dsimp only
  rw [if_neg (Nat.not_le.mpr henc), ht]
  exact if_pos hstep

theorem paramArrives_of_gather {t : Nat} {g : GatherCfg} (ht : tagStep j.step.toNat (at_ (pkArg b) 0 4) = some t)
    (hstep : t < j.step.toNat + 2) (hg : j.gathers[k]? = some g) : paramArrives s p b = gatherArrival s p k g t b := by
  rw [paramArrives, hj]
  dsimp only
  rw [hrun, if_neg Bool.false_ne_true, hk]
  dsimp only
  rw [if_neg (Nat.not_le.mpr henc), ht]
  dsimp only
  rw [if_neg (Nat.not_le.mpr hstep), hg]

end

end

end

/-! ### Announcements on a link, and the timeouts -/

section
variable {s : State}

theorem announceArrives_of_frame {q : Fin 32} {f : List Byte} (hup : pcsIsUp (portOf s q.val) = true) (hok : frameOk f = true)
    (hk : frKind f = kMaint) (hop : at_ (frBody f) 0 1 = 3) (hlen : 15 ≤ frLen f) :
    announceArrives s (some q) f = learn (carriedAck s q.val f) (slice (frBody f) 1 14) := by
  rw [announceArrives, onFrame_of_kind _ hup hok hk]
  exact if_pos ⟨hop, hlen⟩

theorem remoteTimeout_of_waiting {n m : Nat} {w : Waiting} (h : s.waiting.find? (fun w => decide (w.wait = .remote n m)) = some w) :
    remoteTimeout s n m = endWaiting s w .deferred 1 [] := by rw [remoteTimeout, h]

theorem remoteTimeout_of_none {n m : Nat} (h : s.waiting.find? (fun w => decide (w.wait = .remote n m)) = none) :
    remoteTimeout s n m = s := by rw [remoteTimeout, h]

theorem discoverTimeout_of_waiting {a : Nat} {w : Waiting} (h : discoverOf s a none = some w) :
    discoverTimeout s a = endWaiting s w .ok 0 (zeros 8 ++ [0xFF] ++ zeros 7) := by rw [discoverTimeout, h]

theorem discoverTimeout_of_none {a : Nat} (h : discoverOf s a none = none) : discoverTimeout s a = s := by rw [discoverTimeout, h]

/-- The root's timer marks the silent slots, and ends the waits when there are any. -/
theorem rootTimeout_of_open {p n : Nat} {pl : Plan} {x y : Bucket} {r : Reduction} (hpl : planOf s p = some pl) (hx : bucketOf s p n = some x)
    (hr : x.red = some r) (ht : r.timer = true) (ho : r.isOpen = true)
    (hy : y = { x with
      red := some { r with
        timer := false
        missing := silentSlots (plMode pl) x r
        reported := !(silentSlots (plMode pl) x r).isEmpty } }) :
    rootTimeout s p n = if (silentSlots (plMode pl) x r).isEmpty then setBucket s p n y
      else endRedWaits (setBucket s p n y) p n r.tag .missingContribution (waitRecord y r.tag) := by
  rw [rootTimeout, hpl, hx]
  dsimp only
  rw [hr]
  dsimp only
  rw [← hy, if_neg (by rw [ht, ho]; decide)]

end

/-- Settles O54, one kind of packet or timeout after the other. -/
theorem deliveredPacketsComplete : Obligations.DeliveredPacketsComplete := by
  refine ⟨fun p b s hbad => ?_, fun p b s hgood hready => ?_, fun b s hgood => ⟨fun w hw => ?_, fun hw => ?_⟩,
    fun o b s x hgood => ⟨fun hx hlost => ?_, fun hx => ?_⟩, fun p b s hgood => ?_, fun b s hgood => ?_,
    fun b s v u k w hgood hv hk hu hw => ?_, fun q f s hup hok hk hop hlen => ?_, fun c n s => ⟨fun w hw => ?_, fun hw => ?_⟩,
    fun a s => ⟨fun w hw => ?_, fun hw => ?_⟩, fun p n s pl x y r hpl hx hr ht ho hy => ⟨fun hm => ?_, fun hm => ?_⟩⟩
  · obtain ⟨hcmd, hreply, hquery, hdisc, hprobe, hanswer, hann⟩ := bad_packet_counted hbad s p.val
    rw [exec_cmd, exec_reply, exec_param, exec_discQuery, exec_discReply, exec_probe, exec_probeReply, exec_announce, hcmd, hreply, hquery,
      hdisc, hprobe, hanswer, hann, hbad]
    exact ⟨fun hready => by rw [if_pos hready], rfl, rfl, rfl, rfl, rfl, rfl, rfl⟩
  · rw [exec_cmd, if_pos hready, cmdArrives_of_good hgood]
  · rw [exec_reply, replyArrives_of_answered hgood hw]
  · rw [exec_reply, replyArrives_of_stray hgood hw]
  · rw [exec_gradSeg, gradArrives_of_bucket hgood hx hlost]
  · rw [exec_gradSeg, gradArrives_of_stray hgood hx]
  · rw [exec_param, if_neg (by rw [hgood]; decide)]
    refine ⟨fun hj => ?_, fun j hj hstop => ?_, fun j k hj hrun hk henc => ⟨fun ht => ?_, fun t ht => ⟨fun hstep => ?_, fun g hstep hg => ?_⟩⟩⟩
    · rw [paramArrives_of_none hj]
    · rw [paramArrives_of_stopping hj hstop]
    · rw [paramArrives_of_old hj hrun hk henc ht]
    · rw [paramArrives_of_early hj hrun hk henc ht hstep]
    · rw [paramArrives_of_gather hj hrun hk henc ht hstep hg]
  · rw [exec_discQuery, exec_probe, exec_probeReply, exec_announce, queryArrives_of_good hgood, probeArrives_of_good hgood,
      probeAnswered_of_good hgood, announceArrives_of_good hgood]
    exact ⟨rfl, rfl, rfl, rfl⟩
  · rw [exec_discReply, discReplyArrives_of_answer hgood hv hk hu hw]
  · rw [exec_announce, announceArrives_of_frame hup hok hk hop hlen]
  · rw [exec_remoteReplyTimeout, remoteTimeout_of_waiting hw]
  · rw [exec_remoteReplyTimeout, remoteTimeout_of_none hw]
  · rw [exec_discoverTimeout, discoverTimeout_of_waiting hw]
  · rw [exec_discoverTimeout, discoverTimeout_of_none hw]
  · rw [exec_reductionRootTimeout, rootTimeout_of_open hpl hx hr ht ho hy, if_neg (by simpa using hm)]
  · rw [exec_reductionRootTimeout, rootTimeout_of_open hpl hx hr ht ho hy, if_pos (by simp [hm])]

/-! ### Membership -/

section
variable {s : State}

theorem joined_of_joining (h : s.fab.mode = .joining) :
    joined s = announceAll { s with fab := { s.fab with mode := .active } } 1 s.fab.addr deviceNum := if_pos h

theorem joined_of_other (h : s.fab.mode ≠ .joining) : joined s = s := if_neg h

theorem drainEnd_of_idle (h : s.fab.mode ≠ .draining ∨ s.fab.departing = true) : drainEnd s = s := if_pos h

theorem drainEnd_of_draining (hm : s.fab.mode = .draining) (hd : s.fab.departing = false) : drainEnd s =
    if (jobParts s).isEmpty then announceDepart s
    else if s.fab.drain.isSome then announceDepart ((jobParts s).foldl (fun s p => dropJob s p 1) s) else s :=
  if_neg fun h => h.elim (fun h => h hm) fun h => absurd (hd.symm.trans h) (by decide)

theorem departTimeout_of_departing (h : s.fab.departing = true) :
    departTimeout s = enterStandby ((List.range 16).foldl unbindNow s) := if_neg (by rw [h]; decide)

theorem departTimeout_of_other (h : s.fab.departing = false) : departTimeout s = s := if_pos (by rw [h]; rfl)

theorem probeDelay_of_due {a : BitVec 16} (h : s.fab.probing.any (fun x => decide (x.addr = a) && !x.sent) = true) :
    probeDelay s a = originate { s with fab := { s.fab with
      probing := s.fab.probing.map (fun x => if x.addr = a then { x with sent := true } else x) } } 0x42 0 false 0 (devSpart s) a.toNat 0 0 [] [] :=
  if_pos h

theorem probeDelay_of_none {a : BitVec 16} (h : s.fab.probing.any (fun x => decide (x.addr = a) && !x.sent) = false) : probeDelay s a = s :=
  if_neg (by rw [h]; decide)

theorem probeTimeout_of_sent {a : BitVec 16} {x : Probing} (h : s.fab.probing.find? (fun x => decide (x.addr = a) && x.sent) = some x) :
    probeTimeout s a = announceLost { s with fab := { s.fab with
      probing := s.fab.probing.filter (fun y => decide (y.addr ≠ a)) } } a x.id.toNat := by rw [probeTimeout, h]

theorem probeTimeout_of_none {a : BitVec 16} (h : s.fab.probing.find? (fun x => decide (x.addr = a) && x.sent) = none) :
    probeTimeout s a = s := by rw [probeTimeout, h]

end

theorem exec_joiningTimeout (s : State) : exec .joiningTimeout s = .next (joined s) := rfl
theorem exec_drainEnd (s : State) : exec .drainEnd s = .next (drainEnd s) := rfl
theorem exec_departTimeout (s : State) : exec .departTimeout s = .next (departTimeout s) := rfl
theorem exec_probeDelay (a : BitVec 16) (s : State) : exec (.probeDelay a) s = .next (probeDelay s a) := rfl
theorem exec_probeTimeout (a : BitVec 16) (s : State) : exec (.probeTimeout a) s = .next (probeTimeout s a) := rfl

/-- Settles O55, by the mode of the device and by what is being probed. -/
theorem membershipEventsComplete : Obligations.MembershipEventsComplete := by
  refine ⟨fun s => ?_, fun a s => ?_⟩
  · rw [exec_joiningTimeout, exec_drainEnd, exec_departTimeout]
    refine ⟨fun h => by rw [joined_of_joining h], fun h => by rw [joined_of_other h], fun hm hd => ?_, fun h => by rw [drainEnd_of_idle h],
      fun h => by rw [departTimeout_of_departing h], fun h => by rw [departTimeout_of_other h]⟩
    rw [drainEnd_of_draining hm hd]
    refine ⟨fun hjobs => ?_, fun hjobs hlimit => ?_, fun hjobs hlimit => ?_⟩
    · rw [if_pos (by rw [hjobs]; rfl)]
    · rw [if_neg (by simpa using hjobs), if_pos hlimit]
    · rw [if_neg (by simpa using hjobs), if_neg (by simp [hlimit])]
  · rw [exec_probeDelay, exec_probeTimeout]
    exact ⟨fun h => by rw [probeDelay_of_due h], fun h => by rw [probeDelay_of_none h], fun x h => by rw [probeTimeout_of_sent h],
      fun h => by rw [probeTimeout_of_none h]⟩

end Sys2Proof.Machine
end


section
/-! PROOFS. The lead token and the request for STANDBY (R593, R597 to R599). -/
namespace Sys2Proof.Machine

theorem exec_pwrLeadAck (d : Fin 2) (g : BitVec 64) (s : State) : exec (.pwrLeadAck d g) s = .next (leadAck s d.val g.toNat) := rfl
theorem exec_pwrLeadRelease (d : Fin 2) (g : BitVec 64) (s : State) : exec (.pwrLeadRelease d g) s = .next (leadRelease s d.val g.toNat) := rfl
theorem exec_standbyRequest (d : Fin 2) (g : BitVec 64) (s : State) : exec (.standbyRequest d g) s = .next (standbyRequest s d.val g.toNat) := rfl
theorem exec_leadOfferTimeout (s : State) :
    exec .leadOfferTimeout s = .next (if s.power.lead.offered then offerLead s (1 - s.power.lead.die) else s) := rfl
theorem exec_leadKeepaliveTimeout (s : State) :
    exec .leadKeepaliveTimeout s = .next (if s.power.lead.held then offerLead s (1 - s.power.lead.die) else s) := rfl

section
variable {s : State} {d g : Nat}

/-! ### Acknowledgement and release -/

theorem leadAck_of_equal (h : equalClaim s d g = true) : leadAck s d g = leadConflict s d g := if_pos h

theorem leadAck_of_unequal (h : equalClaim s d g = false) : leadAck s d g =
    if s.power.lead.offered ∧ s.power.lead.die = d ∧ s.power.lead.gen.toNat = g then
      modLead s (fun l => { l with offered := false, held := true, frozen := false })
    else s := if_neg (by rw [h]; decide)

theorem leadRelease_of_holder (hh : s.power.lead.held = true) (hd : s.power.lead.die = d) (hg : s.power.lead.gen.toNat = g) :
    leadRelease s d g = offerLead s (1 - d) := if_pos ⟨hh, hd, hg⟩

theorem leadRelease_of_other (h : s.power.lead.held = false ∨ s.power.lead.die ≠ d ∨ s.power.lead.gen.toNat ≠ g) : leadRelease s d g = s :=
  if_neg fun hn => h.elim (fun h => absurd (h.symm.trans hn.1) (by decide)) fun h => h.elim (· hn.2.1) (· hn.2.2)

/-! ### The request for STANDBY -/

theorem sharedAction_of_holder (he : equalClaim s d g = false) (hh : s.power.lead.held = true) (hf : s.power.lead.frozen = false)
    (hd : s.power.lead.die = d) (hg : s.power.lead.gen.toNat = g) : sharedAction s d g = (true, s) := by
  simp [sharedAction, he, hh, hf, hd, hg]

/-- What keeps the device out of STANDBY: a bound partition, a core that does not rest, a removal or a departure under way. -/
theorem standbyRequest_of_holder (hready : s.ready = true) (h : sharedAction s d g = (true, s)) : standbyRequest s d g =
    if ((List.range 16).any (bound s) || !coresRest s || draining s || s.fab.departing) = true
    then { s with power := { s.power with refused := true } } else announceDepart s := by
  rw [standbyRequest, if_neg (by rw [hready]; decide), h]
  rfl

end

theorem any_bound_eq_false {s : State} (h : ∀ p, p < 16 → bound s p = false) : (List.range 16).any (bound s) = false :=
  List.any_eq_false.mpr fun p hp => by
    rw [h p (List.mem_range.mp hp)]
    decide

/-! ### The offer -/

theorem offerLead_lead (s : State) (d : Nat) :
    (offerLead s d).power.lead = { s.power.lead with gen := s.power.lead.gen + 1, held := false, offered := true, die := d } := by
  simp [offerLead, modLead, modPower]

theorem offerLead_pends (s : State) (d : Nat) : (btnSrc (bittern (offerLead s d) 0) 0 0x183).pend = true := by
  rw [offerLead, bittern, postMgmt_btn]
  exact fire_pends _ 0 0x183

theorem offerLead_mem (s : State) (d : Nat) : (offerLead s d).mem = s.mem := by simp [offerLead, modLead, modPower]

/-- Settles O58, by who holds the token and at which generation. -/
theorem leadTokenCommandsComplete : Obligations.LeadTokenCommandsComplete := by
  refine ⟨fun d g s => ?_, fun s => ?_, fun s d => ⟨offerLead_lead s d, offerLead_pends s d, offerLead_mem s d⟩⟩
  · rw [exec_pwrLeadAck, exec_pwrLeadRelease, exec_standbyRequest]
    refine ⟨fun h => ?_, fun h ho hd hg => ?_, fun h ho => ?_, fun hh hd hg => ?_, fun h => ?_, fun hready => ?_,
      fun hready he hh hf hd hg => ?_⟩
    · rw [leadAck_of_equal h]
    · rw [leadAck_of_unequal h, if_pos ⟨ho, hd, congrArg BitVec.toNat hg⟩]
      rfl
    · rw [leadAck_of_unequal h, if_neg fun hn => absurd (ho.symm.trans hn.1) (by decide)]
    · rw [leadRelease_of_holder hh hd (congrArg BitVec.toNat hg)]
    · rw [leadRelease_of_other (h.imp_right (Or.imp_right fun hg he => hg (BitVec.eq_of_toNat_eq he)))]
    · rw [standbyRequest, if_pos (by rw [hready]; rfl)]
    · rw [standbyRequest_of_holder hready (sharedAction_of_holder he hh hf hd (congrArg BitVec.toNat hg))]
      refine ⟨fun hb hr hdr hdep => ?_, fun h => ?_⟩
      · rw [if_neg (by rw [any_bound_eq_false hb, hr, hdr, hdep]; decide)]
      · rw [if_pos]
        rcases h with ⟨p, hp, hb⟩ | h | h | h
        · rw [List.any_eq_true.mpr ⟨p, List.mem_range.mpr hp, hb⟩]; rfl
        · simp [h]
        · simp [h]
        · simp [h]
  · rw [exec_leadOfferTimeout, exec_leadKeepaliveTimeout]
    exact ⟨fun h => by rw [if_pos h], fun h => by rw [if_neg (by rw [h]; decide)], fun h => by rw [if_pos h],
      fun h => by rw [if_neg (by rw [h]; decide)]⟩

end Sys2Proof.Machine
end


section
/-! PROOFS. The clock and power events (R584 to R594). -/
namespace Sys2Proof.Machine

/-! ### Events at a glance -/

theorem exec_estimatorSample (w : BitVec 16) (c : BitVec 8) (v : Bool) (s : State) :
    exec (.estimatorSample w c v) s = .next (estSample s w.toNat c.toNat v) := rfl
theorem exec_currentLimitEngage (s : State) : exec .currentLimitEngage s = .next (limitEngage s) := rfl
theorem exec_limiterHoldExpiry (s : State) : exec .limiterHoldExpiry s = .next (modPower s (fun p => { p with limiting := false })) := rfl
theorem exec_clockSwitchRestart (b : Bool) (s : State) : exec (.clockSwitchRestart b) s = .next (switchRestart s b) := rfl
theorem exec_coreRetainEntry (k : Fin 18) (s : State) : exec (.coreRetainEntry k) s = .next (retainEntry s k.val) := rfl
theorem exec_deviceIdleEntry (s : State) : exec .deviceIdleEntry s = .next (idleEntry s) := rfl
theorem exec_staggerStart (s : State) : exec .staggerStart s = .next (staggerStart s) := rfl
theorem exec_hbmSelfRefreshExit (s : State) : exec .hbmSelfRefreshExit s =
    .next (if s.power.refresh then goActive (modPower s (fun p => { p with refresh := false })) else s) := rfl
theorem exec_coreRunReady (k : Fin 18) (s : State) : exec (.coreRunReady k) s = .next (runReady s k.val) := rfl

/-! ### What the shared operations leave -/

/-- Two states have the same memory and cores. -/
def SameStore (s t : State) : Prop := t.mem = s.mem ∧ t.cores = s.cores

theorem SameStore.trans {s t u : State} (h : SameStore s t) (g : SameStore t u) : SameStore s u :=
  ⟨g.1.trans h.1, g.2.trans h.2⟩

theorem sameStore_modPower (s : State) (f : Power → Power) : SameStore s (modPower s f) := ⟨rfl, rfl⟩

theorem sameStore_requestDiv (s : State) (d : Nat) : SameStore s (requestDiv s d) := by
  unfold requestDiv
  split
  · exact ⟨rfl, rfl⟩
  · exact sameStore_modPower s _

theorem sameStore_countPower (s : State) (get : Power → Counter) (set : Power → Counter → Power) : SameStore s (countPower s get set) :=
  ⟨by simp [countPower, modPower], by simp [countPower, modPower]⟩

theorem sameStore_postLimit (s : State) (r : Nat) : SameStore s (postLimit s r) := ⟨by simp [postLimit], by simp [postLimit]⟩

theorem sameStore_fireHub (s : State) (n : Nat) : SameStore s (fireHub s n) := ⟨by simp, by simp⟩

theorem sameStore_setTherm (s : State) (v : Bool) : SameStore s (setTherm s v) := by
  unfold setTherm
  split
  · exact ⟨rfl, rfl⟩
  · exact ⟨rfl, rfl⟩

theorem setTherm_power (s : State) (v : Bool) : (setTherm s v).power = s.power := by
  unfold setTherm
  split <;> rfl

theorem setTherm_therm (s : State) (v : Bool) : (setTherm s v).pins.therm = v := by
  unfold setTherm
  split
  · assumption
  · rfl

theorem countPower_power (s : State) (get : Power → Counter) (set : Power → Counter → Power) :
    (countPower s get set).power = set s.power (cntAdd (get s.power) 1) := by simp [countPower, modPower]

theorem postLimit_power (s : State) (r : Nat) : (postLimit s r).power = s.power := by simp [postLimit]

/-! ### The estimator and the limiter -/

theorem divTarget_requestDiv (s : State) (d : Nat) : divTarget (requestDiv s d).power = d := by
  unfold requestDiv
  split
  · assumption
  · unfold modPower
    dsimp only
    split <;> rfl

/-- A request for a divisor changes only the requests. -/
theorem requestDiv_rest (s : State) (d : Nat) : (requestDiv s d).power.since = s.power.since ∧ (requestDiv s d).power.estW = s.power.estW ∧
    (requestDiv s d).power.limiting = s.power.limiting := by
  unfold requestDiv
  split
  · exact ⟨rfl, rfl, rfl⟩
  · unfold modPower
    dsimp only
    split <;> exact ⟨rfl, rfl, rfl⟩

/-- The counted step of the estimator, before the event that it may raise. -/
def countedStep (s : State) (d : Nat) : State :=
  countPower (requestDiv (modPower s (fun p => { p with since := 0 })) d) (·.stepCnt) (fun p c => { p with stepCnt := c })

theorem estStep_eq (s : State) (d : Nat) :
    estStep s d = if divTarget s.power = 4 then postLimit (fireHub (countedStep s d) 0x180) 1 else countedStep s d := by
  unfold estStep
  simp only [decide_eq_true_eq]
  rfl

theorem estStep_power (s : State) (d : Nat) : (estStep s d).power = (countedStep s d).power := by
  rw [estStep_eq]
  split
  · rw [postLimit_power, fireHub_power]
  · rfl

theorem sameStore_countedStep (s : State) (d : Nat) : SameStore s (countedStep s d) :=
  ((sameStore_modPower s _).trans (sameStore_requestDiv _ d)).trans (sameStore_countPower _ _ _)

theorem sameStore_estStep (s : State) (d : Nat) : SameStore s (estStep s d) := by
  rw [estStep_eq]
  split
  · exact ((sameStore_countedStep s d).trans (sameStore_fireHub _ _)).trans (sameStore_postLimit _ _)
  · exact sameStore_countedStep s d

theorem estStep_effect (s : State) (d : Nat) :
    divTarget (estStep s d).power = d ∧ (estStep s d).power.since = 0 ∧ (estStep s d).power.estW = s.power.estW := by
  obtain ⟨hsince, hest, _⟩ := requestDiv_rest (modPower s (fun p => { p with since := 0 })) d
  rw [estStep_power, countedStep, countPower_power]
  exact ⟨divTarget_requestDiv _ d, hsince, hest⟩

/-- Whether the estimator runs at all: from step 6 on, and not while the device is OFF or in STANDBY. -/
def EstimatorRuns (s : State) : Prop := 6 ≤ s.power.bootStep.toNat ∧ s.power.device ≠ .off ∧ s.power.device ≠ .standby

/-- What a valid sample notes before it acts. -/
def sampled (s : State) (watts celsius : Nat) : State :=
  setTherm (modPower s (fun p => { p with
    valid := min 1000 (p.valid + 1)
    calm := if decide (100 * watts < 95 * p.limitW.toNat) && decide (celsius + 5 < p.tLimit.toNat) then min 100 (p.calm + 1) else 0
    since := p.since + 1
    cold := p.cold && decide (min 1000 (p.valid + 1) < 1000)
    estW := BitVec.ofNat 16 watts })) (decide (celsius + 5 < s.power.tLimit.toNat))

section
variable {s : State} {w c : Nat}

theorem estSample_of_stopped {v : Bool} (h : s.power.bootStep.toNat < 6 ∨ s.power.device = .off ∨ s.power.device = .standby) :
    estSample s w c v = s := if_pos h

section
variable (h : EstimatorRuns s)
include h

theorem estimatorRuns_not : ¬ (s.power.bootStep.toNat < 6 ∨ s.power.device = .off ∨ s.power.device = .standby) :=
  fun hn => hn.elim (Nat.not_lt.mpr h.1) fun hn => hn.elim h.2.1 h.2.2

theorem estSample_of_invalid :
    estSample s w c false = { s with power := { s.power with valid := 0, calm := 0, since := s.power.since + 1 } } :=
  if_neg (estimatorRuns_not h)

theorem estSample_of_early (he : s.power.limiting = true ∨ s.power.since + 1 < 10) : estSample s w c true = sampled s w c := by
  unfold estSample
  dsimp only
  rw [if_neg (estimatorRuns_not h), if_neg (by decide), if_pos (by simpa using he)]
  rfl

theorem estSample_of_hot (hl : s.power.limiting = false) (hs : 10 ≤ s.power.since + 1)
    (hot : s.power.limitW.toNat < w ∨ s.power.tLimit.toNat ≤ c) (h8 : divTarget s.power ≠ 8) :
    estSample s w c true = estStep (sampled s w c) (slower (divTarget s.power)) := by
  unfold estSample
  dsimp only
  rw [if_neg (estimatorRuns_not h), if_neg (by decide), if_neg (by rw [hl]; simpa using hs), if_pos (by simpa using hot), if_neg h8]
  rfl

end

theorem sameStore_sampled (s : State) (w c : Nat) : SameStore s (sampled s w c) :=
  (sameStore_modPower s _).trans (sameStore_setTherm _ _)

theorem limitEngage_of_good (h : s.power.good = true) : limitEngage s =
    postLimit (fireHub (countPower (requestDiv (modPower s (fun p => { p with limiting := true })) 8) (·.limitCnt)
      (fun p c => { p with limitCnt := c })) 0x181) 2 := if_neg (by rw [h]; decide)

theorem limitEngage_of_off (h : s.power.good = false) : limitEngage s = s := if_pos (by rw [h]; rfl)

theorem limitEngage_effect (h : s.power.good = true) : divTarget (limitEngage s).power = 8 ∧ (limitEngage s).power.limiting = true ∧
    (btnSrc (bittern (limitEngage s) 0) 0 0x181).pend = true ∧ SameStore s (limitEngage s) := by
  obtain ⟨_, _, hlim⟩ := requestDiv_rest (modPower s (fun p => { p with limiting := true })) 8
  rw [limitEngage_of_good h]
  refine ⟨?_, ?_, ?_, ?_⟩
  · rw [postLimit_power, fireHub_power, countPower_power]
    exact divTarget_requestDiv _ 8
  · rw [postLimit_power, fireHub_power, countPower_power]
    exact hlim
  · rw [postLimit, bittern, postMgmt_btn]
    exact fire_pends _ 0 0x181
  · exact ((((sameStore_modPower s _).trans (sameStore_requestDiv _ 8)).trans (sameStore_countPower _ _ _)).trans
      (sameStore_fireHub _ _)).trans (sameStore_postLimit _ _)

/-! ### Clock switches -/

theorem switchRestart_main {d : Nat} (h : s.power.next = some d) : switchRestart s false =
    countPower (modPower s (fun p => { p with div := d, next := p.later, later := none })) (·.switchCnt)
      (fun p c => { p with switchCnt := c }) := by
  rw [switchRestart, if_neg (by decide), h]

theorem switchRestart_main_none (h : s.power.next = none) : switchRestart s false = s := by
  rw [switchRestart, if_neg (by decide), h]

theorem switchRestart_control {d : BitVec 2} (h : s.power.ctlNext = some d) : switchRestart s true =
    countPower (modPower s (fun p => { p with ctlSel := d, ctlNext := p.ctlLater, ctlLater := none })) (·.switchCnt)
      (fun p c => { p with switchCnt := c }) := by
  rw [switchRestart, if_pos rfl, h]

theorem switchRestart_control_none (h : s.power.ctlNext = none) : switchRestart s true = s := by
  rw [switchRestart, if_pos rfl, h]

/-! ### Rest and waking -/

theorem retainEntry_of_bound {k l : Nat} (hrun : (coreP s k).power = .run) (hl : logicalOf s k = some l)
    (hp : (partOfCore s l).isSome = true) (hr : s.power.retainAfter ≠ 0) : retainEntry s k =
    if (List.range 4).all (awlRests s l) = true ∧ (List.range 3).all (fun i => streamRests (streamOf (coreP s k) i)) = true
    then modCoreP s k (fun x => { x with power := .retain }) else s := by
  unfold retainEntry
  simp only [hl, hrun, hp, hr, Bool.true_and, true_and, ne_eq, not_false_eq_true]

theorem idleEntry_of_rest (hd : s.power.device = .active) (hc : coresRest s = true) (hr : s.power.retainAfter ≠ 0) (hready : s.ready = true) :
    idleEntry s = postDevice { s with power := { s.power with device := .idle, refresh := true } } .idle := if_pos ⟨hd, hc, hr, hready⟩

theorem idleEntry_of_busy (h : s.power.device ≠ .active ∨ coresRest s = false ∨ s.power.retainAfter = 0 ∨ s.ready = false) : idleEntry s = s := by
  rw [idleEntry, if_neg]
  rintro ⟨hd, hc, hr, hready⟩
  exact h.elim (· hd) fun h => h.elim (fun h => absurd (hc.symm.trans h) (by decide)) fun h => h.elim hr
    fun h => absurd (hready.symm.trans h) (by decide)

theorem staggerStart_cons {k : Nat} {rest : List Nat} (h : s.power.stagger = k :: rest) :
    staggerStart s = goActive { s with power := { s.power with stagger := rest } } := by
  rw [staggerStart, h]
  rfl

theorem staggerStart_nil (h : s.power.stagger = []) : staggerStart s = s := by rw [staggerStart, h]

theorem runReady_of_waking {k : Nat} {u : State} (hu : u = modCoreP s k (fun c => { c with power := .run }))
    (hw : (coreP s k).power = .waking) (hk : k ∉ s.power.stagger) :
    (logicalOf u k = none → runReady s k = tryMove u (dieOfPhys k)) ∧
    (∀ c, logicalOf u k = some c → runReady s k = tryMove (kickStream (kickStream (kickStream u c 0) c 1) c 2) (dieOfPhys k)) := by
  have hgo : ¬ ((coreP s k).power ≠ .waking ∨ k ∈ s.power.stagger) := fun h => h.elim (· hw) hk
  subst hu
  refine ⟨fun h => ?_, fun c h => ?_⟩
  · rw [runReady, if_neg hgo]
    dsimp only
    rw [h]
  · rw [runReady, if_neg hgo]
    dsimp only
    rw [h]
    rfl

end

theorem all_range_eq_false {n : Nat} {f : Nat → Bool} (h : ∃ i, i < n ∧ f i = false) : (List.range n).all f = false := by
  obtain ⟨i, hi, hf⟩ := h
  exact List.all_eq_false.mpr ⟨i, List.mem_range.mpr hi, by rw [hf]; decide⟩

theorem all_range_eq_true {n : Nat} {f : Nat → Bool} (h : ∀ i, i < n → f i = true) : (List.range n).all f = true :=
  List.all_eq_true.mpr fun i hi => h i (List.mem_range.mp hi)

/-- Settles O59, one event after the other by the condition under which it acts. -/
theorem clockAndPowerEventsComplete : Obligations.ClockAndPowerEventsComplete := by
  refine ⟨fun w c s h6 hoff hstand => ?_, fun w c v s h => by rw [exec_estimatorSample, estSample_of_stopped h], fun s => ?_, fun s => ?_,
    fun k s l hrun hl hp hr => ?_, fun s => ?_, fun k s u hu hw hk => ?_⟩
  · have h : EstimatorRuns s := ⟨h6, hoff, hstand⟩
    obtain ⟨hmem, hcores⟩ := sameStore_sampled s w.toNat c.toNat
    have hest : (sampled s w.toNat c.toNat).power.estW = w := by simp [sampled, setTherm_power, modPower]
    simp only [exec_estimatorSample]
    refine ⟨by rw [estSample_of_invalid h], fun he => ⟨_, rfl, ?_⟩, fun hlim hs hot h8 => ⟨_, rfl, ?_⟩⟩
    · rw [estSample_of_early h he]
      refine ⟨hest, ?_, ?_, ?_, setTherm_therm _ _, hmem, hcores⟩ <;> simp [sampled, setTherm_power, modPower, divTarget]
    · rw [estSample_of_hot h hlim hs hot h8]
      obtain ⟨hdiv, hsince, hsame⟩ := estStep_effect (sampled s w.toNat c.toNat) (slower (divTarget s.power))
      obtain ⟨hmem', hcores'⟩ := (sameStore_sampled s w.toNat c.toNat).trans (sameStore_estStep _ (slower (divTarget s.power)))
      exact ⟨hdiv, hsince, hsame.trans hest, hmem', hcores'⟩
  · simp only [exec_currentLimitEngage]
    refine ⟨fun hg => ?_, fun hg => by rw [limitEngage_of_off hg], exec_limiterHoldExpiry s⟩
    obtain ⟨hdiv, hlim, hpend, hmem, hcores⟩ := limitEngage_effect hg
    exact ⟨_, rfl, hdiv, hlim, hpend, hmem, hcores⟩
  · simp only [exec_clockSwitchRestart]
    refine ⟨fun d hd => ⟨_, rfl, ?_⟩, fun h => by rw [switchRestart_main_none h], fun d hd => ⟨_, rfl, ?_⟩,
      fun h => by rw [switchRestart_control_none h]⟩
    · rw [switchRestart_main hd, countPower_power]
      exact ⟨rfl, rfl, rfl, rfl, rfl, (sameStore_countPower _ _ _).1⟩
    · rw [switchRestart_control hd, countPower_power]
      exact ⟨rfl, rfl, rfl, rfl, (sameStore_countPower _ _ _).1⟩
  · rw [exec_coreRetainEntry, retainEntry_of_bound hrun hl hp hr]
    refine ⟨fun hs ha => by rw [if_pos ⟨all_range_eq_true ha, all_range_eq_true hs⟩], fun h => ?_⟩
    rw [if_neg]
    rintro ⟨ha, hs⟩
    rcases h with h | h
    · exact absurd (hs.symm.trans (all_range_eq_false h)) (by decide)
    · exact absurd (ha.symm.trans (all_range_eq_false h)) (by decide)
  · rw [exec_deviceIdleEntry, exec_staggerStart, exec_hbmSelfRefreshExit]
    exact ⟨fun hd hc hr hready => by rw [idleEntry_of_rest hd hc hr hready], fun h => by rw [idleEntry_of_busy h],
      fun k rest h => by rw [staggerStart_cons h], fun h => by rw [staggerStart_nil h], fun h => by rw [if_pos h]; rfl,
      fun h => by rw [if_neg (by rw [h]; decide)]⟩
  · obtain ⟨hnone, hsome⟩ := runReady_of_waking hu hw hk
    rw [exec_coreRunReady]
    exact ⟨fun h => by rw [hnone h], fun c h => by rw [hsome c h]⟩

end Sys2Proof.Machine
end


section
/-! PROOFS. The registers of a control page (R480 to R484, R498, R507). -/
namespace Sys2Proof.Machine

theorem exec_ivtSqDb (q : Fin 17) (r : Fin 16) (t : BitVec 16) (s : State) :
    exec (.ivtSqDb q r t) s = .next (ivtSqDbOp s q.val r.val t.toNat) := rfl
theorem exec_ivtCqDb (q : Fin 17) (r : Fin 16) (t : BitVec 16) (s : State) :
    exec (.ivtCqDb q r t) s = .next (ivtCqDbOp s q.val r.val t.toNat) := rfl
theorem exec_ivtRingEnable (q : Fin 17) (r : Fin 16) (v : BitVec 32) (s : State) :
    exec (.ivtRingEnable q r v) s = .next (ringCfgOp s q.val r.val v.toNat) := rfl
theorem exec_ivtEvEnable (q : Fin 17) (v : BitVec 32) (s : State) : exec (.ivtEvEnable q v) s = .next (evCfgOp s q.val v.toNat) := rfl
theorem exec_ivtEvHead (q : Fin 17) (h : BitVec 16) (s : State) : exec (.ivtEvHead q h) s = .next (evHeadOp s q.val h.toNat) := rfl
theorem exec_ivtCwinDb (q : Fin 17) (i : BitVec 4) (s : State) : exec (.ivtCwinDb q i) s = .next (cwinDbOp s q.val i.toNat) := rfl
theorem exec_ivtRwAck (q : Fin 17) (n : BitVec 16) (g : BitVec 32) (s : State) :
    exec (.ivtRwAck q n g) s = .next (rwAckOp s q.val n.toNat g.toNat) := rfl

section
variable {s : State} {q : Nat}

/-! ### Rings -/

section
variable {r : Nat} {x : Ring} (hx : x = ring s q r)
include hx

theorem ivtSqDbOp_of_live (he : x.enable = true) (hup : s.ivtu.up = true) (t : Nat) : ivtSqDbOp s q r t =
    fetchAll (modRing s q r (fun y => { y with sqTail := BitVec.ofNat 16 (t % 2 ^ x.log2.toNat) })) q r := by
  subst hx
  exact if_pos (by rw [he, hup]; rfl)

theorem ivtSqDbOp_of_idle (h : x.enable = false ∨ s.ivtu.up = false) (t : Nat) : ivtSqDbOp s q r t = s := by
  subst hx
  refine if_neg ?_
  rcases h with h | h <;> simp [h]

theorem ivtCqDbOp_eq {t n : Nat} {u : State} (hn : n = consumed (2 ^ x.log2.toNat) x.cqHead.toNat t x.unread)
    (hu : u = modRing s q r (fun y => { y with
      cqHead := BitVec.ofNat 16 (t % 2 ^ x.log2.toNat), unread := y.unread - n, notifyOut := false, notifyWait := false })) :
    ivtCqDbOp s q r t = fetchAll (if x.notifyWait then notifyRing u q r else u) q r := by
  subst hx hn hu
  rfl

section
variable {v : Nat} {y : Ring}
  (hy : y = { x with
    enable := bitOf v 31
    err := x.err && !bitOf v 30
    snoop := bitOf v 29
    lineS := false
    log2 := if x.enable || decide (fld v 16 5 < 4) || decide (16 < fld v 16 5) then x.log2 else BitVec.ofNat 5 (fld v 16 5)
    weight := if fld v 0 8 = 0 then x.weight else BitVec.ofNat 8 (fld v 0 8) })
include hy

theorem ringCfgOp_of_disable (h : bitOf v 31 = false) : ringCfgOp s q r v = modRing s q r (fun _ => y) := by
  subst hx hy
  unfold ringCfgOp
  dsimp only
  rw [if_neg (by rw [h]; decide), if_neg (by rw [h]; decide)]

theorem ringCfgOp_of_enable (h : bitOf v 31 = true) : ringCfgOp s q r v = fetchAll (modRing s q r (fun _ => { y with
    halted := false, sqHead := 0, sqTail := 0, cqTail := 0, cqHead := 0, sqPass := true, cqPass := true, unread := 0 })) q r := by
  subst hx hy
  unfold ringCfgOp
  dsimp only
  rw [if_pos h, if_pos h]

end

end

/-! ### Event rings -/

section
variable {e : EvRing} (he : e = (page s q).ev)
include he

theorem evCfgOp_eq {v : Nat} {f : EvRing}
    (hf : f = { e with
      enable := bitOf v 31
      notify := bitOf v 30
      log2 := if e.enable || decide (fld v 16 5 < 4) || decide (16 < fld v 16 5) then e.log2 else BitVec.ofNat 5 (fld v 16 5) }) :
    evCfgOp s q v = modPage s q (fun p => { p with
      ev := if bitOf v 31 then { f with tail := 0, head := 0, lost := 0, unread := 0 } else f }) := by
  subst he hf
  rfl

theorem evHeadOp_eq {n : Nat} {u : State}
    (hu : u = modPage s q (fun p => { p with
      ev := { e with
        head := BitVec.ofNat 16 (n % 2 ^ e.log2.toNat)
        unread := e.unread - consumed (2 ^ e.log2.toNat) e.head.toNat n e.unread
        notifyOut := e.notifyWait
        notifyWait := false } })) :
    evHeadOp s q n = if e.notifyWait then notify u (q * 256 + 0xFF) else u := by
  subst he hu
  rfl

end

/-! ### Command-window slots -/

section
variable {i : Nat} {x : Slot} {u : State} (hx : x = slot s q i)
  (hu : u = modSlot s q i (fun y => { y with busy := true, notifyOut := false, notifyWait := false }))
include hx

theorem cwinDbOp_of_busy (h : x.busy = true) : cwinDbOp s q i = fireHub s 0x101 := by
  subst hx
  exact if_pos h

include hu

theorem cwinDbOp_of_free (h : x.busy = false) (hm : x.heldM = []) :
    cwinDbOp s q i = runSlot (if x.notifyWait then notifySlot u q i else u) q i (tgets 0 256 0 x.bytes) := by
  subst hx hu
  unfold cwinDbOp
  dsimp only
  rw [if_neg (by rw [h]; decide), if_pos (by rw [hm]; rfl)]

theorem cwinDbOp_of_held (h : x.busy = false) (hm : x.heldM ≠ []) (hn : x.notifyWait = false) : cwinDbOp s q i =
    x.heldM.foldl (fun s l => send s (.snpInv (slotOffset q i + 64 * l.1)))
      (modSlot u q i (fun y => { y with snooped := true, taken := tgets 0 256 0 x.bytes })) := by
  subst hx hu
  unfold cwinDbOp
  dsimp only
  rw [if_neg (by rw [h]; decide), if_neg (by simpa using hm), if_neg (by rw [hn]; decide)]

end

/-! ### Result windows -/

section
variable {k : Pool} {w : Window} {n g : Nat} (hk : (page s q).pool = some k) (hw : w = poolWindow k n)
include hk hw

theorem rwAckOp_of_ready (hn : n < k.count) (hs : w.state = .ready) (hu : w.inUse = true) (hg : w.gen.toNat = g) : rwAckOp s q n g =
    putWindow (modPage s q (fun p => { p with pool := some { k with freed := k.freed ++ [n] } })) q n
      { w with state := .stale, status := BitVec.ofNat 16 (statusCode .staleGeneration), inUse := false } true := by
  subst hw
  rw [rwAckOp, hk]
  exact if_pos (by simp [hn, hs, hu, hg])

theorem rwAckOp_of_other (h : k.count ≤ n ∨ w.state ≠ .ready ∨ w.inUse = false ∨ w.gen.toNat ≠ g) : rwAckOp s q n g = s := by
  subst hw
  rw [rwAckOp, hk]
  refine if_neg ?_
  rcases h with h | h | h | h
  · simp [Nat.not_lt.mpr h]
  · simp [h]
  · simp [h]
  · simp [h]

end

end

/-- Settles O56, one register after the other. -/
theorem controlPageRegistersComplete : Obligations.ControlPageRegistersComplete := by
  refine ⟨fun q r t s x hx => ?_, fun q r v s x y hx hy => ?_, fun q v s e f he hf => ?_, fun q hd s u e he hu => ?_,
    fun q i s u x hx hu => ?_, fun q n g s k w hk hw => ?_⟩
  · rw [exec_ivtSqDb, exec_ivtCqDb]
    exact ⟨fun he hup => by rw [ivtSqDbOp_of_live hx he hup], fun h => by rw [ivtSqDbOp_of_idle hx h],
      fun n u hn hu => by rw [ivtCqDbOp_eq hx hn hu]⟩
  · rw [exec_ivtRingEnable]
    exact ⟨fun h => by rw [ringCfgOp_of_disable hx hy h], fun h => by rw [ringCfgOp_of_enable hx hy h]⟩
  · rw [exec_ivtEvEnable, evCfgOp_eq he hf]
  · rw [exec_ivtEvHead, evHeadOp_eq he hu]
  · rw [exec_ivtCwinDb]
    exact ⟨fun h => by rw [cwinDbOp_of_busy hx h], fun h hm => by rw [cwinDbOp_of_free hx hu h hm],
      fun h hm hn => by rw [cwinDbOp_of_held hx hu h hm hn]⟩
  · rw [exec_ivtRwAck]
    exact ⟨fun hn hs hu hg => by rw [rwAckOp_of_ready hk hw hn hs hu hg], fun h => by rw [rwAckOp_of_other hk hw h]⟩

end Sys2Proof.Machine
end


section
/-! PROOFS. Start-up, loss of power and the pins (R471 to R473, R527, R595 to R602, R611, R652, R653). -/
namespace Sys2Proof.Machine

/-! ### Events at a glance -/

theorem exec_powerGoodRise (s : State) : exec .powerGoodRise s = .next (powerGood s) := rfl
theorem exec_startupTimeout (s : State) : exec .startupTimeout s = .next (startupTimeout s) := rfl
theorem exec_powerFail (s : State) : exec .powerFail s = .next (powerLost s) := rfl
theorem exec_thermalTrip (s : State) : exec .thermalTrip s = .next (powerLost s) := rfl
theorem exec_pllLockLoss (s : State) : exec .pllLockLoss s = .next (pllLost s) := rfl
theorem exec_standbyWake (s : State) : exec .standbyWake s = .next (standbyWake s) := rfl
theorem exec_ivtuLinkUp (x g : Bool) (s : State) : exec (.ivtuLinkUp x g) s = .next (ivtuUp s x g) := rfl
theorem exec_ivtuLinkDown (s : State) : exec .ivtuLinkDown s = .next (linkDownOp s) := rfl
theorem exec_pwrEnRise (s : State) : exec .pwrEnRise s = .next { s with pins := { s.pins with pwrEn := true } } := rfl
theorem exec_pwrEnFall (s : State) : exec .pwrEnFall s =
    .next (owe (owe { s with pins := { s.pins with pwrEn := false } } (.run .powerFail)) (.run .miPowerFail)) := rfl
theorem exec_presenceChange (a b : Bool) (s : State) :
    exec (.presenceChange a b) s = .next { s with pins := { s.pins with prsnt1 := a, prsnt2 := b } } := rfl
theorem exec_ivtRstN (b : Bool) (s : State) : exec (.ivtRstN b) s = .next (ivtRst s b) := rfl
theorem exec_removeReq (b : Bool) (s : State) : exec (.removeReq b) s = .next (removeReq s b) := rfl

/-! ### Driven pins -/

theorem setReady_eq (s : State) (v : Bool) : ∃ l, setReady s v = { s with pins := { s.pins with modReady := v }, sent := l } := by
  unfold setReady
  split
  · next h => subst h; exact ⟨s.sent, rfl⟩
  · exact ⟨_, rfl⟩

theorem setPg_eq (s : State) (v : Bool) : ∃ l, setPg s v = { s with pins := { s.pins with modPg := v }, sent := l } := by
  unfold setPg
  split
  · next h => subst h; exact ⟨s.sent, rfl⟩
  · exact ⟨_, rfl⟩

theorem setTherm_eq (s : State) (v : Bool) : ∃ l, setTherm s v = { s with pins := { s.pins with therm := v }, sent := l } := by
  unfold setTherm
  split
  · next h => subst h; exact ⟨s.sent, rfl⟩
  · exact ⟨_, rfl⟩

/-- The pins of a module without power, driven one after the other. -/
theorem pins_driven (s : State) : ∃ l, setTherm (setPg (setReady s false) false) true =
    { s with pins := { s.pins with modReady := false, modPg := false, therm := true }, sent := l } := by
  obtain ⟨a, ha⟩ := setReady_eq s false
  obtain ⟨b, hb⟩ := setPg_eq (setReady s false) false
  obtain ⟨c, hc⟩ := setTherm_eq (setPg (setReady s false) false) true
  exact ⟨c, by rw [hc, hb, ha]⟩

/-! ### Power good, power loss and the PLL -/

section
variable {s : State}

theorem powerGood_of_good (h : s.power.good = true) : powerGood s = s := if_pos h

theorem powerGood_of_rise {u : State} (h : s.power.good = false) (hu : u = setPg (powerOn s) true) :
    powerGood s = bootThree { u with power := { u.power with good := true } } u.sec.supNext := by
  subst hu
  exact if_neg (by rw [h]; decide)

theorem startupTimeout_of_late (hg : s.power.good = true) (hr : s.ready = false) (hd : s.power.device ≠ .standby) :
    startupTimeout s = bootThree (cleared s) (1 - s.sec.supSlot) := if_pos (by simp [hg, hr, hd])

theorem startupTimeout_of_other (h : s.power.good = false ∨ s.ready = true ∨ s.power.device = .standby) : startupTimeout s = s := by
  refine if_neg ?_
  rcases h with h | h | h <;> simp [h]

theorem powerLost_of_off (h : s.power.good = false) : powerLost s = s := if_pos (by rw [h]; rfl)

theorem pllLost_of_off (h : s.power.good = false) : pllLost s = s := if_pos (by rw [h]; rfl)

theorem pllLost_of_good {u : State} (h : s.power.good = true) (hd : s.power.device ≠ .standby)
    (hu : u = linkDownOp ((List.range 16).foldl unbindNow s)) : pllLost s = fireHub (bootThree (cleared u) u.sec.supNext) 0x185 := by
  rw [hu, pllLost, if_neg (by simp [h, hd])]
  rfl

/-- What a power failure leaves: the power-on state with the pins low and the hub's controller kept. -/
theorem powerLost_of_good (h : s.power.good = true) : ∃ l, powerLost s =
    { powerOn (fireHub s 0x182) with
      pins := { (powerOn (fireHub s 0x182)).pins with modReady := false, modPg := false, therm := true }
      sent := l
      btn := tput {} 0 (bittern (fireHub s 0x182) 0) []
      power := { (powerOn (fireHub s 0x182)).power with bootStep := 1 } } := by
  obtain ⟨l, hl⟩ := pins_driven (powerOn (fireHub s 0x182))
  refine ⟨l, ?_⟩
  unfold powerLost
  dsimp only
  rw [if_neg (by rw [h]; decide), hl]
  rfl

theorem standbyWake_of_other (h : s.power.device ≠ .standby) : standbyWake s = s := if_pos h

theorem standbyWake_of_standby {c : State} (h : s.power.device = .standby) (hc : c = cleared s) : standbyWake s =
    bootSix { c with
      btn := s.btn
      mgmtSeq := s.mgmtSeq
      mgmtSess := s.mgmtSess
      sec := { s.sec with akReady := false }
      power := { c.power with bootStep := 5, ctlNext := some 0 } } := by
  subst hc
  exact if_neg (not_not_intro h)

/-! ### The host link -/

/-- Steps 8 and 9 are done: host-visible ready, with the memory that was. -/
def HostReady (m : Tab Byte) (t : State) : Prop :=
  t.ready = true ∧ t.sec.akReady = true ∧ t.pins.modReady = true ∧ t.power.bootStep.toNat = 9 ∧ t.mem = m

theorem linkUpOp_leaves (s : State) (x g : Bool) : (linkUpOp s x g).ready = s.ready ∧ (linkUpOp s x g).power = s.power ∧
    (linkUpOp s x g).mem = s.mem := by
  unfold linkUpOp
  split
  · exact ⟨rfl, rfl, rfl⟩
  · exact ⟨by simp, by simp, by simp⟩

theorem hostReady_startDrain {m : Tab Byte} (h : HostReady m s) (n : Nat) : HostReady m (startDrain s n) := by
  unfold startDrain
  split
  · exact h
  · exact h

/-- Host-visible ready, before the fabric address and a removal that waited. -/
def readyShown (s : State) : State :=
  setReady (modPage (modPower (raiseFloors { s with ready := true, sec := { s.sec with akReady := true } }) (fun p => { p with bootStep := 9 })) 16
    (fun q => { q with pool := some { base := 0, count := 256 } })) true

theorem hostReady_readyShown (s : State) : HostReady s.mem (readyShown s) := by
  obtain ⟨l, hl⟩ := setReady_eq (modPage (modPower (raiseFloors { s with ready := true, sec := { s.sec with akReady := true } })
    (fun p => { p with bootStep := 9 })) 16 (fun q => { q with pool := some { base := 0, count := 256 } })) true
  rw [readyShown, hl]
  exact ⟨rfl, rfl, rfl, rfl, rfl⟩

/-- The device with its configured address, if it has one. -/
def addressed (s : State) (item : Option (List Byte)) : State := item.elim s fun b => joinAt s (BitVec.ofNat 16 (leNat b))

theorem becomeReady_eq (s : State) : becomeReady s =
    if (addressed (readyShown s) (cfgItem (readyShown s) idFabAddr)).pins.removing then startDrain
      { addressed (readyShown s) (cfgItem (readyShown s) idFabAddr) with
        pins := { (addressed (readyShown s) (cfgItem (readyShown s) idFabAddr)).pins with removing := false } } 30000
    else addressed (readyShown s) (cfgItem (readyShown s) idFabAddr) := by
  rw [becomeReady, ← readyShown]
  cases cfgItem (readyShown s) idFabAddr <;> rfl

theorem hostReady_addressed {m : Tab Byte} (h : HostReady m s) (item : Option (List Byte)) : HostReady m (addressed s item) := by
  cases item with
  | none => exact h
  | some b => exact h

theorem hostReady_becomeReady (s : State) : HostReady s.mem (becomeReady s) := by
  have h := hostReady_addressed (hostReady_readyShown s) (cfgItem (readyShown s) idFabAddr)
  rw [becomeReady_eq]
  split
  · exact hostReady_startDrain (s := { addressed (readyShown s) (cfgItem (readyShown s) idFabAddr) with
        pins := { (addressed (readyShown s) (cfgItem (readyShown s) idFabAddr)).pins with removing := false } }) h 30000
  · exact h

section
variable (hg : s.power.good = true) (hrst : s.pins.ivtRst = true) (h7 : 7 ≤ s.power.bootStep.toNat) (hd : s.power.device ≠ .standby)
include hg hrst h7 hd

theorem ivtuUp_of_started (x g : Bool) : ivtuUp s x g =
    if ((linkUpOp s x g).ready || decide ((linkUpOp s x g).power.bootStep.toNat ≠ 7)) = true then linkUpOp s x g
    else becomeReady (linkUpOp s x g) := if_neg (by simp [hg, hrst, h7, hd])

end

theorem ivtuUp_of_early (h : s.power.good = false ∨ s.pins.ivtRst = false ∨ s.power.bootStep.toNat < 7 ∨ s.power.device = .standby) (x g : Bool) :
    ivtuUp s x g = s := by
  refine if_pos ?_
  rcases h with h | h | h | h <;> simp [h]

theorem linkDownOp_of_up (h : s.ivtu.up = true) : linkDownOp s =
    fireHub (resetPages { s with ivtu := { s.ivtu with up := false, downs := s.ivtu.downs + 1, idLines := [], poolLines := [] } }) 0x100 :=
  if_pos h

theorem linkDownOp_of_down (h : s.ivtu.up = false) : linkDownOp s = s := if_neg (by rw [h]; decide)

/-! ### The sideband pins -/

theorem removeReq_of_released : removeReq s false = { s with pins := { s.pins with removeReq := true } } := rfl

theorem removeReq_of_low (h : s.pins.removeReq = false) : removeReq s true = { s with pins := { s.pins with removeReq := false } } := by
  unfold removeReq
  dsimp only
  rw [if_pos (by rw [h]; rfl)]
  rfl

theorem removeReq_of_fall (h : s.pins.removeReq = true) : removeReq s true =
    if s.ready then startDrain { s with pins := { s.pins with removeReq := false } } 30000
    else { s with pins := { s.pins with removeReq := false, removing := true } } := by
  unfold removeReq
  dsimp only
  rw [if_neg (by rw [h]; decide)]
  rfl

end

theorem exec_powerLost_effect {s : State} (h : s.power.good = true) : ∃ t, exec .powerFail s = .next t ∧ exec .thermalTrip s = .next t ∧
    t.power.good = false ∧ t.ready = false ∧ t.mem = [] ∧ t.cores = [] ∧ t.parts = [] ∧ t.pages = [] ∧ t.ctxs = [] ∧ t.eyelets = [] ∧
    t.hostMem = s.hostMem ∧ t.sec.sup = s.sec.sup ∧ t.sec.ctl = s.sec.ctl ∧ t.sec.cfgs = s.sec.cfgs ∧ t.mi.log = s.mi.log ∧
    t.pins.modReady = false ∧ t.pins.modPg = false ∧ (btnSrc (bittern t 0) 0 0x182).pend = true := by
  obtain ⟨l, hl⟩ := powerLost_of_good h
  have hpend : (btnSrc (tget {} 0 (tput {} 0 (bittern (fireHub s 0x182) 0) [])) 0 0x182).pend = true := by
    rw [tget_tput (by decide)]
    exact fire_pends s 0 0x182
  have hsup : (fireHub s 0x182).sec.sup = s.sec.sup := congrArg Sec.sup (fireHub_sec s _)
  have hctl : (fireHub s 0x182).sec.ctl = s.sec.ctl := congrArg Sec.ctl (fireHub_sec s _)
  have hcfgs : (fireHub s 0x182).sec.cfgs = s.sec.cfgs := congrArg Sec.cfgs (fireHub_sec s _)
  have hlog : (fireHub s 0x182).mi.log = s.mi.log := congrArg Mi.log (fireHub_mi s _)
  refine ⟨powerLost s, exec_powerFail s, exec_thermalTrip s, ?_⟩
  rw [hl]
  exact ⟨rfl, rfl, rfl, rfl, rfl, rfl, rfl, rfl, fireHub_hostMem s _, hsup, hctl, hcfgs, hlog, rfl, rfl, hpend⟩

/-- Settles O60, one event after the other by the state of power, the link and the pins. -/
theorem startupAndPinsComplete : Obligations.StartupAndPinsComplete := by
  refine ⟨fun s => ?_, fun x g s => ?_, fun a b s => ?_⟩
  · refine ⟨fun h => ?_, fun h u hu => ?_, fun hg hr hd => ?_, fun h => ?_, fun h => ?_, fun h => exec_powerLost_effect h,
      fun h hd u hu => ?_, fun h => ?_, fun h c hc => ?_⟩
    · rw [exec_powerGoodRise, powerGood_of_good h]
    · rw [exec_powerGoodRise, powerGood_of_rise h hu]
    · rw [exec_startupTimeout, startupTimeout_of_late hg hr hd]
    · rw [exec_startupTimeout, startupTimeout_of_other h]
    · rw [exec_powerFail, exec_thermalTrip, exec_pllLockLoss, powerLost_of_off h, pllLost_of_off h]
      exact ⟨rfl, rfl, rfl⟩
    · rw [exec_pllLockLoss, pllLost_of_good h hd hu]
    · rw [exec_standbyWake, standbyWake_of_other h]
    · rw [exec_standbyWake, standbyWake_of_standby h hc]
  · obtain ⟨hready, hpower, hmem⟩ := linkUpOp_leaves s x g
    rw [exec_ivtuLinkUp, exec_ivtuLinkDown]
    refine ⟨fun hg hrst h7 hd => ?_, fun h => by rw [ivtuUp_of_early h], fun h => by rw [linkDownOp_of_down h],
      fun h => by rw [linkDownOp_of_up h]⟩
    rw [ivtuUp_of_started hg hrst h7 hd, hready, hpower]
    refine ⟨fun hr => by rw [if_pos (by rw [hr]; rfl)], fun hr h7 => ⟨becomeReady (linkUpOp s x g), ?_, hmem ▸ hostReady_becomeReady _⟩⟩
    rw [if_neg (by simp [hr, h7])]
  · rw [exec_removeReq, exec_removeReq]
    refine ⟨exec_pwrEnRise s, ?_, exec_presenceChange a b s, exec_ivtRstN true s, exec_ivtRstN false s, ?_,
      fun h => by rw [removeReq_of_low h], fun h hr => by rw [removeReq_of_fall h, if_pos hr],
      fun h hr => by rw [removeReq_of_fall h, if_neg (by rw [hr]; decide)]⟩
    · rw [exec_pwrEnFall, owe, owe]
      simp only [List.append_assoc, List.cons_append, List.nil_append]
    · rw [removeReq_of_released]

end Sys2Proof.Machine
end
